-- ==== Sys2Proof/Word.lean ====
section
/-!
DEFINITION. The byte type, the arithmetic of little-endian bytes and bit fields, and the table type the model keeps
its numbered objects in. Byte order is R1's: least significant byte first.
-/
namespace Sys2Proof

/-- One byte, the unit of every Eosal cycle and of the window (R61). -/
abbrev Byte := BitVec 8

/-- A collection of numbered objects (lanes, slots, endpoints ...). A number that is not listed holds the object's
value after power-on, so the state after reset lists nothing. -/
abbrev Tab (α : Type) := List (Nat × α)

/-- The low byte of a number. -/
def lowByte (n : Nat) : Byte := BitVec.ofNat 8 n

/-- Byte `i` of a number written least significant byte first (R1). -/
def byteOf (n i : Nat) : Byte := BitVec.ofNat 8 (n / 256 ^ i)

/-- The `k` bytes of a number, least significant first (R1). -/
def leBytes (n : Nat) : Nat → List Byte
  | 0 => []
  | k + 1 => BitVec.ofNat 8 n :: leBytes (n / 256) k

/-- The number that bytes spell, least significant byte first (R1). -/
def leNat : List Byte → Nat
  | [] => 0
  | b :: bs => b.toNat + 256 * leNat bs

/-- The number that bytes spell, most significant byte first: the order R2 keeps for keys, digests and on-air fields. -/
def beNat (bs : List Byte) : Nat := leNat bs.reverse

/-- A signed number in `k` bytes of two's complement, as the unsigned number of the same bytes. -/
def twos (k : Nat) (i : Int) : Nat := (i % (256 ^ k : Nat)).toNat

/-- The signed number that an unsigned number of `k` bytes spells in two's complement. -/
def ofTwos (k n : Nat) : Int :=
  let m := n % 256 ^ k
  if 2 * m < 256 ^ k then (m : Int) else (m : Int) - (256 ^ k : Nat)

/-- Bits `[hi:lo]` of a number. -/
def bits (n hi lo : Nat) : Nat := n / 2 ^ lo % 2 ^ (hi + 1 - lo)

/-- Bit `k` of a number. -/
def bit (n k : Nat) : Bool := n / 2 ^ k % 2 == 1

/-- A flag as the number 1 or 0. -/
def flagNat (b : Bool) : Nat := if b then 1 else 0

/-- A count that stops at its maximum (R120: counters saturate). -/
def satAdd (limit n k : Nat) : Nat := min limit (n + k)

end Sys2Proof
end

