-- ==== Sys2Proof/Syntax.lean ====
section
/-!
DEFINITION. The commands of the Rhatre 7200: one constructor per row of spec/opcode_table.json, with the row's operands.
A row of the command ring names the fetched command by the number of commands issued before it since the rings' reset, whose low 16 bits
are its issue sequence SEQ (R79): its descriptor is the one fetched from the ring's memory.
A row of the Eosal Port carries the offset or the byte of the cycle. A row for an event carries what comes from outside the
part: a level, a measured value, a received group or packet, a count of the counter.
-/
namespace Sys2Proof

/-- What a boot measures: the first temperature sample (R453), the pace window of R103, whether the flash took the
BOOT_EPOCH record (R136), and whether the CPLL locked (R151). -/
structure BootMeas where
  temp : Int
  pace : Nat
  epochOk : Bool
  lock : Bool
  deriving DecidableEq, Repr

/-- The highest fill of each edge FIFO of Table 5-2 within a governor tick: samples, frames or words. -/
structure Fills where
  pathL : Nat
  pathV : Nat
  pathS : Nat
  linkTx : Nat
  sap0 : Nat
  sap1 : Nat
  pdm : Nat
  deriving DecidableEq, Repr

/-- How far a DRM or DAB engine's search came during a lane block (Tables 12-4, 12-6). -/
inductive Acq where
  /-- SEARCH found a mode (DRM), or NULL_SEARCH two null symbols (DAB, mode ignored). -/
  | signal (mode : Nat)
  /-- FREQ or PRS found the offset, 0.01 Hz. -/
  | offset (value : Int)
  /-- FRAME found the first symbol of a frame. -/
  | frame
  deriving DecidableEq, Repr

/-- What a lane block takes from outside: the samples that the path's ADC edge gave since the lane's last block, the count of the ADC
sample on which the block's first output sample is computed (R223), whether the engine takes the block before the lane needs its buffer again
(R115), and what the engine measured. -/
structure BlockMeas where
  samples : List (Int × Int)
  firstSc : Nat
  taken : Bool
  /-- 19 kHz pilot deviation in Hz, carrier loop locked, SNR in dB, audio quality in 1/16 dB (R247, R248). -/
  pilotHz : Nat
  carrier : Bool
  snrDb : Int
  quality : Int
  acq : Option Acq
  /-- Cells erased that belong to no received frame. -/
  erasedCells : Nat
  deriving DecidableEq, Repr

/-- A received RDS block: its 26 bits, the code word that lies an error burst from them (none where the decoder finds no such burst), and the
smallest soft-bit magnitude scaled to 0 to 15 (R250, R251). -/
structure RdsBlock where
  raw : Nat
  found : Option Nat
  reliability : Nat
  deriving DecidableEq, Repr

/-- A received RDS group: four blocks, the C′ offset word, the E blocks passed since the group before, and the counts at the first bit and at
the end of the last. -/
structure RdsGroup where
  blocks : List RdsBlock
  cPrime : Bool
  eBlocks : Nat
  startSc : Nat
  endSc : Nat
  deriving DecidableEq, Repr

/-- A second of the lane's envelope as an LF decoder takes it: the counts of the output samples and their magnitudes, in order, and the
edge uncertainty in 0.1 ms. -/
structure LfMeas where
  points : List (Nat × Nat)
  unc : Nat
  deriving DecidableEq, Repr

/-- A service as a FAC gives it (R281). -/
structure FacSvc where
  id : Nat
  shortId : Nat
  data : Bool
  ca : Bool
  language : Nat
  deriving DecidableEq, Repr

/-- A decoded FAC with its raw bits, left-aligned in 16 bytes (R281). `svc` is the service this frame's FAC describes. -/
structure Fac where
  identity : Nat
  so : Nat
  longInt : Bool
  mscMode : Nat
  sdcMode : Nat
  services : Nat
  reconf : Nat
  svcIndex : Nat
  svc : FacSvc
  raw : List Byte
  deriving DecidableEq, Repr

/-- A digital alternative frequency: kHz, other service, other ensemble (Table 12-10). -/
structure AfFreq where
  khz : Nat
  otherService : Bool
  otherEnsemble : Bool
  deriving DecidableEq, Repr

/-- What the standards decode from an SDC entity of Table 12-5. -/
inductive SdcUse where
  | none
  /-- Type 0: the streams with their lengths and protection, of the present or of the next configuration. -/
  | mux (next : Bool) (streams : List (Nat × Nat × Nat × Nat))
  /-- Type 1: the label's bytes. -/
  | label (bytes : List Byte)
  /-- Types 3 and 11: one complete reception of the list. -/
  | af (list : List AfFreq)
  /-- Type 5: stream or packet mode, packet length. -/
  | app (shortId stream : Nat) (packet : Bool) (packetLen : Nat)
  /-- Type 8: MJD, hour, minute, local offset in half-hours when present. -/
  | time (mjd hour minute : Nat) (offset : Option Int)
  /-- Type 9: whether the coding's super-frame can be split. -/
  | audio (shortId stream : Nat) (splittable : Bool)
  deriving DecidableEq, Repr

/-- An SDC data entity: type, the number its header spells, its bytes (header included), its use inside the Rhatre. -/
structure SdcEntity where
  typ : Nat
  header : Nat
  bytes : List Byte
  use : SdcUse
  deriving DecidableEq, Repr

/-- Something the MSC decoder completed in a frame: an access unit, a whole audio super-frame, a stream frame, or a packet.
`crc` is none where no check applies. -/
inductive MscPart where
  | unit (stream place : Nat) (crc : Option Bool) (erased : Bool) (bytes : List Byte)
  | whole (stream : Nat) (erased : Bool) (bytes : List Byte)
  | frame (stream : Nat) (erased : Bool) (bytes : List Byte)
  | packet (stream addr : Nat) (first last : Bool) (ci : Nat) (crcOk erased : Bool) (bytes : List Byte)
  deriving DecidableEq, Repr

/-- A DRM transmission frame as its symbols decoded: the STAMPs of the frame and of the super-frame holding it, FAC and SDC
outcomes, the MSC parts, the residual (0.01 Hz), MER, erased cells. -/
structure DrmFrame where
  stamp : Nat
  superStamp : Nat
  /-- More than half the FAC cells erased; every cell erased. -/
  facErased : Bool
  allErased : Bool
  fac : Option Fac
  /-- The SDC block of a super-frame's first frame: none absent; otherwise whether its CRC is good, and its entities. -/
  sdc : Option (Bool × List SdcEntity)
  msc : List MscPart
  residual : Int
  mer : Int
  erasedCells : Nat
  /-- The equaliser's tap of each sub-carrier at the frame's end, none for one that depends only on erased reference cells (R279). -/
  taps : List (Option (Int × Int))
  deriving DecidableEq, Repr

/-- What EN 300 401 decodes from a FIG of Table 12-7. -/
inductive FigUse where
  | none
  /-- FIG 0/0: `occ`, the low part (mod 250) of the CIF count at which a signalled change takes effect. -/
  | ensemble (eid cif change occ : Nat)
  /-- FIG 0/1: of the present or of the next organisation. -/
  | subch (next : Bool) (id startCu size prot : Nat)
  /-- FIG 0/2: the components as TMId and sub-channel, or, for packet mode (TMId 3), the component identifier SCId. -/
  | service (sid : Nat) (comps : List (Nat × Nat))
  /-- FIG 0/3: the packet component SCId, and whether it carries data groups. -/
  | packetComp (scid subch addr : Nat) (groups : Bool)
  | time (mjd hour minute second milli : Nat) (long lsi : Bool)
  | af (list : List AfFreq)
  /-- FIG 1/0 of the ensemble, FIG 1/1 of a service. -/
  | ensembleLabel (bytes : List Byte)
  | serviceLabel (sid : Nat) (bytes : List Byte)
  deriving DecidableEq, Repr

/-- A FIG from a FIB: its raw bytes and its use. -/
structure Fig where
  bytes : List Byte
  use : FigUse
  deriving DecidableEq, Repr

/-- What a sub-channel's decoder completed in a CIF. For a DAB+ super-frame, `fire` says whether its fire code holds after
correction, with the units and their CRCs; for a packet, whether the data field of a completed group is known. -/
inductive SubPart where
  | stream (subch : Nat) (erased : Bool) (bytes : List Byte)
  | superframe (subch : Nat) (fire : Bool) (corrected : Nat) (erased : Bool) (bytes : List Byte) (units : List (Bool × List Byte))
  | packet (subch addr : Nat) (first last : Bool) (ci : Nat) (crcOk erased : Bool) (bytes : List Byte)
      (groupCrc : Option Bool) (fieldOff fieldLen : Nat)
  deriving DecidableEq, Repr

/-- A DAB transmission frame as its symbols decoded: the STAMP of its first CIF and of the next frame's null symbol, its FIBs
(CRC and FIGs), the phase reference test, sub-channel parts each with its CIF's count and STAMP. -/
structure DabFrame where
  stamp : Nat
  nextNull : Nat
  fibs : List (Bool × List Fig)
  prsOk : Bool
  allErased : Bool
  parts : List (Nat × Nat × SubPart)
  residual : Int
  mer : Int
  erasedCells : Nat
  deriving DecidableEq, Repr

/-- What one calibration item measured (Table 9-1), or why it failed (Table 9-6). -/
structure CalMeas where
  converged : Bool
  reason : Nat
  /-- I and Q trim; gain and phase; FILT_TRIM; band edges; X32_ERR; TX_IQ gain and phase; PDET slope and offset. -/
  x : Int
  y : Int
  /-- IRR in 0.5 dB; TX_IQ leakage I and Q; the band chosen by SYNTH. -/
  z : Int
  w : Int
  deriving DecidableEq, Repr

/-- A self-test's outcome (R208, Table 9-6). -/
structure TestMeas where
  pass : Bool
  units : Nat
  unit : Nat
  index : Nat
  fault : Nat
  signature : Nat
  deriving DecidableEq, Repr

/-- A packet received whole on path S (R364 to R367, Table 16-10). -/
structure RxPacket where
  /-- The PHR: mode switch and reserved bits (MR-FSK), whether the header check holds (MR-OFDM), and the length (R365). -/
  modeSwitch : Bool
  reserved : Nat
  headerOk : Bool
  length : Nat
  fcsOk : Bool
  fcs4 : Bool
  whitened : Bool
  ofdm : Bool
  rateOrMcs : Nat
  option : Nat
  /-- RSSI in 0.25 dBm, SNR in 1/16 dB, AFC_EST in 10 Hz. -/
  rssi : Int
  snr : Int
  afc : Int
  /-- The start of the PHR at RFIO_S. -/
  stamp : Nat
  psdu : List Byte
  deriving DecidableEq, Repr

/-- The 139 commands of spec/opcode_table.json, in its order. -/
inductive Instr where
  -- commands of the ring, each naming the fetched command by its issue number
  | barrier (seq : Nat)
  | abort (seq : Nat)
  | tune (seq : Nat)
  | tuneCpll (seq : Nat)
  | laneBind (seq : Nat)
  | laneSet (seq : Nat)
  /-- `stamp`: the count of the sync sample. -/
  | laneSync (seq stamp : Nat)
  | engineAttach (seq : Nat)
  | tasteArm (seq : Nat)
  | tasteView (seq : Nat)
  | slotOpen (seq : Nat)
  | slotClose (seq : Nat)
  | dateSet (seq : Nat)
  | timeVoteCfg (seq : Nat)
  | calRun (seq : Nat)
  | selftest (seq : Nat)
  | linkRx (seq : Nat)
  /-- `margin`: the smallest margin, in 1/16 dB, that a mask check of its profile finds (R352). -/
  | linkTx (seq : Nat) (margin : Int)
  | pair (seq : Nat) (margin : Int)
  | sessionCfg (seq : Nat) (margin : Int)
  | releaseStart (seq : Nat)
  | releaseStop (seq : Nat) (margin : Int)
  | sapCfg (seq : Nat)
  /-- `edge`: the count of the first FS leading edge. -/
  | sapStart (seq edge : Nat)
  | sapStop (seq : Nat)
  | cellarPut (seq : Nat)
  | cellarGet (seq : Nat)
  | cellarEraseKey (seq : Nat)
  | shadowWrite (seq : Nat)
  | shadowRead (seq : Nat)
  | shadowStore (seq : Nat)
  | protectSet (seq : Nat)
  | unlock (seq : Nat)
  -- cycles of the Eosal Port
  | doorbell (value : Byte)
  | ccConsHWrite (value : Byte)
  | booksSnap (value : Byte)
  | scLatch (value : Byte)
  | cqConsLRead
  | cqConsHRead
  | ccProdLRead
  | ccProdHRead
  | tempLRead
  | tempHRead
  | winAddrHWrite (value : Byte)
  | winDataRead
  | winDataWrite (value : Byte)
  | slotConsWrite (value : Byte)
  | slotProdRead
  | statisticsRead
  | paceMinRead
  | fillHwRead
  | capConsWrite (value : Byte)
  | profileWrite (value : Byte)
  /-- `n`: IRQ_STATn or IRQ_ENn, 0 to 2. -/
  | irqStatWrite (n : Nat) (value : Byte)
  | irqEnWrite (n : Nat) (value : Byte)
  | pfCtrlWrite (value : Byte)
  | modeReq (value : Byte)
  | modeChangeComplete
  | softReset (value : Byte)
  | registerWrite (off : Nat) (value : Byte)
  -- power, presence and pins
  /-- `kept`: VHOLD stayed at or above its retention minimum while VIN was away. -/
  | powerGood (kept : Bool)
  | powerGoodFall
  | presNMake
  | boot (meas : BootMeas)
  | removal
  | powerFail
  | pfWarning
  | pfPendingClear
  | brownOut
  | decantExhausted
  | decantReturn (kept : Bool)
  | pinReset
  | vioLoss
  | vioReturn
  | holdOk
  | blankInRise
  | blankInEnd
  /-- The counts of the sync samples of paths L and V. -/
  | lanesync (stampL stampV : Nat)
  | winOpen (level : Bool)
  | x32Stop
  /-- `ppm`: how far the CPLL and the oscillator disagree. -/
  | refCheck (ppm : Nat)
  | paceWindow (units : Nat) (temp : Int)
  | governorTick (fills : Fills)
  | shedRaise (path fill : Nat)
  | shedLower (path fill : Nat)
  | pathDrops (path : Nat)
  /-- `band`: the measured band that holds the VCO frequency with the widest margin, none when no band does. -/
  | synRecal (path : Nat) (band : Option Nat)
  | lockWindow (path count : Nat)
  | timedLock (path : Nat)
  | lockLost (path : Nat)
  /-- `count`: unblanked ADC samples since the settle or the acquire began (R175). -/
  | offsetAcquire (path count : Nat)
  /-- The ADC samples (I, Q) of the period, before the offset loop (R175, R183). -/
  | agcPeriod (path : Nat) (samples : List (Int × Int))
  | laneBlock (lane : Nat) (meas : BlockMeas)
  | gap (lane : Nat)
  | rdsGroup (lane : Nat) (group : RdsGroup)
  | lfSecond (lane : Nat) (meas : LfMeas)
  | drmFrame (lane : Nat) (frame : DrmFrame)
  | dabFrame (lane : Nat) (frame : DabFrame)
  | voteLife (kind : Nat)
  | leapHold
  /-- `micros`: the length of the hold as the reference ring measures it. -/
  | counterHoldEnd (micros : Nat)
  | counterMinute
  | keeptimeListen
  | ktListenEnd
  | sdeVerify
  | tastingStart (entry : Nat)
  | idTimeout (lane : Nat)
  | dwellMax (lane : Nat)
  /-- `lane` is the tasting lane, `stamp` that of the first new block. -/
  | switchOver (lane stamp : Nat)
  | lbtBackoff
  | atStart
  /-- `at_`: the step of Table 8-8 that is reached, 2 to 6; the steps before it are passed. -/
  | transmissionEnd (at_ : Nat)
  | rxAfter
  | linkRxEnd
  | qualTimeout
  | sfdTimeout
  /-- none: a packet qualified (R364). -/
  | packet (pkt : Option RxPacket)
  | responseTimeout
  | sessionCheck (ep : Nat) (margin : Int)
  | sessionTimeout (ep : Nat)
  | releaseDue (target : Nat) (margin : Int)
  | releaseRetry (target : Nat)
  | releaseSkip (target : Nat)
  | captureBlock (port : Nat)
  | underrun (port : Nat)
  /-- `pin`: PDM0 to PDM3; `runs` of DEC words discarded. -/
  | pdmOverrun (pin runs : Nat)
  /-- `group`: 0 for A, 1 for B. -/
  | micSettle (group : Nat)
  | sapStopRampEnd (port : Nat)
  | scrub
  /-- `area`: 0 record area, 1 key area. -/
  | reclaim (area : Nat)
  | cpllLock (ok : Bool)
  | x32Start
  /-- `ok`: the read-back matches. -/
  | flashOperationEnd (ok : Bool)
  /-- `obj`: 0, 1, 2 paths L, V, S; 3 the CPLL; 4 the link. -/
  | calItemEnd (obj : Nat) (meas : CalMeas)
  | selftestEnd (seq : Nat) (meas : TestMeas)
  /-- `ck`: 4, 5 or 6; `steps`: how many phase steps have been applied since the row before. -/
  | phaseStepsApplied (ck steps : Nat)
  /-- `rssi`: the highest window of the listen, 0.25 dBm. -/
  | lbtListenEnd (rssi : Int)
  | counterSecond (temp : Int)
  | calRange
  deriving DecidableEq, Repr

end Sys2Proof
end

