-- ==== Sys2Proof/Decode.lean ====
section
/-!
DEFINITION. The word decoder of the command table. Its rows carry no bits (the commands of the ring are read from 32-byte
descriptors, the rest are cycles and events), so no word spells a command.
-/
namespace Sys2Proof

/-- No row of the table gives bits: no word spells a command. -/
def decodeTableWord (_nbits _w : Nat) : Option Instr := none

end Sys2Proof
end

