-- ==== Sys2Proof/Config.lean ====
section
/-!
DEFINITION. What the spec leaves open: constants without a body. Nothing can be proved
of their values, so a claim that mentions them holds whatever they are (notes/assumptions/2.md).
-/
namespace Sys2Proof.Config

/-- Free values: the number that draw `k` of the run gives where the spec states no value. -/
opaque freeNat : Nat → Nat

/-- The 64-bit output of the random generator for draw `k` (R376, R378). -/
opaque random : Nat → Nat

/-- A 18-bit cosine and sine of an NCO phase in 2^-32 turn, full scale 2^17 (Table 10-3), whose values the spec does not print. -/
opaque ncoCos : BitVec 32 → BitVec 18
opaque ncoSin : BitVec 32 → BitVec 18

/-- The taps of half-band stage 1 or 2, from the outermost to the centre, and of a preset's FIR behind a CIC of rate R, in units of
2^-tapFrac (Table 10-4): the spec prints none. -/
opaque halfTap : Nat → Nat → Int
opaque firTap : Nat → Nat → Nat → Int
opaque tapFrac : Nat

/-- How a word of the signal chain takes an exact result that lies between two of its values, or beyond its range: the point of the chain, and the
result as numerator and denominator. The spec states neither. -/
opaque roundsUp : Nat → Int → Nat → Bool
opaque overRange : Nat → Int → Nat

/-- The fraction bits that a lane's envelope is held with. -/
opaque envFrac : Nat

/-- The powers that the watch unit finds in a block's samples below and above an edge in hundredths of f_out (R240): the spec states no
estimator. -/
opaque bandPower : Nat → List (Int × Int) → Nat × Nat

/-- What an analogue unit finds in its lane's samples, newest first, and the spec gives no estimator for: the carrier's level and its phase
(R247), a sample's angle in 2^-32 turn, and the pilot's phase in the detector's output (R248). -/
opaque carrierLevel : List (Int × Int) → Nat
opaque carrierPhase : List (Int × Int) → BitVec 32
opaque angle : Int × Int → BitVec 32
opaque pilotPhase : List Int → BitVec 32

/-- The taps of the audio low-pass at an output rate, audio bandwidth and DEEMPH code, and those of a port's interpolator from a source's sample
period to a frame rate (given as a fraction), by the distance of the sample from the instant wanted in 1/16 VCO periods, in units of 2^-tapFrac
(R247, R248, R406); and how far each reaches. -/
opaque audioTap : Nat → Nat → Nat → Int → Int
opaque audioSpan : Nat
opaque interpTap : Nat → Nat → Nat → Int → Int
opaque interpSpan : Nat

/-- The level of a PDM pin at an instant in 1/16 VCO periods: what the microphones send comes from outside. -/
opaque pdmPin : Nat → Nat → Bool

/-- The first-order high-pass at 20 Hz of a microphone: its rate, its last output and input, and the input (R404). -/
opaque highPass : Nat → Int → Int → Int → Int

/-- What the SCALE code 3 of an LF descriptor entry, which Table 11-5 leaves out, multiplies by. -/
opaque lfScale : Nat

/-- A byte of an object block whose value the spec leaves unstated: its window address, and the settings it may depend on. -/
opaque blockByte : Nat → List Byte → Byte

end Sys2Proof.Config
end

