-- ==== Sys2Proof/Machine/State.lean ====
section
/-!
DEFINITION. The state of the Rhatre 7200 as plain data: every register, ring, table, counter, engine and store that the spec
gives the part, and the queue of the commands that wait. Each default value is the value after power-on (R11); where the spec
gives none, the assumption log names it (notes/assumptions/1.md). A field keeps the number its register spells; State.reset is
the part at READY after a power-on boot, with nothing bound, tuned or open.
-/
namespace Sys2Proof.Machine

/-- The Eosal Port's registers and the outcome of its last cycle (Tables 3-7 to 3-11, 4-11, 20-4 to 20-8). -/
structure Port where
  /-- ACK rose for the last cycle (R58, R59). -/
  ack : Bool := false
  /-- The byte D[7:0] carried at the last acknowledged read (R55). -/
  data : Byte := 0
  irqPol : Bool := false
  winEdge : Bool := false
  /-- The live window pointer, 24 bits (R62). -/
  ptr : Nat := 0
  stagedPtrL : Byte := 0
  stagedPtrM : Byte := 0
  /-- WIN_CTRL.INC: false holds the pointer, true adds 1. -/
  winInc : Bool := true
  winRing : Bool := false
  wsPrivate : Bool := false
  wsUnmapped : Bool := false
  wsCrossed : Bool := false
  wsHalted : Bool := false
  wsRoWrite : Bool := false
  irqStat0 : Byte := 0
  irqStat1 : Byte := 0
  irqStat2 : Byte := 0
  irqEn0 : Byte := 0
  irqEn1 : Byte := 0
  irqEn2 : Byte := 0
  /-- The armed holding byte of each pair of R8, none while not armed. -/
  holdCqCons : Option Byte := none
  holdCcProd : Option Byte := none
  holdTemp : Option Byte := none
  stagedCqProdL : Byte := 0
  stagedCcConsL : Byte := 0
  /-- BOOKS_CREDIT, BOOKS_FLIGHT, BOOKS_UNREAD: the latch of R93. -/
  snapCredit : Nat := 512
  snapFlight : Nat := 0
  snapUnread : Nat := 0
  /-- SC_B0 to SC_B7: the latch of R336. -/
  scLatch : Nat := 0
  cellarRecovered : Bool := false
  /-- RESET_CAUSE (Table 6-4). -/
  resetCause : Nat := 1
  deriving DecidableEq, Repr

/-- Where the part stands between unpowered and READY (Table 3-6, R44, R50, R131, R465). -/
inductive Phase where
  /-- No boot has started: unpowered, waiting for power-good or for the 10 ms of PRES_N. -/
  | waiting
  /-- RESET_N holds a pin reset (R131). -/
  | pinHeld
  /-- A soft reset has begun: the port is live, READY is 0 (R74). -/
  | softBoot
  /-- READY is 1. -/
  | ready
  /-- A decant is storing the shadow array (Table 2-4 steps 5 and 6). -/
  | decanting
  /-- The decanted hold (Table 2-4 step 7). -/
  | decantHold
  deriving DecidableEq, Repr

/-- The reset kinds of Table 6-4. -/
inductive ResetKind where
  | powerOn | brownOut | pin | soft | decantReturn
  deriving DecidableEq, Repr

/-- Supplies, presence and the resets (chapter 2 and R129 to R132). -/
structure Power where
  phase : Phase := .ready
  /-- VIN is at power-good (Table 2-2). -/
  vinGood : Bool := true
  /-- PRES_N is asserted. -/
  present : Bool := true
  /-- VIO is valid (R37). -/
  vioValid : Bool := true
  /-- HP_STATUS.HOLD_LOW (R40). -/
  holdLow : Bool := true
  /-- VHOLD is being charged from VIN (R40). -/
  charging : Bool := true
  /-- The decant under way began with PRES_N asserted, and PRES_N has not broken since: the port answers (R46, R50). -/
  decantBus : Bool := false
  pfPending : Bool := false
  decantOnVin : Bool := true
  pfLevel : Nat := 0
  /-- The kind of the start that is pending while no boot has run (R132, R465). -/
  pendingKind : ResetKind := .powerOn
  /-- The mode that MODE_NOW held when a soft reset started, or when a decant began (R137, R451). -/
  savedMode : Nat := 0
  deriving DecidableEq, Repr

/-- What an accepted command is doing (chapter 4, Table 4-7). -/
inductive CmdPhase where
  /-- Fetched, not started. -/
  | waiting
  /-- Not started, and selected by an ABORT: it completes ABORTED with cause 0x01 when R84 and R87 let it (R94). -/
  | abortWaiting
  /-- Running. -/
  | running
  /-- Running and asked to stop: it completes ABORTED with this cause at its next stopping point (Table 4-7, R96). -/
  | stopping (cause : Nat)
  deriving DecidableEq, Repr

/-- A cellar write that a command has issued and that waits for its place in the order of R87: key, tombstone, payload. -/
structure DueWrite where
  key : Nat
  tomb : Bool
  payload : List Byte
  deriving DecidableEq, Repr

/-- An accepted, incomplete command: how many were issued before it since the rings' reset, whose low 16 bits are its issue sequence SEQ,
and its 32 descriptor bytes as they were fetched (R79, R80). -/
structure Cmd where
  seq : Nat
  desc : List Byte
  phase : CmdPhase
  /-- For a running ABORT: how many it selected, how many of those completed ABORTED, and the sequences it still waits for (R95). -/
  selected : Nat
  abortedCount : Nat
  waitFor : List Nat
  /-- Result bytes that an earlier part of the command has fixed (R374). -/
  result : List Byte
  /-- The cellar write that it has issued and that has not started (R87). -/
  due : Option DueWrite := none
  /-- The key region's FRACTION protected it when the command started (R441). -/
  prot : Bool := false
  deriving DecidableEq, Repr

/-- The rings and the books (chapter 4). The commands in flight are the accepted, incomplete ones, in issue order. -/
structure Rings where
  cqProd : Nat := 0
  cqCons : Nat := 0
  ccProd : Nat := 0
  ccCons : Nat := 0
  credits : Nat := 512
  unread : Nat := 0
  /-- Commands issued since the reset: the next one's SEQ in its low 16 bits (R79). -/
  nextSeq : Nat := 0
  inflight : List Cmd := []
  deriving DecidableEq, Repr

/-- The pace block and the governor (chapter 5). Shed levels are the lengths of the shed lists. -/
structure Fabric where
  pace : Nat := 125
  paceMin : Nat := 255
  vcore : Nat := 20
  /-- The count at which the pace window under way began, and the lowest step code since then (R103, R459). -/
  windowStart : Nat := 0
  windowLow : Nat := 20
  /-- The count at which the governor tick under way began (R105). -/
  tickStart : Nat := 0
  vcoreCap : Nat := 35
  ceilTicks : Nat := 0
  shedBlocksL : Nat := 0
  shedBlocksV : Nat := 0
  pathDrops : Nat := 0
  fillHwL : Nat := 0
  fillHwV : Nat := 0
  shedLevelL : Nat := 0
  shedLevelV : Nat := 0
  /-- Consecutive ticks in which every fill stayed at or below one eighth, up to 16 (R105). -/
  quietTicks : Nat := 0
  /-- The fill at the previous raise, and the lane it shed while that lane has not passed a block boundary (R112). -/
  raiseFillL : Nat := 0
  raiseFillV : Nat := 0
  raiseWaitL : Option Nat := none
  raiseWaitV : Option Nat := none
  /-- The lane resumed last, while it has not passed a block boundary since (R112). -/
  lowerWaitL : Option Nat := none
  lowerWaitV : Option Nat := none
  deriving DecidableEq, Repr

/-- The mode block and a mode change under way (chapter 6). -/
structure Modes where
  modeNow : Nat := 3
  modeReq : Nat := 3
  /-- The target of the change under way: HP_STATUS.MODE_MOVING is 1 while there is one (R122). -/
  target : Option Nat := none
  /-- The last code written while a change was under way (R123). -/
  queued : Option Nat := none
  modeErr : Nat := 0
  ktLane : Nat := 0
  ktPeriod : Nat := 60
  ktListen : Nat := 150
  /-- The values in force since KEEPTIME was entered (R126). -/
  ktLaneUsed : Nat := 0
  ktPeriodUsed : Nat := 60
  ktListenUsed : Nat := 150
  /-- The count at which the next listen starts, none outside KEEPTIME; and the end of the listen that runs. -/
  ktNext : Option Nat := none
  ktEnd : Option Nat := none
  epochOk : Bool := true
  bootEpoch : Nat := 1
  x32Ok : Bool := true
  /-- HELD_MASK, one flag per held lane (R125). -/
  heldMask : BitVec 64 := 0
  listenHeld : Nat := 0
  deriving DecidableEq, Repr

/-- The scrub of R135: rows 0x1F_0000 up and then 0x00_0000 up. `next` counts rows done in that order (8,064 in all),
`early` lists later rows that an access or a device write scrubbed first (R68). -/
structure Scrub where
  next : Nat := 0
  early : List Nat := []
  deriving DecidableEq, Repr
/-- A reference arrangement, in the codes of Table 7-3. -/
structure RefArr where
  freq : Nat := 2
  mult : Nat := 0
  src : Nat := 0
  deriving DecidableEq, Repr

/-- Where a reference change stands (Table 7-4, R151). -/
inductive RefStage where
  | idle
  /-- Step 1: the TUNE with this sequence waits for the paths and the link. -/
  | waiting (seq : Nat)
  /-- Step 4: relocking; `seq` is the TUNE's, none when the lock is a boot's or a mode change's. -/
  | locking (seq : Option Nat) (prev : Option RefArr)
  /-- Step 4 failed and the previous arrangement is relocking (R151). -/
  | restoring (seq : Option Nat)
  /-- Step 5: the running synthesisers relock; the status the TUNE will complete with. -/
  | synths (seq : Option Nat) (failed : Bool)
  deriving DecidableEq, Repr

/-- One of the host's CPLL outputs CK4 to CK6 (Table 7-6). -/
structure CkOut where
  div : Nat := 80
  delay : Nat := 0
  /-- The enable the host asked for. -/
  en : Bool := true
  /-- PHASE_PEND, the steps still to apply, and the steps that the phase-step TUNE has applied so far (R148, R150). -/
  pend : Int := 0
  applied : Int := 0
  deriving DecidableEq, Repr

/-- The CPLL and the system counter (chapter 7). -/
structure Clocks where
  ref : RefArr := {}
  boardRefAbsent : Bool := true
  refMismatch : Bool := false
  fault : Bool := false
  locked : Bool := true
  stage : RefStage := .idle
  ck4 : CkOut := {}
  ck5 : CkOut := {}
  ck6 : CkOut := {}
  /-- The system counter, 64 bits (R163). -/
  sc : Nat := 0
  /-- The remainder modulo 125 of counting on CK7 (R163). -/
  scRem : Nat := 0
  scOnX32 : Bool := false
  scHeld : Bool := false
  /-- A 1 s reference check is under way (R144). -/
  refCheck : Bool := false
  /-- The last whole second and whole minute of the counter that COUNTER_SECOND and COUNTER_MINUTE have served. -/
  secondDone : Nat := 0
  minuteDone : Nat := 0
  deriving DecidableEq, Repr

/-- One entry of a band table (R155). -/
structure BandEntry where
  fStart : Nat := 0
  bandStart : Nat := 0
  bandEnd : Nat := 0
  khzPerBand : Nat := 0
  deriving DecidableEq, Repr

/-- A synthesiser: the fields of Table 7-7 and the progress of a lock (R159 to R162). -/
structure Synth where
  timedMode : Bool := false
  winExp : Nat := 10
  tol : Nat := 2
  run : Nat := 3
  limit : Nat := 64
  time : Nat := 100
  timedLock : Bool := false
  btFallback : Bool := false
  locking : Bool := false
  locked : Bool := false
  bandTries : Nat := 0
  nInt : Nat := 0
  nFrac : Nat := 0
  divLog2 : Nat := 0
  band : Nat := 0
  btEntry : Nat := 0
  vcoKhz : Nat := 0
  loErr : Int := 0
  ibOffset : Nat := 0
  ibNear : Bool := false
  lockLost : Nat := 0
  noLockCount : Nat := 0
  /-- The lock under way: the band first chosen, the place of the try, its windows so far, the run of good ones. -/
  baseBand : Nat := 0
  tryPlace : Nat := 0
  windows : Nat := 0
  goodRun : Nat := 0
  /-- The next relock starts from the band in use: the lock was lost, or SYNTH chose the band, while the path was in CAL (R161). -/
  bandStands : Bool := false
  /-- After lock: the run of windows outside LOCK_TOL (R161). -/
  badRun : Nat := 0
  /-- Windows passed of the COUNT check before a transmission, none while none runs (R162). -/
  txCheck : Option Nat := none
  table : Tab BandEntry := []
  factory : Tab BandEntry := []
  /-- The band-edge report: F_LOW_KHZ and F_HIGH_KHZ of each band (R158). -/
  edges : Tab (Nat × Nat) := []
  deriving DecidableEq, Repr

/-- The RW fields of a front end (Table 8-9), which take effect at the next AGC-period boundary (R188). -/
structure FeSet where
  agcMode : Nat := 0
  manualRange : Nat := 1
  manualFine : Nat := 24
  agcTarget : Int := -15
  agcHyst : Nat := 6
  rangeHold : Nat := 200
  clipLimit : Nat := 8
  startRange : Nat := 1
  dcKTrack : Nat := 0
  dcKAcq : Nat := 0
  deriving DecidableEq, Repr

/-- Front-end states (Table 8-3). -/
inductive FeState where
  | off | starting | acquire | run | range | retune | cal | noLock | rxPacket | txRampUp | tx | txRampDown
  deriving DecidableEq, Repr

/-- A number `num` / 2^`exp`: the offset d of R183, which the loop divides by powers of two. -/
structure Dyadic where
  num : Int := 0
  exp : Nat := 0
  deriving DecidableEq, Repr

/-- A path's front end (chapter 8). -/
structure FrontEnd where
  state : FeState := .off
  /-- The path has had a TUNE since the reset that left it untuned (R173). -/
  tuned : Bool := false
  loSideUsed : Nat := 0
  presel : Nat := 0
  width : Nat := 0
  /-- LO_HZ: the LO that the last TUNE placed; and the LO that the synthesiser has, which on path S link work moves too (R172). -/
  loHz : Nat := 0
  loNow : Nat := 0
  /-- On path S: the LO stands where a TUNE placed it, until link work places its own (R176). -/
  tuneHolds : Bool := false
  centreHz : Nat := 0
  rasterHz : Nat := 0
  gainRange : Nat := 0
  gainFine : Nat := 0
  /-- The fields as written, and as in force since the last AGC-period boundary (R188). -/
  set : FeSet := {}
  used : FeSet := {}
  /-- The offset loop's d for I and Q, and DC_EST_I and DC_EST_Q (R183). -/
  dcI : Dyadic := {}
  dcQ : Dyadic := {}
  dcEstI : Int := 0
  dcEstQ : Int := 0
  adcRms : Int := 0
  rangeChanges : Nat := 0
  clipEvents : Nat := 0
  blankIntervals : Nat := 0
  /-- BLANKED_SAMPLES up to the count at which the present run of zeros began; that count, none while no sample is replaced. -/
  blankedSamples : Nat := 0
  blankFrom : Option Nat := none
  retunes : Nat := 0
  acqTimeouts : Nat := 0
  /-- Progress of ACQUIRE: offset acquire done; the last period of this acquire made no range change; range changes made. -/
  acqDone : Bool := false
  acqQuiet : Bool := false
  acqRanges : Nat := 0
  /-- A section or WIDTH change whose switch settle is not over (Table 8-4). -/
  selPend : Bool := false
  /-- Unblanked samples of the whole AGC periods since the state was entered (R183). -/
  stateSamples : Nat := 0
  /-- The count at the last range change (R178). -/
  lastRangeSc : Option Nat := none
  deriving DecidableEq, Repr

/-- The calibration part of a path block (Table 9-7). -/
structure CalPart where
  valid : Nat := 0
  field : Nat := 0
  tCalPath : Int := 0
  tRefSyn : Int := 0
  synRecals : Nat := 0
  calFails : Nat := 0
  lastType : Nat := 0
  lastReason : Nat := 0
  offsetTrim : Tab (Int × Int) := []
  img : Tab (Int × Int) := []
  filt : Tab Nat := []
  irr : Tab Nat := []
  txIqGain : Int := 0
  txIqPhase : Int := 0
  txIqLeakI : Int := 0
  txIqLeakQ : Int := 0
  pdetSlope : Int := 0
  pdetOffset : Int := 0
  /-- OFFSET, IMAGE and FILTER completed with OK since the last reset (R198), as a mask of their CAL_VALID bits. -/
  doneSince : Nat := 0
  deriving DecidableEq, Repr

/-- A calibration that runs: its command, its TYPE, the items still to measure as (CAL_VALID bit, index), and the bits written. -/
structure CalJob where
  seq : Nat
  typ : Nat
  items : List (Nat × Nat)
  written : Nat
  store : Bool
  deriving DecidableEq, Repr

/-- One path: its synthesiser, front end and calibration part. -/
structure Path where
  synth : Synth := {}
  fe : FrontEnd := {}
  cal : CalPart := {}
  /-- The path-interrupting calibration or self-test that holds the path (R193). -/
  job : Option CalJob := none
  deriving DecidableEq, Repr

/-- The calibration block (Table 9-8), the temperature samples of the last second (R467) and the jobs of no path. -/
structure Cal where
  temp : Int := 0
  /-- Samples of the last 1 s: the count of each and its value. -/
  samples : List (Nat × Int) := []
  tempAvg : Int := 0
  tempDelta : Nat := 8
  synAuto : Bool := true
  thermLimit : Nat := 100
  thermWarn : Bool := false
  /-- The count at which THERM_WARN last changed (R206). -/
  thermSc : Option Nat := none
  calDue : Nat := 0
  x32Err : Int := 0
  x32Temp : Int := 0
  testRuns : Nat := 0
  testFails : Nat := 0
  lastTestFault : Nat := 0
  x32Job : Option CalJob := none
  linkJob : Option CalJob := none
  deriving DecidableEq, Repr
/-- The settings a lane runs under, or will run under: the fields of LANE_BIND and LANE_SET and the engine (Tables 10-1,
10-8, 10-10). `params` are descriptor bytes 10 to 31 of the ENGINE_ATTACH. -/
structure LaneSet where
  freqHz : Nat := 0
  rate : Nat := 0
  preset : Nat := 0
  blockLen : Nat := 2
  lossRank : Nat := 4
  syncPinEn : Bool := false
  detSrc : Nat := 0
  attSh : Nat := 4
  relSh : Nat := 8
  thSrc : Nat := 0
  thDwell : Nat := 1
  thHigh : Int := 0
  thLow : Int := 0
  ncoPhase0 : Nat := 0
  engKind : Nat := 0
  engIndex : Nat := 0
  params : List Byte := []
  deriving DecidableEq, Repr

/-- Who holds a lane (R212). -/
inductive Hold where
  | free | host | tasting | test
  deriving DecidableEq, Repr

/-- One rail, I or Q, of a lane's chain (Table 10-3): the integrators and combs of its CIC, the sum for the coarse output, and the data of HB1,
HB2 and the preset FIR, newest first (R219 to R221, R226). -/
structure Rail where
  integ : List (BitVec 58) := List.replicate 5 0
  comb : List (BitVec 58) := List.replicate 5 0
  coarse : Int := 0
  hb1 : List Int := []
  hb2 : List Int := []
  fir : List Int := []
  deriving DecidableEq, Repr

/-- A lane's decimation chain: the NCO phase in 2^-32 turn, both rails, the decimation phase in ADC samples since the last output, and
the envelope e in units of 2^-envFrac of an output LSB (R216, R218, R238). -/
structure Chain where
  phase : BitVec 32 := 0
  i : Rail := {}
  q : Rail := {}
  count : Nat := 0
  env : Nat := 0
  deriving DecidableEq, Repr

/-- The record of a lane's last completed block (Table 10-14, bytes 0x00 to 0x19), with LEN of the block's header (R223). -/
structure BlockRec where
  gen : Nat := 0
  flags : Nat := 0
  seq : Nat := 0
  stamp : Nat := 0
  peak : Int := -32768
  rms : Int := -32768
  env : Int := -32768
  qual : Int := -32768
  thAbove : Bool := false
  dwell : Nat := 0
  len : Nat := 0
  deriving DecidableEq, Repr

/-- One of the 64 lanes (chapter 10). -/
structure Lane where
  hold : Hold := .free
  path : Nat := 0
  running : Bool := false
  shed : Bool := false
  gen : Nat := 0
  /-- The settings in force, and the pending set with its generation (R228). -/
  cur : LaneSet := {}
  pending : Option LaneSet := none
  genPending : Nat := 0
  /-- The pending set holds an accepted attach or detach (R234). -/
  pendEngine : Bool := false
  /-- The set that stood pending at a sync sample, with its generation and whether it holds an attach or detach: it takes effect at the block
  that the synchronisation starts, later ones only at the boundary after it (R237). -/
  synced : Option (LaneSet × Nat × Bool) := none
  ncoWord : Nat := 0
  chain : Chain := {}
  /-- SEQ of the next block (R223). -/
  seq : Nat := 0
  /-- SETTLING blocks still to come (R230), and the SYNC flag of the next block (R237). -/
  settling : Nat := 0
  syncNext : Bool := false
  /-- The next block is cut short by a synchronisation (R237). -/
  shortNext : Bool := false
  /-- The lane becomes FREE at its next block boundary (R213). -/
  unbind : Bool := false
  /-- No block is in progress: the lane's first block since it started is still to begin, from the count `startAt` on. -/
  idle : Bool := true
  startAt : Nat := 0
  /-- Causes that touched the block in progress: bits 0 BLANK, 1 CAL, 2 RETUNE, 3 OVERRUN (R225, R114). -/
  touched : Nat := 0
  /-- The count at which each cause last ended, by its bit: later blocks are touched through the fine filter (R225). -/
  causeEnd : Tab Nat := []
  /-- The runs of blocks that the lane's engine took as erasures, as signal instants from and to, newest first (R23, R115). -/
  gaps : List (Nat × Nat) := []
  /-- The threshold state and the dwell count (R241). -/
  thAbove : Bool := false
  dwell : Nat := 0
  last : BlockRec := {}
  events : Nat := 0
  overrunBlocks : Nat := 0
  zeroedBlocks : Nat := 0
  syncStamp : Nat := 0
  blocks : Nat := 0
  engineLate : Nat := 0
  /-- The last 16 QUAL values that are not 0x8000, newest first (R305). -/
  quals : List Int := []
  deriving DecidableEq, Repr

/-- The statistics latch of R245: the lane whose block was latched last, and its bytes 0x00 to 0x2F. -/
structure StatLatch where
  lane : Option Nat := none
  bytes : List Byte := []
  deriving DecidableEq, Repr

/-- An RDS alternative-frequency list (R255), entries as 16-bit words. -/
structure AfList where
  method : Nat := 0
  own : Nat := 0
  entries : List Nat := []
  deriving DecidableEq, Repr

/-- A block of audio at 48 kHz as an analogue unit made it from a lane block (R249): STAMP, GEN and flags of that block, the instant of its first
sample in 1/16 VCO periods, and its samples, left and right. -/
structure AudioBlock where
  stamp : Nat
  gen : Nat
  flags : Nat
  start : Nat
  samples : List (Int × Int)
  deriving DecidableEq, Repr

/-- An analogue unit (chapter 11, Table 11-9). -/
structure Analogue where
  /-- The lane's samples and the detector's output of the blocks before, newest first, and where the next audio sample lies behind the end of the
  last block, in 1/16 VCO periods (R247 to R249). -/
  heard : List (Int × Int) := []
  detected : List Int := []
  audioPos : Nat := 0
  stereo : Bool := false
  carrierLock : Bool := false
  rdsSync : Bool := false
  acquiring : Bool := false
  /-- The confirmed PI, and the last good PI that still waits for its second block (R254). -/
  pi : Option Nat := none
  piSeen : Option Nat := none
  /-- The last good PTY and TP, and TA and MS, received (R254). -/
  ptySeen : Option (Nat × Bool) := none
  taSeen : Option (Bool × Bool) := none
  pty : Nat := 0
  tp : Bool := false
  ta : Bool := false
  ms : Bool := false
  quality : Int := 0
  blend : Nat := 0
  /-- The count since which the pilot has stood high, or low (R248). -/
  pilotHigh : Option Nat := none
  pilotLow : Option Nat := none
  blocksGood : Nat := 0
  blocksCorrected : Nat := 0
  blocksBad : Nat := 0
  blocksErased : Nat := 0
  groupsOut : Nat := 0
  syncLosses : Nat := 0
  eBlocks : Nat := 0
  piMismatches : Nat := 0
  piChanges : Nat := 0
  /-- Whether each of the last 50 blocks was uncorrectable, newest first (R250). -/
  history : List Bool := []
  /-- While there is no block sync, the end of the last block D, where it had a zero syndrome (R250). -/
  cleanEnd : Option Nat := none
  af : AfList := {}
  /-- AF codes being collected: the number announced, the codes so far, and the last complete cycle (R255). -/
  afNeed : Nat := 0
  afCodes : List Nat := []
  /-- The next code is an LF/MF code. -/
  afLf : Bool := false
  afPrev : Option (List Nat) := none
  /-- The ODA map: code and AID, least recently confirmed first (R258). -/
  oda : List (Nat × Nat) := []
  /-- RadioText being filled: 0 for 2A, 1 for 2B; the A/B flag; segments received (R257). -/
  rtKind : Nat := 0
  rtFlag : Option Nat := none
  rtSegs : Tab (List Byte) := []
  /-- The last RDS_RT: flag, length, characters (Table 11-9). -/
  rtLastFlag : Nat := 0
  rtLast : List Byte := []
  deriving DecidableEq, Repr

/-- A second as an LF decoder classified it (R263). -/
inductive LfSym where
  | zero | one | mark | invalid | missing
  deriving DecidableEq, Repr

/-- An LF time-code decoder (chapter 11). -/
structure LfDec where
  /-- LF_STATE: 0 IDLE, 1 SEARCH, 2 SECONDS, 3 MINUTE, 4 FRAMES (R263). -/
  state : Nat := 0
  /-- The copy of the descriptor taken at attach (R262). -/
  copy : List Byte := []
  /-- The copy that a pending ENGINE_ATTACH took, for its boundary. -/
  nextCopy : List Byte := []
  secondPos : Nat := 0
  consec : Nat := 0
  refLevel : Int := 0
  /-- Of each of the last 10 s, newest first: the sum of the envelope outside keying and the samples in it (R263). -/
  reference : List (Nat × Nat) := []
  /-- The start of the next second, by the locked second phase (R263). -/
  expected : Nat := 0
  /-- Leading edges spaced 1 s ± 20 ms in succession, and the last one's stamp. -/
  edges : Nat := 0
  lastEdge : Option Nat := none
  /-- Seconds in succession with no edge. -/
  empty : Nat := 0
  /-- The second before was a MARK (R264). -/
  prevMark : Bool := false
  /-- The frame's symbols so far with their erasure, newest first, and the stamp of its second 0. -/
  symbols : List (LfSym × Bool) := []
  frameStart : Nat := 0
  /-- The last valid frame carried LEAP_ANNOUNCE (R267). -/
  leapNext : Bool := false
  /-- The minute the last valid frame described, and its stamp (R266). -/
  lastMinute : Option (Nat × Nat) := none
  lastFrame : List Byte := []
  framesOk : Nat := 0
  parityFails : Nat := 0
  rangeFails : Nat := 0
  erasedFrames : Nat := 0
  symbolsInvalid : Nat := 0
  minuteLosses : Nat := 0
  deriving DecidableEq, Repr

/-- A service in a DRM FAC (R281). -/
structure DrmSvc where
  id : Nat := 0
  shortId : Nat := 0
  data : Bool := false
  ca : Bool := false
  language : Nat := 0
  stream : Nat := 0
  deriving DecidableEq, Repr

/-- A DRM stream as SDC types 0, 5 and 9 describe it (Tables 12-5, 12-10). -/
structure DrmStream where
  lenA : Nat := 0
  lenB : Nat := 0
  prot : Nat := 0
  packet : Bool := false
  packetLen : Nat := 0
  /-- The type 9 coding is one whose super-frame the engine can split (R284). -/
  splittable : Bool := false
  deriving DecidableEq, Repr

/-- A digital engine's alternative-frequency entry (Table 12-10): kHz, other service, other ensemble. -/
structure DigAf where
  khz : Nat
  otherService : Bool
  otherEnsemble : Bool
  deriving DecidableEq, Repr

/-- A data unit or data group being joined from packets: its stream or sub-channel, packet ID or address, the continuity
index expected next, and the bytes so far (R285, R292). -/
structure Assembly where
  stream : Nat
  addr : Nat
  next : Nat
  erased : Bool
  bytes : List Byte
  /-- The unit has lost a packet: it has been dropped, and its further packets belong to nothing. -/
  lost : Bool := false
  deriving DecidableEq, Repr

/-- How many items of one KIND and stream were completed in one super-frame or CIF: the index part of ISEQ (R293). -/
structure IndexCount where
  kind : Nat
  stream : Nat
  pos : Nat
  count : Nat
  deriving DecidableEq, Repr

/-- What the DRM and DAB engines have in common (chapter 12). -/
structure Engine where
  /-- STATE (Tables 12-4, 12-6); 0 idle. -/
  state : Nat := 0
  afcFrozen : Bool := false
  freqOffset : Int := 0
  residual : Int := 0
  /-- Residual estimates of the last 4 frames not wholly erased, newest first (R278). -/
  residuals : List Int := []
  mer : Int := 0
  /-- Failed frames in succession (R280). -/
  fails : Nat := 0
  /-- The STAMPs of the last frame received, and of the super-frame that held it (R293). -/
  frameStamp : Option Nat := none
  superStamp : Nat := 0
  /-- The equaliser of a DRM engine: a complex tap per sub-carrier (R279). -/
  taps : List (Int × Int) := []
  /-- The count at which the run of erased blocks began (R275). -/
  erasedSince : Option Nat := none
  /-- The run of erased blocks under way has returned the engine to its search. -/
  gapDone : Bool := false
  af : List DigAf := []
  afPrev : Option (List DigAf) := none
  assembly : List Assembly := []
  indices : List IndexCount := []
  erasedCells : Nat := 0
  syncLosses : Nat := 0
  driftReacqs : Nat := 0
  gapResets : Nat := 0
  packetsOk : Nat := 0
  packetsBad : Nat := 0
  auOk : Nat := 0
  auBad : Nat := 0
  /-- Units (DRM) or groups (DAB) delivered and dropped. -/
  unitsOk : Nat := 0
  unitsDropped : Nat := 0
  deriving DecidableEq, Repr

/-- A DRM engine (Table 12-10). -/
structure Drm where
  eng : Engine := {}
  mode : Nat := 0
  so : Nat := 0
  longInt : Bool := false
  mscMode : Nat := 0
  sdcMode : Nat := 0
  services : List DrmSvc := []
  serviceCount : Nat := 0
  reconf : Nat := 0
  streams : Tab DrmStream := []
  /-- The streams of the next configuration, while one is announced (R296). -/
  nextStreams : Option (List (Nat × Nat × Nat × Nat)) := none
  label : List Byte := []
  /-- Entities received since acquisition: type, header and body (R282). -/
  seen : List (Nat × Nat × List Byte) := []
  /-- A FAC has been decoded since acquisition (R281). -/
  facSeen : Bool := false
  /-- Service indices and IDs decoded since acquisition or since the last whole cycle over the services (R303). -/
  cycle : Tab Nat := []
  facOk : Nat := 0
  facBad : Nat := 0
  sdcOk : Nat := 0
  sdcBad : Nat := 0
  framesOk : Nat := 0
  itemsOut : Nat := 0
  deriving DecidableEq, Repr

/-- A sub-channel of the ensemble (FIG 0/1, Table 12-10). -/
structure SubCh where
  startCu : Nat := 0
  size : Nat := 0
  prot : Nat := 0
  decoding : Bool := false
  refused : Bool := false
  /-- It decodes the CIFs after the instant of its admission, and after its last request has ended none after that instant (R289). -/
  from_ : Nat := 0
  until_ : Option Nat := none
  deriving DecidableEq, Repr

/-- A service component of the ensemble (FIG 0/2, 0/3, Table 12-10). -/
structure DabSvc where
  sid : Nat := 0
  tmid : Nat := 0
  /-- The sub-channel, or, for packet mode (TMId 3), the component identifier SCId. -/
  comp : Nat := 0
  deriving DecidableEq, Repr

/-- A packet-mode component as FIG 0/3 describes it. -/
structure PacketComp where
  subch : Nat := 0
  addr : Nat := 0
  groups : Bool := false
  deriving DecidableEq, Repr

/-- A DAB ensemble engine (Table 12-10). -/
structure Dab where
  eng : Engine := {}
  eid : Nat := 0
  cif : Nat := 0
  change : Nat := 0
  occ : Nat := 0
  subch : Tab SubCh := []
  /-- The organisation of the next configuration, as FIG 0/1 gives it (R296). -/
  nextSubch : Tab SubCh := []
  services : List DabSvc := []
  /-- Packet-mode components by SCId (FIG 0/3). -/
  packets : Tab PacketComp := []
  /-- The labels of the ensemble and of its services, by SId (FIG 1/0, 1/1). -/
  label : List Byte := []
  labels : Tab (List Byte) := []
  /-- Sub-channels in the order in which they were first asked for (R289). -/
  asked : List Nat := []
  fibOk : Nat := 0
  fibBad : Nat := 0
  superframesOk : Nat := 0
  rsCorrected : Nat := 0
  rsFailed : Nat := 0
  subchRefused : Nat := 0
  deriving DecidableEq, Repr

/-- An item as an engine delivers it: the fields of Table 11-7 and the payload of Tables 11-8 and 12-8. -/
structure Item where
  kind : Nat
  lane : Nat
  gen : Nat
  iseq : Nat
  stamp : Nat
  payload : List Byte
  deriving DecidableEq, Repr

/-- An item kept in a must buffer: where its bytes stand, and whether TASTE_VIEW pins it (R311, R313). -/
structure MustItem where
  item : Item
  /-- The data field of a DAB data group: offset and length. -/
  field : Option (Nat × Nat)
  addr : Nat
  pinned : Bool
  deriving DecidableEq, Repr

/-- A follow entry (Table 13-7). -/
structure Follow where
  valid : Bool := false
  lane : Nat := 0
  kind : Nat := 0
  ident : Nat := 0
  goodRun : Nat := 8
  margin : Nat := 12
  perFollow : Nat := 3
  idTimeout : Nat := 4
  dwellMax : Nat := 30
  nextCand : Nat := 0
  switches : Nat := 0
  lees : Nat := 0
  /-- Candidates refuted by identity, with the count of the refutation (R300). -/
  refuted : List (Nat × Nat) := []
  /-- The frequency left behind at the last switch-over (R300). -/
  left : Option Nat := none
  /-- The watermarks in force since the last switch-over, and the last ISEQ delivered of each key since the engine's start: kind,
  stream (256 without one), ISEQ (R307, R308). -/
  marks : List (Nat × Nat × Nat) := []
  last : List (Nat × Nat × Nat) := []
  deriving DecidableEq, Repr

/-- A tasting under way on a lane (Table 13-8). -/
structure Tasting where
  /-- STATE of Table 13-2: 1 ACQUIRING, 2 MATCHED, 3 SWITCHING. -/
  state : Nat
  entry : Nat
  kind : Nat
  engIndex : Nat
  tgen : Nat
  freqHz : Nat
  run : Nat
  /-- The count from which ID_TIMEOUT runs, and at which MATCHED was entered. -/
  started : Nat
  matchedAt : Nat
  /-- The count at which the unit that confirmed it ended (R306). -/
  confirmedAt : Nat := 0
  /-- The must items, oldest first; how many were rolled; whether the engine accepted an AF list (R309). -/
  items : List MustItem
  rolled : Nat
  afTaken : Bool
  deriving DecidableEq, Repr

/-- The tasting unit (chapter 13). -/
structure Taste where
  maxTaste : Nat := 8
  mustCap : Nat := 4
  tgenNext : Nat := 1
  entriesDropped : Nat := 0
  switches : Nat := 0
  leesTastings : Nat := 0
  leesItems : Nat := 0
  rackedDelivered : Nat := 0
  duplicatesSkipped : Nat := 0
  mustRolled : Nat := 0
  leesBy : Tab Nat := []
  mustDropped : Nat := 0
  switchDiscards : Nat := 0
  follows : Tab Follow := []
  tastings : List (Nat × Tasting) := []
  /-- Items whose bytes stay only because they are pinned (R313). -/
  pinned : List MustItem := []
  deriving DecidableEq, Repr
/-- A service slot: its descriptor and sequence floors (Tables 14-1, 14-7, 14-8). -/
structure Slot where
  isOpen : Bool := false
  suspended : Bool := false
  policy : Nat := 0
  timeRule : Bool := false
  wakeMode : Nat := 0
  srcLane : Nat := 0
  stream : Nat := 0
  groupType : Nat := 0
  kindMask : Nat := 0
  sub : Nat := 0
  ptype : Nat := 0
  aid : Nat := 0
  issuerMask : Nat := 0
  ringBase : Nat := 0
  ringLog2 : Nat := 0
  wakeFill : Nat := 0
  prod : Nat := 0
  cons : Nat := 0
  /-- CONS bytes staged until byte 0x1B is written (R323). -/
  stagedCons : List Byte := []
  rseqNext : Nat := 0
  records : Nat := 0
  overflowRecords : Nat := 0
  overflowBytes : Nat := 0
  sdeRejected : Nat := 0
  sdeRepeats : Nat := 0
  verifyDrops : Nat := 0
  consFaults : Nat := 0
  filtered : Nat := 0
  /-- The next record carries GAP (R325). -/
  gap : Bool := false
  floors : Tab Nat := []
  /-- WAKE_PEND of this slot (R326). -/
  wake : Bool := false
  deriving DecidableEq, Repr

/-- The PROD latch of R323: the slot whose byte 0x14 was read, and bytes 0x15 to 0x17 with those not yet read again. -/
structure ProdLatch where
  slot : Nat
  bytes : List (Nat × Byte)
  deriving DecidableEq, Repr

/-- An envelope in assembly from RDS groups: lane, AID, the next CI, and the bytes so far (R327). -/
structure SdeAsm where
  lane : Nat
  aid : Nat
  next : Nat
  bytes : List Byte
  deriving DecidableEq, Repr

/-- An envelope that completed assembly and awaits its checks (R327, R331). `carrier` 1 RDS, 2 DRM, 3 DAB; the carrier address
is the lane with AID, or with STREAM and SUB. `lengthOk` is the length test of check 1; the calendar's Now is the one at STAMP. -/
structure SdeEnv where
  carrier : Nat
  lane : Nat
  aid : Nat
  stream : Nat
  sub : Nat
  lengthOk : Bool
  stamp : Nat
  iseq : Nat
  bytes : List Byte
  deriving DecidableEq, Repr

/-- The 1,024 service slots and the security engine's envelopes (chapter 14). -/
structure Slots where
  slots : Tab Slot := []
  latch : Option ProdLatch := none
  assembling : List SdeAsm := []
  waiting : List SdeEnv := []
  verified : Nat := 0
  badSignatures : Nat := 0
  assemblyAbandoned : Nat := 0
  deriving DecidableEq, Repr

/-- A vote (Table 15-6). -/
structure Vote where
  lane : Nat := 0
  uncMs : Nat := 0
  /-- 0 unknown, 1 none, 2 announce. -/
  leap : Nat := 0
  offset : Int := 0
  stamp : Nat := 0
  current : Bool := false
  inGroup : Bool := false
  setAside : Bool := false
  deriving DecidableEq, Repr

/-- The calendar and the consensus (chapter 15). -/
structure Time where
  offset : Int := 0
  valid : Bool := false
  source : Nat := 0
  invalidCause : Nat := 1
  consensusEn : Bool := true
  quorum : Nat := 2
  agreeMs : Nat := 2000
  voteLife : Nat := 43200
  weights : Tab Nat := [(1, 12), (2, 8), (3, 4), (4, 10)]
  leapHold : Bool := false
  /-- The count at which LEAP_HOLD ends (R344). -/
  leapHoldEnd : Nat := 0
  leapPending : Bool := false
  leapTarget : Nat := 0
  /-- The count at which a leap was last applied (R343). -/
  leapAt : Option Nat := none
  calRange : Bool := false
  /-- TIME_CAUSE (Table 15-5). -/
  cause : Byte := 0
  lastSetSc : Nat := 0
  lastStep : Int := 0
  sets : Nat := 0
  leaps : Nat := 0
  votesIn : Nat := 0
  votesRefused : Nat := 0
  noQuorum : Nat := 0
  dissents : Nat := 0
  leapIgnored : Nat := 0
  scHolds : Nat := 0
  /-- One vote per kind: 1 LF, 2 RDS, 3 DRM, 4 DAB (R338). -/
  votes : Tab Vote := []
  /-- The calendar snapshot of R336, bytes 0x40 to 0x52. -/
  snapshot : List Byte := []
  deriving DecidableEq, Repr

/-- A link profile (Table 16-8). `mask` is bytes 0x30 to 0x4F; `shape` lists the bytes of 0x10 to 0x2F that the host has written: the others hold
the taps of a Gaussian filter, which the spec names and does not print (log entry 70). -/
structure Profile where
  flags : Nat := 20
  fskRate : Nat := 0
  option : Nat := 3
  mcs : Nat := 1
  modIndex : Nat := 64
  preambleLen : Nat := 8
  sfdSel : Nat := 0
  power : Int := 20
  channelHz : Nat := 0
  shape : Tab Byte := []
  mask : List Byte := []
  /-- PROFILE_STATE: 0 UNCHECKED, 1 CHECKED, 2 FAILED. -/
  state : Nat := 0
  maskMargin : Int := 0
  deriving DecidableEq, Repr

/-- A sub-band of the region image (Table 16-9). -/
structure SubBand where
  fLowKhz : Nat := 0
  fHighKhz : Nat := 0
  chFirstKhz : Nat := 0
  chStepKhz : Nat := 0
  maxPower : Int := 0
  phyAllow : Nat := 0
  lbtReq : Bool := false
  lbtThresh : Int := 0
  listenMin : Nat := 0
  listenRand : Nat := 0
  backoffMax : Nat := 0
  dutyPpm : Nat := 0
  grant : Nat := 0
  mask : List Byte := []
  deriving DecidableEq, Repr

/-- The region image (R353). -/
structure Region where
  ok : Bool := false
  id : Nat := 0
  bands : List SubBand := []
  deriving DecidableEq, Repr

/-- A sub-band's duty account: tokens spent per minute, newest minute first (R355), and its denials. -/
structure Duty where
  /-- The spending of minute `minute − k` for k = 0 to 61. -/
  bins : List Nat := []
  denials : Nat := 0
  deriving DecidableEq, Repr

/-- Whose transmission or window path S runs (R369). -/
inductive Owner where
  | host (seq : Nat)
  /-- A presence check's CHALLENGE to this endpoint. -/
  | check (ep : Nat)
  /-- A RELEASE frame of this target; STOP set or not. -/
  | release (target : Nat) (stop : Bool)
  deriving DecidableEq, Repr

/-- Where a transmission stands in Table 16-4. -/
inductive TxStage where
  /-- Step 1: waiting for a packet, a calibration or earlier traffic. -/
  | queued
  /-- Own traffic took path S after step 3 and before step 7: it goes on from step 4 (R369). -/
  | held
  /-- Step 4: the LO is being placed and path S brought to LISTEN. -/
  | tuning
  /-- Step 5: the COUNT check of R162. -/
  | check
  /-- Step 6: listening, or backing off between tries. -/
  | listen
  | backoff
  /-- A timed start waits for AT (R361). -/
  | timed
  /-- Steps 5 and 6 are passed, and a reference change or a range change holds step 7 (Table 7-4, Table 8-4). -/
  | ready
  /-- Steps 7 and 8: charged, blanking and on air. -/
  | onAir
  /-- Step 9: the RX_AFTER window. -/
  | after
  deriving DecidableEq, Repr

/-- A transmission under way or waiting (Table 16-4). -/
structure TxJob where
  owner : Owner
  stage : TxStage
  /-- The profile copied at the start (R351), with its number. -/
  profile : Profile
  profileNo : Nat
  channel : Nat
  /-- The PSDU as it goes on air, FCS included; for a CW transmission its length in ms. -/
  psdu : List Byte
  cwMs : Option Nat
  cost : Nat
  band : Nat
  /-- What a mask check of its profile finds, when the row that brought it says (R352). -/
  margin : Option Int
  /-- Listening tries made, and the highest RSSI measured (R358). -/
  tries : Nat
  rssi : Int
  at_ : Option Nat
  rxAfterMs : Option Nat
  /-- The PHR start of the emission, and the end of its last symbol. -/
  phrStamp : Nat
  endStamp : Nat
  /-- The count at which its listen, its backoff (R358) or its RX_AFTER window ends. -/
  until_ : Nat
  written : Nat
  /-- A lost lock cut it short (R161). -/
  cut : Bool := false
  deriving DecidableEq, Repr

/-- A receive window (R362, R368, R378). -/
structure RxWindow where
  seq : Nat
  profile : Profile
  profileNo : Nat
  channel : Nat
  dest : Nat
  size : Nat
  maxPackets : Nat
  keepBad : Bool
  ownToo : Bool
  /-- The count at which its time has passed. -/
  until_ : Nat
  records : Nat
  bytes : Nat
  dropped : Nat
  /-- Counts spent paused, and the count since which it is paused (R369). -/
  pausedFor : Nat
  pausedAt : Option Nat
  deriving DecidableEq, Repr

/-- The home link (chapter 16, Table 16-7). -/
structure Link where
  detectDbm : Int := -105
  qualThresh : Nat := 192
  qualTimeout : Nat := 24
  sfdTimeout : Nat := 320
  rxTrim : Int := 0
  lbtMode : Bool := false
  lbtThresh : Int := -75
  lbtListenUs : Nat := 160
  lbtTries : Nat := 3
  afterDest : Nat := 0x1F7000
  afterSize : Nat := 0x800
  rxPackets : Nat := 0
  fcsBad : Nat := 0
  phrBad : Nat := 0
  sfdMisses : Nat := 0
  qualFails : Nat := 0
  rxNoRoom : Nat := 0
  txPackets : Nat := 0
  txTokens : Nat := 0
  dutyDenials : Nat := 0
  busyDenials : Nat := 0
  regDenials : Nat := 0
  lostTx : Nat := 0
  foreignDrops : Nat := 0
  maskChecks : Nat := 0
  maskFails : Nat := 0
  atLate : Nat := 0
  profiles : Tab Profile := []
  region : Region := {}
  duty : Tab Duty := []
  /-- The minute that the newest bins belong to. -/
  minute : Nat := 0
  /-- Transmissions waiting or under way; at most one is past step 3 on the air. -/
  txs : List TxJob := []
  /-- The window of the host's LINK_RX. -/
  hostRx : Option RxWindow := none
  /-- The scrambling seed of MR-OFDM packets (R360). -/
  ofdmSeed : Nat := 0
  /-- Blanking by a transmission, and by BLANK_IN, lies over paths L and V (R185, R186). -/
  txBlank : Bool := false
  pinBlank : Bool := false
  deriving DecidableEq, Repr

/-- What a presence check is for (R374, R382, R383). -/
inductive CheckFor where
  | pair (seq : Nat)
  | start (seq : Nat)
  | now (seq : Nat)
  | periodic
  deriving DecidableEq, Repr

/-- A presence check under way (R378). -/
structure Check where
  ep : Nat
  purpose : CheckFor
  nonce : Nat
  /-- Tries ended, and the most it makes. -/
  tries : Nat
  limit : Nat
  /-- The response window is open, until this count; otherwise the CHALLENGE is on its way. -/
  windowOpen : Bool
  until_ : Nat
  /-- The end of the CHALLENGE's last symbol (R379). -/
  tEnd : Nat
  /-- A RESPONSE of this try failed: 0 none, 1 its MIC, 2 its echo. -/
  fail : Nat
  /-- What a mask check of HOME_PROFILE finds, when the row that brought the check says. -/
  margin : Option Int
  /-- The key and EUI used: the record's, or the ones a PAIR brings. -/
  key : List Byte
  eui : Nat
  deriving DecidableEq, Repr

/-- An endpoint record (Table 17-11). -/
structure Endpoint where
  role : Nat := 0
  paired : Bool := false
  cntOut : Bool := false
  session : Bool := false
  demand : Bool := false
  winReport : Bool := false
  targetMask : Nat := 0
  useWinPin : Bool := false
  windowEp : Nat := 255
  checkTries : Nat := 3
  eui : Nat := 0
  checkPeriod : Nat := 300
  timeout : Nat := 1800
  expires : Nat := 0
  lastRtt : Int := 0
  lastRssi : Int := 0
  valve : Nat := 0
  battery : Nat := 0
  lastCheckS : Nat := 0
  endCause : Nat := 0
  lastResult : Nat := 0
  /-- The counter second at which the next periodic check runs (R383). -/
  nextCheck : Nat := 0
  deriving DecidableEq, Repr

/-- A release target's STATE (Table 17-10). -/
inductive TargetState where
  | idle | waiting | sending | fault
  deriving DecidableEq, Repr

/-- A release target record (Table 17-10). -/
structure Target where
  requireSession : Bool := false
  state : TargetState := .idle
  ep : Nat := 0
  level : Nat := 0
  interval : Nat := 120
  nextDue : Nat := 0
  lastSent : Nat := 0
  framesSent : Nat := 0
  missed : Nat := 0
  dutyMisses : Nat := 0
  busyRetries : Nat := 0
  lastStatus : Nat := 0
  faultReason : Nat := 0
  /-- The attempt of the present due time was made and waits for a retry at a count, or was denied for duty (R388). -/
  retry : Bool := false
  retryAt : Nat := 0
  denied : Bool := false
  deriving DecidableEq, Repr

/-- Sessions and heat release (chapter 17). -/
structure Sessions where
  winPin : Bool := false
  homeProfile : Nat := 0
  homeChannelHz : Nat := 0
  rttLimit : Nat := 200
  rssiFloor : Int := -85
  deviceEui : Nat := 0
  checkCount : Nat := 0
  unknownSrc : Nat := 0
  frameAuthFails : Nat := 0
  skips : Nat := 0
  endpoints : Tab Endpoint := []
  targets : Tab Target := []
  /-- Presence checks, the one that runs first. -/
  checks : List Check := []
  deriving DecidableEq, Repr
/-- The configuration part of a SAP block (Table 18-6) without CAP_CONS. -/
structure SapCfg where
  format : Nat := 1
  fsWidth : Bool := false
  fsPol : Bool := false
  bclkPol : Bool := false
  shareFs : Bool := false
  slots : Nat := 2
  width : Nat := 3
  offset : Nat := 1
  rateHz : Nat := 48000
  sd1En : Bool := false
  aoutEn : Bool := false
  rampMs : Nat := 10
  playoutMs : Nat := 40
  capMask0 : Nat := 0
  capMask1 : Nat := 0
  framesPerBlock : Nat := 480
  pack : Bool := false
  wakeBlocks : Nat := 0
  aoutSrcL : Nat := 0
  aoutSrcR : Nat := 1
  /-- The slot maps as 16-bit entries by slot (Table 18-2). -/
  map0 : Tab Nat := []
  map1 : Tab Nat := []
  deriving DecidableEq, Repr

/-- A serial audio port's STATE (Table 18-7). -/
inductive SapState where
  | stopped | starting | running | stopping
  deriving DecidableEq, Repr

/-- Why a stretch of a source is muted (R409): its lane block was flagged, the source is absent, its words were lost, or a switch-over joins two
chains (R309). -/
inductive MuteCause where
  | flagged | absent | lost | joined
  deriving DecidableEq, Repr

/-- A mute stretch: its source as TYPE and INDEX of Table 18-2, the instants of its first sample and of the first sample after it (none while it
lasts), and the first frame that was not yet sent when it became known (R409, R410). -/
structure Stretch where
  source : Nat
  cause : MuteCause
  start : Int
  stop : Option Int
  known : Nat
  deriving DecidableEq, Repr

/-- A slot whose source a SAP_CFG changed while the port ran: data line, slot, the entry before and the frame at which its fall begins (R396). -/
structure Swap where
  line : Nat
  slot : Nat
  old : Nat
  start : Nat
  deriving DecidableEq, Repr

/-- A frame as sent: the words of SD0 and of SD1, and whether a slot was ramped or muted, a microphone group was settling or had lost words, and
the frame was replaced (R416). -/
structure SentFrame where
  words0 : List Int
  words1 : List Int
  muted : Bool
  settling : Bool
  lost : Bool
  zero : Bool
  deriving DecidableEq, Repr

/-- A serial audio port (chapter 18). -/
structure Sap where
  /-- The fields as the host wrote them, and as SAP_CFG put them in force (R395). -/
  cfg : SapCfg := {}
  used : SapCfg := {}
  state : SapState := .stopped
  configOk : Bool := false
  clockFault : Bool := false
  divInt : Nat := 0
  divFrac : Nat := 0
  fsErr : Int := 0
  poolBlocks : Nat := 0
  capProd : Nat := 0
  capCons : Nat := 0
  stagedCapCons : Byte := 0
  startStamp : Nat := 0
  underrunFrames : Nat := 0
  blocksLost : Nat := 0
  micLostFrames : Nat := 0
  mutes : Nat := 0
  lateMutes : Nat := 0
  capFaults : Nat := 0
  sourceAbsentFrames : Nat := 0
  /-- The frame number and BSEQ of the next block, its GAP and START. -/
  blockFrame : Nat := 0
  bseq : Nat := 0
  gapNext : Bool := false
  startNext : Bool := false
  /-- The instant of the first FS edge, the number of the frame that it begins, where the divider's accumulator stands then, and the phase steps
  applied since, each with the first frame that it moves (R398, R407, R420). -/
  firstEdge : Nat := 0
  firstFrame : Nat := 0
  bclkAcc : Nat := 0
  moved : List (Nat × Int) := []
  /-- The number of the next frame, the last frames sent, newest first, and those sent that no capture block holds yet, oldest first. -/
  nextOut : Nat := 0
  sent : List SentFrame := []
  frames : List SentFrame := []
  /-- Mute stretches, oldest first; changes of the slot map, newest first; the frame at which the stop fall begins (R396, R409, R411). -/
  stretches : List Stretch := []
  swaps : List Swap := []
  fall : Option Nat := none
  /-- The first frame of the map that a SAP_CFG brought while the port ran (R396). -/
  mapFrom : Nat := 0
  /-- Blocks written since the last WAKE_BLOCKS event (R422). -/
  wakeCount : Nat := 0
  deriving DecidableEq, Repr

/-- AOUT's state (R419): high impedance; rising to mid-scale until a count; carrying audio that ramps in from a frame on; falling to 0 V until a
count. -/
inductive Aout where
  | highZ
  | rising (until_ : Nat)
  | on (frame : Nat)
  | falling (until_ : Nat)
  deriving DecidableEq, Repr

/-- A microphone: its next sample since its clock started, the last sample and output of its high-pass, and its samples of the last second with
their instants, newest first (R403 to R405). -/
structure Mic where
  next : Nat := 0
  lastIn : Int := 0
  lastOut : Int := 0
  recent : List (Int × Int) := []
  deriving DecidableEq, Repr

/-- The PDM block (Table 18-8), its settings in force and its clocks. -/
structure Pdm where
  rateA : Nat := 1
  rateB : Nat := 1
  hpfA : Bool := true
  hpfB : Bool := true
  micSettleMs : Nat := 20
  usedRateA : Nat := 1
  usedRateB : Nat := 1
  usedHpfA : Bool := true
  usedHpfB : Bool := true
  usedSettleMs : Nat := 20
  clkA : Bool := false
  clkB : Bool := false
  /-- The instant of each group's first clock edge. -/
  startA : Nat := 0
  startB : Nat := 0
  /-- The count at which each group's settle time ends, while it settles; the count at which it last ended (R404). -/
  settlingA : Option Nat := none
  settlingB : Option Nat := none
  settledA : Nat := 0
  settledB : Nat := 0
  mics : Tab Mic := []
  divA : Nat := 0
  divB : Nat := 0
  aout : Aout := .highZ
  deriving DecidableEq, Repr

/-- How far a record is programmed (R426), the byte COMMITTED part-programmed included (R443). -/
inductive RecStage where
  | torn | opened | payload | crc | commitPart | committed
  deriving DecidableEq, Repr

/-- A record in a log's flash (Table 19-10), at its place. -/
structure Rec where
  key : Nat
  version : Nat
  tomb : Bool
  payload : List Byte
  stage : RecStage
  superseded : Bool
  crcOk : Bool
  sector : Nat
  off : Nat
  deriving DecidableEq, Repr

/-- A flash sector: its erase count, bytes used, whether it is closed to appends, retired, or not erased and not valid. -/
structure Sector where
  erases : Nat := 0
  fill : Nat := 0
  closed : Bool := false
  retired : Bool := false
  dirty : Bool := false
  deriving DecidableEq, Repr

/-- An append log (R429): its sectors, the sectors in use oldest first with the head last, and its records in log order. -/
structure Log where
  sectors : Tab Sector := []
  ring : List Nat := []
  recs : List Rec := []
  deriving DecidableEq, Repr

/-- A factory item: its VERSION, its content, and whether its CRC-32 checks (R428, R442). -/
structure FactoryItem where
  version : Nat
  content : List Byte
  crcOk : Bool
  deriving DecidableEq, Repr

/-- A shadow bank (R435, R436). -/
structure Bank where
  valid : Bool := true
  seq : Nat := 1
  data : List Host.Cell := []
  written : BitVec 128 := 0
  erases : Nat := 0
  deriving DecidableEq, Repr

/-- A shadow store under way: whose it is (none for a decant's), the bank it writes (true for B), the array it took, and
the flash operations still to come: erase, 128 rows, the tag operation, the SEQ operation (R435). -/
structure Store where
  seq : Option Nat
  bankB : Bool
  newSeq : Nat
  data : List Host.Cell
  written : BitVec 128
  erases : Nat
  opsLeft : Nat
  /-- The bank was valid before the store began. -/
  wasValid : Bool := true
  deriving DecidableEq, Repr

/-- A record write under way (R426): the command it serves or none for a reclaim's copy, the log, the record as far as its finished operations
have taken it (`torn` while the header operation runs), the payload or CRC operations still to come, whether it repeats after a mismatch (R430). -/
structure Write where
  seq : Option Nat
  keyArea : Bool
  rec_ : Rec
  opsLeft : Nat
  retried : Bool
  deriving DecidableEq, Repr

/-- A reclaim under way (R429): the log and its oldest sector, whether its copies are done and the erase runs, and whether a write that needs
the room began it. -/
structure Reclaim where
  keyArea : Bool
  sector : Nat
  erasing : Bool
  forWrite : Bool
  deriving DecidableEq, Repr

/-- The cellar, the shadow array and the protection state (chapter 19). -/
structure Cellar where
  recLog : Log := {}
  keyLog : Log := {}
  factory : Tab FactoryItem := []
  factoryBad : Bool := false
  shadow : List Host.Cell := []
  written : BitVec 128 := 0
  dirty : Bool := false
  bankA : Bank := {}
  bankB : Bank := {}
  lastBankB : Bool := false
  shadowLost : Bool := false
  store : Option Store := none
  write : Option Write := none
  reclaim : Option Reclaim := none
  /-- UNLOCKED (Table 19-11). -/
  unlocked : BitVec 6 := 0
  rolledBack : Nat := 0
  completed : Nat := 0
  redone : Nat := 0
  crcFallbacks : Nat := 0
  keysLost : Nat := 0
  reclaims : Nat := 0
  cellarFaults : Nat := 0
  decantSkips : Nat := 0
  deriving DecidableEq, Repr

/-- Why the machine stops with a fault. No row of the opcode table ends in one: the spec gives every command an outcome. -/
inductive Fault where
  /-- Raised by no command; the constructor keeps the type inhabited. Safe: it is never reached. -/
  | none
  deriving DecidableEq, Repr

/-- Why a command is refused. -/
inductive Refusal where
  /-- The command has no meaning yet. Safe: nothing is proved of what it does. -/
  | notModelled (mnemonic : String)
  deriving DecidableEq, Repr

/-- The Rhatre 7200 and the commands that wait for it, oldest first. -/
structure State where
  port : Port := {}
  power : Power := {}
  rings : Rings := {}
  fabric : Fabric := {}
  modes : Modes := {}
  scrub : Scrub := {}
  clocks : Clocks := {}
  pathL : Path := {}
  pathV : Path := {}
  pathS : Path := {}
  cal : Cal := {}
  lanes : Tab Lane := []
  statLatch : StatLatch := {}
  analogue : Tab Analogue := []
  lf : Tab LfDec := []
  drm : Tab Drm := []
  dab : Tab Dab := []
  /-- LF format descriptor slots 2 to 7, 160 bytes each (Tables 11-4, 11-5). -/
  lfDescs : Tab (List Byte) := []
  taste : Taste := {}
  slots : Slots := {}
  time : Time := {}
  link : Link := {}
  sessions : Sessions := {}
  saps : Tab Sap := []
  pdm : Pdm := {}
  /-- The audio that each lane's analogue unit offered to the ports in the last second, newest first (R249). -/
  audio : Tab (List AudioBlock) := []
  cellar : Cellar := {}
  /-- The working SRAM 0x00_0000 to 0x1F_FFFF: addresses rising, no entry equal to 0, which an unlisted byte reads as (R135). -/
  mem : List Host.Cell := []
  /-- Counts the free values drawn so far: the model's own field. -/
  fresh : Nat := 0
  pending : List Instr := []
  deriving DecidableEq, Repr

/-- The bytes of an LF format descriptor (Tables 11-4, 11-5): its name, flags, LEAP_POS, offsets, windows (min, max in ms) and
entries (KIND, START, LEN, FLAGS). -/
def lfDescBytes (name : List Nat) (flags leapPos baseOff dstStep : Nat) (windows : List Nat)
    (entries : List (Nat × Nat × Nat × Nat)) : List Byte :=
  let head := name.map lowByte ++ [flags, 60, leapPos, baseOff, dstStep, entries.length, 0, 0].map lowByte
    ++ (windows.map fun w => leBytes w 2).flatten ++ [0, 0, 0, 0]
  let body := (entries.map fun e => [lowByte e.2.1, lowByte e.2.2.1, lowByte e.1, lowByte e.2.2.2]).flatten
  head ++ body ++ List.replicate (128 - body.length) 0

/-- Slot 0 of Table 11-6, RK1020LM. -/
def lfFactory0 : List Byte :=
  lfDescBytes [0x52, 0x4B, 0x31, 0x30, 0x32, 0x30, 0x4C, 0x4D] 0x08 59 4 4 [60, 140, 160, 250, 0, 0]
    [(0x12, 0, 1, 0), (0x0B, 16, 1, 0), (0x0A, 17, 1, 0), (0x0D, 18, 1, 0), (0x09, 19, 1, 0), (0x13, 20, 1, 0),
     (0x01, 21, 4, 0), (0x01, 25, 3, 2), (0x10, 21, 8, 0), (0x02, 29, 4, 0), (0x02, 33, 2, 2), (0x10, 29, 7, 0),
     (0x03, 36, 4, 0), (0x03, 40, 2, 2), (0x07, 42, 3, 0), (0x04, 45, 4, 0), (0x04, 49, 1, 2), (0x05, 50, 4, 0),
     (0x05, 54, 4, 2), (0x10, 36, 23, 0)]

/-- Slot 1 of Table 11-6, RK2585UM. -/
def lfFactory1 : List Byte :=
  lfDescBytes [0x52, 0x4B, 0x32, 0x35, 0x38, 0x35, 0x55, 0x4D] 0x06 60 0 0 [150, 250, 450, 550, 750, 850]
    [(0x01, 1, 3, 3), (0x01, 5, 4, 1), (0x02, 12, 2, 3), (0x02, 15, 4, 1), (0x06, 22, 2, 5), (0x06, 25, 4, 3),
     (0x06, 30, 4, 1), (0x05, 45, 4, 3), (0x05, 50, 4, 1), (0x0C, 55, 1, 1), (0x09, 56, 1, 1)]

/-- The record area after the first boot: BOOT_EPOCH 1 is its one record (R136). -/
def recLogReset : Log :=
  { sectors := [(32, { fill := 48 })], ring := [32],
    recs := [{ key := 0x4000, version := 1, tomb := false, payload := [1, 0], stage := .committed, superseded := false,
               crcOk := true, sector := 32, off := 16 }] }

/-- The part right after a power-on boot (R133): READY, in LISTEN, the first check of the CPLL against the oscillator under way (R144), no
path calibrated (R201), with a cellar that holds no more than the LF descriptors of Table 11-6 and the boot's own record. -/
def State.reset : State :=
  { clocks := { refCheck := true }
    cal := { calDue := 7 }
    pathL := { fe := { set := { dcKTrack := 14, dcKAcq := 8 }, used := { dcKTrack := 14, dcKAcq := 8 } } }
    pathV := { fe := { set := { dcKTrack := 17, dcKAcq := 10 }, used := { dcKTrack := 17, dcKAcq := 10 } } }
    pathS := { fe := { set := { dcKTrack := 12, dcKAcq := 6 }, used := { dcKTrack := 12, dcKAcq := 6 } } }
    cellar :=
      { factory := [(0xF030, { version := 1, content := lfFactory0, crcOk := true }),
                    (0xF031, { version := 1, content := lfFactory1, crcOk := true })]
        recLog := recLogReset } }

end Sys2Proof.Machine
end

