-- ==== Sys2Proof/Machine/Ops.lean ====
section
/-!
DEFINITION. The named operations over the state: tables of numbered objects, the working SRAM, paths and lanes, the system
counter, free values. Everything else reads and writes the state through these.
-/
namespace Sys2Proof.Machine

/-! Tables -/

/-- The entry of a number, or the value after power-on where none is listed. -/
def tabGet {α : Type} (d : α) : Tab α → Nat → α
  | [], _ => d
  | (k, v) :: t, i => if k = i then v else tabGet d t i

/-- The table with one entry set, numbers rising. -/
def tabSet {α : Type} : Tab α → Nat → α → Tab α
  | [], i, x => [(i, x)]
  | (k, v) :: t, i, x => if i < k then (i, x) :: (k, v) :: t else if i = k then (i, x) :: t else (k, v) :: tabSet t i x

/-- The table with one entry removed: it holds the value after power-on again. -/
def tabDel {α : Type} (t : Tab α) (i : Nat) : Tab α := t.filter fun e => e.1 != i

/-- The table with one entry changed. -/
def tabMod {α : Type} (d : α) (t : Tab α) (i : Nat) (f : α → α) : Tab α := tabSet t i (f (tabGet d t i))

/-! Byte memories: the working SRAM and the shadow array, listing no zero -/

/-- The byte at an address; an unlisted address reads 0 (R135). -/
def cellGet : List Host.Cell → Nat → Byte
  | [], _ => 0
  | (k, v) :: t, a => if k = a then v else cellGet t a

/-- The memory with one byte written, in the canonical form. -/
def cellPut : List Host.Cell → Nat → Byte → List Host.Cell
  | [], a, b => if b = 0 then [] else [(a, b)]
  | (k, v) :: t, a, b =>
    if a < k then (if b = 0 then (k, v) :: t else (a, b) :: (k, v) :: t)
    else if a = k then (if b = 0 then t else (a, b) :: t)
    else (k, v) :: cellPut t a b

/-- The `n` bytes from an address on. -/
def cellGets (m : List Host.Cell) (a : Nat) : Nat → List Byte
  | 0 => []
  | n + 1 => cellGet m a :: cellGets m (a + 1) n

/-- The memory with bytes written from an address on, the lowest address first. -/
def cellPuts (m : List Host.Cell) (a : Nat) : List Byte → List Host.Cell
  | [] => m
  | b :: bs => cellPuts (cellPut m a b) (a + 1) bs

/-- Every entry lies above `lo` and the entries after it, in order, and none holds 0. -/
def cellsAbove : Nat → List Host.Cell → Bool
  | _, [] => true
  | lo, (k, v) :: t => lo ≤ k && v != 0 && cellsAbove (k + 1) t

/-- The canonical form of a byte memory: addresses strictly rising, no entry equal to what an unlisted address reads as. -/
def Memory.wf (m : List Host.Cell) : Bool := cellsAbove 0 m

/-- The byte of working SRAM at an address. -/
def memGet (s : State) (a : Nat) : Byte := cellGet s.mem a

/-- The bytes of working SRAM from an address on. -/
def memGets (s : State) (a n : Nat) : List Byte := cellGets s.mem a n

/-- The state with bytes of working SRAM written. -/
def memPuts (s : State) (a : Nat) (bs : List Byte) : State := { s with mem := cellPuts s.mem a bs }

/-- The place of a 256-byte row in the order of the background scrub: host scratch first, then 0x00_0000 up to 0x1E_FFFF; the rows
of the rings and the device-reserved range are scrubbed before READY and have no place (R135). -/
def scrubPlace (a : Nat) : Option Nat :=
  let row := a / 256
  if row < 0x1F00 then some (128 + row) else if row < 0x1F80 then some (row - 0x1F00) else none

/-- The scrub has passed the row that holds an address. -/
def rowScrubbed (s : State) (a : Nat) : Bool :=
  match scrubPlace a with
  | some k => k < s.scrub.next || s.scrub.early.contains k
  | none => true

/-- Scrubs the row that holds an address when the scrub has not reached it (R68). -/
def touchRow (s : State) (a : Nat) : State :=
  match scrubPlace a with
  | some k =>
    if k < s.scrub.next || s.scrub.early.contains k then s else { s with scrub := { s.scrub with early := k :: s.scrub.early } }
  | none => s

/-- Scrubs the rows of a run of bytes. -/
def touchRows (s : State) (a n : Nat) : State :=
  (List.range (if n = 0 then 0 else (a + n - 1) / 256 + 1 - a / 256)).foldl (fun t k => touchRow t (a + 256 * k)) s

/-- The state with bytes of working SRAM written, their rows scrubbed first (R68). -/
def devPuts (s : State) (a : Nat) (bs : List Byte) : State := memPuts (touchRows s a bs.length) a bs

/-! Bytes of descriptors, blocks and payloads -/

/-- Byte `i` of a list, 0 past its end. -/
def byteAt (bs : List Byte) (i : Nat) : Nat := (bs.getD i 0).toNat

/-- The number in `k` bytes from `i`, least significant first (R1). -/
def fieldAt (bs : List Byte) (i k : Nat) : Nat := leNat ((bs.drop i).take k)

/-- The signed number in `k` bytes from `i`. -/
def signedAt (bs : List Byte) (i k : Nat) : Int := ofTwos k (fieldAt bs i k)

/-- A list with the bytes from `i` on replaced. -/
def spliceAt (bs : List Byte) (i : Nat) (new : List Byte) : List Byte := bs.take i ++ new ++ bs.drop (i + new.length)

/-- A value held within a range (the clamped fields of the blocks). -/
def clampNat (lo hi n : Nat) : Nat := max lo (min hi n)

/-- A signed value held within a range. -/
def clampInt (lo hi n : Int) : Int := max lo (min hi n)

/-- A counter of `k` bytes that stops at its maximum (R120). -/
def bump (k n add : Nat) : Nat := satAdd (256 ^ k - 1) n add

/-- A signed value that stops at the ends of `k` bytes. -/
def satInt (k : Nat) (n : Int) : Int := clampInt (-((256 ^ k / 2 : Nat) : Int)) ((256 ^ k / 2 : Nat) - 1 : Int) n

/-! Numbered objects of the state -/

def pathOf (s : State) : Nat → Path
  | 0 => s.pathL
  | 1 => s.pathV
  | _ => s.pathS

def setPath (s : State) (p : Nat) (x : Path) : State :=
  match p with
  | 0 => { s with pathL := x }
  | 1 => { s with pathV := x }
  | _ => { s with pathS := x }

def modPath (s : State) (p : Nat) (f : Path → Path) : State := setPath s p (f (pathOf s p))

def modSynth (s : State) (p : Nat) (f : Synth → Synth) : State := modPath s p fun x => { x with synth := f x.synth }

def modFe (s : State) (p : Nat) (f : FrontEnd → FrontEnd) : State := modPath s p fun x => { x with fe := f x.fe }

def modCal (s : State) (p : Nat) (f : CalPart → CalPart) : State := modPath s p fun x => { x with cal := f x.cal }

def laneOf (s : State) (n : Nat) : Lane := tabGet {} s.lanes n

def setLane (s : State) (n : Nat) (x : Lane) : State := { s with lanes := tabSet s.lanes n x }

def modLane (s : State) (n : Nat) (f : Lane → Lane) : State := setLane s n (f (laneOf s n))

def analogueOf (s : State) (u : Nat) : Analogue := tabGet {} s.analogue u

def modAnalogue (s : State) (u : Nat) (f : Analogue → Analogue) : State :=
  { s with analogue := tabMod {} s.analogue u f }

def lfOf (s : State) (d : Nat) : LfDec := tabGet {} s.lf d

def modLf (s : State) (d : Nat) (f : LfDec → LfDec) : State := { s with lf := tabMod {} s.lf d f }

def drmOf (s : State) (e : Nat) : Drm := tabGet {} s.drm e

def modDrm (s : State) (e : Nat) (f : Drm → Drm) : State := { s with drm := tabMod {} s.drm e f }

def dabOf (s : State) (e : Nat) : Dab := tabGet {} s.dab e

def modDab (s : State) (e : Nat) (f : Dab → Dab) : State := { s with dab := tabMod {} s.dab e f }

def slotOf (s : State) (n : Nat) : Slot := tabGet {} s.slots.slots n

def modSlot (s : State) (n : Nat) (f : Slot → Slot) : State :=
  { s with slots := { s.slots with slots := tabMod {} s.slots.slots n f } }

def followOf (s : State) (e : Nat) : Follow := tabGet {} s.taste.follows e

def modFollow (s : State) (e : Nat) (f : Follow → Follow) : State :=
  { s with taste := { s.taste with follows := tabMod {} s.taste.follows e f } }

def voteOf (s : State) (k : Nat) : Vote := tabGet {} s.time.votes k

def endpointOf (s : State) (k : Nat) : Endpoint := tabGet {} s.sessions.endpoints k

def modEndpoint (s : State) (k : Nat) (f : Endpoint → Endpoint) : State :=
  { s with sessions := { s.sessions with endpoints := tabMod {} s.sessions.endpoints k f } }

def targetOf (s : State) (n : Nat) : Target := tabGet {} s.sessions.targets n

def modTarget (s : State) (n : Nat) (f : Target → Target) : State :=
  { s with sessions := { s.sessions with targets := tabMod {} s.sessions.targets n f } }

def sapOf (s : State) (p : Nat) : Sap := tabGet {} s.saps p

def setSap (s : State) (p : Nat) (x : Sap) : State := { s with saps := tabSet s.saps p x }

def modSap (s : State) (p : Nat) (f : Sap → Sap) : State := { s with saps := tabMod {} s.saps p f }

def profileOf (s : State) (p : Nat) : Profile := tabGet {} s.link.profiles p

/-! The system counter and free values -/

/-- Counts of the system counter in a second (R163). -/
def countsPerSecond : Nat := 2 ^ 24

/-- The counter's whole seconds. -/
def counterSeconds (s : State) : Nat := s.clocks.sc / countsPerSecond

/-- Microseconds as counts, rounded down. -/
def microsCounts (us : Nat) : Nat := us * countsPerSecond / 1000000

/-- A free value below `m`, and the state that has drawn it. -/
def draw (m : Nat) (s : State) : Nat × State := (Config.freeNat s.fresh % m, { s with fresh := s.fresh + 1 })

/-- A free number, and the state that has drawn it. -/
def drawAny (s : State) : Nat × State := (Config.freeNat s.fresh, { s with fresh := s.fresh + 1 })

/-- HP_STATUS.READY (R133, R46). -/
def ready (s : State) : Bool := s.power.phase == .ready

/-- The mode in force: 1 PARKED, 2 KEEPTIME, 3 LISTEN, 4 FOLLOW, 5 PLAY, 6 SERVICE (Table 1-2). -/
def modeNow (s : State) : Nat := s.modes.modeNow

/-- A list folded over the state, the first element first. -/
def forAll {α : Type} (xs : List α) (f : State → α → State) (s : State) : State := xs.foldl f s

end Sys2Proof.Machine
end

