-- ==== Sys2Proof/Machine/Dsp.lean ====
section
/-!
DEFINITION. Arithmetic on samples: the offset loop at the ADC edge (R183) and levels in decibels.
-/
namespace Sys2Proof.Machine

/-! The offset loop -/

/-- d after one sample x: d + (x − d) / 2^k, exactly (R183). -/
def dcStep (k : Nat) (d : Dyadic) (x : Int) : Dyadic :=
  { num := d.num * 2 ^ k + (x * 2 ^ d.exp - d.num), exp := d.exp + k }

/-- d of I and Q after samples, with the k of each place from the `i`-th on. -/
def dcLoop (k : Nat → Nat) : Nat → List (Int × Int) → Dyadic × Dyadic → Dyadic × Dyadic
  | _, [], d => d
  | i, x :: xs, d => dcLoop k (i + 1) xs (dcStep (k i) d.1 x.1, dcStep (k i) d.2 x.2)

/-- A whole number beside a dyadic one: itself where it is whole, else the one below or above by a free value, since the spec states no
rounding (DESIGN CHOICE, notes/assumptions/85.md). -/
def dyadicWhole (d : Dyadic) (s : State) : Int × State :=
  let floor := d.num / (2 ^ d.exp : Int)
  if d.num % (2 ^ d.exp : Int) = 0 then (floor, s)
  else
    let (k, s) := draw 2 s
    (floor + k, s)

/-! Levels -/

/-- 10 log10 (num / den) is at least n / u dB: 10^n ≤ (num / den)^(10 u). -/
def dbAtLeast (u num den : Nat) : Int → Bool
  | .ofNat k => 10 ^ k * den ^ (10 * u) ≤ num ^ (10 * u)
  | .negSucc k => den ^ (10 * u) ≤ num ^ (10 * u) * 10 ^ (k + 1)

/-- The largest n below `n + 2^k` with 10 log10 (num / den) at least n / u dB. -/
def dbSearch (u num den : Nat) : Nat → Int → Int
  | 0, n => n
  | k + 1, n => dbSearch u num den k (if dbAtLeast u num den (n + 2 ^ k) then n + 2 ^ k else n)

/-- 10 log10 (num / den) in units of 1/u dB, to the unit below, within 16 bits. -/
def dbFloor (u num den : Nat) : Int := dbSearch u num den 16 (-32768)

/-- A power ratio as a level in units of 1/u dB. Between two units it is the one below or above by a free value, and a power of 0, whose
level the spec does not state, has a free level below every other (DESIGN CHOICE, notes/assumptions/85.md). -/
def dbLevel (u num den : Nat) (s : State) : Int × State :=
  if num = 0 then
    let (k, s) := draw 28673 s
    (-32768 + (k : Int), s)
  else
    let (k, s) := draw 2 s
    (dbFloor u num den + k, s)

/-- The sum of the squared magnitudes of samples. -/
def energy (xs : List (Int × Int)) : Nat := xs.foldl (fun e x => e + (x.1 * x.1 + x.2 * x.2).toNat) 0

end Sys2Proof.Machine
end

