-- ==== Sys2Proof/Machine/Flags.lean ====
section
/-!
DEFINITION. The interrupt status bits of Table 20-2 and the window's error flags.
-/
namespace Sys2Proof.Machine

/-- The sources of Table 20-2. -/
inductive Irq where
  | cmdDone | ringFault | modeEvent | pfWarn | paceShed | clockEvent | calEvent | thermWarn
  | slotEvent | tasteEvent | timeEvent | sessionEvent | releaseEvent | audioEvent
  | winFault | holdOk
  deriving DecidableEq, Repr

/-- A status byte with one bit set. -/
def orBit (b : Byte) (k : Nat) : Byte := b ||| (1#8 <<< k)

/-- Sets an interrupt status bit; no bit is set while READY is 0 or a decant runs (R449). -/
def raise (q : Irq) (s : State) : State :=
  if ready s then
    let p := s.port
    let p := match q with
      | .cmdDone => { p with irqStat0 := orBit p.irqStat0 0 }
      | .ringFault => { p with irqStat0 := orBit p.irqStat0 1 }
      | .modeEvent => { p with irqStat0 := orBit p.irqStat0 2 }
      | .pfWarn => { p with irqStat0 := orBit p.irqStat0 3 }
      | .paceShed => { p with irqStat0 := orBit p.irqStat0 4 }
      | .clockEvent => { p with irqStat0 := orBit p.irqStat0 5 }
      | .calEvent => { p with irqStat0 := orBit p.irqStat0 6 }
      | .thermWarn => { p with irqStat0 := orBit p.irqStat0 7 }
      | .slotEvent => { p with irqStat1 := orBit p.irqStat1 0 }
      | .tasteEvent => { p with irqStat1 := orBit p.irqStat1 1 }
      | .timeEvent => { p with irqStat1 := orBit p.irqStat1 2 }
      | .sessionEvent => { p with irqStat1 := orBit p.irqStat1 3 }
      | .releaseEvent => { p with irqStat1 := orBit p.irqStat1 4 }
      | .audioEvent => { p with irqStat1 := orBit p.irqStat1 5 }
      | .winFault => { p with irqStat2 := orBit p.irqStat2 0 }
      | .holdOk => { p with irqStat2 := orBit p.irqStat2 1 }
    { s with port := p }
  else s

/-- Raises a source when a condition holds. -/
def raiseIf (c : Bool) (q : Irq) (s : State) : State := if c then raise q s else s

/-- IRQ_N is asserted (R69): only while the port is live, with VIO valid (R37, Table 3-6). -/
def irqAsserted (s : State) : Bool :=
  ready s && s.power.vioValid && ((s.port.irqStat0 &&& s.port.irqEn0) != 0 || (s.port.irqStat1 &&& s.port.irqEn1) != 0
    || (s.port.irqStat2 &&& s.port.irqEn2) != 0)

/-- HP_STATUS.WIN_ERROR (R76). -/
def winError (p : Port) : Bool := p.wsPrivate || p.wsUnmapped || p.wsCrossed || p.wsHalted || p.wsRoWrite

/-- Sets PRIVATE, with WIN_FAULT when it changes from 0 to 1 (Table 20-2). -/
def flagPrivate (s : State) : State :=
  raiseIf (!s.port.wsPrivate) .winFault { s with port := { s.port with wsPrivate := true } }

def flagUnmapped (s : State) : State :=
  raiseIf (!s.port.wsUnmapped) .winFault { s with port := { s.port with wsUnmapped := true } }

def flagCrossed (s : State) : State :=
  raiseIf (!s.port.wsCrossed) .winFault { s with port := { s.port with wsCrossed := true } }

def flagHalted (s : State) : State :=
  raiseIf (!s.port.wsHalted) .winFault { s with port := { s.port with wsHalted := true } }

def flagRoWrite (s : State) : State :=
  raiseIf (!s.port.wsRoWrite) .winFault { s with port := { s.port with wsRoWrite := true } }

end Sys2Proof.Machine
end

