-- ==== Sys2Proof/Machine/Operands.lean ====
section
/-!
DEFINITION. The operands of a ring command: its descriptor's fields (Table 4-9), the objects it names (Table 4-2) and the checks
of R88 in their order. A reply is a status of Table 4-8 with its result bytes.
-/
namespace Sys2Proof.Machine

/-- A completion's status and result bytes. -/
abbrev Reply := Nat × List Byte

def cmdTag (c : Cmd) : Nat := fieldAt c.desc 0 2

def cmdOp (c : Cmd) : Nat := byteAt c.desc 2

def cmdFlags (c : Cmd) : Nat := byteAt c.desc 3

/-- ORDER (Table 4-4). -/
def cmdOrder (c : Cmd) : Nat := cmdFlags c % 4

def cmdNotify (c : Cmd) : Bool := bit (cmdFlags c) 2

/-- The object word. -/
def cmdObj (c : Cmd) : Nat := fieldAt c.desc 4 2

def cmdKind (c : Cmd) : Nat := cmdObj c / 4096

def cmdIdx (c : Cmd) : Nat := cmdObj c % 4096

/-- A parameter byte of the descriptor. -/
def par (c : Cmd) (i : Nat) : Nat := byteAt c.desc i

/-- A parameter of `k` bytes from byte `i`. -/
def parN (c : Cmd) (i k : Nat) : Nat := fieldAt c.desc i k

/-- A signed parameter of `k` bytes from byte `i`. -/
def parI (c : Cmd) (i k : Nat) : Int := signedAt c.desc i k

/-- How many objects a kind has (Table 4-2). -/
def objectCount : Nat → Nat
  | 0 => 1
  | 1 => 64
  | 2 => 3
  | 3 => 1
  | 4 => 1
  | 5 => 1024
  | 6 => 1
  | 7 => 1
  | 8 => 128
  | 9 => 4
  | 10 => 2
  | 11 => 3
  | _ => 0

/-- The opcode accepts the object: a kind it names, an index that exists (R81, Table 4-3). -/
def objectOk (kinds : List Nat) (c : Cmd) : Bool := kinds.contains (cmdKind c) && cmdIdx c < objectCount (cmdKind c)

/-- The first failure of a list of checks. -/
def firstFail : List (Option Reply) → Option Reply
  | [] => none
  | none :: cs => firstFail cs
  | some r :: _ => some r

/-- A check that fails with a reply. -/
def failUnless (ok : Bool) (r : Reply) : Option Reply := if ok then none else some r

/-- BAD_OBJECT (0x11). -/
def needObject (kinds : List Nat) (c : Cmd) : Option Reply := failUnless (objectOk kinds c) (0x11, [])

/-- BAD_FIELD (0x12) at a byte of the descriptor. -/
def needField (off : Nat) (ok : Bool) : Option Reply := failUnless ok (0x12, [lowByte off])

/-- Bytes `lo` to `hi` are reserved: each must read 0 (R6). -/
def needZeros (c : Cmd) (lo hi : Nat) : List (Option Reply) :=
  (List.range (hi + 1 - lo)).map fun i => needField (lo + i) (par c (lo + i) == 0)

/-- The checks of bytes 3, 6 and 7: reserved bits and the reserved ordering class (R85, Table 4-9). -/
def needHeader (c : Cmd) : List (Option Reply) :=
  needField 3 (cmdFlags c < 8 && cmdOrder c != 3) :: needZeros c 6 7

/-- WRONG_MODE (0x14) unless the mode in force is one of these (R83). -/
def needMode (s : State) (modes : List Nat) : Option Reply :=
  failUnless (modes.contains (modeNow s)) (0x14, [lowByte (modeNow s)])

/-- BUSY (0x15), naming the holding object's kind. -/
def needIdle (ok : Bool) (kind : Nat) : Option Reply := failUnless ok (0x15, [lowByte kind])

/-- LIMIT (0x16), naming the limit. -/
def needLimit (ok : Bool) (code : Nat) : Option Reply := failUnless ok (0x16, [lowByte code])

/-- STATE (0x17), naming the state. -/
def needState (ok : Bool) (code : Nat) : Option Reply := failUnless ok (0x17, [lowByte code])

/-- PROTECTED (0x30). -/
def needAccess (ok : Bool) (result : List Byte) : Option Reply := failUnless ok (0x30, result)

/-- A run of bytes lies within host scratch over its whole length (R446). -/
def inScratch (a n : Nat) : Bool := 0x1F0000 ≤ a && a + n ≤ 0x1F8000

end Sys2Proof.Machine
end

