-- ==== Sys2Proof/Machine/Crypto.lean ====
section
/-!
DEFINITION. The standards that R2, R331 and R376 name: AES-128 (FIPS 197) in CCM (NIST SP 800-38C) with an 8-byte tag and a 2-byte length,
SHA-256 (FIPS 180-4), and ECDSA over P-256 (FIPS 186). Each keeps its own byte order (R2). With them the CRCs of
R447 and IEEE 802.15.4g. The spec prints none of their tables: they are the
standards' (PRESUMED, notes/assumptions/3.md).
-/
namespace Sys2Proof.Machine

/-! CRCs -/

/-- One bit of a reflected CRC. -/
def crcShift (poly : Nat) : Nat → Nat → Nat
  | 0, r => r
  | n + 1, r => crcShift poly n (if r % 2 = 1 then (r / 2) ^^^ poly else r / 2)

/-- A reflected CRC over bytes. -/
def crcBytes (poly : Nat) (r : Nat) (bs : List Byte) : Nat := bs.foldl (fun r b => crcShift poly 8 (r ^^^ b.toNat)) r

/-- CRC-32 of IEEE 802.3. -/
def crc32 (bs : List Byte) : Nat := crcBytes 0xEDB88320 0xFFFFFFFF bs ^^^ 0xFFFFFFFF

/-- One bit of a 16-bit CRC taken most significant bit first. -/
def crc16Shift : Nat → Nat → Nat
  | 0, r => r
  | n + 1, r => crc16Shift n (if r < 0x8000 then 2 * r else (2 * r % 0x10000) ^^^ 0x1021)

/-- CRC-16 with polynomial 0x1021 and initial value 0xFFFF (R447). -/
def crc16 (bs : List Byte) : Nat := bs.foldl (fun r b => crc16Shift 8 (r ^^^ (b.toNat * 256))) 0xFFFF

/-! AES-128, on bytes in the order the standard numbers them: byte i is row i mod 4 of column i / 4 -/

/-- Twice an element of GF(2^8). -/
def gfDouble (a : Byte) : Byte := if a.msb then (a <<< 1) ^^^ 0x1B else a <<< 1

/-- The product in GF(2^8), over `n` bits of the second factor. -/
def gfMul (a : Byte) : Nat → Nat → Byte
  | 0, _ => 0
  | n + 1, b => (if b % 2 = 1 then a else 0) ^^^ gfMul (gfDouble a) n (b / 2)

/-- A power of an element of GF(2^8). -/
def gfPow (a : Byte) : Nat → Byte
  | 0 => 1
  | n + 1 => gfMul a 8 (gfPow a n).toNat

/-- The S-box: the inverse (the 254th power), then the affine map. -/
def sBox (a : Byte) : Byte :=
  let b := gfPow a 254
  b ^^^ b.rotateLeft 1 ^^^ b.rotateLeft 2 ^^^ b.rotateLeft 3 ^^^ b.rotateLeft 4 ^^^ 0x63

def xorBytes (a b : List Byte) : List Byte := List.zipWith (· ^^^ ·) a b

/-- The next round key, with its round constant. -/
def nextRoundKey (rcon : Byte) (k : List Byte) : List Byte :=
  let word (i : Nat) : List Byte := (k.drop (4 * i)).take 4
  let last := word 3
  let turned := xorBytes ((last.drop 1 ++ last.take 1).map sBox) [rcon, 0, 0, 0]
  let w0 := xorBytes (word 0) turned
  let w1 := xorBytes (word 1) w0
  let w2 := xorBytes (word 2) w1
  w0 ++ w1 ++ w2 ++ xorBytes (word 3) w2

def shiftRows (s : List Byte) : List Byte := (List.range 16).map fun i => s.getD ((i + 4 * (i % 4)) % 16) 0

def mixColumns (s : List Byte) : List Byte :=
  (List.range 16).map fun i =>
    let at_ (k : Nat) : Byte := s.getD (i / 4 * 4 + (i + k) % 4) 0
    gfDouble (at_ 0) ^^^ gfDouble (at_ 1) ^^^ at_ 1 ^^^ at_ 2 ^^^ at_ 3

/-- The rounds that are left: the last one mixes no columns. -/
def aesRounds : Nat → Byte → List Byte → List Byte → List Byte
  | 0, _, _, s => s
  | n + 1, rcon, key, s =>
    let key := nextRoundKey rcon key
    let s := shiftRows (s.map sBox)
    aesRounds n (gfDouble rcon) key (xorBytes (if n = 0 then s else mixColumns s) key)

/-- One block under a 128-bit key. -/
def aes128 (key block : List Byte) : List Byte := aesRounds 10 1 key (xorBytes block key)

/-! CCM with M = 8 and L = 2 -/

/-- `k` bytes of a number, most significant first. -/
def beBytes (n k : Nat) : List Byte := (leBytes n k).reverse

def pad16 (bs : List Byte) : List Byte := bs ++ List.replicate ((16 - bs.length % 16) % 16) 0

/-- CBC-MAC over `n` blocks. -/
def cbcMac (key : List Byte) : Nat → List Byte → List Byte → List Byte
  | 0, x, _ => x
  | n + 1, x, bs => cbcMac key n (aes128 key (xorBytes x (bs.take 16))) (bs.drop 16)

/-- Counter block `i` under the key. -/
def ccmBlock (key nonce : List Byte) (i : Nat) : List Byte := aes128 key (lowByte 1 :: nonce ++ beBytes i 2)

/-- The tag: the MAC of the first block, the associated data and the plaintext, under counter block 0. -/
def ccmTag (key nonce adata plain : List Byte) : List Byte :=
  let bs := [lowByte 0x59] ++ nonce ++ beBytes plain.length 2 ++ pad16 (beBytes adata.length 2 ++ adata) ++ pad16 plain
  (xorBytes (cbcMac key (bs.length / 16) (List.replicate 16 0) bs) (ccmBlock key nonce 0)).take 8

/-- Encrypts or decrypts. -/
def ccmCrypt (key nonce text : List Byte) : List Byte :=
  xorBytes text ((List.range ((text.length + 15) / 16)).flatMap fun i => ccmBlock key nonce (i + 1))

/-- AES-CCM sealing: the ciphertext and the tag (R376). -/
def ccmSeal (key nonce adata plain : List Byte) : List Byte := ccmCrypt key nonce plain ++ ccmTag key nonce adata plain

/-- AES-CCM opening; none when the tag does not verify (R377). -/
def ccmOpen (key nonce adata sealed : List Byte) : Option (List Byte) :=
  let n := sealed.length - 8
  let plain := ccmCrypt key nonce (sealed.take n)
  if ccmTag key nonce adata plain == sealed.drop n then some plain else none

/-! SHA-256 -/

/-- The 64 round constants. -/
def shaK : List (BitVec 32) :=
  [0x428a2f98, 0x71374491, 0xb5c0fbcf, 0xe9b5dba5, 0x3956c25b, 0x59f111f1, 0x923f82a4, 0xab1c5ed5,
   0xd807aa98, 0x12835b01, 0x243185be, 0x550c7dc3, 0x72be5d74, 0x80deb1fe, 0x9bdc06a7, 0xc19bf174] ++
  [0xe49b69c1, 0xefbe4786, 0x0fc19dc6, 0x240ca1cc, 0x2de92c6f, 0x4a7484aa, 0x5cb0a9dc, 0x76f988da,
   0x983e5152, 0xa831c66d, 0xb00327c8, 0xbf597fc7, 0xc6e00bf3, 0xd5a79147, 0x06ca6351, 0x14292967] ++
  [0x27b70a85, 0x2e1b2138, 0x4d2c6dfc, 0x53380d13, 0x650a7354, 0x766a0abb, 0x81c2c92e, 0x92722c85,
   0xa2bfe8a1, 0xa81a664b, 0xc24b8b70, 0xc76c51a3, 0xd192e819, 0xd6990624, 0xf40e3585, 0x106aa070] ++
  [0x19a4c116, 0x1e376c08, 0x2748774c, 0x34b0bcb5, 0x391c0cb3, 0x4ed8aa4a, 0x5b9cca4f, 0x682e6ff3,
   0x748f82ee, 0x78a5636f, 0x84c87814, 0x8cc70208, 0x90befffa, 0xa4506ceb, 0xbef9a3f7, 0xc67178f2]

/-- The eight working words, and at the start the initial hash value. -/
structure ShaWords where
  a : BitVec 32
  b : BitVec 32
  c : BitVec 32
  d : BitVec 32
  e : BitVec 32
  f : BitVec 32
  g : BitVec 32
  h : BitVec 32
  deriving DecidableEq, Repr

def shaStart : ShaWords :=
  { a := 0x6a09e667, b := 0xbb67ae85, c := 0x3c6ef372, d := 0xa54ff53a, e := 0x510e527f, f := 0x9b05688c, g := 0x1f83d9ab, h := 0x5be0cd19 }

/-- The message schedule from a block's 16 words on, newest first, `n` words further. -/
def shaSchedule : Nat → List (BitVec 32) → List (BitVec 32)
  | 0, w => w
  | n + 1, w =>
    let x := w.getD 14 0
    let y := w.getD 1 0
    let s0 := x.rotateRight 7 ^^^ x.rotateRight 18 ^^^ x >>> 3
    let s1 := y.rotateRight 17 ^^^ y.rotateRight 19 ^^^ y >>> 10
    shaSchedule n ((s1 + w.getD 6 0 + s0 + w.getD 15 0) :: w)

/-- One round: its constant and its schedule word. -/
def shaRound (v : ShaWords) (k w : BitVec 32) : ShaWords :=
  let t1 := v.h + (v.e.rotateRight 6 ^^^ v.e.rotateRight 11 ^^^ v.e.rotateRight 25) + ((v.e &&& v.f) ^^^ (~~~v.e &&& v.g)) + k + w
  let t2 := (v.a.rotateRight 2 ^^^ v.a.rotateRight 13 ^^^ v.a.rotateRight 22) + ((v.a &&& v.b) ^^^ (v.a &&& v.c) ^^^ (v.b &&& v.c))
  { a := t1 + t2, b := v.a, c := v.b, d := v.c, e := v.d + t1, f := v.e, g := v.f, h := v.g }

/-- One block of 64 bytes. -/
def shaBlock (v : ShaWords) (bs : List Byte) : ShaWords :=
  let words := (List.range 16).map fun i => BitVec.ofNat 32 (beNat ((bs.drop (4 * i)).take 4))
  let r := (shaK.zip (shaSchedule 48 words.reverse).reverse).foldl (fun v x => shaRound v x.1 x.2) v
  { a := v.a + r.a, b := v.b + r.b, c := v.c + r.c, d := v.d + r.d, e := v.e + r.e, f := v.f + r.f, g := v.g + r.g, h := v.h + r.h }

def shaBlocks : Nat → ShaWords → List Byte → ShaWords
  | 0, v, _ => v
  | n + 1, v, bs => shaBlocks n (shaBlock v (bs.take 64)) (bs.drop 64)

/-- SHA-256 of a message, as the number its 32 bytes spell. -/
def sha256 (m : List Byte) : Nat :=
  let bs := m ++ lowByte 0x80 :: List.replicate ((119 - m.length % 64) % 64) 0 ++ beBytes (8 * m.length) 8
  let v := shaBlocks (bs.length / 64) shaStart bs
  [v.a, v.b, v.c, v.d, v.e, v.f, v.g, v.h].foldl (fun n w => n * 2 ^ 32 + w.toNat) 0

/-! P-256 -/

def p256Prime : Nat := 0xFFFFFFFF00000001000000000000000000000000FFFFFFFFFFFFFFFFFFFFFFFF

def p256B : Nat := 0x5AC635D8AA3A93E7B3EBBD55769886BC651D06B0CC53B0F63BCE3C3E27D2604B

/-- The order of the base point. -/
def p256Order : Nat := 0xFFFFFFFF00000000FFFFFFFFFFFFFFFFBCE6FAADA7179E84F3B9CAC2FC632551

/-- A point of the curve; none is the point at infinity. -/
abbrev P256Point := Option (Nat × Nat)

def p256Base : P256Point :=
  some (0x6B17D1F2E12C4247F8BCE6E563A440F277037D812DEB33A0F4A13945D898C296,
        0x4FE342E2FE1A7F9B8EE7EB4A7C0F9E162BCE33576B315ECECBB6406837BF51F5)

/-- A power modulo `m`, over `n` bits of the exponent. -/
def powMod (m : Nat) : Nat → Nat → Nat → Nat
  | 0, _, _ => 1 % m
  | n + 1, b, e => (if e % 2 = 1 then b else 1) * powMod m n (b * b % m) (e / 2) % m

/-- The inverse modulo a prime of 256 bits. -/
def invMod (m a : Nat) : Nat := powMod m 256 (a % m) (m - 2)

/-- A difference modulo the curve's prime. -/
def subP (a b : Nat) : Nat := (a + (p256Prime - b % p256Prime)) % p256Prime

/-- The point that a slope gives. -/
def chord (l x1 y1 x2 : Nat) : P256Point :=
  let x := subP (l * l) (x1 + x2)
  some (x, subP (l * subP x1 x) y1)

/-- The sum of two points. -/
def addPoints (p q : P256Point) : P256Point :=
  match p, q with
  | none, q => q
  | p, none => p
  | some (x1, y1), some (x2, y2) =>
    if x1 = x2 then
      if (y1 + y2) % p256Prime = 0 then none
      else chord (subP (3 * x1 * x1) 3 * invMod p256Prime (2 * y1) % p256Prime) x1 y1 x2
    else chord (subP y2 y1 * invMod p256Prime (subP x2 x1) % p256Prime) x1 y1 x2

/-- A multiple of a point, over `n` bits of the factor. -/
def mulPoint : Nat → P256Point → Nat → P256Point
  | 0, _, _ => none
  | n + 1, p, k => addPoints (if k % 2 = 1 then p else none) (mulPoint n (addPoints p p) (k / 2))

/-- The 64 bytes X ‖ Y spell a point of P-256 (R425). -/
def onP256 (key : List Byte) : Bool :=
  let x := beNat (key.take 32)
  let y := beNat ((key.drop 32).take 32)
  x < p256Prime && y < p256Prime && (y * y) % p256Prime == (x * x * x + 3 * (p256Prime - x) + p256B) % p256Prime

/-- ECDSA verification: public key X ‖ Y, the digest, signature r ‖ s (R328, R331). -/
def ecdsaVerify (key : List Byte) (digest : Nat) (sig : List Byte) : Bool :=
  let r := beNat (sig.take 32)
  let t := beNat ((sig.drop 32).take 32)
  let w := invMod p256Order t
  let q : P256Point := some (beNat (key.take 32), beNat ((key.drop 32).take 32))
  let sum := addPoints (mulPoint 256 p256Base (digest * w % p256Order)) (mulPoint 256 q (r * w % p256Order))
  0 < r && r < p256Order && 0 < t && t < p256Order && onP256 key &&
    match sum with
    | some (x, _) => x % p256Order == r
    | none => false

end Sys2Proof.Machine
end

