-- ==== Sys2Proof/Machine/Rings.lean ====
section
/-!
DEFINITION. The command ring, the completion ring and the books (chapter 4): which command may start, how a command completes,
the doorbell and the freeing of completions.
-/
namespace Sys2Proof.Machine

/-- The opcodes of Table 4-3. -/
def opcodes : List Nat :=
  [0x01, 0x02, 0x10, 0x11, 0x12, 0x13, 0x14, 0x18, 0x19, 0x20, 0x21, 0x28, 0x29, 0x30, 0x31, 0x38, 0x39, 0x40, 0x41, 0x42,
   0x43, 0x48, 0x49, 0x4A, 0x50, 0x51, 0x52, 0x53, 0x54, 0x55, 0x56, 0x57]

/-- The command takes a place in the order of cellar writes (R87): CELLAR_PUT, CELLAR_ERASE_KEY, SHADOW_WRITE, SHADOW_STORE,
PROTECT_SET, PAIR, and CAL_RUN with STORE (Table 9-2 byte 9 bit [1]). -/
def isCellarWrite (c : Cmd) : Bool :=
  [0x50, 0x52, 0x53, 0x55, 0x56, 0x40].contains (cmdOp c) || (cmdOp c == 0x30 && bit (par c 9) 1)

/-- The command's start waits for earlier cellar writes (R87): it is itself a write, or a CELLAR_GET, a SHADOW_READ or a SELFTEST of type
CELLAR. A PAIR, an unpair and a CAL_RUN with STORE start without waiting: the write that they issue waits (R192, R199, R374). -/
def waitsForWrites (c : Cmd) : Bool :=
  [0x50, 0x52, 0x53, 0x55, 0x56, 0x51, 0x54].contains (cmdOp c) || (cmdOp c == 0x31 && cmdKind c == 11)

/-- The accepted, incomplete commands issued before one with this sequence, oldest first. -/
def earlier : List Cmd → Nat → List Cmd
  | [], _ => []
  | c :: cs, seq => if c.seq = seq then [] else c :: earlier cs seq

/-- No cellar write issued before is incomplete (R87). -/
def noEarlierWrite (before : List Cmd) : Bool := !before.any isCellarWrite

/-- R84: no earlier incomplete command names the same object. -/
def objectFree (before : List Cmd) (c : Cmd) : Bool :=
  cmdOp c == 0x02 || cmdObj c == 0 || !before.any fun b => cmdObj b == cmdObj c

/-- R87. -/
def writesDone (before : List Cmd) (c : Cmd) : Bool := !waitsForWrites c || noEarlierWrite before

/-- R85: the ordering class. -/
def orderFree (before : List Cmd) (c : Cmd) : Bool :=
  match cmdOrder c with
  | 1 => !before.any fun b => b.seq + 1 == c.seq
  | 2 => before.isEmpty
  | _ => true

/-- R86: an earlier BARRIER with HOLD that still waits holds this command. -/
def notHeld (before : List Cmd) : Bool :=
  !before.any fun b => cmdOp b == 0x01 && b.phase == .waiting && bit (par b 8) 0

/-- R84 to R87: a fetched command may start. -/
def mayStart (before : List Cmd) (c : Cmd) : Bool :=
  c.phase == .waiting &&
    (cmdOp c == 0x02 || (objectFree before c && orderFree before c && notHeld before && writesDone before c))

/-- The command with this issue number, when it is in flight. -/
def findCmd (s : State) (seq : Nat) : Option Cmd := s.rings.inflight.find? fun c => c.seq == seq

/-- The command in flight with this sequence and opcode, when it may start now; nothing starts while READY is 0. -/
def startable (s : State) (seq op : Nat) : Option Cmd :=
  match findCmd s seq with
  | some c => if ready s && cmdOp c == op && mayStart (earlier s.rings.inflight seq) c then some c else none
  | none => none

/-- Changes a command in flight, but for its number. -/
def modCmd (s : State) (seq : Nat) (f : Cmd → Cmd) : State :=
  { s with rings := { s.rings with inflight := s.rings.inflight.map fun c => if c.seq = seq then { f c with seq := seq } else c } }

/-- Changes the phase of a command in flight. -/
def setPhase (s : State) (seq : Nat) (ph : CmdPhase) : State := modCmd s seq fun c => { c with phase := ph }

/-- The 16 bytes of a completion entry (Table 4-10). -/
def entryBytes (c : Cmd) (status : Nat) (result : List Byte) : List Byte :=
  c.desc.take 2 ++ [lowByte status, lowByte (cmdOp c)] ++ leBytes (cmdObj c) 2 ++ leBytes c.seq 2
    ++ (result ++ List.replicate 8 0).take 8

/-- A running ABORT learns that a command it selected has completed (R95). -/
def tellAborts (seq : Nat) (aborted : Bool) (c : Cmd) : Cmd :=
  if c.waitFor.contains seq then
    { c with waitFor := c.waitFor.filter (· != seq), abortedCount := c.abortedCount + (if aborted then 1 else 0) }
  else c

/-- Posts the completion of a command in flight (R89, R91). -/
def post (s : State) (c : Cmd) (status : Nat) (result : List Byte) : State :=
  let s := devPuts s (0x1FC000 + 16 * s.rings.ccProd) (entryBytes c status result)
  let r := s.rings
  let s := { s with rings :=
    { r with ccProd := (r.ccProd + 1) % 512, unread := r.unread + 1,
             inflight := (r.inflight.eraseP fun d => d.seq == c.seq).map (tellAborts c.seq (status == 0x20)) } }
  raiseIf (cmdNotify c || 0x10 ≤ status) .cmdDone s

/-- What a command completes with when nothing but the ring decides it: an unknown opcode that may start (R82), a selected command
that has not started (R94), an ABORT whose selected commands have all completed (R95). -/
def ringReply (before : List Cmd) (c : Cmd) : Option Reply :=
  match c.phase with
  | .waiting => if !opcodes.contains (cmdOp c) && mayStart before c then some (0x10, []) else none
  | .abortWaiting =>
    if cmdOp c == 0x01 || (objectFree before c && (!isCellarWrite c || writesDone before c)) then some (0x20, [1]) else none
  | .running =>
    if cmdOp c == 0x02 && c.waitFor.isEmpty then some (0x00, leBytes c.selected 2 ++ leBytes c.abortedCount 2) else none
  | .stopping _ => none

/-- The first command in flight that the ring itself completes. -/
def nextRingReply : List Cmd → List Cmd → Option (Cmd × Reply)
  | _, [] => none
  | before, c :: cs =>
    match ringReply before c with
    | some r => some (c, r)
    | none => nextRingReply (before ++ [c]) cs

/-- Completes every command that the ring itself completes, at most `fuel` of them. -/
def sweepN : Nat → State → State
  | 0, s => s
  | n + 1, s =>
    match nextRingReply [] s.rings.inflight with
    | some (c, r) => sweepN n (post s c r.1 r.2)
    | none => s

def sweep (s : State) : State := sweepN s.rings.inflight.length s

/-- A command in flight completes with a status and result bytes; a sequence that is not in flight changes nothing. -/
def complete (seq status : Nat) (result : List Byte) (s : State) : State :=
  match findCmd s seq with
  | some c => sweep (post s c status result)
  | none => s

/-- A ring command starts: validated in R88's order, it completes at once with the first failure, or runs. -/
def startCmd (s : State) (seq op : Nat) (check : State → Cmd → Option Reply) (run : State → Cmd → State) : State :=
  match startable s seq op with
  | none => s
  | some c =>
    match check s c with
    | some r => complete seq r.1 r.2 s
    | none => run (setPhase s seq .running) c

/-- The running command with this opcode and object word that was issued first. -/
def runningOf (s : State) (op obj : Nat) : Option Cmd :=
  s.rings.inflight.find? fun c => cmdOp c == op && cmdObj c == obj && (c.phase != .waiting && c.phase != .abortWaiting)

/-- The cause a running command was asked to stop for, none when it was not. -/
def stopCause (s : State) (seq : Nat) : Option Nat :=
  match findCmd s seq with
  | some c => match c.phase with
    | .stopping k => some k
    | _ => none
  | none => none

/-- The mode that a change under way leads to, or the mode in force. -/
def newMode (s : State) : Nat := s.modes.target.getD (modeNow s)

/-- The ABORTED reply for a cause: the new MODE_NOW in byte [1] for cause 0x03 (R96, Table 4-8). -/
def abortedReply (s : State) (cause : Nat) : Reply :=
  (0x20, if cause = 3 then [3, lowByte (newMode s)] else [lowByte cause])

/-- A running command ends at a stopping point when it was asked to stop, and otherwise with its own reply. -/
def finish (seq status : Nat) (result : List Byte) (s : State) : State :=
  match stopCause s seq with
  | some k => complete seq (abortedReply s k).1 (abortedReply s k).2 s
  | none => complete seq status result s

/-- The 32 bytes of command-ring entry `n`. -/
def ringEntry (s : State) (n : Nat) : List Byte := memGets s (0x1F8000 + 32 * n) 32

/-- Fetches `k` descriptors in ring order (R80); the password bytes of an UNLOCK are zeroed in the ring (R440). -/
def fetch : Nat → State → State
  | 0, s => s
  | k + 1, s =>
    let r := s.rings
    let desc := ringEntry s r.cqCons
    let c : Cmd := { seq := r.nextSeq, desc := desc, phase := .waiting, selected := 0, abortedCount := 0, waitFor := [],
                     result := [] }
    let s := { s with rings := { r with cqCons := (r.cqCons + 1) % 512, nextSeq := r.nextSeq + 1,
                                        inflight := r.inflight ++ [c] } }
    let s := if cmdOp c == 0x57 then devPuts s (0x1F8000 + 32 * r.cqCons + 9) (List.replicate 8 0) else s
    fetch k s

/-- A write of CQ_PROD_H (R78, Table 4-5). -/
def doorbellWrite (s : State) (v : Byte) : State :=
  let r := s.rings
  let idx := (v.toNat % 2) * 256 + s.port.stagedCqProdL.toNat
  let k := (idx + 512 - r.cqProd) % 512
  if k ≤ r.credits then
    sweep (fetch k { s with rings := { r with cqProd := idx, credits := r.credits - k } })
  else raise .ringFault s

/-- A write of CC_CONS_H (R90). -/
def freeWrite (s : State) (v : Byte) : State :=
  let r := s.rings
  let idx := (v.toNat % 2) * 256 + s.port.stagedCcConsL.toNat
  let m := (idx + 512 - r.ccCons) % 512
  if m ≤ r.unread then { s with rings := { r with ccCons := idx, credits := r.credits + m, unread := r.unread - m } }
  else raise .ringFault s

/-- The rings after a reset (R97). -/
def ringsReset (s : State) : State :=
  { s with rings := {}, port := { s.port with snapCredit := 512, snapFlight := 0, snapUnread := 0 } }

end Sys2Proof.Machine
end

