-- ==== Sys2Proof/Machine/CellarOps.lean ====
section
/-!
DEFINITION. The cellar's logs, record writes, reclaim and recovery (R424 to R430, R443, R444), the shadow array and its banks
(R432 to R437), protection and passwords (R438, R439).
-/
namespace Sys2Proof.Machine

/-! The areas and their logs (Table 19-1) -/

def areaFirst (keyArea : Bool) : Nat := if keyArea then 16 else 32

def areaCount (keyArea : Bool) : Nat := if keyArea then 16 else 224

def logOf (c : Cellar) (keyArea : Bool) : Log := if keyArea then c.keyLog else c.recLog

def setLog (c : Cellar) (keyArea : Bool) (l : Log) : Cellar := if keyArea then { c with keyLog := l } else { c with recLog := l }

def sectorOf (l : Log) (n : Nat) : Sector := tabGet {} l.sectors n

def modSector (l : Log) (n : Nat) (f : Sector → Sector) : Log := { l with sectors := tabMod {} l.sectors n f }

/-- Sectors retired by a failed erase (R430). -/
def badSectors (l : Log) : Nat := (l.sectors.filter fun e => e.2.retired).length

/-- Sectors free for the log's head (R429). -/
def freeSectors (keyArea : Bool) (l : Log) : Nat := areaCount keyArea - l.ring.length - badSectors l

/-- The bytes of a record in flash: a 16-byte header, then payload and CRC-32 to a multiple of 16 (Table 19-10). -/
def recSize (len : Nat) : Nat := 16 + (len + 4 + 15) / 16 * 16

/-- A record is live: committed and not superseded (R426). -/
def recLive (r : Rec) : Bool := r.stage == .committed && !r.superseded

/-- The live record of a key, the latest in the log. -/
def liveRec (l : Log) (key : Nat) : Option Rec := (l.recs.filter fun r => r.key == key && recLive r).getLast?

/-- The bytes of a log's live records. -/
def liveBytes (l : Log) : Nat := ((l.recs.filter recLive).map fun r => recSize r.payload.length).sum

/-- The sectors that records of these sizes fill when each goes to the head sector or, where that cannot hold it, to the next: full
sectors so far, and the bytes used of the last one. A sector holds 4,080 bytes after its header. -/
def packSectors : Nat → Nat → List Nat → Nat
  | n, _, [] => n
  | n, used, x :: xs => if used + x ≤ 4080 then packSectors n (used + x) xs else packSectors (n + 1) x xs

/-- The sectors that a log fills after every possible reclaim, with a new record of a key at its head (R429). -/
def packedSectors (l : Log) (key len : Nat) : Nat :=
  packSectors 1 0 ((((l.recs.filter fun r => recLive r && r.key != key).map fun r => recSize r.payload.length)) ++ [recSize len])

/-- The next free sector of the ring after its head. -/
def nextFree (keyArea : Bool) (l : Log) : Option Nat :=
  let lo := areaFirst keyArea
  let n := areaCount keyArea
  let head := match l.ring.getLast? with
    | some h => h - lo
    | none => n - 1
  ((List.range n).map fun i => lo + (head + 1 + i) % n).find? fun k => !l.ring.contains k && !(sectorOf l k).retired

/-- Makes the next free sector the head; one that is neither erased nor valid is erased first (R443). -/
def openSector (keyArea : Bool) (l : Log) : Log :=
  match nextFree keyArea l with
  | none => l
  | some k =>
    let l := modSector l k fun x =>
      { x with fill := 16, closed := false, dirty := false, erases := x.erases + flagNat x.dirty }
    { l with ring := l.ring ++ [k] }

/-- The head sector takes a record of this size. -/
def headFits (l : Log) (size : Nat) : Bool :=
  match l.ring.getLast? with
  | some h => !(sectorOf l h).closed && (sectorOf l h).fill + size ≤ 4096
  | none => false

/-- Room for a record at the head: the log with the room taken, its sector and offset. -/
def place (keyArea : Bool) (l : Log) (size : Nat) : Option (Log × Nat × Nat) :=
  let l := if headFits l size then l else openSector keyArea l
  if headFits l size then
    match l.ring.getLast? with
    | some h => some (modSector l h (fun x => { x with fill := x.fill + size }), h, (sectorOf l h).fill)
    | none => none
  else none

/-- Copies live records to the head (R429 step 1); none when one finds no room. -/
def copyRecs (keyArea : Bool) : List Rec → Log → Option Log
  | [], l => some l
  | r :: rs, l =>
    match place keyArea l (recSize r.payload.length) with
    | some (l, sec, off) => copyRecs keyArea rs { l with recs := l.recs ++ [{ r with sector := sec, off := off }] }
    | none => none

/-- The erase of the oldest sector has ended: it is free, or retired when the erase does not read back (R429, R430). -/
def freeOldest (ok : Bool) (l : Log) : Log :=
  match l.ring with
  | o :: rest =>
    modSector { l with ring := rest, recs := l.recs.filter fun r => r.sector != o } o fun x =>
      { x with erases := x.erases + 1, fill := 0, closed := false, dirty := false, retired := !ok }
  | [] => l

/-- The oldest sector reclaimed whole: live records copied to the head with their VERSION, the sector erased (R429). A log of one sector has
nothing older than its head, and a sector whose records do not all find room stays as it is: none. -/
def reclaimOldest (keyArea : Bool) (l : Log) : Option Log :=
  match l.ring with
  | o :: _ :: _ => (copyRecs keyArea (l.recs.filter fun r => r.sector == o && recLive r) l).map (freeOldest true)
  | _ => none

/-- A write of this size would leave its log with fewer than two free sectors, so that a reclaim runs inside it (R429). -/
def needsRoom (keyArea : Bool) (l : Log) (size : Nat) : Bool := freeSectors keyArea l - (if headFits l size then 0 else 1) < 2

/-- Reclaims whole sectors for a record that is written during a boot. -/
def makeRoom (keyArea : Bool) (size : Nat) : Nat → Cellar → Cellar
  | 0, c => c
  | n + 1, c =>
    let l := logOf c keyArea
    match if needsRoom keyArea l size then reclaimOldest keyArea l else none with
    | some l => makeRoom keyArea size n { setLog c keyArea l with reclaims := bump 4 c.reclaims 1 }
    | none => c

/-- No room for a record (R429): after every possible reclaim a host record leaves less than 32 KiB of the record area, which is eight
sectors, or a key-area write fewer than two sectors. The Rhatre's own records may use the 32 KiB, down to the two sectors that a reclaim
needs (DESIGN CHOICE, notes/assumptions/81.md). -/
def cellarFull (c : Cellar) (keyArea : Bool) (key len : Nat) : Bool :=
  let l := logOf c keyArea
  let left := areaCount keyArea - badSectors l - packedSectors l key len
  left < (if !keyArea && key < 0x4000 then 8 else 2)

/-- Payload operations: one for each 64-byte flash row the payload touches (R426). -/
def payloadOps (off len : Nat) : Nat := if len = 0 then 0 else (off + 16 + len - 1) / 64 + 1 - (off + 16) / 64

/-- CRC operations: two where the CRC's four bytes cross into the next row. -/
def crcOps (off len : Nat) : Nat := if 60 < (off + 16 + len) % 64 then 2 else 1

/-- VERSION of a key's next record (R426). -/
def nextVersion (l : Log) (key : Nat) : Nat :=
  match liveRec l key with
  | some r => r.version + 1
  | none => 1

/-- Takes room for a record and begins its header operation; none when no sector takes it. -/
def beginRec (c : Cellar) (seq : Option Nat) (keyArea : Bool) (key version : Nat) (tomb : Bool) (payload : List Byte) (retried : Bool) :
    Option Cellar :=
  match place keyArea (logOf c keyArea) (recSize payload.length) with
  | some (l, sec, off) =>
    let r : Rec := { key := key, version := version, tomb := tomb, payload := payload, stage := .torn, superseded := false,
                     crcOk := true, sector := sec, off := off }
    let w : Write := { seq := seq, keyArea := keyArea, opsLeft := payloadOps off payload.length, retried := retried, rec_ := r }
    some { setLog c keyArea l with write := some w }
  | none => none

/-- The next part of a reclaim: a copy of the next live record of its sector begins, with its VERSION, or the sector's erase (R429). A copy
that finds no room ends the reclaim, the original in place. -/
def reclaimNext (r : Reclaim) (c : Cellar) : Cellar :=
  match (logOf c r.keyArea).recs.find? fun x => x.sector == r.sector && recLive x with
  | some x => (beginRec c none r.keyArea x.key x.version x.tomb x.payload false).getD { c with reclaim := none }
  | none => { c with reclaim := some { r with erasing := true } }

/-- A reclaim of a log's oldest sector begins; none where it is the head or its live records do not all find room. -/
def beginReclaim (keyArea forWrite : Bool) (c : Cellar) : Option Cellar :=
  match reclaimOldest keyArea (logOf c keyArea), (logOf c keyArea).ring.head? with
  | some _, some o =>
    let r : Reclaim := { keyArea := keyArea, sector := o, erasing := false, forWrite := forWrite }
    some (reclaimNext r { c with reclaim := some r })
  | _, _ => none

/-- Starts the cellar write that a running command has issued: it waits while a reclaim runs, ends with CELLAR_FULL when there is no room,
and begins a reclaim where it would leave fewer than two free sectors; else its header operation runs (R426, R429). -/
def startWrite (s : State) (seq : Nat) (w : DueWrite) : State :=
  let keyArea : Bool := 0x8000 ≤ w.key
  let l := logOf s.cellar keyArea
  if s.cellar.reclaim.isSome then s
  else if cellarFull s.cellar keyArea w.key w.payload.length then complete seq 0x32 [] s
  else match if needsRoom keyArea l (recSize w.payload.length) then beginReclaim keyArea true s.cellar else none with
    | some c => { s with cellar := c }
    | none => match beginRec s.cellar (some seq) keyArea w.key (nextVersion l w.key) w.tomb w.payload false with
      | some c => { modCmd s seq fun d => { d with due := none } with cellar := c }
      | none => complete seq 0x32 [] s

/-- A command's write joins the order of cellar writes (R87): it waits until every write issued before it has completed. -/
def issueWrite (s : State) (seq key : Nat) (tomb : Bool) (payload : List Byte) : State :=
  modCmd s seq fun c => { c with due := some { key := key, tomb := tomb, payload := payload } }

/-- The first command whose write waits with no write issued before it incomplete. -/
def dueCmd : List Cmd → List Cmd → Option (Cmd × DueWrite)
  | _, [] => none
  | before, c :: cs =>
    match c.due with
    | some w => if noEarlierWrite before then some (c, w) else dueCmd (before ++ [c]) cs
    | none => dueCmd (before ++ [c]) cs

/-- Starts writes that waited for their place, as many as complete at once for want of room and one that does not, or that goes on waiting
for a reclaim. -/
def startDueN : Nat → State → State
  | 0, s => s
  | n + 1, s =>
    match dueCmd [] s.rings.inflight with
    | some (c, w) => startDueN n (startWrite s c.seq w)
    | none => s

/-- Starts the cellar writes whose place in the order has come. -/
def startDue (s : State) : State := startDueN s.rings.inflight.length s

/-- The record's place in the log, and the record of its key before it superseded (R426 step 5). -/
def commitRec (l : Log) (r : Rec) : Log :=
  { l with recs := (l.recs.map fun o => if o.key == r.key && recLive o then { o with superseded := true } else o) ++
      [{ r with stage := .committed }] }

/-- How a record write ended. -/
inductive WriteEnd where
  /-- More operations follow. -/
  | more
  | done (w : Write)
  /-- CELLAR_FAULT (R430), naming the sector. -/
  | failed (w : Write)
  deriving DecidableEq, Repr

/-- One operation of the record write ends with a good read-back (R426). -/
def writeGood (c : Cellar) (w : Write) : Cellar × WriteEnd :=
  let go (st : RecStage) (left : Nat) : Cellar × WriteEnd :=
    ({ c with write := some { w with rec_ := { w.rec_ with stage := st }, opsLeft := left } }, .more)
  let finish : Cellar × WriteEnd :=
    ({ setLog c w.keyArea (commitRec (logOf c w.keyArea) w.rec_) with write := none }, .done w)
  let crc := crcOps w.rec_.off w.rec_.payload.length
  match w.rec_.stage with
  | .torn => if w.opsLeft = 0 then go .payload crc else go .opened w.opsLeft
  | .opened => if w.opsLeft ≤ 1 then go .payload crc else go .opened (w.opsLeft - 1)
  | .payload => if w.opsLeft ≤ 1 then go .crc 0 else go .payload (w.opsLeft - 1)
  | .crc => match liveRec (logOf c w.keyArea) w.rec_.key with
    | some _ => go .committed 0
    | none => finish
  | .commitPart | .committed => finish

/-- One operation's read-back differs: the record is abandoned, its sector closed, and the write repeated once in the next
sector; a second mismatch ends it (R430). -/
def writeBad (c : Cellar) (w : Write) : Cellar × WriteEnd :=
  let l := logOf c w.keyArea
  let l := modSector { l with recs := l.recs ++ [{ w.rec_ with superseded := true }] } w.rec_.sector fun x => { x with closed := true }
  let c := { setLog c w.keyArea l with write := none }
  let failed : Cellar × WriteEnd := ({ c with cellarFaults := bump 2 c.cellarFaults 1 }, .failed w)
  if w.retried then failed
  else
    match beginRec c w.seq w.keyArea w.rec_.key w.rec_.version w.rec_.tomb w.rec_.payload true with
    | some c => (c, .more)
    | none => failed

/-- The open record at a decant, a pin reset or a soft reset: the operation under way finishes (R49, R98, Table 19-7). With its CRC
programmed the operation under way is that of COMMITTED: the record stands committed, in either area, and its SUPERSEDED step is left to
the next boot; with SUPERSEDED under way both are done; any other record is abandoned to the next boot. -/
def settleWrite (c : Cellar) : Cellar :=
  match c.write with
  | none => c
  | some w =>
    let l := logOf c w.keyArea
    let leave (r : Rec) : Cellar := { setLog c w.keyArea { l with recs := l.recs ++ [r] } with write := none }
    match w.rec_.stage with
    | .torn => leave { w.rec_ with stage := .opened }
    | .opened => leave w.rec_
    | .payload => leave { w.rec_ with stage := if w.opsLeft ≤ 1 then .crc else .payload }
    | .crc => leave { w.rec_ with stage := .committed }
    | .commitPart | .committed => { setLog c w.keyArea (commitRec l w.rec_) with write := none }

/-- The open record when power goes without hold-up: the operation under way is cut (Table 19-7). A cut header may be torn; a cut
COMMITTED byte is part-programmed. -/
def cutWrite (s : State) : State :=
  match s.cellar.write with
  | none => s
  | some w =>
    let (k, s) := draw 2 s
    let l := logOf s.cellar w.keyArea
    let st : RecStage := match w.rec_.stage with
      | .torn => if k = 0 then .torn else .opened
      | .crc => .commitPart
      | x => x
    { s with cellar := { setLog s.cellar w.keyArea { l with recs := l.recs ++ [{ w.rec_ with stage := st }] } with write := none } }

/-- A reclaim that a reset, a decant or a loss of power cuts, once its copy is settled as any record: a sector whose erase was cut held only
dead records, and is erased again before it is used (R443, Table 19-7). -/
def cutReclaim (c : Cellar) : Cellar :=
  match c.reclaim with
  | none => c
  | some r =>
    let l := logOf c r.keyArea
    let cut : Log := modSector { l with ring := l.ring.erase r.sector, recs := l.recs.filter fun x => x.sector != r.sector } r.sector
      fun x => { x with dirty := true }
    { (if r.erasing then setLog c r.keyArea cut else c) with reclaim := none }

/-! Boot recovery (R443) -/

/-- What recovery repaired: ROLLED_BACK, COMPLETED, REDONE, CRC_FALLBACKS, KEYS_LOST, and whether it repaired anything. -/
structure Repairs where
  rolledBack : Nat := 0
  completed : Nat := 0
  redone : Nat := 0
  fallbacks : Nat := 0
  lost : Nat := 0
  any : Bool := false
  deriving DecidableEq, Repr

/-- Repairs one record that its writing left unfinished, and closes the sector of a torn header. -/
def repairRec (acc : Log × Repairs) (r : Rec) : Log × Repairs :=
  let (l, n) := acc
  let keep (r : Rec) : Log := { l with recs := l.recs ++ [r] }
  if r.superseded then (keep r, n)
  else match r.stage with
    | .torn => (modSector l r.sector fun x => { x with closed := true }, { n with any := true })
    | .opened | .payload | .crc => (keep { r with superseded := true }, { n with rolledBack := n.rolledBack + 1, any := true })
    | .commitPart =>
      if r.crcOk then (keep { r with stage := .committed }, { n with completed := n.completed + 1, any := true })
      else (keep { r with superseded := true }, { n with rolledBack := n.rolledBack + 1, any := true })
    | .committed => (keep r, n)

/-- Of two live records of one key the higher VERSION stands, and the later place with equal VERSION. -/
def redoRec (acc : List Rec × Repairs) (r : Rec) : List Rec × Repairs :=
  let (rs, n) := acc
  if recLive r && rs.any (fun o => o.key == r.key && recLive o) then
    if rs.any fun o => o.key == r.key && recLive o && r.version < o.version then
      (rs ++ [{ r with superseded := true }], { n with redone := n.redone + 1, any := true })
    else
      ((rs.map fun o => if o.key == r.key && recLive o then { o with superseded := true } else o) ++ [r],
       { n with redone := n.redone + 1, any := true })
  else (rs ++ [r], n)

/-- The newest earlier record of a key whose CRC checks stands again. -/
def restoreBefore (key : Nat) : List Rec → List Rec × Bool
  | [] => ([], false)
  | r :: rs =>
    if r.key == key && r.stage == .committed && r.superseded && r.crcOk then ({ r with superseded := false } :: rs, true)
    else (r :: (restoreBefore key rs).1, (restoreBefore key rs).2)

/-- A live record whose CRC fails falls back to the newest earlier good one of its key (R443). -/
def fallbackRec (acc : List Rec × Repairs) (r : Rec) : List Rec × Repairs :=
  let (rs, n) := acc
  if recLive r && !r.crcOk then
    let (back, found) := restoreBefore r.key rs.reverse
    let dead := { r with superseded := true }
    if found then (back.reverse ++ [dead], { n with fallbacks := n.fallbacks + 1, any := true })
    else (rs ++ [dead], { n with lost := n.lost + 1, any := true })
  else (rs ++ [r], n)

/-- Recovery of one log. -/
def recoverLog (l : Log) (n : Repairs) : Log × Repairs :=
  let (l, n) := l.recs.foldl repairRec ({ l with recs := [] }, n)
  let (rs, n) := l.recs.foldl redoRec ([], n)
  let (rs, n) := rs.foldl fallbackRec ([], n)
  ({ l with recs := rs }, n)

/-! The shadow array (R432) -/

def shadowGet (c : Cellar) (a k : Nat) : Nat := leNat (cellGets c.shadow a k)

/-- Marks the pages that a run of bytes touches as written. -/
def markPages (w : BitVec 128) (a n : Nat) : BitVec 128 :=
  (List.range (if n = 0 then 0 else (a + n - 1) / 64 + 1 - a / 64)).foldl (fun w i => w ||| (1#128 <<< (a / 64 + i))) w

/-- The Rhatre writes `k` bytes of the device part; a changed byte sets DIRTY (R435). -/
def shadowSet (c : Cellar) (a k v : Nat) : Cellar :=
  { c with shadow := cellPuts c.shadow a (leBytes v k), written := markPages c.written a k,
           dirty := c.dirty || shadowGet c a k != v % 256 ^ k }

/-- The newer valid bank (R436): none, or whether it is B. -/
def newerBank (c : Cellar) : Option Bool :=
  match c.bankA.valid, c.bankB.valid with
  | false, false => none
  | true, false => some false
  | false, true => some true
  | true, true => some (c.bankA.seq < c.bankB.seq)

def bankOf (c : Cellar) (b : Bool) : Bank := if b then c.bankB else c.bankA

def setBank (c : Cellar) (b : Bool) (x : Bank) : Cellar := if b then { c with bankB := x } else { c with bankA := x }

/-- SEQ of the newer valid bank, 0 with none. -/
def newerSeq (c : Cellar) : Nat :=
  match newerBank c with
  | some b => (bankOf c b).seq
  | none => 0

/-- Begins a store (R435): STORES advances, the array is taken, DIRTY clears, the older bank's erase runs. -/
def beginStore (c : Cellar) (seq : Option Nat) : Cellar :=
  let d := c.dirty
  let c := { shadowSet c 0x1C58 4 (bump 4 (shadowGet c 0x1C58 4) 1) with dirty := d }
  let b := match newerBank c with
    | some b => !b
    | none => false
  let bank := bankOf c b
  { setBank c b { bank with valid := false, erases := bank.erases + 1 } with
    dirty := false
    store := some { seq := seq, bankB := b, newSeq := newerSeq c + 1, data := c.shadow, written := c.written,
                    erases := bank.erases + 1, opsLeft := 131, wasValid := bank.valid } }

/-- The bank that a complete store leaves (R435 step 5). -/
def endStore (c : Cellar) (t : Store) : Cellar :=
  { setBank c t.bankB { valid := true, seq := t.newSeq, data := t.data, written := t.written, erases := t.erases } with
    store := none, lastBankB := t.bankB }

/-- The store under way when the part stops with its operation allowed to finish: complete once its SEQ operation runs, and
otherwise abandoned with the bank left invalid (Table 19-7). -/
def settleStore (c : Cellar) : Cellar :=
  match c.store with
  | some t => if t.opsLeft ≤ 1 then endStore c t else { c with store := none }
  | none => c

/-- Boot step 4 (R436): the newer valid bank is loaded and the other repaired; whether anything was repaired. -/
def loadBanks (c : Cellar) : Cellar × Bool :=
  match newerBank c with
  | none => ({ c with shadow := [], written := 0, shadowLost := true, dirty := false }, true)
  | some b =>
    let x := bankOf c b
    let c := { c with shadow := x.data, written := x.written, shadowLost := false, dirty := false, lastBankB := b }
    let o := bankOf c !b
    if o.valid then (c, false)
    else (setBank c (!b) { x with erases := o.erases + 1 }, true)

/-! Keys, protection and passwords -/

/-- How a key may be reached (Table 19-2). -/
inductive KeyClass where
  | host | own | pairing | issuer | password | factory | none
  deriving DecidableEq, Repr

def keyClass (k : Nat) : KeyClass :=
  if k < 0x4000 then .host
  else if k = 0x4000 || k = 0x4001 || (0x4010 ≤ k && k ≤ 0x4013) then .own
  else if 0x8000 ≤ k && k < 0x8080 then .pairing
  else if 0x8100 ≤ k && k < 0x8110 then .issuer
  else if 0x8200 ≤ k && k < 0x8206 then .password
  else if k = 0xF000 || (0xF010 ≤ k && k ≤ 0xF012) || k = 0xF020 || k = 0xF030 || k = 0xF031 || k = 0xF040 then .factory
  else .none

/-- VERSION and content of a key: its live record unless a tombstone, or its factory item when its CRC checks (R442). -/
def keyContent (c : Cellar) (k : Nat) : Option (Nat × List Byte) :=
  if 0xF000 ≤ k then
    match c.factory.find? fun e => e.1 == k with
    | some (_, f) => if f.crcOk then some (f.version, f.content) else none
    | none => none
  else
    match liveRec (logOf c (0x8000 ≤ k)) k with
    | some r => if r.tomb then none else some (r.version, r.payload)
    | none => none

/-- FRACTION of a region: 0 record, 1 shadow, 2 key (key 0x4001, Table 19-6). -/
def fraction (c : Cellar) (region : Nat) : Nat :=
  match keyContent c 0x4001 with
  | some (_, p) => byteAt p 0 / 4 ^ region % 4
  | none => 0

/-- Record keys, or shadow addresses, below this are protected (Table 19-6). -/
def protectedBelow (shadow : Bool) : Nat → Nat
  | 0 => 0
  | 1 => if shadow then 0x800 else 0x1000
  | 2 => if shadow then 0x1000 else 0x2000
  | _ => if shadow then 0x1400 else 0x4000

/-- A region has a password for an access: 0 read, 1 write. -/
def hasPassword (c : Cellar) (region access : Nat) : Bool := (keyContent c (0x8200 + 2 * region + access)).isSome

/-- A region is locked for an access (R439). -/
def locked (c : Cellar) (region access : Nat) : Bool :=
  hasPassword c region access && !c.unlocked.getLsbD (2 * region + access)

/-- Relocks both accesses of a region. -/
def relock (c : Cellar) (region : Nat) : Cellar := { c with unlocked := c.unlocked &&& ~~~(3#6 <<< (2 * region)) }

/-- PROTECTED with its region and ground (Table 19-9). -/
def refuse (region ground : Nat) : List Byte := [lowByte region, lowByte ground]

end Sys2Proof.Machine
end

