-- ==== Sys2Proof/Machine/TimeOps.lean ====
section
/-!
DEFINITION. The calendar over the system counter (R335, R345, R346), the votes and the consensus (R338 to R343).
-/
namespace Sys2Proof.Machine

/-! Dates (R345) -/

def leapYear (y : Nat) : Bool := (y % 4 == 0 && y % 100 != 0) || y % 400 == 0

def yearDays (y : Nat) : Nat := if leapYear y then 366 else 365

def monthDays (m y : Nat) : Nat :=
  match m with
  | 2 => if leapYear y then 29 else 28
  | 4 | 6 | 9 | 11 => 30
  | _ => 31

/-- The year that holds day `d` of the years from `y` on, and the day within it. -/
def splitYears : Nat → Nat → Nat → Nat × Nat
  | 0, y, d => (y, d)
  | n + 1, y, d => if yearDays y ≤ d then splitYears n (y + 1) (d - yearDays y) else (y, d)

/-- The month that holds day `d` of the months from `m` on, and the day within it. -/
def splitMonths : Nat → Nat → Nat → Nat → Nat × Nat
  | 0, m, _, d => (m, d)
  | n + 1, m, y, d => if monthDays m y ≤ d then splitMonths n (m + 1) y (d - monthDays m y) else (m, d)

/-- Year, month and day of an MJD from 51,544 to 124,592; later days freeze at 31 December 2199 (R346). -/
def civil (mjd : Nat) : Nat × Nat × Nat :=
  let (y, d) := splitYears 200 2000 (min mjd 124592 - 51544)
  let (m, d) := splitMonths 12 1 y d
  (y, m, d + 1)

/-- 1 Monday to 7 Sunday (R345); frozen at a Tuesday past 2199 (R346). -/
def weekday (mjd : Nat) : Nat := (min mjd 124592 + 2) % 7 + 1

/-- Days of the years from 2000 up to `y`. -/
def daysBefore : Nat → Nat
  | 0 => 0
  | n + 1 => daysBefore n + yearDays (2000 + n)

/-- Days of the months of `y` up to `m`. -/
def daysInMonths : Nat → Nat → Nat
  | 0, _ => 0
  | m + 1, y => if m = 0 then 0 else daysInMonths m y + monthDays m y

/-- The MJD of a date from 2000 on. -/
def mjdOf (y m d : Nat) : Nat := 51544 + daysBefore (y - 2000) + daysInMonths m y + (d - 1)

/-- The date exists, in 2000 to 2199. -/
def dateOk (y m d : Nat) : Bool := 2000 ≤ y && y ≤ 2199 && 1 ≤ m && m ≤ 12 && 1 ≤ d && d ≤ monthDays m y

/-- The MJD of the last day of the month that holds an MJD. -/
def monthEnd (mjd : Nat) : Nat :=
  let (y, m, d) := civil mjd
  mjd + (monthDays m y - d)

/-! The calendar -/

/-- Counts of a day. -/
def countsPerDay : Nat := 86400 * countsPerSecond

/-- The calendar C = S + CAL_OFFSET, in counts (R335). -/
def calendarNow (s : State) : Int := (s.clocks.sc : Int) + s.time.offset

/-- UTC at a stamp, in counts. -/
def calendarAt (s : State) (stamp : Nat) : Int := (stamp : Int) + s.time.offset

/-- A UTC instant as counts. -/
def utcCounts (mjd sod : Nat) : Int := ((mjd * 86400 + sod) * countsPerSecond : Nat)

/-- MJD of a calendar count. -/
def mjdAt (c : Int) : Nat := (c / (countsPerDay : Nat)).toNat

/-- Second of day of a calendar count. -/
def sodAt (c : Int) : Nat := (c % (countsPerDay : Nat)).toNat / countsPerSecond

/-- LEAP_HOLD is live: the second that began at the leap (R344). -/
def inLeapHold (s : State) : Bool := s.time.leapHold && s.clocks.sc < s.time.leapHoldEnd

/-- Byte 0x00 of the calendar block (Table 15-5). -/
def timeState (s : State) : Nat :=
  let t := s.time
  t.source * 32 + flagNat t.consensusEn * 16 + flagNat (inLeapHold s) * 8 + flagNat t.leapPending * 4 + flagNat t.calRange * 2
    + flagNat t.valid

/-- The date and weekday of a snapshot (Table 15-5). Before MJD 51,544 the spec gives no date: those four are free values. -/
def snapshotDate (mjd : Nat) (s : State) : Nat × Nat × Nat × Nat :=
  if mjd < 51544 then
    (Config.freeNat s.fresh % 65536, Config.freeNat (s.fresh + 1) % 256, Config.freeNat (s.fresh + 2) % 256,
      Config.freeNat (s.fresh + 3) % 256)
  else ((civil mjd).1, (civil mjd).2.1, (civil mjd).2.2, weekday mjd)

/-- The calendar snapshot, bytes 0x40 to 0x52 (R336). -/
def takeSnapshot (s : State) : State :=
  let c := calendarNow s
  let mjd := mjdAt c
  let sod := sodAt c
  let frac := (c % (countsPerSecond : Nat)).toNat
  let d := snapshotDate mjd s
  let bytes := leBytes mjd 4 ++ leBytes sod 3 ++ [lowByte d.2.2.2] ++ leBytes frac 3 ++ [lowByte (timeState s)] ++ leBytes d.1 2 ++
    [lowByte d.2.1, lowByte d.2.2.1, lowByte (sod / 3600), lowByte (sod / 60 % 60), lowByte (sod % 60)]
  { s with time := { s.time with snapshot := bytes }, fresh := if mjd < 51544 then s.fresh + 4 else s.fresh }

/-! TIME_CAUSE -/

/-- Sets a TIME_CAUSE bit; one that becomes 1 raises TIME_EVENT (R341). -/
def setCause (k : Nat) (s : State) : State :=
  raiseIf (!s.time.cause.getLsbD k) .timeEvent { s with time := { s.time with cause := orBit s.time.cause k } }

def setCauseIf (c : Bool) (k : Nat) (s : State) : State := if c then setCause k s else s

/-- Drops the votes. -/
def dropVotes (s : State) : State := { s with time := { s.time with votes := [] } }

/-- The calendar becomes invalid with a cause (R337). -/
def invalidate (cause : Nat) (s : State) : State :=
  setCause 1 { s with time := { s.time with valid := false, invalidCause := cause } }

/-! The consensus (R339 to R341) -/

def weightOf (t : Time) (kind : Nat) : Nat := tabGet 0 t.weights kind

/-- A vote is current: it has not passed VOTE_LIFE (R339). -/
def voteCurrent (s : State) (v : Vote) : Bool := v.current && s.clocks.sc - v.stamp ≤ s.time.voteLife * countsPerSecond

/-- The current votes with their kinds. -/
def currentVotes (s : State) : List (Nat × Vote) := s.time.votes.filter fun e => voteCurrent s e.2 && 0 < weightOf s.time e.1

/-- A vote's leap status; unknown for 24 h after a leap has been applied (R343). -/
def leapStatus (s : State) (v : Vote) : Nat :=
  match s.time.leapAt with
  | some t => if s.clocks.sc - t < countsPerDay then 0 else v.leap
  | none => v.leap

/-- Every selection of a list's elements. -/
def selections {α : Type} : List α → List (List α)
  | [] => [[]]
  | x :: xs => (selections xs).map (x :: ·) ++ selections xs

/-- The span of a set of votes' offsets, in counts. -/
def offsetSpan (g : List (Nat × Vote)) : Nat :=
  match g with
  | [] => 0
  | v :: vs =>
    let hi := vs.foldl (fun m w => max m w.2.offset) v.2.offset
    let lo := vs.foldl (fun m w => min m w.2.offset) v.2.offset
    (hi - lo).toNat

/-- Offsets within AGREE of each other. -/
def agrees (t : Time) (span : Nat) : Bool := span * 1000 ≤ t.agreeMs * countsPerSecond

/-- The highest weight in a set. -/
def topWeight (t : Time) (g : List (Nat × Vote)) : Nat := g.foldl (fun m v => max m (weightOf t v.1)) 0

/-- `a` is the better agreeing set: larger, then holding the higher weight, then of smaller span. -/
def betterSet (t : Time) (a b : List (Nat × Vote)) : Bool :=
  if a.length != b.length then b.length < a.length
  else if topWeight t a != topWeight t b then topWeight t b < topWeight t a
  else offsetSpan a < offsetSpan b

/-- Those that none of the others beats. -/
def unbeaten {α : Type} (better : α → α → Bool) (xs : List α) : List α := xs.filter fun a => !xs.any fun b => better b a

/-- One of several: the only one, or one by a free value where the spec does not say which (DESIGN CHOICE, notes/assumptions/107.md). -/
def pickOne {α : Type} (xs : List α) (s : State) : Option α × State :=
  match xs with
  | [] => (none, s)
  | [x] => (some x, s)
  | xs =>
    let (k, s) := draw xs.length s
    (xs[k]?, s)

/-- The sets of the votes that R340 ranks first: agreeing, none better. -/
def agreeingSets (t : Time) (v : List (Nat × Vote)) : List (List (Nat × Vote)) :=
  unbeaten (betterSet t) ((selections v).filter fun g => agrees t (offsetSpan g))

/-- `a` is the better vote: higher weight, then smaller uncertainty, then later stamp. -/
def betterVote (t : Time) (a b : Nat × Vote) : Bool :=
  if weightOf t a.1 != weightOf t b.1 then weightOf t b.1 < weightOf t a.1
  else if a.2.uncMs != b.2.uncMs then a.2.uncMs < b.2.uncMs
  else b.2.stamp < a.2.stamp

/-- LAST_STEP for a new offset: the change, saturating at 32 bits, or 0 from an invalid calendar (R341). -/
def stepTo (t : Time) (offset : Int) : Int := if t.valid then satInt 4 (offset - t.offset) else 0

/-- R343: an applied result sets or clears LEAP_PENDING by its majority status; none known leaves it. -/
def applyLeap (t : Time) (best : Vote) (announce known : Bool) : Time :=
  if !known then t
  else if announce then
    { t with leapPending := true, leapTarget := monthEnd (mjdAt (best.offset + (best.stamp : Int))) }
  else { t with leapPending := false }

/-- R341: applies the best vote of an agreeing set; `dissent`, some vote taking part lay outside it. -/
def applyBest (s : State) (kind : Nat) (best : Vote) (g : List (Nat × Vote)) (dissent announce known : Bool) : State :=
  let t := s.time
  let votes := t.votes.map fun e => (e.1, { e.2 with inGroup := g.any fun w => w.1 == e.1 })
  let t' := { t with
    lastStep := stepTo t best.offset, offset := best.offset, valid := true, source := kind, invalidCause := 0,
    lastSetSc := s.clocks.sc, sets := bump 2 t.sets 1, votes := votes }
  setCauseIf dissent 4 (setCause 0 { s with time := applyLeap t' best announce known })

/-- An evaluation of the votes (R340): the state after it, and whether it set the calendar. -/
def evaluateVotes (s : State) : State × Bool :=
  let v := currentVotes s
  let known := v.filter fun e => leapStatus s e.2 != 0
  let announce := (known.filter fun e => leapStatus s e.2 == 1).length < (known.filter fun e => leapStatus s e.2 == 2).length
  let aside (e : Nat × Vote) : Bool := leapStatus s e.2 != 0 && (leapStatus s e.2 == 2) != announce
  let t := s.time
  let votes := t.votes.map fun e => (e.1, { e.2 with setAside := v.any (fun w => w.1 == e.1) && aside e })
  let s := { s with time := { t with votes := votes, leapIgnored := bump 2 t.leapIgnored (v.filter aside).length } }
  let part := v.filter fun e => !aside e
  let (set, s) := pickOne (agreeingSets t part) s
  let g := set.getD []
  let (first, s) := pickOne (unbeaten (betterVote t) g) s
  match first with
  | some (kind, best) =>
    if g.length < t.quorum || 2 * g.length ≤ part.length then
      ({ s with time := { s.time with noQuorum := bump 2 t.noQuorum 1 } }, false)
    else (applyBest s kind best g (g.length < part.length) announce (!known.isEmpty), true)
  | none => ({ s with time := { s.time with noQuorum := bump 2 t.noQuorum 1 } }, false)

/-- A time handed over that becomes no vote (R338). -/
def refuseVote (s : State) : State := { s with time := { s.time with votesRefused := bump 2 s.time.votesRefused 1 } }

/-- A time handed to the time unit (R338): UTC in counts at STAMP, its lane, uncertainty and leap status. -/
def takeVote (kind lane : Nat) (utc : Int) (stamp uncMs leap : Nat) (s : State) : State :=
  if weightOf s.time kind = 0 then refuseVote s
  else
    let t := s.time
    let offset := utc - (stamp : Int)
    let dissent := match t.votes.find? fun e => e.1 == kind with
      | some (_, old) => !agrees t (offset - old.offset).natAbs
      | none => false
    let v : Vote := { lane := lane, uncMs := uncMs, leap := leap, offset := offset, stamp := stamp, current := true }
    let t := { t with votes := tabSet t.votes kind v, votesIn := bump 2 t.votesIn 1,
                      dissents := bump 2 t.dissents (flagNat dissent) }
    let s := { s with time := t }
    if t.consensusEn then (evaluateVotes s).1 else s

end Sys2Proof.Machine
end

