-- ==== Sys2Proof/Machine/SlotOps.lean ====
section
/-!
DEFINITION. What a slot takes and how its records reach its ring (R320 to R326), and the assembly and the checks of signed
envelopes (R327 to R332).
-/
namespace Sys2Proof.Machine

/-! Items -/

/-- The bytes of an item: the header of Table 11-7, then its payload. -/
def itemBytes (it : Item) : List Byte :=
  [lowByte it.kind, lowByte it.lane] ++ leBytes it.gen 2 ++ leBytes it.iseq 4 ++ leBytes it.stamp 8 ++ it.payload

/-- The DRM stream or DAB sub-channel an item names (Table 12-9), or the one an ENGINE_EVENT of causes 5 to 8 names. -/
def itemStream (it : Item) : Option Nat :=
  if [0x33, 0x34, 0x35, 0x42, 0x43, 0x44, 0x45].contains it.kind then some (byteAt it.payload 2)
  else if (it.kind == 0x37 || it.kind == 0x47) && [5, 6, 7, 8].contains (byteAt it.payload 0) then some (byteAt it.payload 1)
  else none

/-- The packet ID or packet address an item names. -/
def itemSub (it : Item) : Option Nat :=
  if it.kind == 0x35 || it.kind == 0x45 then some (fieldAt it.payload 4 2) else none

/-- The KIND_MASK bit of an item's class (Table 14-2). -/
def itemClass (kind : Nat) : Option Nat :=
  match kind with
  | 0x10 => some 1 | 0x11 => some 2 | 0x12 => some 3 | 0x13 => some 4 | 0x14 => some 5 | 0x20 => some 6
  | 0x30 => some 7 | 0x31 => some 8 | 0x32 => some 9 | 0x33 => some 10 | 0x34 => some 11 | 0x35 => some 12
  | 0x40 => some 13 | 0x41 => some 14 | 0x42 => some 15 | 0x43 => some 16 | 0x44 => some 17 | 0x45 => some 18
  | 0x37 | 0x47 => some 19
  | _ => none

/-- A narrower passes a field: at its "any" value, or equal; an item without the field passes (R320). -/
def narrows (any want : Nat) (field : Option Nat) : Bool :=
  match field with
  | some v => want == any || want == v
  | none => true

/-- The engine's refusal of a sub-channel, or a stream that left, named by the slot's STREAM (R320). -/
def namesStream (x : Slot) (it : Item) : Bool :=
  (it.kind == 0x37 || it.kind == 0x47) && (byteAt it.payload 0 == 0x07 || byteAt it.payload 0 == 0x08)
    && byteAt it.payload 1 == x.stream

/-- A RAW slot takes an item of its source lane (R320). -/
def rawTakes (x : Slot) (it : Item) : Bool :=
  if it.kind == 0x50 then x.kindMask != 1
  else
    namesStream x it ||
    ((match itemClass it.kind with
      | some k => bit x.kindMask k
      | none => false) &&
     narrows 0xFF x.stream (itemStream it) && narrows 0xFFFF x.sub (itemSub it) &&
     narrows 0xFF x.groupType (if it.kind == 0x10 then some (byteAt it.payload 12) else none) &&
     narrows 0 x.aid (if it.kind == 0x10 then some (fieldAt it.payload 14 2) else none))

/-! Delivery rings (R322 to R326) -/

def ringSize (x : Slot) : Nat := 2 ^ x.ringLog2

/-- Bytes written and not freed (R324). -/
def ringWritten (x : Slot) : Nat := (x.prod + 2 ^ 32 - x.cons) % 2 ^ 32

/-- Bytes written into a ring from the place that PROD names, continuing at its start. -/
def ringPut (s : State) (x : Slot) (bs : List Byte) : State :=
  let at_ := x.prod % ringSize x
  let first := bs.take (ringSize x - at_)
  devPuts (devPuts s (x.ringBase + at_) first) x.ringBase (bs.drop (ringSize x - at_))

/-- Sets a slot's WAKE_PEND bit and SLOT_EVENT. -/
def wakeSlot (s : State) (n : Nat) : State := raise .slotEvent (modSlot s n fun x => { x with wake := true })

/-- The kinds that wake a slot of WAKE_MODE 3 (R326). -/
def wakesThree (rtype kind : Nat) : Bool := rtype == 3 || (rtype == 1 && [0x13, 0x20, 0x32, 0x41, 0x50, 0x37, 0x47].contains kind)

/-- The bytes of a record: header, body, padding to a multiple of 8 (Table 14-3). -/
def recordBytes (x : Slot) (rtype : Nat) (noTime : Bool) (body : List Byte) : List Byte :=
  let len := (8 + body.length + 7) / 8 * 8
  leBytes len 2 ++ [lowByte rtype, lowByte (flagNat x.gap + 2 * flagNat noTime)] ++ leBytes x.rseqNext 4 ++ body ++
    List.replicate (len - 8 - body.length) 0

/-- A record written wakes its slot, by WAKE_MODE (R326). -/
def recordWakes (x : Slot) (rtype kind written : Nat) : Bool :=
  match x.wakeMode with
  | 0 => false
  | 1 => true
  | 2 => x.wakeFill ≤ written
  | _ => wakesThree rtype kind

/-- The ring has room for `len` bytes more (R325). -/
def recordFits (x : Slot) (len : Nat) : Bool := ringWritten x + len ≤ ringSize x

/-- Writes a record that fits (R322). -/
def writeRecord (s : State) (n rtype kind : Nat) (bytes : List Byte) : State :=
  let x := slotOf s n
  let s := modSlot (ringPut s x bytes) n fun x =>
    { x with prod := (x.prod + bytes.length) % 2 ^ 32, rseqNext := (x.rseqNext + 1) % 2 ^ 32, records := bump 4 x.records 1,
             gap := false }
  if recordWakes x rtype kind (ringWritten x + bytes.length) then wakeSlot s n else s

/-- Loses a record whole when the free space is too small (R325). -/
def loseRecord (s : State) (n : Nat) (bytes : List Byte) : State :=
  let t := modSlot s n fun x =>
    { x with overflowRecords := bump 4 x.overflowRecords 1, overflowBytes := bump 4 x.overflowBytes bytes.length,
             rseqNext := (x.rseqNext + 1) % 2 ^ 32, gap := true }
  if (slotOf s n).wakeMode = 0 then t else wakeSlot t n

/-- Writes a record to a slot's ring, or loses it: the state, and whether the record was written. -/
def putRecord (s : State) (n rtype kind : Nat) (noTime : Bool) (body : List Byte) : State × Bool :=
  let bytes := recordBytes (slotOf s n) rtype noTime body
  if recordFits (slotOf s n) bytes.length then (writeRecord s n rtype kind bytes, true) else (loseRecord s n bytes, false)

/-- Slots deliver in LISTEN, FOLLOW and PLAY, and those of KT_LANE during a KEEPTIME listen (R333). -/
def slotsDeliver (s : State) (lane : Nat) : Bool :=
  [3, 4, 5].contains (modeNow s) || (modeNow s == 2 && s.modes.ktEnd.isSome && lane == s.modes.ktLaneUsed)

/-- The numbers of the open slots that name a source lane and satisfy a condition. -/
def slotsOf (s : State) (lane : Nat) (p : Slot → Bool) : List Nat :=
  (s.slots.slots.filter fun e => e.2.isOpen && !e.2.suspended && e.2.srcLane == lane && p e.2).map (·.1)

/-- Delivers an item of a host-bound lane to every RAW slot that takes it (R320). -/
def deliverRaw (it : Item) (s : State) : State :=
  if slotsDeliver s it.lane then
    forAll (slotsOf s it.lane fun x => x.policy == 0 && rawTakes x it)
      (fun s n => (putRecord s n 1 it.kind false (itemBytes it)).1) s
  else s

/-- Delivers a threshold event, Table 10-12, to every RAW slot that takes the class (R243). -/
def deliverEvent (lane : Nat) (body : List Byte) (s : State) : State :=
  if slotsDeliver s lane then
    forAll (slotsOf s lane fun x => x.policy == 0 && bit x.kindMask 0) (fun s n => (putRecord s n 2 0 false body).1) s
  else s

/-! Signed envelopes (R327 to R331) -/

/-- The slot names the carrier of an envelope. -/
def namesCarrier (x : Slot) (e : SdeEnv) : Bool :=
  x.isOpen && x.policy != 0 && x.srcLane == e.lane &&
    (if e.carrier == 1 then x.aid == 0 || x.aid == e.aid
     else (x.stream == 0xFF || x.stream == e.stream) && (x.sub == 0xFFFF || x.sub == e.sub))

/-- Two envelopes have one carrier address. -/
def sameCarrier (a b : SdeEnv) : Bool :=
  a.carrier == b.carrier && a.lane == b.lane && a.aid == b.aid && a.stream == b.stream && a.sub == b.sub

def namingSlots (s : State) (e : SdeEnv) : List Nat := (s.slots.slots.filter fun x => namesCarrier x.2 e).map (·.1)

/-- An envelope lost before its checks: each slot that names its carrier counts it and has a GAP (R331, R333). -/
def dropEnvelope (s : State) (e : SdeEnv) : State :=
  forAll (namingSlots s e)
    (fun s n => modSlot s n fun x => { x with verifyDrops := bump 2 x.verifyDrops 1, gap := true }) s

/-- An envelope completes assembly: it waits for the security engine, or is dropped past 16 in all or 4 of its carrier (R331). -/
def queueEnvelope (e : SdeEnv) (s : State) : State :=
  if (namingSlots s e).isEmpty then s
  else if 16 ≤ s.slots.waiting.length || 4 ≤ (s.slots.waiting.filter (sameCarrier e)).length then dropEnvelope s e
  else { s with slots := { s.slots with waiting := s.slots.waiting ++ [e] } }

/-- Counts an abandoned envelope (R327). -/
def countAbandoned (k : Nat) (s : State) : State :=
  { s with slots := { s.slots with assemblyAbandoned := bump 4 s.slots.assemblyAbandoned k } }

/-- The length an envelope's own bytes give it, once bytes 20 and 21 are known. -/
def envelopeLength (bs : List Byte) : Nat := 86 + fieldAt bs 20 2

/-- An envelope carried whole by a DRM data unit or the data field of a DAB data group (R327). -/
def takeWhole (carrier lane stream sub stamp iseq : Nat) (bytes : List Byte) (s : State) : State :=
  let e : SdeEnv := { carrier := carrier, lane := lane, aid := 0, stream := stream, sub := sub,
                      lengthOk := 22 ≤ bytes.length && bytes.length == envelopeLength bytes,
                      stamp := stamp, iseq := iseq, bytes := bytes }
  if (namingSlots s e).isEmpty then s
  else if 22 ≤ bytes.length && 2048 < fieldAt bytes 20 2 then countAbandoned 1 s
  else queueEnvelope e s

/-- Removes an envelope in assembly. -/
def dropAssembly (lane aid : Nat) (s : State) : State :=
  { s with slots := { s.slots with assembling := s.slots.assembling.filter fun a => !(a.lane == lane && a.aid == aid) } }

/-- Some open slot takes the envelopes of an RDS lane's AID. -/
def wantsAid (s : State) (lane aid : Nat) : Bool :=
  s.slots.slots.any fun e => e.2.isOpen && e.2.policy != 0 && e.2.srcLane == lane && (e.2.aid == 0 || e.2.aid == aid)

/-- An envelope in assembly after one more fragment: complete, abandoned, or waiting for the next. One begun while 64 are in assembly is abandoned
and counted as such, since nothing is lost silently (R32; DESIGN CHOICE, notes/assumptions/106.md). -/
def stepAssembly (a : SdeAsm) (stamp iseq : Nat) (s : State) : State :=
  let s := dropAssembly a.lane a.aid s
  let total := envelopeLength a.bytes
  if 22 ≤ a.bytes.length && 2048 < fieldAt a.bytes 20 2 then countAbandoned 1 s
  else if 22 ≤ a.bytes.length && total ≤ a.bytes.length then
    let e : SdeEnv := { carrier := 1, lane := a.lane, aid := a.aid, stream := 0, sub := 0,
                        lengthOk := (a.bytes.drop total).all (· == 0), stamp := stamp, iseq := iseq, bytes := a.bytes.take total }
    queueEnvelope e s
  else if s.slots.assembling.length < 64 then { s with slots := { s.slots with assembling := s.slots.assembling ++ [a] } }
  else countAbandoned 1 s

/-- An RDS group of an ODA's A version: FIRST starts an envelope, each later group continues it (R327). `it` is its item, its blocks most
significant byte first (R2). -/
def takeFragment (it : Item) (s : State) : State :=
  let aid := fieldAt it.payload 14 2
  let even := byteAt it.payload 12 % 2 == 0
  if aid = 0 || !even || !wantsAid s it.lane aid then s
  else
    let good := ((it.payload.drop 8).take 4).all fun b => b.toNat < 128
    let blockB := byteAt it.payload 2 * 256 + byteAt it.payload 3
    let frag := (it.payload.drop 4).take 4
    let old := s.slots.assembling.find? fun a => a.lane == it.lane && a.aid == aid
    let s := if old.isSome && (bit blockB 4 || !good) then countAbandoned 1 (dropAssembly it.lane aid s) else s
    if !good then s
    else if bit blockB 4 then
      stepAssembly { lane := it.lane, aid := aid, next := (blockB % 16 + 1) % 16, bytes := frag } it.stamp it.iseq s
    else match old with
      | some a =>
        if a.next == blockB % 16 then
          stepAssembly { a with next := (a.next + 1) % 16, bytes := a.bytes ++ frag } it.stamp it.iseq s
        else countAbandoned 1 (dropAssembly it.lane aid s)
      | none => s

/-- Abandons the envelopes a lane is assembling (R327). -/
def abandonLane (lane : Nat) (s : State) : State :=
  let gone := (s.slots.assembling.filter fun a => a.lane == lane).length
  countAbandoned gone { s with slots := { s.slots with assembling := s.slots.assembling.filter fun a => a.lane != lane } }

/-- Delivers an item of a host-bound lane: to the RAW slots, and an RDS group or a DRM data unit to the envelope slots. A DAB
data group's envelope is its data field, at `field` (offset, length) in its bytes. -/
def deliverItem (it : Item) (field : Option (Nat × Nat)) (s : State) : State :=
  let s := deliverRaw it s
  if !slotsDeliver s it.lane then s
  else if it.kind == 0x10 then takeFragment it s
  else if it.kind == 0x35 then
    takeWhole 2 it.lane (byteAt it.payload 2) (fieldAt it.payload 4 2) it.stamp it.iseq
      ((it.payload.drop 8).take (fieldAt it.payload 0 2)) s
  else match field with
    | some (off, len) =>
      if it.kind == 0x45 then
        takeWhole 3 it.lane (byteAt it.payload 2) (fieldAt it.payload 4 2) it.stamp it.iseq ((it.payload.drop (8 + off)).take len) s
      else s
    | none => s

/-- What the security engine finds of an envelope for a slot (Table 14-4). -/
inductive Verdict where
  | malformed | issuerRefused | filtered | repeated | noTime | notYet | expired | badSignature
  /-- Every check passed; with the calendar invalid under TIME_RULE 1 the record carries NO_TIME. -/
  | verified
  deriving DecidableEq, Repr

/-- The VERDICT byte (Table 14-5); filtered and repeated envelopes have none. -/
def verdictCode : Verdict → Nat
  | .verified => 0
  | .malformed => 1
  | .issuerRefused => 2
  | .noTime => 4
  | .notYet => 5
  | .expired => 6
  | .badSignature => 7
  | .filtered | .repeated => 0xFF

def envSeq (e : SdeEnv) : Nat := fieldAt e.bytes 2 4

def envIssuer (e : SdeEnv) : Nat := byteAt e.bytes 1 % 16

/-- A bound of the validity window as calendar counts. -/
def envTime (e : SdeEnv) (i : Nat) : Int := utcCounts (fieldAt e.bytes i 3) (fieldAt e.bytes (i + 3) 3)

/-- Check 1 of Table 14-4. -/
def envFormed (e : SdeEnv) : Bool :=
  let b := e.bytes
  byteAt b 0 == 1 && byteAt b 1 < 16 && byteAt b 19 == 0 && envSeq e != 0 && byteAt b 18 != 0 && byteAt b 18 != 0xFF &&
    envTime e 6 < envTime e 12 && fieldAt b 9 3 < 86400 && fieldAt b 15 3 < 86400 && e.lengthOk

/-- The public key held for an issuer (R332). -/
def issuerKey (s : State) (i : Nat) : Option (List Byte) := (keyContent s.cellar (0x8100 + i)).map (·.2)

/-- The signature verifies over the digest of the bytes before it (R328). -/
def envSigned (e : SdeEnv) (key : List Byte) : Bool :=
  let n := e.bytes.length - 64
  ecdsaVerify key (sha256 (e.bytes.take n)) (e.bytes.drop n)

/-- The checks of Table 14-4 in order, for one slot. -/
def judge (s : State) (x : Slot) (e : SdeEnv) : Verdict :=
  let now := calendarAt s e.stamp
  let late := s.time.valid
  if !envFormed e then .malformed
  else match issuerKey s (envIssuer e) with
    | none => .issuerRefused
    | some key =>
      if !bit x.issuerMask (envIssuer e) then .issuerRefused
      else if x.ptype != 0 && x.ptype != byteAt e.bytes 18 then .filtered
      else if envSeq e ≤ tabGet 0 x.floors (envIssuer e) then .repeated
      else if !late && !x.timeRule then .noTime
      else if late && now < envTime e 6 then .notYet
      else if late && envTime e 12 ≤ now then .expired
      else if envSigned e key then .verified
      else .badSignature

/-- The body of an SDE record (Table 14-5). -/
def sdeBody (e : SdeEnv) (v : Verdict) : List Byte :=
  [lowByte (verdictCode v), lowByte e.carrier, lowByte e.lane, lowByte (envIssuer e)] ++ leBytes (envSeq e) 4 ++
    leBytes e.stamp 8 ++ leBytes e.iseq 4 ++ leBytes e.bytes.length 2 ++ [0, 0] ++ e.bytes

/-- One slot writes or counts its verdict (R329, R330). -/
def settleSlot (e : SdeEnv) (s : State) (n : Nat) : State :=
  let x := slotOf s n
  let v := judge s x e
  let record (s : State) : State :=
    let p := putRecord s n 3 0 (!s.time.valid && (v == .verified || v == .badSignature)) (sdeBody e v)
    if p.2 && v == .verified then modSlot p.1 n fun x => { x with floors := tabSet x.floors (envIssuer e) (envSeq e) } else p.1
  match v with
  | .filtered => modSlot s n fun x => { x with filtered := bump 4 x.filtered 1 }
  | .repeated => modSlot s n fun x => { x with sdeRepeats := bump 2 x.sdeRepeats 1 }
  | .verified => record s
  | _ => if x.policy == 2 then record s else modSlot s n fun x => { x with sdeRejected := bump 2 x.sdeRejected 1 }

/-- REPLAY_FLOOR of an issuer, in the shadow array's device part (R330, Table 19-5). -/
def replayFloor (s : State) (i : Nat) : Nat := shadowGet s.cellar (0x1C00 + 4 * i) 4

/-- The security engine finishes the checks of the envelope that waited longest. -/
def settleEnvelope (e : SdeEnv) (s : State) : State :=
  let names := (namingSlots s e).filter fun n => !(slotOf s n).suspended
  let found (v : Verdict) : Bool := names.any fun n => judge s (slotOf s n) e == v
  let ok := found .verified
  let bad := found .badSignature
  let s := forAll names (settleSlot e) s
  let s := { s with slots := { s.slots with verified := bump 4 s.slots.verified (flagNat ok),
                                            badSignatures := bump 4 s.slots.badSignatures (flagNat bad) } }
  if ok && replayFloor s (envIssuer e) < envSeq e then
    { s with cellar := shadowSet s.cellar (0x1C00 + 4 * envIssuer e) 4 (envSeq e) }
  else s

/-- Every envelope in assembly or awaiting verification is discarded and counted as dropped (R333). -/
def discardEnvelopes (s : State) : State :=
  let asm := s.slots.assembling.map fun a =>
    ({ carrier := 1, lane := a.lane, aid := a.aid, stream := 0, sub := 0, lengthOk := false, stamp := 0, iseq := 0, bytes := [] } : SdeEnv)
  let s := forAll (asm ++ s.slots.waiting) dropEnvelope s
  { s with slots := { s.slots with assembling := [], waiting := [] } }

end Sys2Proof.Machine
end

