-- ==== Sys2Proof/Machine/LaneOps.lean ====
section
/-!
DEFINITION. A lane's path and chain (Tables 8-1, 10-2 to 10-9), its generations and pending set (R228 to R231), the engines it
holds (R232 to R234), and an engine's start and return to its search (R261, R263, R275, R280).
-/
namespace Sys2Proof.Machine

/-! Paths as a lane sees them -/

/-- ADC sample rate of a path, Hz (Table 8-1). -/
def adcRate : Nat → Nat
  | 0 => 3072000
  | 1 => 30720000
  | _ => 6144000

/-- A frequency lies in a path's coverage (Table 8-1). -/
def covered (p f : Nat) : Bool :=
  match p with
  | 0 => 30000 ≤ f && f ≤ 30000000
  | 1 => 64000000 ≤ f && f ≤ 240000000
  | _ => (863000000 ≤ f && f ≤ 870000000) || (902000000 ≤ f && f ≤ 928000000)

/-- DC_GUARD of a path, Hz (R170). -/
def dcGuard (p : Nat) : Nat := if p = 0 then 1000 else 10000

/-- The distance of two frequencies. -/
def freqGap (a b : Nat) : Nat := (a - b) + (b - a)

/-- A frequency lies within DC_GUARD of an LO, the boundary included (R170). -/
def inGuard (p f lo : Nat) : Bool := freqGap f lo ≤ dcGuard p

/-- A path's WIDTH in Hz (Table 8-1). -/
def widthHz (p code : Nat) : Nat :=
  match p, code with
  | 0, 0 => 2400000
  | 0, 1 => 1200000
  | 0, _ => 600000
  | 1, 0 => 24000000
  | 1, 1 => 12000000
  | 1, 2 => 6000000
  | 1, _ => 1600000
  | _, _ => 2400000

/-- A frequency lies inside a path's window (R15, R171). -/
def inWindow (s : State) (p f : Nat) : Bool :=
  let fe := (pathOf s p).fe
  fe.tuned && 2 * freqGap f fe.loHz ≤ widthHz p fe.width && covered p f

/-- A lane frequency may be set on a path: covered and clear of DC_GUARD (R214). -/
def freqOk (s : State) (p f : Nat) : Bool := covered p f && !((pathOf s p).fe.tuned && inGuard p f (pathOf s p).fe.loHz)

/-! The chain -/

/-- Output rate in Hz, R, half-band stages and FIR decimation of a path's RATE (Table 10-2); none for a reserved code. -/
def laneRate (p rate : Nat) : Option (Nat × Nat × Nat × Nat) :=
  match p, rate with
  | 0, 0 => some (192000, 4, 2, 1)
  | 0, 1 => some (48000, 16, 2, 1)
  | 0, 2 => some (24000, 32, 2, 1)
  | 0, 3 => some (12000, 64, 2, 1)
  | 0, 4 => some (3000, 256, 2, 1)
  | 1, 0 => some (2048000, 5, 0, 3)
  | 1, 1 => some (384000, 20, 2, 1)
  | 1, 2 => some (192000, 40, 2, 1)
  | 1, 3 => some (96000, 80, 2, 1)
  | _, _ => none

/-- FIR taps and settling span of a preset (Table 10-4). -/
def presetTaps : Nat → Nat
  | 0 => 15
  | 1 => 31
  | 2 => 63
  | _ => 127

def presetSpan : Nat → Nat
  | 0 => 29
  | 1 => 45
  | 2 => 77
  | _ => 141

/-- Twice the fine group delay in ADC samples (R222). -/
def fineDelay2 (p : Nat) (x : LaneSet) : Nat :=
  match laneRate p x.rate with
  | some (_, r, h, _) =>
    5 * (r - 1) + (if h = 2 then 54 * r else 0) + (presetTaps x.preset - 1) * r * 2 ^ h
  | none => 0

/-- Twice the coarse group delay in ADC samples. -/
def coarseDelay2 (p : Nat) (x : LaneSet) : Nat :=
  match laneRate p x.rate with
  | some (_, r, h, f) => 5 * (r - 1) + (2 ^ h * f - 1) * r
  | none => 0

/-- Samples of a whole block. -/
def blockSamples (x : LaneSet) : Nat := 64 * 2 ^ x.blockLen

/-- SETTLING blocks of a setting (R230, Table 10-9). -/
def settleCount (x : LaneSet) : Nat := (presetSpan x.preset + blockSamples x - 1) / blockSamples x

/-- The NCO word of a frequency (R216). -/
def ncoWordOf (p f lo : Nat) : Nat :=
  twos 4 ((2 * ((f : Int) - (lo : Int)) * 2 ^ 32 + (adcRate p : Int)) / (2 * (adcRate p : Int)))

/-- A generation follows another (R231). -/
def nextGen (g : Nat) : Nat := if 0xFFFF ≤ g then 1 else g + 1

/-! Running -/

/-- Lanes of this hold deliver in the mode in force, unless held (R125, R126, Table 6-1): all of them in FOLLOW and PLAY, in
LISTEN those not held, in a KEEPTIME listen KT_LANE. -/
def modeRuns (s : State) (n : Nat) : Bool :=
  match modeNow s with
  | 3 => !s.modes.heldMask.getLsbD n
  | 4 | 5 => true
  | 2 => s.modes.ktEnd.isSome && n == s.modes.ktLaneUsed
  | _ => false

/-- LANE_STATE (R212). -/
def holdCode : Hold → Nat
  | .free => 0
  | .host => 1
  | .tasting => 2
  | .test => 3

/-- RUNNING: the lane delivers blocks, its path not being OFF (Table 8-3). -/
def delivering (s : State) (n : Nat) : Bool := (laneOf s n).running && (pathOf s (laneOf s n).path).fe.state != .off

/-- The lanes that deliver, of one hold. -/
def runningHost (s : State) : List Nat := (s.lanes.filter fun e => e.2.running && e.2.hold == .host).map (·.1)

/-! Shedding (R111, R112) -/

/-- The running lanes of a path and hold that satisfy a condition, highest number first. A host-bound lane that LISTEN holds does not run and
takes no place in the order: R111 speaks of the lanes bound to the path, and shedding stops what a lane runs (DESIGN CHOICE,
notes/assumptions/82.md). -/
def lanesDown (s : State) (p : Nat) (hold : Hold) (c : Lane → Bool) : List Nat :=
  ((s.lanes.filter fun e => e.2.running && e.2.path == p && e.2.hold == hold && c e.2).map (·.1)).reverse

/-- The lanes of a path in the order of R111, first shed first. -/
def shedOrder (s : State) (p : Nat) : List Nat :=
  lanesDown s p .tasting (fun _ => true) ++ ([7, 6, 5, 4, 3, 2, 1, 0].map fun r => lanesDown s p .host fun x => x.cur.lossRank == r).flatten

/-- The shed level of a path: never more than it has lanes to shed. -/
def shedLevel (s : State) (p : Nat) : Nat :=
  min (if p = 0 then s.fabric.shedLevelL else s.fabric.shedLevelV) (shedOrder s p).length

/-- Lanes have left a path: no more of them are shed than it has, so its level falls with them (R112). -/
def capShed (s : State) : State := { s with fabric := { s.fabric with shedLevelL := shedLevel s 0, shedLevelV := shedLevel s 1 } }

/-- The lanes that the shed level covers. -/
def shedSet (s : State) (p : Nat) : List Nat := (shedOrder s p).take (shedLevel s p)

/-! Engines -/

/-- Engines in a kind's pool: 1 analogue units, 2 DRM, 3 DAB, 4 LF decoders. -/
def engineCount : Nat → Nat
  | 1 => 24
  | 2 => 4
  | 3 => 2
  | 4 => 4
  | _ => 0

/-- A lane holds an engine, attached or by an attach that waits for its boundary. -/
def holdsEngine (x : Lane) (kind idx : Nat) : Bool :=
  let has (l : LaneSet) : Bool := l.engKind == kind && l.engIndex == idx
  has x.cur || x.pending.any has || x.synced.any fun d => has d.1

/-- The lane that holds an engine. -/
def engineHolder (s : State) (kind idx : Nat) : Option (Nat × Lane) :=
  s.lanes.find? fun e => e.2.hold != .free && holdsEngine e.2 kind idx

/-- The lowest-numbered engine of a kind that no lane holds. -/
def freeEngine (s : State) (kind : Nat) : Option Nat :=
  (List.range (engineCount kind)).find? fun i => (engineHolder s kind i).isNone

/-- The lane whose attached engine this is. -/
def attachedLane (s : State) (kind idx : Nat) : Option (Nat × Lane) :=
  s.lanes.find? fun e => e.2.hold != .free && e.2.cur.engKind == kind && e.2.cur.engIndex == idx

/-- The set that waits for a boundary, with what a synchronisation took of it counted in: PENDING (Table 10-13). -/
def waitingSet (x : Lane) : Option LaneSet := x.pending <|> x.synced.map (·.1)

/-- The settings a lane will have: those of its pending set, or those in force. -/
def nextSet (x : Lane) : LaneSet := (waitingSet x).getD x.cur

/-- ENGINE_PARAMS byte `b` (10 to 31) of a setting. -/
def engPar (x : LaneSet) (b : Nat) : Nat := byteAt x.params (b - 10)

/-- An analogue unit starts its acquisition: its status is cleared apart from its counters (R261). -/
def analogueFresh (a : Analogue) : Analogue :=
  { blocksGood := a.blocksGood, blocksCorrected := a.blocksCorrected, blocksBad := a.blocksBad, blocksErased := a.blocksErased,
    groupsOut := a.groupsOut, syncLosses := a.syncLosses, eBlocks := a.eBlocks, piMismatches := a.piMismatches,
    piChanges := a.piChanges, acquiring := true }

/-- An LF decoder starts: IDLE until its first block (R263); its last frame and counters stand. -/
def lfFresh (d : LfDec) : LfDec :=
  { d with state := 0, copy := d.nextCopy, secondPos := 0, consec := 0, refLevel := 0, edges := 0, lastEdge := none, empty := 0,
           prevMark := false, symbols := [], frameStart := 0, leapNext := false, lastMinute := none, reference := [], expected := 0 }

/-- An LF decoder whose lane stops: its next listen acquires anew; its last frame and CONSEC stand (R266). -/
def lfRest (d : LfDec) : LfDec :=
  { d with state := 0, secondPos := 0, edges := 0, lastEdge := none, empty := 0, prevMark := false, symbols := [], reference := [] }

/-- A DRM or DAB engine's common part starts in its first state; counters stand. -/
def engineFresh (e : Engine) : Engine :=
  { state := 1, erasedCells := e.erasedCells, syncLosses := e.syncLosses, driftReacqs := e.driftReacqs, gapResets := e.gapResets,
    packetsOk := e.packetsOk, packetsBad := e.packetsBad, auOk := e.auOk, auBad := e.auBad, unitsOk := e.unitsOk,
    unitsDropped := e.unitsDropped }

/-- A DRM engine starts (R234). -/
def drmFresh (d : Drm) : Drm :=
  { eng := engineFresh d.eng, facOk := d.facOk, facBad := d.facBad, sdcOk := d.sdcOk, sdcBad := d.sdcBad, framesOk := d.framesOk,
    itemsOut := d.itemsOut }

/-- A DAB engine starts (R234). -/
def dabFresh (d : Dab) : Dab :=
  { eng := engineFresh d.eng, fibOk := d.fibOk, fibBad := d.fibBad, superframesOk := d.superframesOk, rsCorrected := d.rsCorrected,
    rsFailed := d.rsFailed, subchRefused := d.subchRefused }

/-- A DRM or DAB engine returns to its first state; its AF list and counters stand (R275, R280). -/
def engineSearch (e : Engine) : Engine :=
  { e with state := 1, afcFrozen := false, freqOffset := 0, residual := 0, residuals := [], fails := 0, erasedSince := none,
           assembly := [], frameStamp := none }

def drmSearch (d : Drm) : Drm := { d with eng := engineSearch d.eng, seen := [], facSeen := false, cycle := [] }

def dabSearch (d : Dab) : Dab := { d with eng := engineSearch d.eng }

/-- An engine starts on its lane. -/
def startEngine (kind idx : Nat) (s : State) : State :=
  match kind with
  | 1 => modAnalogue s idx analogueFresh
  | 2 => modDrm s idx drmFresh
  | 3 => modDab s idx dabFresh
  | 4 => modLf s idx lfFresh
  | _ => s

/-- A generation that changes FREQ_HZ or RATE (R261, R280): analogue units and LF decoders acquire
anew, DRM and DAB engines return to their search. -/
def restartEngine (kind idx : Nat) (s : State) : State :=
  match kind with
  | 1 => modAnalogue s idx analogueFresh
  | 2 => modDrm s idx drmSearch
  | 3 => modDab s idx dabSearch
  | 4 => modLf s idx fun d => { lfFresh { d with nextCopy := d.copy } with state := 1 }
  | _ => s

/-- An engine is released to its pool: idle, its counters and an LF decoder's last frame kept. -/
def releaseEngine (kind idx : Nat) (s : State) : State :=
  match kind with
  | 1 => modAnalogue s idx fun a => { analogueFresh a with acquiring := false }
  | 2 => modDrm s idx fun d => { drmFresh d with eng := { engineFresh d.eng with state := 0 } }
  | 3 => modDab s idx fun d => { dabFresh d with eng := { engineFresh d.eng with state := 0 } }
  | 4 => modLf s idx lfFresh
  | _ => s

/-! Holding and freeing lanes -/

/-- The state of a lane's statistics that a new hold keeps: the record of its last block and its counters. -/
def keepStats (x : Lane) : Lane :=
  { last := x.last, events := x.events, overrunBlocks := x.overrunBlocks, zeroedBlocks := x.zeroedBlocks, syncStamp := x.syncStamp,
    blocks := x.blocks, engineLate := x.engineLate }

/-- The lane becomes FREE: its engine returns to its pool, its settings to their defaults, an envelope in assembly ends. -/
def freeLane (n : Nat) (s : State) : State :=
  let x := laneOf s n
  let s := releaseEngine x.cur.engKind x.cur.engIndex s
  capShed (abandonLane n (setLane s n (keepStats x)))

/-- A lane is bound: its settings at their values after power-on with a frequency and rate, pending as generation 1 (R213). The spec states
neither the NCO's phase then nor how soon the first block begins: free values (DESIGN CHOICE, notes/assumptions/95.md). -/
def bindLane (n : Nat) (hold : Hold) (p : Nat) (set : LaneSet) (s : State) : State :=
  let (phase, s) := draw (2 ^ 32) s
  let (wait, s) := drawAny s
  setLane s n { keepStats (laneOf s n) with
    hold := hold, path := p, running := modeRuns s n, pending := some set, genPending := 1, pendEngine := set.engKind != 0,
    ncoWord := ncoWordOf p set.freqHz (pathOf s p).fe.loHz, chain := { phase := BitVec.ofNat 32 phase },
    startAt := s.clocks.sc + wait }

/-- Puts changes into a lane's pending set (R228): the state, the pending generation, whether a set was waiting already. -/
def pendSet (n : Nat) (f : LaneSet → LaneSet) (s : State) : State × Nat × Bool :=
  let x := laneOf s n
  match x.pending with
  | some p => (setLane s n { x with pending := some (f p) }, x.genPending, true)
  | none =>
    let g := nextGen (if x.synced.isSome then x.genPending else x.gen)
    (setLane s n { x with pending := some (f (nextSet x)), genPending := g }, g, false)

/-- The set that the lane's next boundary puts in force, its generation, and whether it attaches or detaches an engine: at the boundary that a
synchronisation makes, the one that stood pending at the sync sample (R228, R237). -/
def dueSet (x : Lane) : Option (LaneSet × Nat × Bool) :=
  if x.shortNext then x.synced else x.pending.map fun p => (p, x.genPending, x.pendEngine)

/-- A chain with its CIC, half-band and FIR state and its decimation phase cleared (R230, R237). -/
def clearChain (c : Chain) : Chain := { phase := c.phase, env := c.env }

/-- A lane whose chain is cleared: no earlier sample reaches its blocks any more (R225). -/
def clearLane (x : Lane) : Lane := { x with chain := clearChain x.chain, causeEnd := [] }

/-- What a generation that takes effect changes. -/
structure GenChange where
  freq : Bool
  rate : Bool
  preset : Bool
  engine : Bool
  bind : Bool
  deriving DecidableEq, Repr

/-- The lane's threshold state under new settings (R241). -/
def newThreshold (x : Lane) (new : LaneSet) (bind : Bool) : Bool × Nat :=
  if bind || new.thSrc != x.cur.thSrc then (false, 0)
  else if new.thHigh != x.cur.thHigh || new.thLow != x.cur.thLow || new.thDwell != x.cur.thDwell then (x.thAbove, 0)
  else (x.thAbove, x.dwell)

/-- The pending set takes effect at a block boundary (R228 to R234): the state, and what changed. -/
def applyPending (n : Nat) (s : State) : State × Option GenChange :=
  let x := laneOf s n
  match dueSet x with
  | none => (s, none)
  | some (new, gen, attach) =>
    let old := x.cur
    let bind := x.gen == 0
    let ch : GenChange :=
      { freq := new.freqHz != old.freqHz, rate := new.rate != old.rate, preset := new.preset != old.preset, bind := bind,
        engine := attach }
    let th := newThreshold x new bind
    let settles := bind || ch.freq || ch.rate || ch.preset || (attach && new.engKind != 0)
    let x := if x.shortNext then { x with synced := none } else { x with pending := none, pendEngine := false }
    let x := { x with
      cur := new, gen := gen, ncoWord := ncoWordOf x.path new.freqHz (pathOf s x.path).fe.loHz,
      thAbove := th.1, dwell := th.2, settling := if settles then settleCount new else x.settling,
      quals := if bind || ch.freq || ch.rate then [] else x.quals }
    let x := if bind || ch.rate then clearLane { x with chain := { x.chain with env := 0 } } else x
    let s := setLane s n x
    let s :=
      if ch.engine then
        let s := if old.engKind = 0 then s else releaseEngine old.engKind old.engIndex s
        if new.engKind = 0 then s else startEngine new.engKind new.engIndex s
      else if ch.freq || ch.rate then restartEngine new.engKind new.engIndex s
      else s
    (if ch.freq || ch.rate then abandonLane n s else s, some ch)

/-- A cause touches the blocks in progress of every lane of a path: bit 0 BLANK, 1 CAL, 2 RETUNE, 3 OVERRUN; from its end on it reaches later
blocks through the fine filter (R225). -/
def touchLanes (p k : Nat) (s : State) : State :=
  { s with lanes := s.lanes.map fun e =>
      if e.2.path == p && e.2.running then
        (e.1, { e.2 with touched := e.2.touched ||| 2 ^ k, causeEnd := tabSet e.2.causeEnd k s.clocks.sc })
      else e }

/-- A TUNE moved the LO: the NCO word of every bound lane is recomputed (R216). -/
def recomputeNco (p : Nat) (s : State) : State :=
  let lo := (pathOf s p).fe.loHz
  { s with lanes := s.lanes.map fun e =>
      if e.2.path == p && (e.2.hold == .host || e.2.hold == .tasting) then
        (e.1, { e.2 with ncoWord := ncoWordOf p (if e.2.gen = 0 then (nextSet e.2).freqHz else e.2.cur.freqHz) lo })
      else e }

/-- The lane's engine took some of the signal between two instants as an erasure (R23). -/
def erasedIn (x : Lane) (from_ till : Nat) : Bool := x.gaps.any fun g => g.1 < till && from_ < g.2

/-- It took all of it as an erasure. -/
def erasedWhole (x : Lane) (from_ till : Nat) : Bool := x.gaps.any fun g => g.1 ≤ from_ && till ≤ g.2

/-- A path accepts an engine at a rate and preset (Table 10-11). `mode` is an analogue unit's MODE. -/
def engineAccepts (p kind mode rate preset : Nat) : Bool :=
  match kind with
  | 1 => if p = 0 then mode < 3 && (rate == 1 || rate == 2) else rate == 1 && 3 ≤ mode
  | 2 => (if p = 0 then rate == 1 else rate == 2) && preset != 0
  | 3 => p == 1 && rate == 0 && preset != 0
  | 4 => p == 0 && (rate == 3 || rate == 4)
  | _ => true

end Sys2Proof.Machine
end

