-- ==== Sys2Proof/Machine/SynthOps.lean ====
section
/-!
DEFINITION. The reference and the CPLL ratio (R143 to R145), the synthesisers: LO ranges, divider and fractional N (R153, R154), band tables
(R155, R156), and a lock's windows and tries (R159 to R161).
-/
namespace Sys2Proof.Machine

/-! The reference -/

/-- REF_FREQ in Hz (Table 7-3). -/
def refHz : Nat → Nat
  | 0 => 19200000
  | 1 => 24000000
  | 2 => 26000000
  | 3 => 38400000
  | _ => 40000000

/-- f_PD in Hz: the reference times ×1, ×2 or ×½. -/
def pdHz (r : RefArr) : Nat :=
  match r.mult with
  | 1 => 2 * refHz r.freq
  | 2 => refHz r.freq / 2
  | _ => refHz r.freq

/-- N_INT, NUM and DEN of the CPLL's ratio (R145, Table 7-1). -/
def cpllRatio (r : RefArr) : Nat × Nat × Nat :=
  let rest := 3932160000 % pdHz r
  let g := Nat.gcd rest (pdHz r)
  (3932160000 / pdHz r, rest / g, pdHz r / g)

/-! LO and divider -/

/-- A synthesiser's LO range (Table 7-5). -/
def loInRange (p hz : Nat) : Bool :=
  match p with
  | 0 => 100000 ≤ hz && hz ≤ 31200000
  | 1 => 52000000 ≤ hz && hz ≤ 252000000
  | _ => (863000000 ≤ hz && hz ≤ 870000000) || (902000000 ≤ hz && hz ≤ 928000000)

/-- The k values of a synthesiser, least and largest. -/
def kRange : Nat → Nat × Nat
  | 0 => (7, 15)
  | 1 => (4, 6)
  | _ => (2, 2)

/-- The largest allowed k with LO × 2^k at most 6,000 MHz (R153). -/
def dividerLog2 (p lo : Nat) : Nat :=
  let (a, b) := kRange p
  ((List.range (b + 1)).filter fun k => a ≤ k && lo * 2 ^ k ≤ 6000000000).getLast?.getD a

/-- IB_NEAR threshold in kHz (Table 7-5). -/
def ibLimit : Nat → Nat
  | 0 => 200
  | 1 => 300
  | _ => 500

/-- Rounded to the nearest, a tie upward. -/
def roundDiv (n : Int) (d : Nat) : Int := (2 * n + (d : Int)) / (2 * (d : Int))

/-- The fractional divider for an LO (R154): N_INT, N_FRAC, DIV_LOG2, VCO_KHZ, LO_ERR. -/
def programLo (p lo : Nat) (r : RefArr) (x : Synth) : Synth :=
  let k := dividerLog2 p lo
  let vco := lo * 2 ^ k
  let pd := pdHz r
  let n := (2 * vco * 2 ^ 24 + pd) / (2 * pd)
  let err : Int := ((pd * n : Nat) : Int) - ((vco * 2 ^ 24 : Nat) : Int)
  { x with divLog2 := k, nInt := n / 2 ^ 24, nFrac := n % 2 ^ 24, vcoKhz := (vco + 500) / 1000,
           loErr := clampInt (-32767) 32767 (roundDiv (err * 1000) (2 ^ 24 * 2 ^ k)) }

/-- IB_OFFSET and IB_NEAR after a lock (R152). -/
def spurAfterLock (p lo : Nat) (r : RefArr) (x : Synth) : Synth :=
  let pd := pdHz r
  let rest := lo * 2 ^ x.divLog2 % pd
  let khz := min 0xFFFF ((min rest (pd - rest) + 500) / 1000)
  { x with ibOffset := khz, ibNear := khz < ibLimit p }

/-! Band tables (R155, R156) -/

/-- The valid entries of a table with their numbers, in table order. -/
def validEntries (t : Tab BandEntry) : List (Nat × BandEntry) :=
  ((List.range 32).map fun i => (i, tabGet {} t i)).filter fun e => e.2.khzPerBand != 0 && e.2.bandStart ≤ e.2.bandEnd

/-- F_START rises strictly and BAND_START never falls below the entry before's BAND_END. -/
def entriesRise : List (Nat × BandEntry) → Bool
  | a :: b :: rest => a.2.fStart < b.2.fStart && a.2.bandEnd ≤ b.2.bandStart && entriesRise (b :: rest)
  | _ => true

/-- A table is valid. -/
def tableValid (t : Tab BandEntry) : Bool :=
  let es := validEntries t
  !es.isEmpty && es.all (fun e => 3000000 ≤ e.2.fStart && e.2.fStart ≤ 6000000) && entriesRise es

/-- The entry a VCO frequency selects, and its band (R155). -/
def selectBand (t : Tab BandEntry) (khz : Nat) : Nat × Nat :=
  let es := validEntries t
  match ((es.filter fun e => e.2.fStart ≤ khz).getLast?).or es.head? with
  | some (i, e) => (i, min e.bandEnd (e.bandStart + (khz - e.fStart) / e.khzPerBand))
  | none => (0, 0)

/-- The table a use takes: the host's when valid, else the factory copy when that is valid (R156, R442). -/
def tableFor (x : Synth) : Option (Tab BandEntry × Bool) :=
  if tableValid x.table then some (x.table, false)
  else if tableValid x.factory then some (x.factory, true)
  else none

/-! Lock -/

/-- The bands of the five tries by their place in the order 0, +1, −1, +2, −2 (R159); none outside 0 to 255. -/
def tryBand (base place : Nat) : Option Nat :=
  match place with
  | 0 => some base
  | 1 => if base + 1 < 256 then some (base + 1) else none
  | 2 => if 1 ≤ base then some (base - 1) else none
  | 3 => if base + 2 < 256 then some (base + 2) else none
  | 4 => if 2 ≤ base then some (base - 2) else none
  | _ => none

/-- The next place after one whose band exists, none after the last. -/
def nextTry (base place : Nat) : Option (Nat × Nat) :=
  ((List.range 5).filter fun q => place < q).findSome? fun q => (tryBand base q).map fun b => (q, b)

/-- The count of a window lies within LOCK_TOL of M × N / 16 (R159). -/
def windowGood (x : Synth) (count : Nat) : Bool :=
  let want := 2 ^ x.winExp * (x.nInt * 2 ^ 24 + x.nFrac)
  let got := 16 * 2 ^ 24 * count
  (got - want) + (want - got) ≤ x.tol * 16 * 2 ^ 24

/-- A lock starts on a band. -/
def startTry (place band : Nat) (x : Synth) : Synth :=
  { x with locking := true, locked := false, timedLock := false, tryPlace := place, band := band, windows := 0, goodRun := 0,
           badRun := 0, bandStands := false }

/-- A lock starts afresh on a band and its tries. -/
def startBand (band : Nat) (x : Synth) : Synth := { startTry 0 band x with baseBand := band }

/-- A use of a synthesiser starts (R156): table taken, divider set, first band chosen; none with no valid table. -/
def startUse (p lo : Nat) (r : RefArr) (x : Synth) : Option Synth :=
  match tableFor x with
  | none => none
  | some (t, fallback) =>
    let x := programLo p lo r { x with btFallback := fallback }
    let (entry, band) := selectBand t (lo * 2 ^ x.divLog2 / 1000)
    some (startBand band { x with btEntry := entry })

/-- A calibration takes the synthesiser's band table: BT_FALLBACK says whether the host's copy is not valid (R156). -/
def takeTable (x : Synth) : Synth := { x with btFallback := !tableValid x.table }

/-- A synthesiser stops. -/
def stopSynth (x : Synth) : Synth :=
  { x with locking := false, locked := false, timedLock := false, txCheck := none, badRun := 0, bandStands := false }

/-- What a COUNT window does to a lock under way. -/
inductive LockStep where
  | more (x : Synth)
  | locked (x : Synth)
  | failed (x : Synth)
  deriving DecidableEq, Repr

/-- One window of a lock (R159): the first of a try is not compared and counts toward LOCK_LIMIT. The lock's fields are read at each window, so
that one written meanwhile counts from the next window on, where R159 names no moment (DESIGN CHOICE, notes/assumptions/89.md). -/
def lockWindow (x : Synth) (count : Nat) : LockStep :=
  let run := if x.windows = 0 then 0 else if windowGood x count then x.goodRun + 1 else 0
  let y := { x with windows := x.windows + 1, goodRun := run }
  if x.run ≤ run then .locked { y with locking := false, locked := true, bandTries := x.tryPlace }
  else if x.limit ≤ x.windows + 1 then
    match nextTry x.baseBand x.tryPlace with
    | some (q, b) => .more (startTry q b x)
    | none => .failed { y with locking := false, noLockCount := bump 2 x.noLockCount 1 }
  else .more y

end Sys2Proof.Machine
end

