-- ==== Sys2Proof/Machine/FeOps.lean ====
section
/-!
DEFINITION. A front end's states (Tables 8-3, 8-4), the use of its synthesiser (R156, R159), its gain (R177 to R181), and the last step of a
reference change (Table 7-4).
-/
namespace Sys2Proof.Machine

/-! Gain -/

/-- Fine span of a path in 0.5 dB (Table 8-6). -/
def fineSpan (p : Nat) : Nat := if p = 1 then 36 else 48

/-- How many gain ranges a path has. -/
def rangeCount (p : Nat) : Nat := if p = 2 then 3 else 4

/-- Range gain in 0.5 dB. -/
def rangeGain (p r : Nat) : Int :=
  match p, r with
  | 0, 0 => -40
  | 0, 1 => 0
  | 0, 2 => 32
  | 0, _ => 64
  | 1, 0 => -24
  | 1, 1 => 8
  | 1, 2 => 40
  | 1, _ => 64
  | _, 0 => -20
  | _, 1 => 20
  | _, _ => 56

/-! Clocks and blanking -/

/-- CK0 to CK7 run: the CPLL is locked and no reference change stands before its step 6 (Table 7-4). -/
def clocksRun (s : State) : Bool :=
  s.clocks.locked && !(match s.clocks.stage with
    | .synths _ _ => true
    | _ => false)

/-- A path's ADC samples are blanked (R185, R186). -/
def blanked (s : State) (p : Nat) : Bool := p < 2 && (s.link.txBlank || s.link.pinBlank)

/-- BLANKED_SAMPLES: the ADC samples replaced by zero so far, those of the run under way included (R186, Table 8-9). -/
def blankedNow (s : State) (p : Nat) (f : FrontEnd) : Nat :=
  match f.blankFrom with
  | some t => bump 4 f.blankedSamples ((s.clocks.sc - t) * adcRate p / countsPerSecond)
  | none => f.blankedSamples

/-- A run of replaced samples begins, goes on or ends: it lasts while the path is blanked, is not OFF, and its ADC has its clock. -/
def trackZeros (p : Nat) (s : State) : State :=
  modFe s p fun f =>
    if blanked s p && f.state != .off && clocksRun s then { f with blankFrom := some (f.blankFrom.getD s.clocks.sc) }
    else { f with blankedSamples := blankedNow s p f, blankFrom := none }

/-! TUNE of a path -/

/-- The TUNE that runs on a path. -/
def tuneOf (s : State) (p : Nat) : Option Cmd := runningOf s 0x10 (0x2000 + p)

/-- The TUNE that runs on a path completes. -/
def tuneDone (p status : Nat) (result : List Byte) (s : State) : State :=
  match tuneOf s p with
  | some c => complete c.seq status result s
  | none => s

/-- Result bytes of a TUNE (R176). -/
def tuneResult (s : State) (p : Nat) : List Byte :=
  let fe := (pathOf s p).fe
  leBytes fe.loHz 4 ++ [lowByte (fe.presel + 2 * fe.loSideUsed), lowByte fe.gainRange, lowByte fe.gainFine, 0]

/-- A state boundary: a TUNE that was asked to stop ends here (R176). -/
def tuneBoundary (p : Nat) (s : State) : State :=
  match tuneOf s p with
  | some c =>
    match stopCause s c.seq with
    | some k => complete c.seq (abortedReply s k).1 (abortedReply s k).2 s
    | none => s
  | none => s

/-! States -/

/-- What a front-end state does to the blocks in progress of the path's lanes (Table 8-3). -/
def touchState (p : Nat) (st : FeState) (s : State) : State :=
  match st with
  | .cal => touchLanes p 1 s
  | .starting | .acquire | .range | .retune | .noLock => touchLanes p 2 s
  | _ => s

/-- A front end enters a state. -/
def setFe (p : Nat) (st : FeState) (s : State) : State :=
  let old := (pathOf s p).fe.state
  let s := modFe (touchState p old s) p fun f =>
    { f with state := st, retunes := if st = .retune && old != .retune then bump 4 f.retunes 1 else f.retunes,
             stateSamples := if st = old then f.stateSamples else 0 }
  let s := trackZeros p (touchState p st s)
  match st with
  | .run | .noLock | .off => s
  | _ => tuneBoundary p s

/-- The path enters ACQUIRE: a fresh offset acquire. -/
def enterAcquire (p : Nat) (s : State) : State :=
  setFe p .acquire (modFe s p fun f => { f with acqDone := false, acqQuiet := false, acqRanges := 0, stateSamples := 0 })

/-- The path reaches RUN or LISTEN: its TUNE completes. -/
def enterRun (p : Nat) (s : State) : State :=
  let s := setFe p .run s
  tuneDone p 0x00 (tuneResult s p) s

/-- A path in STARTING or RETUNE whose lock is declared and whose preselector is set enters ACQUIRE (Table 8-4). -/
def settled (p : Nat) (s : State) : State :=
  let x := pathOf s p
  if (x.fe.state = .starting || x.fe.state = .retune) && x.synth.locked && !x.fe.selPend then enterAcquire p s else s

/-- The path goes to OFF and its synthesiser stops. A TUNE that still runs ends at this boundary, its LO placed. -/
def pathOff (p : Nat) (s : State) : State :=
  let s := tuneBoundary p (setFe p .off (modSynth (modFe s p fun f => { f with selPend := false }) p stopSynth))
  tuneDone p 0x00 (tuneResult s p) s

/-- A use of the synthesiser ends without lock. -/
def noLock (p code : Nat) (s : State) : State :=
  tuneDone p 0x52 [lowByte code] (setFe p .noLock (modSynth s p stopSynth))

/-- The synthesiser starts a use at the path's LO (R156). While the CPLL is not locked it waits for it; with neither copy of the band table
valid, no lock can be declared (R442). -/
def beginLock (p : Nat) (s : State) : State :=
  if s.clocks.fault then noLock p 3 s
  else if !s.clocks.locked then modSynth s p stopSynth
  else match startUse p (pathOf s p).fe.loNow s.clocks.ref (pathOf s p).synth with
    | none => noLock p p s
    | some x => modSynth s p fun _ => x

/-- A path that is OFF starts (R173, R181): START_RANGE, the fine gain at half its span. The regulator start outlasts a switch settle
(Table 8-5), so that the preselector is set before the lock (DEDUCED, notes/assumptions/86.md). -/
def startPath (p : Nat) (s : State) : State :=
  let s := modFe s p fun f =>
    { f with used := f.set, gainRange := min f.set.startRange (rangeCount p - 1), gainFine := fineSpan p / 2, selPend := false }
  beginLock p (setFe p .starting s)

/-- The path goes to a new LO: a path that is OFF starts, one in STARTING restarts its lock there, any other enters RETUNE (R176). -/
def retunePath (p : Nat) (s : State) : State :=
  match (pathOf s p).fe.state with
  | .off => startPath p s
  | .starting => beginLock p s
  | _ => beginLock p (setFe p .retune s)

/-- The synthesiser relocks after a CPLL relock: a path that runs enters RETUNE at its unchanged LO; one in STARTING starts its lock, and one in CAL
locks without leaving it. -/
def relockPath (p : Nat) (s : State) : State :=
  match (pathOf s p).fe.state with
  | .off | .noLock => s
  | .starting | .cal => beginLock p s
  | _ => beginLock p (setFe p .retune s)

/-! The end of a reference change (Table 7-4 step 6) -/

/-- Result bytes of a CPLL TUNE (R150). -/
def cpllResult (s : State) (steps : Int) : List Byte :=
  [lowByte s.clocks.ref.freq, lowByte s.clocks.ref.mult] ++ leBytes (twos 2 steps) 2

def ckOf (s : State) : Nat → CkOut
  | 4 => s.clocks.ck4
  | 5 => s.clocks.ck5
  | _ => s.clocks.ck6

def modCk (s : State) (n : Nat) (f : CkOut → CkOut) : State :=
  { s with clocks := match n with
      | 4 => { s.clocks with ck4 := f s.clocks.ck4 }
      | 5 => { s.clocks with ck5 := f s.clocks.ck5 }
      | _ => { s.clocks with ck6 := f s.clocks.ck6 } }

/-- Result bytes of a CPLL TUNE that stopped with `done` phase steps applied (R150, Table 4-8). -/
def stepsAborted (s : State) (cause : Nat) (done : Int) : List Byte :=
  lowByte cause :: (if cause = 3 then lowByte (newMode s) else 0) :: leBytes (twos 2 done) 2

/-- The phase steps that a CPLL TUNE asks for start, or it completes (R148, R150). -/
def endCpllTune (s : State) (c : Cmd) : State :=
  let n := par c 12
  let steps := parI c 17 2
  if bit (par c 8) 2 && steps != 0 then modCk s n fun x => { x with pend := steps, applied := 0 }
  else complete c.seq 0x00 (cpllResult s 0) s

/-- The lanes of the paths that run deliver SETTLING blocks (R230). -/
def settleLanes (s : State) : State :=
  { s with lanes := s.lanes.map fun e => if e.2.running then (e.1, { e.2 with settling := settleCount e.2.cur }) else e }

/-- The counter goes back to CK7 with a remainder of 0 (R163). -/
def counterBack (s : State) : State := { s with clocks := { s.clocks with scOnX32 := false, scRem := 0 } }

/-- Step 6: the counter goes back to CK7 and the TUNE completes, or goes on with its phase steps. -/
def finishRef (seq : Option Nat) (failed : Bool) (s : State) : State :=
  let s := counterBack s
  let s := settleLanes (forAll [0, 1, 2] (fun s p => trackZeros p s) { s with clocks := { s.clocks with stage := .idle } })
  match seq with
  | none => s
  | some q =>
    if failed then complete q 0x52 [3] s
    else match findCmd s q with
      | some c => endCpllTune s c
      | none => s

/-- Once no synthesiser relocks any more, step 5 ends. -/
def synthsDone (s : State) : State :=
  match s.clocks.stage with
  | .synths seq failed => if s.pathL.synth.locking || s.pathV.synth.locking || s.pathS.synth.locking then s else finishRef seq failed s
  | _ => s

/-! Lock declared and lock lost -/

/-- Lock is declared: IB_OFFSET is written (R152), T_REF_SYN taken (R203), and a path in STARTING or RETUNE whose preselector is set enters
ACQUIRE. -/
def lockDone (p : Nat) (s : State) : State :=
  let s := modSynth s p (spurAfterLock p (pathOf s p).fe.loNow s.clocks.ref)
  let s := modCal s p fun c => { c with tRefSyn := s.cal.tempAvg }
  synthsDone (settled p s)

/-- Every try failed (R159). -/
def lockFailed (p : Nat) (s : State) : State := synthsDone (noLock p p s)

/-- The lost lock relocks from the band in use, with a fresh copy of the table (R156, R161). -/
def relockBand (p : Nat) (s : State) : State :=
  if s.clocks.fault then noLock p 3 s
  else match startUse p (pathOf s p).fe.loNow s.clocks.ref (pathOf s p).synth with
    | none => noLock p p s
    | some x => modSynth s p fun old => startBand old.band { x with btEntry := old.btEntry }

end Sys2Proof.Machine
end

