-- ==== Sys2Proof/Machine/SessionOps.lean ====
section
/-!
DEFINITION. Endpoint records and their shadow counters (R381, R389), session ends (R384), demand and release schedules (R386 to R388), and
presence checks apart from their frames (R378 to R383). What a step sends it puts into the link's queue.
-/
namespace Sys2Proof.Machine

/-! Random draws and the shadow counters -/

/-- A 64-bit number of the TRNG, and the state that has drawn it. -/
def trng (s : State) : Nat × State := (Config.random s.fresh % 2 ^ 64, { s with fresh := s.fresh + 1 })

/-- An endpoint's place in the shadow array: TX_LOW at 0, RX_FLOOR at 3, FAILS at 8, NO_RESP at 10. -/
def epShadow (n : Nat) : Nat := 0x1400 + 16 * n

def epGet (s : State) (n off k : Nat) : Nat := shadowGet s.cellar (epShadow n + off) k

def epSet (n off k v : Nat) (s : State) : State := { s with cellar := shadowSet s.cellar (epShadow n + off) k v }

def txLow (s : State) (n : Nat) : Nat := epGet s n 0 3

def rxFloor (s : State) (n : Nat) : Nat := epGet s n 3 5

/-- FAILS of an endpoint and FAILS_TOTAL advance (R381). -/
def countFail (n : Nat) (s : State) : State :=
  let s := epSet n 8 2 (bump 2 (epGet s n 8 2) 1) s
  { s with cellar := shadowSet s.cellar 0x1C40 2 (bump 2 (shadowGet s.cellar 0x1C40 2) 1) }

def countNoResp (n : Nat) (s : State) : State := epSet n 10 2 (bump 2 (epGet s n 10 2) 1) s

/-- The key in an endpoint's pairing record: ROLE, a zero byte, EUI, key. -/
def epKey (s : State) (n : Nat) : List Byte :=
  match keyContent s.cellar (0x8000 + n) with
  | some (_, p) => (p.drop 10).take 16
  | none => []

/-! The link's queue -/

/-- A transmission that waits at step 1 of Table 16-4. -/
def newTx (owner : Owner) (margin : Option Int) : TxJob :=
  { owner := owner, stage := .queued, profile := {}, profileNo := 0, channel := 0, psdu := [], cwMs := none, cost := 0, band := 0,
    margin := margin, tries := 0, rssi := -32768, at_ := none, rxAfterMs := none, phrStamp := 0, endStamp := 0, until_ := 0,
    written := 0 }

def pushTx (j : TxJob) (s : State) : State := { s with link := { s.link with txs := s.link.txs ++ [j] } }

/-- A transmission that has not reached step 7. -/
def notOnAir (j : TxJob) : Bool := j.stage != .onAir && j.stage != .after

/-- Removes the transmissions of a kind that are not on air. -/
def dropTx (p : TxJob → Bool) (s : State) : State :=
  { s with link := { s.link with txs := s.link.txs.filter fun j => !(notOnAir j && p j) } }

/-! Window inputs and demand -/

/-- The window input of an endpoint's session reads open (R385). -/
def windowOpen (s : State) (n : Nat) : Bool :=
  let e := endpointOf s n
  (e.useWinPin && s.sessions.winPin) || (e.windowEp < 128 && (endpointOf s e.windowEp).winReport)

/-- The endpoints with a session. -/
def activeSessions (s : State) : List (Nat × Endpoint) := s.sessions.endpoints.filter fun e => e.2.session

/-- A target's STATE as Table 17-10 codes it. -/
def targetCode : TargetState → Nat
  | .idle => 0
  | .waiting => 1
  | .sending => 2
  | .fault => 3

def armed (t : Target) : Bool := t.state == .waiting || t.state == .sending

/-- An armed target has demand (R387). -/
def hasDemand (s : State) (k : Nat) : Bool :=
  !(targetOf s k).requireSession || (activeSessions s).any fun e => e.2.demand && bit e.2.targetMask k

/-- The first due time after demand begins (R388): the first whole second at least 20 ms on, plus 250 ms times the index. -/
def firstDue (s : State) (k : Nat) : Nat :=
  let d := 50 * countsPerSecond
  (50 * s.clocks.sc + countsPerSecond + d - 1) / d * countsPerSecond + 2 ^ 22 * k

/-- The running RELEASE_START or RELEASE_STOP (opcode 0x42 or 0x43) of a target. -/
def releaseCmd (s : State) (op k : Nat) : Option Cmd := runningOf s op (0x9000 + k)

/-- The frames of a target that wait: those with STOP set or those without. -/
def isRelease (k : Nat) (stop : Bool) (j : TxJob) : Bool := j.owner == .release k stop

/-- Demand begins: the schedule starts. -/
def startSchedule (k : Nat) (s : State) : State :=
  modTarget s k fun t => { t with state := .sending, nextDue := firstDue s k, retry := false, denied := false }

/-- A frame of a target, without STOP, is on air. -/
def releaseOnAir (s : State) (k : Nat) : Bool := s.link.txs.any fun j => isRelease k false j && !notOnAir j

/-- Demand of one target is looked at again (R387): where it ended the target waits and one STOP frame goes out, where it returned the
schedule starts anew. A RELEASE_START whose first attempt is not on air then completes as one that finds no demand (R386). -/
def refreshTarget (k : Nat) (s : State) : State :=
  match (targetOf s k).state, hasDemand s k with
  | .sending, false =>
    let s := dropTx (isRelease k false) (modTarget s k fun t => { t with state := .waiting, retry := false, denied := false })
    let s := pushTx (newTx (.release k true) none) s
    match releaseCmd s 0x42 k with
    | some c => if releaseOnAir s k then s else complete c.seq 0x00 [1] s
    | none => s
  | .waiting, true => startSchedule k s
  | _, _ => s

def refreshDemand (s : State) : State := forAll [0, 1, 2, 3] (fun s k => refreshTarget k s) s

/-! The end of a session (R384) -/

def endSession (n cause : Nat) (s : State) : State :=
  if (endpointOf s n).session then
    refreshDemand (raise .sessionEvent (modEndpoint s n fun e => { e with session := false, demand := false, endCause := cause }))
  else s

/-- Ends every session that a condition selects. -/
def endSessions (cause : Nat) (p : Nat × Endpoint → Bool) (s : State) : State :=
  forAll ((activeSessions s).filter p) (fun s e => endSession e.1 cause s) s

/-- A window sensor reports (R385). -/
def sensorReports (n : Nat) (isOpen : Bool) (s : State) : State :=
  let s := modEndpoint s n fun e => { e with winReport := isOpen }
  if isOpen then endSessions 3 (fun e => e.2.windowEp == n) s else s

/-! Sessions and release after a reset, in PARKED and in KEEPTIME (Tables 17-10, 17-11) -/

def endpointAtRest (e : Endpoint) : Endpoint := { e with winReport := false, demand := false, session := false, expires := 0 }

def targetAtRest (t : Target) : Target :=
  { t with requireSession := false, state := .idle, ep := 0, level := 0, interval := 120, nextDue := 0, retry := false, denied := false }

/-- Every endpoint and target record takes the values of its "Kept in PARKED" column. -/
def releaseAtRest (s : State) : State :=
  { s with sessions := { s.sessions with
    endpoints := s.sessions.endpoints.map (fun e => (e.1, endpointAtRest e.2)),
    targets := s.sessions.targets.map (fun t => (t.1, targetAtRest t.2)) } }

/-! Release targets -/

/-- A target goes to FAULT: nothing more is sent, RELEASE_EVENT (R388, R389). -/
def targetFault (k reason : Nat) (s : State) : State :=
  raise .releaseEvent (dropTx (isRelease k false) (modTarget s k fun t =>
    { t with state := .fault, faultReason := reason, retry := false, denied := false }))

/-- J of R388, in counts. -/
def jitter (t : Target) (s : State) : Nat × State :=
  let (r, s) := trng s
  (r % (t.interval * countsPerSecond / 16), s)

/-- The next due time follows (R388). -/
def nextDueTime (k : Nat) (s : State) : State :=
  let t := targetOf s k
  let (j, s) := jitter t s
  modTarget s k fun t =>
    { t with nextDue := t.nextDue + t.interval * countsPerSecond + j, retry := false, denied := false }

/-- A running RELEASE_START or RELEASE_STOP of a target completes. -/
def releaseReply (op k status : Nat) (result : List Byte) (s : State) : State :=
  match releaseCmd s op k with
  | some c => complete c.seq status result s
  | none => s

/-- TX_LOW has reached 0xFF_FFFF (R389): a RELEASE_START that waits for a frame of the record ends as that frame would, refused. -/
def exhaustCounter (n : Nat) (s : State) : State :=
  let one (s : State) (k : Nat) : State :=
    if armed (targetOf s k) && (targetOf s k).ep == n then
      let s := targetFault k 0 s
      if releaseOnAir s k then s else releaseReply 0x42 k 0x17 [7] s
    else s
  forAll [0, 1, 2, 3] one (endSession n 7 (modEndpoint s n fun e => { e with cntOut := true }))

/-- The delay before a retry (R388): a TRNG draw of 0.5 to 2 s, in counts. -/
def retryDelay (s : State) : Nat × State :=
  let (r, s) := trng s
  (countsPerSecond / 2 + r % (3 * countsPerSecond / 2 + 1), s)

/-- An attempt to send a target's frame ends (R386, R388). `byCommand`: a STOP frame that RELEASE_STOP asked for. -/
def attemptEnds (k : Nat) (stop byCommand : Bool) (status : Nat) (result : List Byte) (phr cost : Nat) (s : State) : State :=
  let s := modTarget s k fun t => { t with lastStatus := status }
  let s := if status = 0 then modTarget s k fun t => { t with lastSent := phr, framesSent := bump 2 t.framesSent 1 } else s
  if stop then (if byCommand then releaseReply 0x43 k status (if status = 0 then [] else result) s else s)
  else
    let live := (targetOf s k).state == .sending
    let s :=
      if !live then s
      else if status = 0 then nextDueTime k s
      else if status = 0x41 || status = 0x52 then
        let (d, s) := retryDelay s
        modTarget s k fun t => { t with retry := true, retryAt := s.clocks.sc + d }
      else if status = 0x42 then targetFault k (byteAt result 0) s
      else modTarget s k fun t => { t with denied := true }
    releaseReply 0x42 k status
      (if status = 0 then lowByte 0 :: leBytes cost 2 ++ [0] ++ leBytes (phr / 2 ^ 16) 4 else result) s

/-! Presence checks (R378 to R383) -/

/-- PURPOSE of a CHALLENGE (Table 17-4). -/
def purposeCode : CheckFor → Nat
  | .pair _ => 2
  | .start _ => 1
  | .now _ | .periodic => 0

/-- The command that a check serves. -/
def checkSeq : CheckFor → Option Nat
  | .pair q | .start q | .now q => some q
  | .periodic => none

def isCheckTx (j : TxJob) : Bool :=
  match j.owner with
  | .check _ => true
  | _ => false

/-- The first check's next try: a fresh N_R, and its CHALLENGE waits for path S. -/
def kickCheck (s : State) : State :=
  match s.sessions.checks with
  | [] => s
  | c :: cs =>
    if c.windowOpen || s.link.txs.any isCheckTx then s
    else
      let (r, s) := trng s
      let s := { s with sessions := { s.sessions with checks := { c with nonce := r, fail := 0 } :: cs } }
      pushTx (newTx (.check c.ep) c.margin) s

/-- A check begins, or waits behind the one that runs. -/
def startCheck (n : Nat) (purpose : CheckFor) (tries : Nat) (margin : Option Int) (key : List Byte) (eui : Nat) (s : State) : State :=
  let c : Check := { ep := n, purpose := purpose, nonce := 0, tries := 0, limit := tries, windowOpen := false, until_ := 0, tEnd := 0,
                     fail := 0, margin := margin, key := key, eui := eui }
  let x := s.sessions
  kickCheck { s with sessions := { x with checks := x.checks ++ [c], checkCount := bump 2 x.checkCount 1 } }

/-- What a check measured: RTT_RES, RSSI and the RESPONSE's payload. -/
structure CheckMeas where
  rtt : Int
  rssi : Int
  payload : List Byte
  deriving DecidableEq, Repr

/-- Every check records its result, round trip, RSSI and time (R380). Where nothing was measured the spec states no value for the round
trip and the RSSI: free values. -/
def recordCheck (n status : Nat) (m : Option CheckMeas) (s : State) : State :=
  let (a, s) := draw (2 ^ 16) s
  let (b, s) := draw (2 ^ 16) s
  let (rtt, rssi) := match m with
    | some x => (x.rtt, x.rssi)
    | none => (ofTwos 2 a, ofTwos 2 b)
  modEndpoint s n fun e =>
    { e with lastResult := status, lastRtt := satInt 2 rtt, lastRssi := satInt 2 rssi, lastCheckS := counterSeconds s % 2 ^ 32 }

/-- What an OK check of a session takes from its RESPONSE (R383). -/
def takeResponse (n : Nat) (m : CheckMeas) (s : State) : State :=
  modEndpoint s n fun e =>
    { e with expires := (counterSeconds s + e.timeout) % 2 ^ 32, demand := byteAt m.payload 8 == 1, valve := byteAt m.payload 9,
             battery := byteAt m.payload 10 }

/-- A session starts (R383). -/
def beginSession (n : Nat) (m : CheckMeas) (s : State) : State :=
  refreshDemand (takeResponse n m (modEndpoint s n fun e =>
    { e with session := true, nextCheck := counterSeconds s + e.checkPeriod }))

/-- The result bytes of a SESSION_CFG whose check is OK (R382). -/
def sessionResult (tries : Nat) (m : CheckMeas) : List Byte :=
  [lowByte tries, 0] ++ leBytes (twos 2 m.rtt) 2 ++ leBytes (twos 2 m.rssi) 2 ++
    [lowByte (byteAt m.payload 9), lowByte (byteAt m.payload 8)]

/-- The write step of a PAIR (R374 step 3): its result bytes are fixed, and the record's write joins the order of cellar writes. Protection
is that in force when the command started (R441). -/
def writePairing (c : Cmd) (tries : Nat) (rtt rssi : Int) (key : List Byte) (s : State) : State :=
  if c.prot then complete c.seq 0x30 (refuse 2 1) s
  else
    let result := [lowByte (par c 9), lowByte tries] ++ leBytes (twos 2 rtt) 2 ++ leBytes (twos 2 rssi) 2
    let s := modCmd s c.seq fun d => { d with result := result }
    startDue (issueWrite s c.seq (0x8000 + cmdIdx c) false ([lowByte (par c 9), 0] ++ (c.desc.drop 12).take 8 ++ key))

/-- The command of a check ends with it. -/
def serveCheck (c : Check) (status : Nat) (result : List Byte) (m : Option CheckMeas) (s : State) : State :=
  match c.purpose, m with
  | .pair q, some x =>
    match findCmd s q with
    | some cmd => if status = 0 then writePairing cmd c.tries x.rtt x.rssi c.key s else complete q status result s
    | none => s
  | .start q, some x =>
    if status != 0 then complete q status result s
    else if windowOpen s c.ep then complete q 0x17 [5] s
    else complete q 0x00 (sessionResult c.tries x) (beginSession c.ep x s)
  | .now q, some x => complete q status (if status = 0 then sessionResult c.tries x else result) s
  | .periodic, some x =>
    if status = 0 && (endpointOf s c.ep).session then refreshDemand (takeResponse c.ep x s) else s
  | .pair q, none | .start q, none | .now q, none => complete q status result s
  | .periodic, none => s

/-- The first check leaves the queue; the next one's first try begins. -/
def popCheck (s : State) : State :=
  let s := dropTx isCheckTx s
  kickCheck { s with sessions := { s.sessions with checks := s.sessions.checks.drop 1 } }

/-- The first check ends. -/
def finishCheck (status : Nat) (result : List Byte) (m : Option CheckMeas) (s : State) : State :=
  match s.sessions.checks with
  | [] => s
  | c :: _ => popCheck (serveCheck c status result m (recordCheck c.ep status m s))

/-- A try of the first check ended (R378, R380, R381): OK, out of tries, or the next try begins. -/
def tryEnds (status why : Nat) (m : Option CheckMeas) (s : State) : State :=
  match s.sessions.checks with
  | [] => s
  | c :: cs =>
    let n := c.ep
    let s := if status = 0x61 || status = 0x62 then countFail n s else if status = 0x60 then countNoResp n s else s
    let c := { c with tries := c.tries + 1, windowOpen := false }
    let s := { s with sessions := { s.sessions with checks := c :: cs } }
    if status != 0 && c.tries < c.limit then kickCheck s
    else
      let result := match status, m with
        | 0x60, _ => [lowByte c.tries, lowByte n]
        | 0x61, some x => [lowByte c.tries, lowByte why] ++ leBytes (twos 2 x.rtt) 2 ++ leBytes (twos 2 x.rssi) 2
        | 0x62, _ => [lowByte c.tries, lowByte why] ++ leBytes (epGet s n 8 2) 2
        | _, _ => []
      finishCheck status result m s

/-- The test of R379: the round trip first. -/
def proximity (s : State) (rtt rssi : Int) : Nat :=
  if (s.sessions.rttLimit : Int) < (rtt.natAbs : Int) then 1
  else if rssi < 4 * s.sessions.rssiFloor then 2
  else 0

/-- A RESPONSE that R377 accepts and that echoes N_R ends the try. -/
def responseTaken (m : CheckMeas) (s : State) : State :=
  match proximity s m.rtt m.rssi with
  | 0 => tryEnds 0x00 0 (some m) s
  | why => tryEnds 0x61 why (some m) s

/-- The response window ends without an accepted RESPONSE. -/
def windowEnds (s : State) : State :=
  match s.sessions.checks with
  | [] => s
  | c :: _ => if c.fail = 0 then tryEnds 0x60 0 none s else tryEnds 0x62 c.fail none s

/-- A check ends because its command was asked to stop; one that had begun records that (R380). -/
def abortCheck (seq cause : Nat) (s : State) : State :=
  let first := (s.sessions.checks.head?).filter fun c => checkSeq c.purpose == some seq
  let s := match first with
    | some c => recordCheck c.ep (abortedReply s cause).1 none (dropTx isCheckTx s)
    | none => s
  let s := { s with sessions := { s.sessions with checks := s.sessions.checks.filter fun c => checkSeq c.purpose != some seq } }
  let s := complete seq (abortedReply s cause).1 (abortedReply s cause).2 s
  kickCheck s

end Sys2Proof.Machine
end

