-- ==== Sys2Proof/Machine/LinkOps.lean ====
section
/-!
DEFINITION. The home link: profiles (R351, R352), channels and regulatory checks (R353, R354), duty tokens (R355, R356), the frames on air
(R360, R376), and how path S is shared (R369).
-/
namespace Sys2Proof.Machine

/-! Profiles (R351, Table 16-1) -/

/-- FSK rate in kb/s. -/
def fskRate (p : Profile) : Nat :=
  match p.fskRate with
  | 0 => 50
  | 1 => 100
  | _ => 150

def isOfdm (p : Profile) : Bool := p.flags % 4 == 1

/-- Table 16-1 gives an MCS for an option. -/
def mcsOk (option mcs : Nat) : Bool := mcs ≤ 6 && ((option == 3 && 1 ≤ mcs) || (option == 4 && 2 ≤ mcs))

/-- Data rate of an OFDM option and MCS, kb/s. -/
def ofdmRate (option mcs : Nat) : Nat :=
  let r := match mcs with
    | 1 => 50
    | 2 => 100
    | 3 => 150
    | 4 => 200
    | 5 => 300
    | _ => 400
  if option = 4 then r / 2 else r

/-- FCS bytes of a profile. -/
def fcsLen (p : Profile) : Nat := if bit p.flags 4 then 4 else 2

/-- The first field of a copied profile that is out of range, among those its PHY reads. -/
def profileBad (p : Profile) (channel : Nat) : Option Nat :=
  let f : List (Nat × Bool) := [(0, p.flags % 4 < 2), (1, isOfdm p || p.fskRate < 3), (2, !isOfdm p || p.option == 3 || p.option == 4),
            (3, !isOfdm p || mcsOk p.option p.mcs), (4, isOfdm p || (16 ≤ p.modIndex && p.modIndex ≤ 128)),
            (5, isOfdm p || (4 ≤ p.preambleLen && p.preambleLen ≤ 32)), (7, -20 ≤ p.power && p.power ≤ 40), (8, channel != 0)]
  (f.find? fun e => !e.2).map (·.1)

/-- OBW of a profile in 1/64 kHz. -/
def obw64 (p : Profile) : Nat :=
  if isOfdm p then (if p.option = 3 then 400 * 64 else 200 * 64) else (64 + p.modIndex) * fskRate p

/-- OBW in kHz, rounded to the nearest. -/
def obwKhz (p : Profile) : Nat := (obw64 p + 32) / 64

/-! Channels and regulatory checks -/

/-- A centre lies on a sub-band's raster and within its edges (R353). -/
def onRaster (b : SubBand) (f : Nat) : Bool :=
  b.fLowKhz * 1000 ≤ f && f ≤ b.fHighKhz * 1000 &&
    ((f : Int) - (b.chFirstKhz * 1000 : Nat)) % ((b.chStepKhz * 1000 : Nat) : Int) == 0

/-- The channel's sub-band. -/
def subBandOf (s : State) (f : Nat) : Option (Nat × SubBand) :=
  ((List.range s.link.region.bands.length).map fun k => (k, s.link.region.bands.getD k {})).find? fun e => onRaster e.2 f

/-- The channel mask of a TUNE of path S and of LINK_RX (R172, R353); with no valid image the part still receives (R354). -/
def channelPermitted (s : State) (f : Nat) : Bool := !s.link.region.ok || (subBandOf s f).isSome

/-- The whole of the channel's OBW lies in the sub-band. -/
def obwFits (b : SubBand) (p : Profile) (f : Nat) : Bool :=
  b.fLowKhz * 1000 * 128 + obw64 p * 1000 ≤ f * 128 && f * 128 + obw64 p * 1000 ≤ b.fHighKhz * 1000 * 128

/-- A REGULATORY reply (R354). -/
def regulatory (reason band : Nat) (limit : Int) : Reply := (0x42, [lowByte reason, lowByte band] ++ leBytes (twos 2 limit) 2)

/-- The checks of Table 16-2 before the mask check. -/
def regulatoryCheck (s : State) (p : Profile) (f : Nat) : Option Reply :=
  if !s.link.region.ok then some (regulatory 6 0xFF 0)
  else match subBandOf s f with
    | none => some (regulatory 1 0xFF (obwKhz p : Nat))
    | some (k, b) =>
      if !obwFits b p f then some (regulatory 1 k (obwKhz p : Nat))
      else if !bit b.phyAllow (p.flags % 4) then some (regulatory 5 k 0)
      else if b.maxPower < p.power then some (regulatory 2 k b.maxPower)
      else none

/-- The mask check of an UNCHECKED profile (R352): what it finds is the row's margin, or a free value where the row brings none. A
check that finds every bin at or below its limit leaves CHECKED; a FAILED profile fails. -/
def maskCheck (k : Nat) (j : TxJob) (s : State) : State × Bool :=
  if j.profile.state = 1 then (s, true)
  else if j.profile.state = 2 then (s, false)
  else
    let (r, s) := draw (2 ^ 16) s
    let m := satInt 2 (j.margin.getD (ofTwos 2 r))
    let ok := decide (0 ≤ m)
    let l := s.link
    let p := { tabGet {} l.profiles k with state := if ok then 1 else 2, maskMargin := m }
    ({ s with link := { l with profiles := tabSet l.profiles k p, maskChecks := bump 4 l.maskChecks 1,
                               maskFails := bump 4 l.maskFails (flagNat !ok) } }, ok)

/-! Duty tokens (R355) -/

def dutyOf (s : State) (b : Nat) : Duty := tabGet {} s.link.duty b

/-- Minutes that the bins lag behind the counter. -/
def minuteLag (s : State) : Nat := s.clocks.sc / (60 * countsPerSecond) - s.link.minute

/-- The bins of the current minute and the 61 before it. -/
def binsNow (s : State) (b : Nat) : List Nat := (List.replicate (min 62 (minuteLag s)) 0 ++ (dutyOf s b).bins).take 62

def budgetOf (b : SubBand) : Nat := b.dutyPpm * 36

def bandAt (s : State) (b : Nat) : SubBand := s.link.region.bands.getD b {}

def tokensHeld (s : State) (b : Nat) : Nat := budgetOf (bandAt s b) - (binsNow s b).sum

/-- The cost is covered; DUTY_PPM 1,000,000 means no limit (Table 16-9). -/
def costCovered (s : State) (b cost : Nat) : Bool := (bandAt s b).dutyPpm == 1000000 || cost ≤ tokensHeld s b

/-- The bins move to the counter's minute. -/
def ageBins (s : State) : State :=
  let bins := (List.range 8).foldl (fun t b => tabMod {} t b fun d => { d with bins := binsNow s b }) s.link.duty
  { s with link := { s.link with duty := bins, minute := s.clocks.sc / (60 * countsPerSecond) } }

/-- Charges the newest bin. -/
def charge (b cost : Nat) (s : State) : State :=
  let s := ageBins s
  let add (d : Duty) : Duty := match d.bins with
    | [] => { d with bins := [cost] }
    | x :: xs => { d with bins := (x + cost) :: xs }
  { s with link := { s.link with duty := tabMod {} s.link.duty b add, txTokens := bump 4 s.link.txTokens cost,
                                 txPackets := bump 4 s.link.txPackets 1 } }

/-! What goes on air -/

/-- The FCS that IEEE 802.15.4g gives a PSDU: CRC-32, its input filled with zeros to four bytes, or CRC-16. -/
def fcsBytes (p : Profile) (bs : List Byte) : List Byte :=
  if fcsLen p = 4 then
    leBytes (crc32 (bs ++ List.replicate (4 - bs.length) 0)) 4
  else leBytes (crcBytes 0x8408 0 bs) 2

/-- PSDU bytes of a transmission. -/
def psduLen (j : TxJob) : Nat :=
  match j.owner with
  | .host _ => j.psdu.length
  | .check _ => 40 + fcsLen j.profile
  | .release _ _ => 35 + fcsLen j.profile

/-- SHR of a profile in counts: what goes on air before the PHR. -/
def shrCounts (p : Profile) : Nat :=
  if isOfdm p then microsCounts 720 else (p.preambleLen + 2) * 8 * countsPerSecond / (fskRate p * 1000)

/-- PHR and PSDU of a transmission, counts. -/
def bodyCounts (p : Profile) (len : Nat) : Nat :=
  if isOfdm p then
    microsCounts (120 * (6 + (1000 * (8 * len + 6) + 120 * ofdmRate p.option p.mcs - 1) / (120 * ofdmRate p.option p.mcs)))
  else (2 + len) * 8 * countsPerSecond / (fskRate p * 1000)

/-- Tokens of a transmission's emission (R355): the ramps, the SHR, PHR and PSDU, rounded up to 100 µs. -/
def costOf (j : TxJob) : Nat :=
  let p := j.profile
  match j.cwMs with
  | some ms => (16 + 1000 * ms + 99) / 100
  | none =>
    if isOfdm p then
      let symbols := 6 + 6 + (1000 * (8 * psduLen j + 6) + 120 * ofdmRate p.option p.mcs - 1) / (120 * ofdmRate p.option p.mcs)
      (16 + 120 * symbols + 99) / 100
    else
      let r := fskRate p
      (16 * r + 8000 * (p.preambleLen + 4 + psduLen j) + 100 * r - 1) / (100 * r)

/-- An own frame as it goes on air (R376): header, sealed payload, FCS. -/
def ownFrame (s : State) (p : Profile) (typ ep : Nat) (eui : Nat) (key payload : List Byte) : List Byte :=
  let fcnt := s.modes.bootEpoch % 65536 * 2 ^ 24 + txLow s ep
  let head := [lowByte 0xA4, lowByte typ] ++ leBytes s.sessions.deviceEui 8 ++ leBytes eui 8 ++ leBytes fcnt 5
  let nonce := (head.drop 2).take 8 ++ head.drop 18
  let f := head ++ ccmSeal key nonce head payload
  f ++ fcsBytes p f

/-! Path S -/

/-- A transmission that has left step 1 and has not reached step 9. -/
def txActive (j : TxJob) : Bool := j.stage != .queued && j.stage != .held && j.stage != .after

def activeTx (s : State) : Option TxJob := s.link.txs.find? txActive

/-- A packet is on air, from the start of its blanking, or being received. -/
def packetOn (s : State) : Bool :=
  (s.link.txs.any fun j => j.stage == .onAir) ||
    match s.pathS.fe.state with
    | .rxPacket | .txRampUp | .tx | .txRampDown => true
    | _ => false

/-- A calibration or a reference change holds path S (R195, R203, Table 7-4). -/
def pathSHeld (s : State) : Bool := s.pathS.job.isSome || s.cal.linkJob.isSome || s.clocks.stage != .idle

/-- The row of R369 that a transmission belongs to. -/
def rank (o : Owner) : Nat :=
  match o with
  | .release _ _ => 0
  | .check _ => 1
  | .host _ => 2

def setActive (f : TxJob → TxJob) (s : State) : State :=
  { s with link := { s.link with txs := s.link.txs.map fun j => if txActive j then f j else j } }

def removeActive (s : State) : State := { s with link := { s.link with txs := s.link.txs.filter fun j => !txActive j } }

/-- The LO for a link channel (R172). -/
def linkLo (f : Nat) : Nat := if loInRange 2 (f + 400000) then f + 400000 else f - 400000

/-- Places the LO for a link channel and brings path S on. LO_HZ keeps the LO that the last TUNE placed (Table 8-9). -/
def placeS (f : Nat) (s : State) : State :=
  let fe := s.pathS.fe
  let same := fe.loNow == linkLo f
  let section_ := if f < 900000000 then 0 else 1
  let s := modFe s 2 fun x =>
    { x with loNow := linkLo f, presel := section_, tuneHolds := false,
             selPend := x.state != .off && (x.selPend || x.presel != section_) }
  match fe.state with
  | .off => startPath 2 s
  | .noLock => retunePath 2 s
  | _ => if same then s else retunePath 2 s

/-- The window that the receiver serves when nothing is sent: own traffic's, then the host's, then the home watch (R369, R385). -/
inductive Serving where
  | none
  | response
  | after (j : TxJob)
  | host (w : RxWindow)
  | watch
  deriving DecidableEq, Repr

/-- A home watch is wanted (R385). -/
def watching (s : State) : Bool :=
  (activeSessions s).any fun e => e.2.windowEp < 128

/-- HOME_CHANNEL_HZ, or the profile's channel. -/
def homeChannel (s : State) : Nat :=
  if s.sessions.homeChannelHz = 0 then (profileOf s s.sessions.homeProfile).channelHz else s.sessions.homeChannelHz

def serving (s : State) : Serving :=
  if (s.sessions.checks.take 1).any (·.windowOpen) then .response
  else match s.link.txs.find? fun j => j.stage == .after with
    | some j => .after j
    | none => match s.link.hostRx with
      | some w => .host w
      | none => if watching s && [3, 4, 5, 6].contains (modeNow s) then .watch else .none

/-- The channel of what the receiver serves; none when path S has no work. -/
def servingChannel (s : State) : Option Nat :=
  match serving s with
  | .none => none
  | .response | .watch => some (homeChannel s)
  | .after j => some j.channel
  | .host w => some w.channel

/-- The window being served counts a dropped packet. -/
def countDropped (s : State) : State :=
  match serving s with
  | .host w => { s with link := { s.link with hostRx := some { w with dropped := w.dropped + 1 } } }
  | _ => s

/-- A packet that has qualified is dropped: path S goes back to LISTEN (R161, R364). -/
def dropPacket (s : State) : State := if s.pathS.fe.state = .rxPacket then countDropped (setFe 2 .run s) else s

/-! The end of a transmission -/

/-- Counters of a refusal (R363). -/
def countRefusal (band status : Nat) (s : State) : State :=
  let l := s.link
  { s with link :=
      if status = 0x40 then
        { l with dutyDenials := bump 4 l.dutyDenials 1, duty := tabMod {} l.duty band fun d => { d with denials := bump 4 d.denials 1 } }
      else if status = 0x41 then { l with busyDenials := bump 4 l.busyDenials 1 }
      else if status = 0x42 then { l with regDenials := bump 4 l.regDenials 1 }
      else l }

/-- A transmission that is no longer in the queue ends with a status: its command completes, its check or its attempt ends. -/
def txEnds (j : TxJob) (status : Nat) (result : List Byte) (s : State) : State :=
  let s := countRefusal j.band status s
  match j.owner with
  | .host q => complete q status result s
  | .check _ => finishCheck status result none s
  | .release k stop => attemptEnds k stop j.margin.isSome status result j.phrStamp j.cost s

/-- The active transmission ends with a status. -/
def endActive (status : Nat) (result : List Byte) (s : State) : State :=
  match activeTx s with
  | some j => txEnds j status result (removeActive s)
  | none => s

/-! The steps of a transmission (Table 16-4) -/

/-- The command that a transmission serves was asked to stop. -/
def txStop (s : State) (j : TxJob) : Option Nat :=
  match j.owner with
  | .host q => stopCause s q
  | .check _ => ((s.sessions.checks.head?).bind fun c => checkSeq c.purpose).bind fun q => stopCause s q
  | .release k stop => if stop && j.margin.isSome then (releaseCmd s 0x43 k).bind fun c => stopCause s c.seq else none

/-- A transmission that was asked to stop ends at a stopping point, nothing sent or charged (R363). -/
def stopTx (j : TxJob) (cause : Nat) (s : State) : State :=
  let r := abortedReply s cause
  match j.owner with
  | .host q => complete q r.1 r.2 s
  | .check _ =>
    match (s.sessions.checks.head?).bind fun c => checkSeq c.purpose with
    | some q => abortCheck q cause s
    | none => s
  | .release k _ => releaseReply 0x43 k r.1 r.2 s

/-- What a LINK_TX sends: channel, PSDU, CW length, AT and RX_AFTER as its descriptor gives them (Table 16-3). -/
def copyHost (s : State) (c : Cmd) (j : TxJob) : TxJob :=
  let pn := par c 8 % 4
  let p := profileOf s pn
  let flags := par c 9
  let cw := bit flags 3
  let bytes := if cw then [] else memGets s (parN c 10 3) (parN c 13 2)
  { j with profileNo := pn, profile := p, channel := if parN c 16 4 = 0 then p.channelHz else parN c 16 4,
           psdu := if cw then [] else if bit flags 0 then bytes ++ fcsBytes p bytes else bytes,
           cwMs := if cw then some (parN c 13 2) else none, at_ := if bit flags 1 then some (parN c 20 8) else none,
           rxAfterMs := if bit flags 2 then some (parN c 28 2) else none }

/-- Step 1: the profile is copied, the PSDU read. -/
def copyTx (s : State) (j : TxJob) : TxJob :=
  match j.owner with
  | .host q => match findCmd s q with
    | some c => copyHost s c j
    | none => j
  | _ => { j with profileNo := s.sessions.homeProfile, profile := profileOf s s.sessions.homeProfile, channel := homeChannel s }

/-- The endpoint that an own frame goes to. -/
def txEndpoint (s : State) (j : TxJob) : Option Nat :=
  match j.owner with
  | .host _ => none
  | .check n => some n
  | .release k _ => some (targetOf s k).ep

/-- The frame counter of the endpoint is exhausted (R389). -/
def counterOut (s : State) (j : TxJob) : Bool :=
  match txEndpoint s j with
  | some n => 0xFFFFFF ≤ txLow s n
  | none => false

/-- Steps 1 to 4: the copy, the checks, the cost, and the LO. `j` has been taken out of the queue. -/
def beginTx (j : TxJob) (s : State) : State :=
  let j := copyTx s j
  let late : Bool := match j.at_ with
    | some a => a < s.clocks.sc + microsCounts 2000
    | none => false
  match profileBad j.profile j.channel with
  | some k => txEnds j 0x12 [lowByte (0x80 + k)] s
  | none =>
    if counterOut s j then txEnds j 0x17 [7] s
    else if late then txEnds j 0x17 [6] { s with link := { s.link with atLate := bump 4 s.link.atLate 1 } }
    else match regulatoryCheck s j.profile j.channel with
      | some r => txEnds j r.1 r.2 s
      | none =>
        let band := ((subBandOf s j.channel).map (·.1)).getD 0
        let j := { j with band := band, cost := costOf j }
        let (s, ok) := maskCheck j.profileNo j s
        if !ok then
          let r := regulatory 3 band (profileOf s j.profileNo).maskMargin
          txEnds j r.1 r.2 s
        else if !costCovered s band j.cost then
          txEnds j 0x40 (leBytes band 2 ++ leBytes (tokensHeld s band) 4) s
        else match txStop s j with
          | some k => stopTx j k s
          | none => placeS j.channel (pushTx { j with stage := .tuning } s)

/-- Blanking of paths L and V begins with a transmission or BLANK_IN (R185, R186). A TUNE of either that was asked to stop ends at the first
blanked sample (R176). -/
def beginBlank (tx : Bool) (s : State) : State :=
  let fresh := !(s.link.txBlank || s.link.pinBlank)
  let s := { s with link := { s.link with txBlank := s.link.txBlank || tx, pinBlank := s.link.pinBlank || !tx } }
  let one (s : State) (p : Nat) : State :=
    touchLanes p 0 (trackZeros p (modFe s p fun f =>
      { f with blankIntervals := if fresh then bump 4 f.blankIntervals 1 else f.blankIntervals }))
  tuneBoundary 1 (tuneBoundary 0 (forAll [0, 1] one s))

/-- One of the two causes of blanking ends; when none is left the merged interval is over, and it has touched every block in progress
(R20, R22). -/
def endBlank (tx : Bool) (s : State) : State :=
  let was := s.link.txBlank || s.link.pinBlank
  let l := { s.link with txBlank := s.link.txBlank && !tx, pinBlank := s.link.pinBlank && tx }
  let s := { s with link := l }
  if was && !(l.txBlank || l.pinBlank) then forAll [0, 1] (fun s p => touchLanes p 0 (trackZeros p s)) s else s

/-- The payload of an own frame (Table 17-4). -/
def ownPayload (s : State) (j : TxJob) : List Byte :=
  match j.owner with
  | .release k stop =>
    let t := targetOf s k
    [lowByte t.level, lowByte (flagNat stop)] ++ leBytes t.interval 2
  | _ => match s.sessions.checks with
    | c :: _ => leBytes c.nonce 8 ++ [lowByte (purposeCode c.purpose)]
    | [] => []

/-- EUI and key of the endpoint an own frame goes to. -/
def ownKey (s : State) (j : TxJob) (n : Nat) : Nat × List Byte :=
  match j.owner, s.sessions.checks with
  | .check _, c :: _ => (c.eui, c.key)
  | _, _ => ((endpointOf s n).eui, epKey s n)

/-- The count at which the PHR begins: the spec's instant where it fixes one, else as soon as the preamble allows (R361). -/
def phrCount (s : State) (j : TxJob) (phr : Option Nat) : Nat :=
  let start := s.clocks.sc + microsCounts 18 + if j.cwMs.isSome then 0 else shrCounts j.profile
  phr.getD (match j.owner with
    | .release k stop => if stop then start else max start (targetOf s k).nextDue
    | _ => start)

/-- How long the frame, or the carrier, lasts after that. -/
def bodyCount (j : TxJob) : Nat :=
  match j.cwMs with
  | some ms => microsCounts (1000 * ms)
  | none => bodyCounts j.profile (psduLen j)

/-- The PSDU on the air: the host's, or a frame of the Lautra Crux's own. -/
def renderFrame (s : State) (j : TxJob) : List Byte :=
  match txEndpoint s j with
  | none => j.psdu
  | some n =>
    ownFrame s j.profile (match j.owner with | .release _ _ => 4 | _ => 1) n (ownKey s j n).1 (ownKey s j n).2 (ownPayload s j)

/-- A frame of its own advances its endpoint's counter. -/
def countFrame (j : TxJob) (s : State) : State :=
  match txEndpoint s j with
  | none => s
  | some n => epSet n 0 3 (txLow s n + 1) s

/-- An OFDM frame takes the next scrambler seed. -/
def countOfdm (j : TxJob) (s : State) : State :=
  if isOfdm j.profile && j.cwMs.isNone then { s with link := { s.link with ofdmSeed := s.link.ofdmSeed + 1 } } else s

/-- A counter that has reached its end is exhausted. -/
def counterEnds (j : TxJob) (s : State) : State :=
  match txEndpoint s j with
  | some n => if txLow s n = 0xFFFFFF then exhaustCounter n s else s
  | none => s

/-- Step 7: the frame is rendered and charged, and the paths are blanked; path S stays in LISTEN for the lead of 10 µs (Table 8-8). `phr` is the count at which the PHR
begins when the spec fixes it. -/
def goOnAir (phr : Option Nat) (s : State) : State :=
  match activeTx s with
  | none => s
  | some j =>
    let begins := phrCount s j phr
    let psdu := renderFrame (charge j.band j.cost s) j
    counterEnds j (beginBlank true (countOfdm j (setActive (fun j => { j with
      stage := .onAir, phrStamp := if j.cwMs.isSome then 0 else begins, endStamp := begins + bodyCount j, psdu := psdu })
      (countFrame j (charge j.band j.cost s)))))

/-- Nothing holds step 7: path S is in LISTEN (Table 8-4), and no reference change waits for it or runs (Table 7-4). -/
def mayRamp (s : State) : Bool := s.pathS.fe.state == .run && s.clocks.stage == .idle

/-- The second cost check, then step 7 or the wait for AT. -/
def readyToSend (s : State) : State :=
  match activeTx s with
  | none => s
  | some j =>
    match txStop s j with
    | some k => stopTx j k (removeActive s)
    | none =>
      if !costCovered s j.band j.cost then endActive 0x40 (leBytes j.band 2 ++ leBytes (tokensHeld s j.band) 4) s
      else match j.at_ with
        | some _ => setActive (fun j => { j with stage := .timed }) s
        | none => if mayRamp s then goOnAir none s else setActive (fun j => { j with stage := .ready }) s

/-- R358 asks for a listen before this transmission. -/
def mustListen (s : State) (j : TxJob) : Bool := (bandAt s j.band).lbtReq || s.link.lbtMode

/-- The listen of R358: LISTEN_MIN, the longer of the image's and the host's, and a random part of up to LISTEN_RAND, in counts. -/
def listenCounts (s : State) (j : TxJob) (r : Nat) : Nat :=
  let b := bandAt s j.band
  microsCounts (max b.listenMin s.link.lbtListenUs + r % (b.listenRand + 1))

/-- A try of R358 begins. With AT its end is fixed: 18 µs before the ramp would start (R361). -/
def startListen (s : State) : State :=
  let (r, s) := trng s
  setActive (fun j => { j with
    stage := .listen
    until_ := match j.at_ with
      | some a => a - shrCounts j.profile - microsCounts 26
      | none => s.clocks.sc + listenCounts s j r }) s

/-- After a busy try: a random wait of 0 to BACKOFF_MAX (R358). -/
def startBackoff (s : State) : State :=
  let (r, s) := trng s
  setActive (fun j => { j with stage := .backoff, until_ := s.clocks.sc + microsCounts (r % ((bandAt s j.band).backoffMax + 1)) }) s

/-- The COUNT check of R162 passed: listen, or go on. -/
def checkPassed (s : State) : State :=
  match activeTx s with
  | none => s
  | some j =>
    match txStop s j with
    | some k => stopTx j k (removeActive s)
    | none => if mustListen s j then startListen s else readyToSend s

/-- Path S serves the next in the order of R369: one step of it, none when nothing is to be done. -/
def linkStep (s : State) : Option State :=
  let next := (s.link.txs.filter fun j => j.stage == .queued || j.stage == .held)
  let first (r : Nat) : Option TxJob := next.find? fun j => rank j.owner == r
  let head := ((first 0).or (first 1)).or (first 2)
  match activeTx s with
  | some j =>
    if j.stage = .onAir then none
    else if s.pathS.fe.state = .noLock then some (endActive 0x52 [if s.clocks.fault then 3 else 2] s)
    else if next.any fun k => rank k.owner < rank j.owner then
      some (setActive (fun j => { j with stage := .held }) (modSynth s 2 fun x => { x with txCheck := none }))
    else if j.stage = .ready && mayRamp s then some (goOnAir none s)
    else if j.stage = .tuning && s.pathS.fe.state = .run then
      some (modSynth (setActive (fun j => { j with stage := .check }) s) 2 fun x => { x with txCheck := some 0 })
    else none
  | none =>
    match head, s.sessions.checks with
    | some j, c :: cs =>
      if packetOn s || pathSHeld s then none
      else if c.windowOpen then
        if rank j.owner = 0 then
          some { s with sessions := { s.sessions with checks := { c with windowOpen := false } :: cs } }
        else none
      else
        let rest := { s with link := { s.link with txs := s.link.txs.erase j } }
        some (if j.stage = .held then placeS j.channel (pushTx { j with stage := .tuning } rest) else beginTx j rest)
    | some j, [] =>
      if packetOn s || pathSHeld s then none
      else
        let rest := { s with link := { s.link with txs := s.link.txs.erase j } }
        some (if j.stage = .held then placeS j.channel (pushTx { j with stage := .tuning } rest) else beginTx j rest)
    | none, _ => none

/-- Up to `n` of these steps. -/
def linkSteps : Nat → State → State
  | 0, s => s
  | n + 1, s =>
    match linkStep s with
    | some s => linkSteps n s
    | none => s

/-- With nothing to send, path S receives for its window, or goes to OFF. -/
def serveWindows (s : State) : State :=
  if (activeTx s).isSome || packetOn s || s.pathS.job.isSome || s.cal.linkJob.isSome then s
  else match servingChannel s with
    | some f =>
      if s.pathS.fe.state = .noLock || s.pathS.fe.state = .cal || (s.pathS.fe.tuneHolds && s.pathS.fe.state != .off) then s
      else placeS f s
    | none => if s.pathS.fe.state = .off || s.pathS.fe.state = .cal || (tuneOf s 2).isSome then s else pathOff 2 s

/-- A host window whose channel could not be locked ends (R159). -/
def windowNoLock (s : State) : State :=
  if s.pathS.fe.state = .noLock then
    match serving s with
    | .host w => complete w.seq 0x52 [if s.clocks.fault then 3 else 2] { s with link := { s.link with hostRx := none } }
    | .response => windowEnds s
    | _ => s
  else s

/-- A host window is paused while own traffic holds path S, and goes on afterwards (R369). -/
def trackPause (s : State) : State :=
  let busy := (activeTx s).isSome || (s.sessions.checks.take 1).any (·.windowOpen)
  match s.link.hostRx with
  | none => s
  | some w =>
    let w := match busy, w.pausedAt with
      | true, none => { w with pausedAt := some s.clocks.sc }
      | false, some t => { w with pausedAt := none, pausedFor := w.pausedFor + (s.clocks.sc - t) }
      | _, _ => w
    { s with link := { s.link with hostRx := some w } }

/-- Path S serves what waits for it (R369), after the cellar write whose place in the order has come (R87): called whenever its work, its
state or the order may have changed. -/
def serve (s : State) : State :=
  let s := startDue s
  let n := 4 * s.link.txs.length + 8
  let s := linkSteps n (kickCheck (windowNoLock s))
  let s := linkSteps n (kickCheck (windowNoLock (serveWindows s)))
  trackPause s

end Sys2Proof.Machine
end

