-- ==== Sys2Proof/Machine/Link.lean ====
section
/-!
DEFINITION. LINK_RX and LINK_TX (R359, R368), the steps of a transmission (Table 16-4), and packets received (R364 to R369, R377).
-/
namespace Sys2Proof.Machine

/-- Milliseconds as counts. -/
def msCounts (ms : Nat) : Nat := microsCounts (1000 * ms)

/-! LINK_RX -/

/-- The channel that a LINK_RX names, or its profile's. -/
def rxChannel (s : State) (c : Cmd) : Nat := if parN c 16 4 = 0 then (profileOf s (par c 8)).channelHz else parN c 16 4

/-- The profile that a LINK_RX copies has a field out of range, its CHANNEL_HZ outside path S among them where the command names no channel:
0x80 plus the profile's byte (R351). -/
def rxProfileBad (s : State) (c : Cmd) : Option Reply :=
  let f := rxChannel s c
  match profileBad (profileOf s (par c 8)) f with
  | some k => some (0x12, [lowByte (0x80 + k)])
  | none => failUnless (covered 2 f) (0x12, [0x88])

def checkLinkRx (s : State) (c : Cmd) : Option Reply :=
  let size := parN c 13 2
  firstFail (needObject [7] c :: needHeader c ++
    [needField 8 (par c 8 < 4), needField 9 (par c 9 < 4), needField 10 (inScratch (parN c 10 3) size),
     needField 13 (size % 4 == 0 && 64 ≤ size && size ≤ 32768), needField 16 (parN c 16 4 == 0 || covered 2 (parN c 16 4)),
     needField 20 (1 ≤ parN c 20 2 && parN c 20 2 ≤ 60000)] ++ needZeros c 22 31 ++ [rxProfileBad s c, needMode s [3, 4, 5, 6]])

/-- A LINK_RX opens its window, once its channel passes (R353, R172). -/
def runLinkRx (s : State) (c : Cmd) : State :=
  let pn := par c 8
  let p := profileOf s pn
  let f := rxChannel s c
  if !channelPermitted s f then
    let r := regulatory 1 0xFF (obwKhz p : Nat)
    complete c.seq r.1 r.2 { s with link := { s.link with regDenials := bump 4 s.link.regDenials 1 } }
  else if s.clocks.fault then complete c.seq 0x52 [3] s
  else
      let w : RxWindow := { seq := c.seq, profile := p, profileNo := pn, channel := f, dest := parN c 10 3, size := parN c 13 2,
                            maxPackets := par c 15, keepBad := bit (par c 9) 0, ownToo := bit (par c 9) 1,
                            until_ := s.clocks.sc + msCounts (parN c 20 2), records := 0, bytes := 0, dropped := 0, pausedFor := 0,
                            pausedAt := none }
      serve (modFe { s with link := { s.link with hostRx := some w } } 2 fun f => { f with tuneHolds := false })

def execLinkRx (seq : Nat) (s : State) : Host.Outcome State Fault Refusal :=
  .next (startCmd s seq 0x38 checkLinkRx runLinkRx)

/-- Result bytes of a LINK_RX (R368). -/
def rxResult (s : State) (w : RxWindow) (cause : Nat) : List Byte :=
  let paused := w.pausedFor + (match w.pausedAt with
    | some t => s.clocks.sc - t
    | none => 0)
  leBytes w.records 2 ++ leBytes w.bytes 2 ++ [lowByte cause, lowByte (min 255 w.dropped)] ++
    leBytes (min 65535 (paused * 1000 / countsPerSecond)) 2

/-- The host's window ends. -/
def endRx (cause : Nat) (s : State) : State :=
  match s.link.hostRx with
  | some w => serve (complete w.seq 0x00 (rxResult s w cause) { s with link := { s.link with hostRx := none } })
  | none => s

/-- A packet is being received: path S is in RX_PACKET. -/
def inPacket (s : State) : Bool := s.pathS.fe.state == .rxPacket

/-- LINK_RX_END: the duration has passed. A packet in progress is completed first (R368). -/
def execLinkRxEnd (s : State) : Host.Outcome State Fault Refusal :=
  match s.link.hostRx with
  | some w => .next (if w.until_ ≤ s.clocks.sc && !inPacket s then endRx 0 s else s)
  | none => .next s

/-! LINK_TX -/

def checkLinkTx (s : State) (c : Cmd) : Option Reply :=
  let flags := par c 9
  let cw := bit flags 3
  let len := parN c 13 2
  let top := if cw then 1000 else if bit flags 0 then 2047 - fcsLen (profileOf s (par c 8)) else 2047
  firstFail (needObject [7] c :: needHeader c ++
    [needField 8 (par c 8 < 4), needField 9 (flags < 16), needField 10 (cw || inScratch (parN c 10 3) len),
     needField 13 (1 ≤ len && len ≤ top)] ++ needZeros c 15 15 ++
    [needField 28 (!bit flags 2 || (1 ≤ parN c 28 2 && parN c 28 2 ≤ 2000))] ++ needZeros c 30 31 ++
    [needMode s (if cw then [6] else [4, 5, 6])])

def execLinkTx (seq : Nat) (margin : Int) (s : State) : Host.Outcome State Fault Refusal :=
  .next (startCmd s seq 0x39 checkLinkTx fun s c => serve (pushTx (newTx (.host c.seq) (some margin)) s))

/-! Listen-before-talk (R358) -/

/-- The threshold in force, dBm: the lower of the image's and the host's. -/
def lbtThreshold (s : State) (j : TxJob) : Int := min (bandAt s j.band).lbtThresh s.link.lbtThresh

/-- LBT_LISTEN_END: a try, over at its count, found the channel free or busy. -/
def execLbtListenEnd (rssi : Int) (s : State) : Host.Outcome State Fault Refusal :=
  match activeTx s with
  | some j =>
    if j.stage != .listen || s.clocks.sc < j.until_ then .next s
    else
      let tries := j.tries + 1
      let top := max j.rssi rssi
      let s := setActive (fun j => { j with tries := tries, rssi := top }) s
      if rssi < 4 * lbtThreshold s j then .next (serve (readyToSend s))
      else match txStop s j with
        | some k => .next (serve (stopTx j k (removeActive s)))
        | none =>
          if j.at_.isSome || s.link.lbtTries ≤ tries then
            .next (serve (endActive 0x41 (lowByte tries :: leBytes (twos 2 top) 2) s))
          else .next (serve (startBackoff s))
  | none => .next s

/-- LBT_BACKOFF: the backoff is over, the next try runs. -/
def execLbtBackoff (s : State) : Host.Outcome State Fault Refusal :=
  match activeTx s with
  | some j => .next (if j.stage = .backoff && j.until_ ≤ s.clocks.sc then startListen s else s)
  | none => .next s

/-! A timed start (R361) -/

/-- The earliest PHR start of a transmission that ramps up now. -/
def earliestPhr (s : State) (j : TxJob) : Nat := s.clocks.sc + microsCounts 18 + (if j.cwMs.isSome then 0 else shrCounts j.profile)

/-- The transmission cannot begin on time: STATE 0x06. -/
def tooLate (j : TxJob) (s : State) : State :=
  serve (txEnds j 0x17 [6] { s with link := { s.link with atLate := bump 4 s.link.atLate 1, txs := s.link.txs.erase j } })

/-- AT_START: the timed transmission starts so that its PHR begins at AT; one that cannot completes with STATE 0x06. -/
def execAtStart (s : State) : Host.Outcome State Fault Refusal :=
  match s.link.txs.find? fun j => j.at_.isSome && notOnAir j with
  | some j =>
    let at_ := j.at_.getD 0
    if earliestPhr s j ≤ at_ then .next (if j.stage = .timed && mayRamp s then goOnAir (some at_) s else s)
    else .next (tooLate j s)
  | none => .next s

/-! The end of a transmission -/

/-- Result bytes of a LINK_TX (R363). -/
def txResult (j : TxJob) : List Byte :=
  leBytes j.cost 2 ++ [lowByte j.tries, lowByte j.written] ++ leBytes (j.phrStamp / 2 ^ 16) 4

/-- The response window of the first check opens (R378). -/
def openResponse (tEnd : Nat) (s : State) : State :=
  match s.sessions.checks with
  | c :: cs =>
    let shr := shrCounts (profileOf s s.sessions.homeProfile)
    { s with sessions := { s.sessions with
      checks := { c with windowOpen := true, tEnd := tEnd, until_ := tEnd + microsCounts 3000 + shr } :: cs } }
  | [] => s

/-- A transmission on air has ended whole: its window opens, or its command, check or attempt goes on. -/
def sentWhole (j : TxJob) (s : State) : State :=
  match j.owner with
  | .host q => match j.rxAfterMs with
    | some ms =>
      let j := { j with stage := .after, until_ := j.endStamp + microsCounts (24 + 1000 * ms) }
      pushTx j s
    | none => complete q 0x00 (txResult j) s
  | .check _ => match txStop s j with
    | some k => stopTx j k s
    | none => openResponse j.endStamp s
  | .release k stop => attemptEnds k stop j.margin.isSome 0x00 [] j.phrStamp j.cost s

/-- Step 5 of Table 8-8: the amplifier is off. Path S goes to LISTEN, or relocks where its lock was lost (R161), and its transmission ends. -/
def amplifierOff (s : State) : State :=
  let back (s : State) : State := if s.pathS.synth.locked then setFe 2 .run s else relockBand 2 (setFe 2 .retune s)
  match activeTx s with
  | some j =>
    let s := back (removeActive s)
    serve (if j.cut then txEnds j 0x52 [2] s else sentWhole j s)
  | none => serve (back s)

/-- A transmission is on air, or a TX_POWER calibration drives the amplifier (R185, R195). -/
def emitting (s : State) : Bool :=
  (s.link.txs.any fun j => j.stage == .onAir) || (match s.cal.linkJob with
    | some j => j.typ == 0x21
    | none => false)

/-- One step of Table 8-8: the lead over, the ramp up, the last symbol, the amplifier off, the blanking over. -/
def txStep (s : State) (k : Nat) : State :=
  match k, s.pathS.fe.state with
  | 2, .run => if s.link.txs.any fun j => j.stage == .onAir then setFe 2 .txRampUp s else s
  | 3, .txRampUp => setFe 2 .tx s
  | 4, .tx => setFe 2 .txRampDown s
  | 5, .txRampDown => amplifierOff s
  | 6, _ => if s.link.txBlank && !emitting s then endBlank true s else s
  | _, _ => s

/-- TRANSMISSION_END: a transmission on air reaches a step of Table 8-8, up to the end of the blanking 20 µs after the ramp-down. -/
def execTransmissionEnd (at_ : Nat) (s : State) : Host.Outcome State Fault Refusal :=
  .next (if 2 ≤ at_ && at_ ≤ 6 then forAll ((List.range (at_ - 1)).map (· + 2)) txStep s else s)

/-- RX_AFTER: the window after a transmission ends and the LINK_TX completes. -/
def endAfter (j : TxJob) (s : State) : State :=
  match j.owner with
  | .host q => serve (complete q 0x00 (txResult j) { s with link := { s.link with txs := s.link.txs.filter fun k => k.stage != .after } })
  | _ => s

def execRxAfter (s : State) : Host.Outcome State Fault Refusal :=
  match s.link.txs.find? fun j => j.stage == .after with
  | some j => .next (if j.until_ ≤ s.clocks.sc && !inPacket s then endAfter j s else s)
  | none => .next s

/-! Receiving (R364, R365) -/

/-- Path S is in LISTEN for a receive window. -/
def receiving (s : State) : Bool :=
  s.pathS.fe.state == .run && (activeTx s).isNone && serving s != .none

/-- QUAL_TIMEOUT: back to detection. -/
def execQualTimeout (s : State) : Host.Outcome State Fault Refusal :=
  .next (if receiving s then { s with link := { s.link with qualFails := bump 4 s.link.qualFails 1 } } else s)

/-- A window whose time passed during a packet, or whose command was asked to stop then, ends with the packet (R96, R368). -/
def endDueWindow (s : State) : State :=
  match s.link.hostRx, s.link.txs.find? fun j => j.stage == .after with
  | some w, _ => match stopCause s w.seq with
    | some k =>
      let r := abortedReply s k
      complete w.seq r.1 r.2 { s with link := { s.link with hostRx := none } }
    | none => if w.until_ ≤ s.clocks.sc then endRx 0 s else s
  | none, some j => if j.until_ ≤ s.clocks.sc then endAfter j s else s
  | none, none => s

/-- A packet is over, received or dropped, and path S is in LISTEN again (Table 8-4): what it held back goes on. -/
def packetOver (held : Bool) (s : State) : State := serve (if held then endDueWindow s else s)

/-- SFD_TIMEOUT: the packet is dropped. -/
def execSfdTimeout (s : State) : Host.Outcome State Fault Refusal :=
  .next (if receiving s || inPacket s then
    packetOver (inPacket s)
      (countDropped (setFe 2 .run { s with link := { s.link with sfdMisses := bump 4 s.link.sfdMisses 1 } })) else s)

/-- A receive record (Table 16-10). -/
def rxRecord (pn channel : Nat) (own : Bool) (k : RxPacket) : List Byte :=
  let len := 32 + (k.psdu.length + 3) / 4 * 4
  let flags := flagNat k.fcsOk + 2 * flagNat k.fcs4 + 4 * flagNat k.whitened + 8 * flagNat own + 32 * flagNat k.ofdm
  let head := leBytes len 2 ++ [lowByte pn, lowByte flags] ++ leBytes k.psdu.length 2 ++ leBytes (twos 2 k.rssi) 2 ++
    leBytes (twos 2 k.snr) 2 ++ leBytes (twos 2 k.afc) 2 ++ [lowByte k.rateOrMcs, lowByte k.option, 0, 0] ++ leBytes k.stamp 8 ++
    leBytes channel 4 ++ [0, 0, 0, 0]
  head ++ k.psdu ++ List.replicate (len - 32 - k.psdu.length) 0

/-- The host's LINK_RX window takes a packet: its record, or the end of the window for want of room (R368). -/
def hostTakes (w : RxWindow) (own : Bool) (k : RxPacket) (s : State) : State :=
  let r := rxRecord w.profileNo w.channel own k
  if w.size < w.bytes + r.length then endRx 2 { s with link := { s.link with rxNoRoom := bump 4 s.link.rxNoRoom 1 } }
  else
    let s := devPuts s (w.dest + w.bytes) r
    let w := { w with records := w.records + 1, bytes := w.bytes + r.length }
    let s := { s with link := { s.link with hostRx := some w } }
    if w.maxPackets != 0 && w.maxPackets ≤ w.records then endRx 1 s else s

/-- The RX_AFTER window takes a packet and ends (R362). -/
def afterTakes (j : TxJob) (k : RxPacket) (s : State) : State :=
  let r := rxRecord j.profileNo j.channel false k
  if s.link.afterSize < r.length || !inScratch s.link.afterDest r.length then
    endAfter j { s with link := { s.link with rxNoRoom := bump 4 s.link.rxNoRoom 1 } }
  else endAfter { j with written := 1 } (devPuts s s.link.afterDest r)

/-! Own frames (R377) -/

/-- Who sent a frame with an EUI: the endpoint whose check by PAIR awaits it, or the paired record; with the key. -/
def senderOf (s : State) (src : Nat) : Option (Nat × Nat × List Byte) :=
  let pairing := match s.sessions.checks with
    | c :: _ => match c.purpose with
      | .pair _ => if c.eui == src then some (c.ep, 0, c.key) else none
      | _ => none
    | [] => none
  pairing.or ((s.sessions.endpoints.find? fun e => e.2.paired && e.2.eui == src).map fun e => (e.1, e.2.role, epKey s e.1))

/-- Round-trip residual in 10 ns (R379). -/
def roundTrip (s : State) (stamp tEnd : Nat) : Int :=
  let p := profileOf s s.sessions.homeProfile
  let shr : Nat := if isOfdm p then 72000 else (p.preambleLen + 2) * 800000 / fskRate p
  roundDiv (((stamp : Int) - (tEnd : Int)) * 100000000) countsPerSecond - 100000 - (shr : Int)

/-- The first check awaits a RESPONSE of this endpoint. -/
def awaits (s : State) (n : Nat) : Option Check :=
  (s.sessions.checks.head?).filter fun c => c.windowOpen && c.ep == n

/-- The awaited RESPONSE failed: the first reason stands (R378). -/
def responseFails (why : Nat) (s : State) : State :=
  match s.sessions.checks with
  | c :: cs => { s with sessions := { s.sessions with checks := { c with fail := if c.fail = 0 then why else c.fail } :: cs } }
  | [] => s

/-- An authenticated RESPONSE. -/
def takeResponseFrame (n role : Nat) (payload : List Byte) (k : RxPacket) (s : State) : State :=
  let s := if role = 2 then sensorReports n (bit (byteAt payload 11) 0) s else s
  match awaits s n with
  | none => s
  | some c =>
    if fieldAt payload 0 8 == c.nonce then
      responseTaken { rtt := satInt 2 (roundTrip s k.stamp c.tEnd), rssi := k.rssi, payload := payload } s
    else responseFails 2 s

def countUnknown (s : State) : State := { s with sessions := { s.sessions with unknownSrc := bump 2 s.sessions.unknownSrc 1 } }

def countAuthFail (s : State) : State :=
  { s with sessions := { s.sessions with frameAuthFails := bump 2 s.sessions.frameAuthFails 1 } }

/-- Payload bytes of a TYPE that an endpoint sends. -/
def ownPayloadLen (typ : Nat) : Nat := if typ = 2 then 12 else 4

/-- A received own frame: known sender, fresh count, good MIC (R377). -/
def ownReceived (k : RxPacket) (s : State) : State :=
  let f := k.psdu.take (k.psdu.length - (if k.fcs4 then 4 else 2))
  let typ := byteAt f 1
  let fcnt := fieldAt f 18 5
  if f.length < 31 || byteAt f 0 != 0xA4 || fieldAt f 10 8 != s.sessions.deviceEui then countUnknown s
  else match senderOf s (fieldAt f 2 8) with
    | none => countUnknown s
    | some (n, role, key) =>
      if !(typ == 2 || (typ == 3 && role == 2)) then countUnknown s
      else
        let opened := (ccmOpen key ((f.drop 2).take 8 ++ (f.drop 18).take 5) (f.take 23) (f.drop 23)).filter fun x =>
          x.length == ownPayloadLen typ
        match opened with
        | none =>
          let s := countAuthFail s
          if typ == 2 && (awaits s n).isSome then responseFails 1 s else s
        | some payload =>
          if fcnt ≤ rxFloor s n then countAuthFail s
          else
            let s := epSet n 3 5 fcnt s
            if typ = 2 then takeResponseFrame n role payload k s else sensorReports n (byteAt payload 0 == 1) s

/-- The frame is one of the Rhatre's own kind (R376). -/
def isOwnFrame (k : RxPacket) : Bool := k.fcsOk && byteAt k.psdu 0 % 8 == 4

/-- A packet that passed its PHR reaches what path S serves. -/
def deliverPacket (k : RxPacket) (s : State) : State :=
  let own := isOwnFrame k
  let s := match serving s with
    | .host w => if (k.fcsOk && (!own || w.ownToo)) || (!k.fcsOk && w.keepBad) then hostTakes w own k s else s
    | .after j => if k.fcsOk && !own then afterTakes j k s else s
    | .response | .watch =>
      if k.fcsOk && !own then { s with link := { s.link with foreignDrops := bump 4 s.link.foreignDrops 1 } } else s
    | .none => s
  if own then ownReceived k s else s

/-- The profile that the receiver is set to. -/
def servingProfile (s : State) : Profile :=
  match serving s with
  | .host w => w.profile
  | .after j => j.profile
  | _ => profileOf s s.sessions.homeProfile

/-- The carrier lies within the pull-in of Table 16-5 from RX_TRIM, both in 10 Hz (R366). -/
def pulledIn (s : State) (p : Profile) (k : RxPacket) : Bool :=
  let limit : Nat := if !isOfdm p then 6000 else if p.option = 3 then 4000 else 2000
  (k.afc - s.link.rxTrim).natAbs ≤ limit

/-- A packet as the receiver takes it: for MR-OFDM its FCS length and whitening are the profile's (R365). -/
def asReceived (p : Profile) (k : RxPacket) : RxPacket :=
  if isOfdm p then { k with ofdm := true, fcs4 := bit p.flags 4, whitened := bit p.flags 3, option := p.option } else { k with ofdm := false }

/-- The PHR passes the tests of R365. -/
def phrOk (p : Profile) (k : RxPacket) : Bool :=
  (if isOfdm p then k.headerOk && mcsOk p.option k.rateOrMcs else !k.modeSwitch && k.reserved == 0) &&
    k.length != 0 && (if k.fcs4 then 4 else 2) ≤ k.length

/-- A packet whose PHR was read is dropped or delivered. -/
def takePacket (k : RxPacket) (s : State) : State :=
  if !phrOk (servingProfile s) k then countDropped { s with link := { s.link with phrBad := bump 4 s.link.phrBad 1 } }
  else
    let l := s.link
    deliverPacket k
      { s with link := if k.fcsOk then { l with rxPackets := bump 4 l.rxPackets 1 } else { l with fcsBad := bump 4 l.fcsBad 1 } }

/-- PACKET: a packet qualifies, and path S goes to RX_PACKET with its gain frozen (R182, R364), or one within the pull-in is received whole
(R365, R366). -/
def execPacket (pkt : Option RxPacket) (s : State) : Host.Outcome State Fault Refusal :=
  match pkt with
  | none => .next (if receiving s then setFe 2 .rxPacket s else s)
  | some k =>
    let p := servingProfile s
    if (receiving s || inPacket s) && pulledIn s p k then
      .next (packetOver (inPacket s) (takePacket (asReceived p k) (setFe 2 .run s)))
    else .next s

end Sys2Proof.Machine
end

