-- ==== Sys2Proof/Machine/TasteOps.lean ====
section
/-!
DEFINITION. What happens to an item an engine completes: from a host-bound lane it reaches the slots and the time unit, gated by
the watermarks of the lane's last switch-over (R308); from a tasting lane it is must data (R302, R311). Candidates (R300), lees
(R310) and the units that confirm a tasting (R303 to R306).
-/
namespace Sys2Proof.Machine

/-! Votes that items carry (Table 15-1) -/

/-- The time of a time item that goes to the time unit: kind, UTC in counts, UNC_MS, leap status; a short-form DAB_TIME has none.
LF_TIME is handed over by its decoder. -/
def itemVote (it : Item) : Option (Nat × Int × Nat × Nat) :=
  let b := it.payload
  let minute : Nat := byteAt b 3 * 3600 + byteAt b 4 * 60
  match it.kind with
  | 0x13 => some (2, utcCounts (fieldAt b 0 3) minute, 100, 0)
  | 0x32 => some (3, utcCounts (fieldAt b 0 3) minute, byteAt b 7 * 100, 0)
  | 0x41 =>
    if bit (byteAt b 8) 2 then
      some (4, utcCounts (fieldAt b 0 3) (minute + byteAt b 5) + ((fieldAt b 6 2 * countsPerSecond / 1000 : Nat) : Int), 2,
        if bit (byteAt b 8) 1 then 2 else 1)
    else none
  | _ => none

/-- The item carries a time. -/
def timeItem (it : Item) : Bool := [0x13, 0x32, 0x41].contains it.kind

/-- The byte of a time item's payload that says it was handed to the time unit. -/
def handedByte (kind : Nat) : Nat := if kind = 0x41 then 8 else 6

/-- A time item marked as handed to the time unit. -/
def handed (it : Item) : Item :=
  let k := handedByte it.kind
  { it with payload := spliceAt it.payload k [lowByte (byteAt it.payload k / 2 * 2 + 1)] }

/-- A time taken from KT_LANE ends its KEEPTIME listen (R126). -/
def ktTaken (lane : Nat) (s : State) : State :=
  if modeNow s == 2 && s.modes.ktEnd.isSome && lane == s.modes.ktLaneUsed then
    { s with modes := { s.modes with ktEnd := some s.clocks.sc } }
  else s

/-- Hands the time of an item to the time unit (R338). -/
def handTime (it : Item) (s : State) : State :=
  if timeItem it then
    ktTaken it.lane (match itemVote it with
      | some (kind, utc, unc, leap) => takeVote kind it.lane utc it.stamp unc leap s
      | none => refuseVote s)
  else s

/-! Watermarks (R308) -/

/-- The delivery key of an item: KIND, and STREAM or sub-channel (the FIB number of a DAB_FIG); 256 without one. -/
def itemKey (it : Item) : Nat × Nat :=
  (it.kind, if it.kind = 0x40 then byteAt it.payload 2 else (itemStream it).getD 256)

/-- The ISEQ that a list of marks holds for a key. -/
def markOf (marks : List (Nat × Nat × Nat)) (k : Nat × Nat) : Option Nat :=
  (marks.find? fun m => m.1 == k.1 && m.2.1 == k.2).map fun m => m.2.2

def setMark (marks : List (Nat × Nat × Nat)) (k : Nat × Nat) (iseq : Nat) : List (Nat × Nat × Nat) :=
  (k.1, k.2, iseq) :: marks.filter fun m => !(m.1 == k.1 && m.2.1 == k.2)

/-- (ISEQ − w) mod 2^32 lies from 1 to 2^31 − 1. -/
def newerThan (iseq w : Nat) : Bool :=
  let d := (iseq + 2 ^ 32 - w % 2 ^ 32) % 2 ^ 32
  1 ≤ d && d < 2 ^ 31

/-- The follow entry of a followed lane. -/
def entryOf (s : State) (lane : Nat) : Option Nat :=
  (s.taste.follows.find? fun e => e.2.valid && e.2.lane == lane).map (·.1)

/-- The watermarks let an item of a host-bound lane through. -/
def passesMarks (s : State) (it : Item) : Bool :=
  match entryOf s it.lane with
  | some e => match markOf (followOf s e).marks (itemKey it) with
    | some w => newerThan it.iseq w
    | none => true
  | none => true

/-- Records the delivery of an item: it raises a watermark in force, and is the last delivered of its key. -/
def noteDelivery (s : State) (it : Item) : State :=
  match entryOf s it.lane with
  | some e => modFollow s e fun f =>
      { f with marks := if (markOf f.marks (itemKey it)).isSome then setMark f.marks (itemKey it) it.iseq else f.marks
               last := setMark f.last (itemKey it) it.iseq }
  | none => s

/-- Delivers an item of a host-bound lane, or skips it as a duplicate (R308). `field`: the data field of a DAB data group. -/
def deliverGated (it : Item) (field : Option (Nat × Nat)) (s : State) : State :=
  if passesMarks s it then
    let it := if timeItem it then handed it else it
    handTime it (deliverItem it field (noteDelivery s it))
  else { s with taste := { s.taste with duplicatesSkipped := bump 4 s.taste.duplicatesSkipped 1 } }

/-! Must buffers (R311) -/

def tastingOf (s : State) (lane : Nat) : Option Tasting := (s.taste.tastings.find? fun t => t.1 == lane).map (·.2)

def setTasting (s : State) (lane : Nat) (t : Tasting) : State :=
  { s with taste := { s.taste with tastings := s.taste.tastings.map fun x => if x.1 = lane then (lane, t) else x } }

def modTasting (s : State) (lane : Nat) (f : Tasting → Tasting) : State :=
  match tastingOf s lane with
  | some t => setTasting s lane (f t)
  | none => s

/-- Bytes of a must item, header included. -/
def mustLen (m : MustItem) : Nat := (itemBytes m.item).length

/-- The 4 KiB pages of the must range that a run of bytes touches. -/
def mustPages (addr len : Nat) : List Nat :=
  let first := (addr - 0x180000) / 4096
  (List.range ((addr - 0x180000 + len - 1) / 4096 + 1 - first)).map (first + ·)

/-- The pages a list of must items holds, each once. -/
def heldPages (items : List MustItem) : List Nat :=
  (List.range 64).filter fun p => items.any fun m => (mustPages m.addr (mustLen m)).contains p

/-- Every must item whose bytes stand: those of the tastings, and those kept for their pins. -/
def allMust (s : State) : List MustItem := (s.taste.tastings.map fun t => t.2.items).flatten ++ s.taste.pinned

/-- PAGES_FREE. -/
def pagesFree (s : State) : Nat := 64 - (heldPages (allMust s)).length

/-- Two runs of bytes meet. -/
def runsMeet (a n b m : Nat) : Bool := a < b + m && b < a + n

/-- The places at which a tasting may store an item of `len` bytes: a page start or right behind one of its own items, on pages of
its own or free ones, at most MUST_CAP in all, over none of its items. -/
def mustPlaces (s : State) (lane : Nat) (t : Tasting) (len : Nat) : List Nat :=
  let others := heldPages (((s.taste.tastings.filter fun x => x.1 != lane).map fun x => x.2.items).flatten ++ s.taste.pinned)
  let own := heldPages t.items
  let starts := t.items.map (fun m => m.addr + mustLen m) ++ (List.range 64).map fun p => 0x180000 + 4096 * p
  starts.filter fun a =>
    let ps := mustPages a len
    a + len ≤ 0x1C0000 && ps.all (fun p => !others.contains p) &&
      (own ++ ps.filter fun p => !own.contains p).length ≤ s.taste.mustCap &&
      t.items.all fun m => !runsMeet a len m.addr (mustLen m)

/-- Removes the first unpinned item of a list. -/
def rollOldest : List MustItem → Option (List MustItem)
  | [] => none
  | m :: ms => if m.pinned then (rollOldest ms).map (m :: ·) else some ms

/-- Stores a must item, rolling the tasting's oldest unpinned items until it fits (R311). Which of the possible places it takes is a
free value. -/
def storeMust (lane : Nat) (it : Item) (field : Option (Nat × Nat)) : Nat → State → State
  | 0, s => s
  | k + 1, s =>
    match tastingOf s lane with
    | none => s
    | some t =>
      let places := mustPlaces s lane t (itemBytes it).length
      if places.isEmpty then
        match rollOldest t.items with
        | some rest =>
          storeMust lane it field k { setTasting s lane { t with items := rest, rolled := t.rolled + 1 } with
            taste := { (setTasting s lane { t with items := rest, rolled := t.rolled + 1 }).taste with
              mustRolled := bump 4 s.taste.mustRolled 1 } }
        | none => { s with taste := { s.taste with mustDropped := bump 4 s.taste.mustDropped 1 } }
      else
        let (i, s) := draw places.length s
        let a := places.getD i 0x180000
        setTasting (devPuts s a (itemBytes it)) lane { t with items := t.items ++ [{ item := it, field := field, addr := a, pinned := false }] }

/-- An engine completes an item: delivered from a host-bound lane, must data on a tasting lane (R260, R294, R302). -/
def emit (it : Item) (field : Option (Nat × Nat)) (s : State) : State :=
  match (laneOf s it.lane).hold with
  | .host => deliverGated it field s
  | .tasting => match tastingOf s it.lane with
    | some t => storeMust it.lane it field (t.items.length + 1) s
    | none => s
  | _ => s

/-! Lees (R310) -/

/-- A tasting ends as lees (Table 13-4): its items discarded but for pinned bytes, its lane freed, its engine returned. -/
def endTasting (cause lane : Nat) (s : State) : State :=
  match tastingOf s lane with
  | none => s
  | some t =>
    let x := s.taste
    let x := { x with
      leesTastings := bump 4 x.leesTastings 1, leesItems := bump 4 x.leesItems t.items.length,
      leesBy := tabSet x.leesBy cause (bump 2 (tabGet 0 x.leesBy cause) 1),
      pinned := x.pinned ++ t.items.filter (·.pinned), tastings := x.tastings.filter fun y => y.1 != lane }
    let s := modFollow { s with taste := x } t.entry fun f =>
      { f with lees := bump 4 f.lees 1,
               refuted := if cause = 1 then (t.freqHz, s.clocks.sc) :: f.refuted.filter (fun r => r.1 != t.freqHz) else f.refuted }
    freeLane lane s

/-- Ends every tasting that satisfies a condition. -/
def endTastings (cause : Nat) (p : Nat → Tasting → Bool) (s : State) : State :=
  forAll ((s.taste.tastings.filter fun t => p t.1 t.2).map (·.1)) (fun s lane => endTasting cause lane s) s

/-! Identities and candidates (R300, R301) -/

/-- The identity a follow entry compares: IDENT, or for 0 what its followed engine reports now. -/
def identityOf (s : State) (f : Follow) : Nat :=
  if f.ident = 0 then
    let x := (laneOf s f.lane).cur
    match f.kind with
    | 1 => (analogueOf s x.engIndex).pi.getD 0
    | 2 => ((drmOf s x.engIndex).services.getD 0 {}).id
    | _ => 0
  else match f.kind with
    | 1 => f.ident % 65536
    | 2 => f.ident % 2 ^ 24
    | _ => f.ident

/-- FOLLOW_AF of an engine's parameters (Tables 11-1, 12-2). -/
def followAf (kind : Nat) (x : LaneSet) : Bool :=
  match kind with
  | 1 => bit (engPar x 12) 3
  | 2 => bit (engPar x 11) 0
  | 3 => bit (engPar x 10) 0
  | _ => false

/-- R299: a lane can be followed: HOST, with an FM unit running RDS, a DRM engine or a DAB engine attached with FOLLOW_AF 1. -/
def followable (s : State) (lane : Nat) : Bool :=
  let x := laneOf s lane
  x.hold == .host && followAf x.cur.engKind x.cur &&
    (x.cur.engKind != 1 || ((engPar x.cur 10 == 3 || engPar x.cur 10 == 4) && bit (engPar x.cur 12) 0))

/-- An RDS entry's frequency in Hz (R255). -/
def rdsAfHz (e : Nat) : Nat := if bit e 15 then e % 2 ^ 14 * 1000 else e % 2 ^ 14 * 10000

/-- The frequencies of a lane's AF list, in list order. -/
def afFreqs (s : State) (lane : Nat) : List Nat :=
  let x := (laneOf s lane).cur
  match x.engKind with
  | 1 => (analogueOf s x.engIndex).af.entries.map rdsAfHz
  | 2 => (drmOf s x.engIndex).eng.af.map fun e => e.khz * 1000
  | 3 => (dabOf s x.engIndex).eng.af.map fun e => e.khz * 1000
  | _ => []

/-- The AF list of an entry's followed lane, with the frequency left behind at its end. -/
def candidateList (s : State) (f : Follow) : List Nat := afFreqs s f.lane ++ f.left.toList

/-- The frequency a lane is bound to. -/
def boundFreq (x : Lane) : Nat := if x.gen = 0 then (nextSet x).freqHz else x.cur.freqHz

/-- A host-bound lane of the path occupies a frequency. -/
def hostOccupies (s : State) (p hz : Nat) : Bool :=
  s.lanes.any fun e => e.2.hold == .host && e.2.path == p && boundFreq e.2 == hz

/-- An entry of the list is a candidate (R300). -/
def isCandidate (s : State) (f : Follow) (hz : Nat) : Bool :=
  let x := laneOf s f.lane
  covered x.path hz && hz != boundFreq x && !inGuard x.path hz (pathOf s x.path).fe.loHz && !hostOccupies s x.path hz &&
    !f.refuted.any fun r => r.1 == hz && s.clocks.sc - r.2 < 300 * countsPerSecond

/-- A candidate that the entry could taste next: inside the window and not being tasted for it. -/
def canTaste (s : State) (e : Nat) (hz : Nat) : Bool :=
  let f := followOf s e
  isCandidate s f hz && inWindow s (laneOf s f.lane).path hz &&
    !s.taste.tastings.any fun t => t.2.entry == e && t.2.freqHz == hz

/-- The next candidate of an entry: its place in the list and its frequency, from NEXT_CAND on and round. -/
def nextCandidate (s : State) (e : Nat) : Option (Nat × Nat) :=
  let f := followOf s e
  let l := candidateList s f
  ((List.range l.length).map fun i => (f.nextCand + i) % l.length).findSome? fun i =>
    if canTaste s e (l.getD i 0) then some (i, l.getD i 0) else none

/-- A FREE lane and an engine of a kind to borrow (R301). -/
def borrowable (s : State) (kind : Nat) : Option (Nat × Nat) :=
  match (List.range 64).find? fun n => (laneOf s n).hold == .free, freeEngine s kind with
  | some n, some i => some (n, i)
  | _, _ => none

def tastingsOf (s : State) (e : Nat) : Nat := (s.taste.tastings.filter fun t => t.2.entry == e).length

/-! The followed lane changes -/

/-- The followed lane accepted an AF list: the frequency left behind is no candidate, and candidates not in the list end (R300,
Table 13-4). -/
def listChanged (lane : Nat) (s : State) : State :=
  match entryOf s lane with
  | none => s
  | some e =>
    let s := modFollow s e fun f => { f with left := none }
    let l := afFreqs s lane
    endTastings 7 (fun _ t => t.entry == e && !l.contains t.freqHz) s

/-- Tastings whose frequency a host-bound lane has come to occupy end (R300). -/
def occupiedNow (s : State) : State :=
  endTastings 7 (fun lane t => hostOccupies s (laneOf s lane).path t.freqHz) s

/-- The followed lane is unbound, its engine detached, or its frequency, rate or preset changed (Table 13-4). -/
def followBroken (lane : Nat) (s : State) : State :=
  match entryOf s lane with
  | some e => endTastings 8 (fun _ t => t.entry == e) s
  | none => s

/-- Clears a follow entry (R299, R314). -/
def clearEntry (e : Nat) (s : State) : State :=
  let s := endTastings 8 (fun _ t => t.entry == e) s
  { s with taste := { s.taste with follows := tabDel s.taste.follows e } }

/-! Units (R303 to R306) -/

/-- QUAL_MEAN × 16 blocks summed: none from fewer than 4 blocks. As a pair of sum and count. -/
def qualMean (x : Lane) : Option (Int × Nat) :=
  if x.quals.length < 4 then none else some (x.quals.foldl (· + ·) 0, x.quals.length)

/-- The mean in 1/16 dB, 0x8000 when void (Table 13-8). The spec states no rounding: between two units it shows the one below or above, freely
(log entry 79). -/
def qualMeanField (x : Lane) : Int :=
  match qualMean x with
  | some (t, n) => t / (n : Int) + if t % (n : Int) = 0 then 0 else ((Config.blockByte 0x2D100C (leBytes (twos 4 t) 4)).toNat % 2 : Nat)
  | none => -32768

/-- R306: QUAL_MEAN − FOLLOW_QUAL exceeds MARGIN × 0.5 dB. A void FOLLOW_QUAL counts as −128 dB, a void QUAL_MEAN fails. -/
def clearsMargin (s : State) (lane : Nat) (f : Follow) : Bool :=
  match qualMean (laneOf s lane) with
  | none => false
  | some (a, n) =>
    let (b, m) := (qualMean (laneOf s f.lane)).getD (-2048, 1)
    a * (m : Int) - b * (n : Int) > 8 * (f.margin : Int) * (n : Int) * (m : Int)

/-- RUN after a unit (R304). -/
def runAfter (run : Nat) (good erased : Bool) : Nat := if good then min 255 (run + 1) else if erased then run else 0

/-- QUAL_MEAN of a lane exceeds that of another, or equals it and the lane's number is the lower one (R306). -/
def meanBeats (s : State) (lane other : Nat) : Bool :=
  match qualMean (laneOf s lane), qualMean (laneOf s other) with
  | some (a, n), some (b, m) => decide (b * (n : Int) < a * (m : Int)) || (a * (m : Int) == b * (n : Int) && lane < other)
  | some _, none => true
  | none, _ => false

/-- A unit ends on a tasting lane (R304 to R306): RUN moves, and a MATCHED tasting that meets every condition is confirmed. Of those of one entry
whose units end at one count the one with the highest QUAL_MEAN is: one confirmed at this count gives way to it and is MATCHED again. -/
def unitEnd (lane : Nat) (good erased : Bool) (s : State) : State :=
  match tastingOf s lane with
  | none => s
  | some t =>
    let f := followOf s t.entry
    let run := runAfter t.run good erased
    let s := setTasting s lane { t with run := run }
    if !(t.state == 2 && f.goodRun ≤ run && clearsMargin s lane f) then s
    else
      let confirm (s : State) : State := setTasting s lane { t with run := run, state := 3, confirmedAt := s.clocks.sc }
      match s.taste.tastings.find? fun x => x.2.entry == t.entry && x.2.state == 3 with
      | none => confirm s
      | some (other, o) =>
        if o.confirmedAt = s.clocks.sc && meanBeats s lane other then confirm (setTasting s other { o with state := 2 }) else s

/-- What an engine reports of the identity (Table 13-2). -/
inductive Identity where
  | matched | refuted
  deriving DecidableEq, Repr

/-- An identity report on a tasting lane: ACQUIRING becomes MATCHED, or the tasting ends with cause IDENT. -/
def reportIdentity (lane : Nat) (r : Identity) (s : State) : State :=
  match tastingOf s lane with
  | none => s
  | some t =>
    match r with
    | .matched => if t.state = 1 then setTasting s lane { t with state := 2, matchedAt := s.clocks.sc } else s
    | .refuted => if t.state = 3 then s else endTasting 1 lane s

/-- A DRM or DAB engine returned to its search on a tasting lane (R310): RUN clears, ACQUIRING, ID_TIMEOUT counts from now. -/
def tasteRestart (lane : Nat) (s : State) : State :=
  modTasting s lane fun t => if t.state = 3 then t else { t with state := 1, run := 0, started := s.clocks.sc }

end Sys2Proof.Machine
end

