-- ==== Sys2Proof/Machine/Paths.lean ====
section
/-!
DEFINITION. TUNE of a path (R168 to R176), the events of a front end and of its synthesiser (R159 to R161, Table 8-4), the AGC (R178 to R181)
and blanking by BLANK_IN (R186).
-/
namespace Sys2Proof.Machine

/-! TUNE -/

/-- The lane's frequencies, in force and pending, keep clear of an LO (R169, R170). -/
def laneClear (p lo : Nat) (x : Lane) : Bool :=
  x.hold == .free || x.path != p ||
    (!inGuard p (boundFreq x) lo && !inGuard p (nextSet x).freqHz lo)

/-- The LO of a side (0 above, 1 below) stands. -/
def sideStands (s : State) (p centre raster side : Nat) : Bool :=
  let lo := if side = 0 then centre + raster / 2 else centre - raster / 2
  loInRange p lo && s.lanes.all fun e => laneClear p lo e.2

/-- The side a TUNE takes under LO_SIDE, none when every permitted side is refused. -/
def chooseSide (s : State) (p centre raster code : Nat) : Option Nat :=
  let sides := match code with
    | 0 => [0, 1]
    | 1 => [0]
    | _ => [1]
  sides.find? (sideStands s p centre raster)

/-- RASTER_HZ of path L or V is even and in range (Table 8-2). -/
def rasterOk (p r : Nat) : Bool :=
  r % 2 == 0 && (if p = 0 then 1000 ≤ r && r ≤ 100000 else 10000 ≤ r && r ≤ 2000000)

def widthOk (p w : Nat) : Bool :=
  match p with
  | 0 => w < 3
  | 1 => w < 4
  | _ => w == 0

def checkTune (s : State) (c : Cmd) : Option Reply :=
  let p := cmdIdx c
  let centre := parN c 8 4
  let raster := parN c 12 3
  let code := par c 15 % 4
  let byte15 := par c 15 < 16 && code != 3 && widthOk p (par c 15 / 4 % 4)
  let sides := p == 2 || !rasterOk p raster || code == 3 || (chooseSide s p centre raster code).isSome
  firstFail (needObject [2] c :: needHeader c ++
    [needField 8 (covered p centre && sides), needField 12 (p == 2 || rasterOk p raster), needField 15 byte15] ++ needZeros c 16 31 ++
    [needMode s [3, 4, 5, 6]])

/-- Preselector section of an LO or, on path S, of a channel (R171, Table 8-9). -/
def preselOf (p lo centre : Nat) : Nat :=
  match p with
  | 0 => if lo ≤ 2700000 then 0 else 1
  | 1 => if lo ≤ 128000000 then 0 else 1
  | _ => if centre < 900000000 then 0 else 1

/-- A TUNE of path L or V takes effect (R176). -/
def tunePath (p centre raster side width : Nat) (s : State) : State :=
  let fe := (pathOf s p).fe
  let lo := if side = 0 then centre + raster / 2 else centre - raster / 2
  let presel := preselOf p lo centre
  let same := fe.tuned && fe.loHz == lo && fe.presel == presel && fe.width == width
  let keep := fe.loHz == lo && (pathOf s p).synth.locked
  let moved := fe.tuned && (fe.presel != presel || fe.width != width)
  let s := modFe s p fun f =>
    { f with tuned := true, loSideUsed := side, presel := presel, width := width, loHz := lo, loNow := lo, centreHz := centre,
             rasterHz := raster, selPend := f.state != .off && (f.selPend || moved) }
  let s := recomputeNco p s
  match fe.state with
  | .run => if same then enterRun p s else if keep then settled p (setFe p .retune s) else retunePath p s
  | .acquire | .range | .retune => if keep then settled p (setFe p .retune s) else retunePath p s
  | _ => retunePath p s

/-- A TUNE of path S (R172, R176). The LO then stands there until link work places its own (DEDUCED, notes/assumptions/39.md). -/
def tuneS (s : State) (c : Cmd) : State :=
  let f := parN c 8 4
  if !channelPermitted s f then complete c.seq 0x42 [1, 0xFF, 0, 0] s
  else
    let fe := s.pathS.fe
    let moves := fe.loNow != linkLo f || fe.state == .noLock
    let s := modFe s 2 fun x => { x with tuned := true, loHz := linkLo f, loNow := linkLo f, centreHz := f, rasterHz := parN c 12 3, width := 0,
                                         loSideUsed := if linkLo f < f then 1 else 0, presel := preselOf 2 0 f,
                                         tuneHolds := fe.state != .off,
                                         selPend := fe.state != .off && (x.selPend || x.presel != preselOf 2 0 f) }
    if fe.state = .off || !moves then complete c.seq 0x00 (tuneResult s 2) s else retunePath 2 s

def runTune (s : State) (c : Cmd) : State :=
  if s.clocks.fault then complete c.seq 0x52 [3] s
  else
    match cmdIdx c with
    | 2 => serve (tuneS s c)
    | p =>
      let raster := parN c 12 3
      tunePath p (parN c 8 4) raster ((chooseSide s p (parN c 8 4) raster (par c 15 % 4)).getD 0) (par c 15 / 4 % 4) s

/-- A TUNE of a path waits for a reference change (Table 7-4), and one of path S for a packet in progress (R176) and for a link
calibration (R195). -/
def tuneWaits (s : State) (c : Cmd) : Bool :=
  s.clocks.stage != .idle || (cmdIdx c == 2 && (packetOn s || s.cal.linkJob.isSome))

/-- TUNE of a PATH object; one naming the CPLL is TUNE_CPLL's. -/
def execTune (seq : Nat) (s : State) : Host.Outcome State Fault Refusal :=
  match startable s seq 0x10 with
  | some c => .next (if cmdKind c = 3 || tuneWaits s c then s else startCmd s seq 0x10 checkTune runTune)
  | none => .next s

/-! Lock -/

/-- Path S changed: the link goes on with it. -/
def afterPath (p : Nat) (s : State) : State := if p = 2 then serve s else s

/-- A window of the COUNT check before a transmission (R162): every one is compared. -/
def checkWindow (count n : Nat) (s : State) : State :=
  let x := s.pathS.synth
  if !windowGood x count then endActive 0x52 [2] (modSynth s 2 fun x => { x with txCheck := none })
  else if x.run ≤ n + 1 then checkPassed (modSynth s 2 fun x => { x with txCheck := none })
  else modSynth s 2 fun x => { x with txCheck := some (n + 1) }

/-- LOCK_WINDOW: a COUNT window ends (R159, R161, R162). -/
def execLockWindow (path count : Nat) (s : State) : Host.Outcome State Fault Refusal :=
  let x := (pathOf s path).synth
  if x.locking then
    if x.timedMode then .next s
    else match lockWindow x count with
      | .more y => .next (modSynth s path fun _ => y)
      | .locked y => .next (afterPath path (lockDone path (modSynth s path fun _ => y)))
      | .failed y => .next (afterPath path (lockFailed path (modSynth s path fun _ => y)))
  else if x.locked then
    let bad := if windowGood x count then 0 else min 2 (x.badRun + 1)
    let s := if x.timedLock then s else modSynth s path fun x => { x with badRun := bad }
    match x.txCheck with
    | some n => .next (afterPath path (checkWindow count n s))
    | none => .next s
  else .next s

/-- TIMED_LOCK: lock is declared by time (R160). -/
def execTimedLock (path : Nat) (s : State) : Host.Outcome State Fault Refusal :=
  let x := (pathOf s path).synth
  if x.locking && x.timedMode then
    let s := modSynth s path fun x => { x with locking := false, locked := true, timedLock := true, bandTries := x.tryPlace }
    .next (afterPath path (lockDone path s))
  else .next s

/-- A lost lock on path S (R161, Table 8-8): a transmission on air ramps down at once, its charge kept, and ends with NO_LOCK after the ramp,
one still in its lead of 10 µs ends here; one not yet on air places its LO again, and a packet being received is dropped. -/
def cutTransmission (s : State) : State :=
  match activeTx s with
  | none => dropPacket s
  | some j =>
    if j.stage != .onAir then setActive (fun j => { j with stage := .tuning }) s
    else
      let lost := { s with link := { s.link with lostTx := bump 4 s.link.lostTx 1 } }
      match s.pathS.fe.state with
      | .txRampUp | .tx => setActive (fun j => { j with cut := true }) (setFe 2 .txRampDown lost)
      | .txRampDown => s
      | _ => endActive 0x52 [2] lost

/-- Path S relocks after a lost lock, in a transmission once its ramp is down (R161). -/
def relockNow (path : Nat) (s : State) : State :=
  if path = 2 && (pathOf s path).fe.state = .txRampDown then s else relockBand path (setFe path .retune s)

/-- LOCK_LOST: two windows in succession outside LOCK_TOL (R161). During a calibration the relock waits for its end. -/
def execLockLost (path : Nat) (s : State) : Host.Outcome State Fault Refusal :=
  let x := (pathOf s path).synth
  if x.locked && !x.timedLock && 2 ≤ x.badRun then
    let s := modSynth s path fun x => { x with lockLost := bump 2 x.lockLost 1, locked := false, badRun := 0, txCheck := none }
    let s := raise .clockEvent s
    if (pathOf s path).fe.state = .cal then .next (modSynth s path fun x => { x with bandStands := true })
    else
      let s := if path = 2 then cutTransmission s else s
      .next (afterPath path (relockNow path s))
  else .next s

/-! ACQUIRE, RANGE and the AGC -/

/-- Samples of a range or section switch settle (Table 8-5). -/
def settleSamples : Nat → Nat
  | 0 => 160
  | 1 => 640
  | _ => 64

/-- Samples of an offset acquire: 2^(DC_K_ACQ + 3), which the defaults of Table 8-7 make those of Table 8-5. -/
def acquireSamples (s : State) (p : Nat) : Nat := 2 ^ ((pathOf s p).fe.used.dcKAcq + 3)

/-- Samples of an AGC period (Table 8-5). -/
def periodSamples : Nat → Nat
  | 0 => 2048
  | 1 => 8192
  | _ => 128

/-- The samples that a state must have counted before an OFFSET_ACQUIRE ends it: RANGE its settle and its acquire, STARTING and RETUNE the
settle alone, ACQUIRE its acquire, after the settle of a range change it made (R175, Table 8-4). -/
def samplesNeeded (s : State) (p : Nat) : Nat :=
  match (pathOf s p).fe.state with
  | .acquire => acquireSamples s p + (if (pathOf s p).fe.acqRanges = 0 then 0 else settleSamples p)
  | .range => settleSamples p + acquireSamples s p
  | _ => settleSamples p

/-- OFFSET_ACQUIRE: the switch settle, and outside STARTING and RETUNE the offset acquire, are complete after `count` samples, none of them
blanked (R175, Table 8-4). -/
def execOffsetAcquire (path count : Nat) (s : State) : Host.Outcome State Fault Refusal :=
  if blanked s path || !clocksRun s || count < samplesNeeded s path then .next s
  else match (pathOf s path).fe.state with
    | .acquire =>
      let s := modFe s path fun f => { f with acqDone := true }
      .next (if (pathOf s path).fe.acqQuiet then afterPath path (enterRun path s) else s)
    | .range => .next (afterPath path (enterRun path s))
    | .starting | .retune => .next (afterPath path (settled path (modFe s path fun f => { f with selPend := false })))
    | _ => .next s

/-- A range change to `r` with a fine gain (R178, R179): RANGE from RUN, anew in RANGE; within ACQUIRE the fourth ends the acquire; in RETUNE
the gain alone moves. -/
def changeRange (p r fine : Nat) (s : State) : State :=
  let s := modFe s p fun f =>
    { f with gainRange := r, gainFine := fine, rangeChanges := bump 4 f.rangeChanges 1, lastRangeSc := some s.clocks.sc }
  match (pathOf s p).fe.state with
  | .acquire =>
    let s := modFe s p fun f => { f with acqRanges := f.acqRanges + 1, acqDone := false, acqQuiet := false }
    if 4 ≤ (pathOf s p).fe.acqRanges then enterRun p (modFe s p fun f => { f with acqTimeouts := bump 2 f.acqTimeouts 1 }) else s
  | .retune => s
  | _ => setFe p .range (modFe s p fun f => { f with stateSamples := 0 })

/-- The fine gain that moves the total gain by `d` (0.5 dB) across a change to range `r`, as far as the span allows. -/
def fineFor (p r : Nat) (f : FrontEnd) (d : Int) : Nat :=
  (clampInt 0 (fineSpan p) (rangeGain p f.gainRange + (f.gainFine : Int) + d - rangeGain p r)).toNat

/-- RANGE_HOLD has passed since the last range change. -/
def holdPassed (s : State) (f : FrontEnd) : Bool :=
  match f.lastRangeSc with
  | some t => t + f.used.rangeHold * countsPerSecond / 1000 ≤ s.clocks.sc
  | none => true

/-- What the automatic AGC does at the end of a period (R178, R179): none, a new fine gain, or a range with its fine gain. An error midway
between two steps of 0.5 dB is rounded upward, where R178 names no side (DESIGN CHOICE, notes/assumptions/87.md). -/
def agcStep (s : State) (p : Nat) (rms : Int) (clipped : Nat) : Option (Option Nat × Nat) :=
  let f := (pathOf s p).fe
  let err := 8 * f.used.agcTarget - rms
  let move := clampInt (-24) 24 ((err + 2) / 4)
  if f.used.clipLimit < clipped then
    if f.gainRange = 0 then some (none, 0) else some (some (f.gainRange - 1), fineFor p (f.gainRange - 1) f (-24))
  else if (err.natAbs : Nat) ≤ 4 * f.used.agcHyst then none
  else if 0 < err && f.gainFine = fineSpan p then
    if holdPassed s f && f.gainRange + 1 < rangeCount p then some (some (f.gainRange + 1), fineFor p (f.gainRange + 1) f 12) else none
  else if err < 0 && f.gainFine = 0 then
    if holdPassed s f && 0 < f.gainRange then some (some (f.gainRange - 1), fineFor p (f.gainRange - 1) f (-12)) else none
  else some (none, (clampInt 0 (fineSpan p) ((f.gainFine : Int) + move)).toNat)

/-- A period ends with no range change: within ACQUIRE it is a quiet one. -/
def quietPeriod (p : Nat) (s : State) : State :=
  if (pathOf s p).fe.state = .acquire then
    let s := modFe s p fun f => { f with acqQuiet := true }
    if (pathOf s p).fe.acqDone then enterRun p s else s
  else s

/-- The gain that the AGC mode asks for at the end of a period. -/
def agcApply (p : Nat) (rms : Int) (clipped : Nat) (s : State) : State :=
  let f := (pathOf s p).fe
  match f.used.agcMode with
  | 0 => match agcStep s p rms clipped with
    | some (some r, fine) =>
      let clip := f.used.clipLimit < clipped
      changeRange p r fine (modFe s p fun f => { f with clipEvents := if clip then bump 4 f.clipEvents 1 else f.clipEvents })
    | some (none, fine) => quietPeriod p (modFe s p fun f => { f with gainFine := fine })
    | none => quietPeriod p s
  | 1 =>
    let r := min f.used.manualRange (rangeCount p - 1)
    if r != f.gainRange then changeRange p r f.used.manualFine s
    else quietPeriod p (modFe s p fun g => { g with gainFine := f.used.manualFine })
  | _ => quietPeriod p s

/-- The ADC's full scale: 16, 14 and 12 bits on paths L, V and S (Table 8-1). -/
def adcScale : Nat → Nat
  | 0 => 32768
  | 1 => 8192
  | _ => 2048

/-- A sample reaches full scale in I or Q (R179). -/
def atFullScale (p : Nat) (x : Int × Int) : Bool :=
  let hit (v : Int) : Bool := v ≤ -(adcScale p : Int) || (adcScale p : Int) - 1 ≤ v
  hit x.1 || hit x.2

/-- The loop's k for the sample at place `i` since the state was entered: DC_K_ACQ throughout ACQUIRE and after the switch settle of RANGE,
DC_K_TRACK elsewhere (R183). -/
def loopK (p : Nat) (f : FrontEnd) (i : Nat) : Nat :=
  match f.state with
  | .acquire => f.used.dcKAcq
  | .range => if i < settleSamples p then f.used.dcKTrack else f.used.dcKAcq
  | _ => f.used.dcKTrack

/-- The offset loop runs over the samples of a period, and DC_EST_I and DC_EST_Q report d (R183). -/
def runLoop (p : Nat) (xs : List (Int × Int)) (s : State) : State :=
  let f := (pathOf s p).fe
  let d := dcLoop (loopK p f) f.stateSamples xs (f.dcI, f.dcQ)
  let (i, s) := dyadicWhole d.1 s
  let (q, s) := dyadicWhole d.2 s
  modFe s p fun f =>
    { f with dcI := d.1, dcQ := d.2, dcEstI := satInt 2 i, dcEstQ := satInt 2 q, stateSamples := f.stateSamples + xs.length }

/-- The AGC and the offset loop run: not in STARTING, CAL, NO_LOCK or OFF, nor on path S from a packet's qualification to its end or through
a transmission, and on no blanked sample (R175, R181, R182, R183). -/
def agcRuns (s : State) (p : Nat) : Bool :=
  let st : Bool := match (pathOf s p).fe.state with
    | .acquire | .run | .range | .retune => true
    | _ => false
  st && !blanked s p && clocksRun s && !(p == 2 && s.link.txs.any fun j => j.stage == .onAir)

/-- AGC_PERIOD: an AGC period's samples have been counted (R175). The loop runs over them, written fields take effect (R188), the RMS is
reported against the ADC's full scale (log entry 85), and the gain moves. -/
def execAgcPeriod (path : Nat) (samples : List (Int × Int)) (s : State) : Host.Outcome State Fault Refusal :=
  if agcRuns s path && samples.length == periodSamples path then
    let (rms, s) := dbLevel 8 (energy samples) (samples.length * adcScale path ^ 2) (runLoop path samples s)
    let s := modFe s path fun f => { f with used := f.set, adcRms := satInt 2 rms }
    .next (afterPath path (agcApply path rms (samples.filter (atFullScale path)).length s))
  else .next s

/-! BLANK_IN -/

/-- BLANK_IN_RISE: blanking of paths L and V begins; a TUNE that was asked to stop ends at its next sample (R176, R186). -/
def execBlankInRise (s : State) : Host.Outcome State Fault Refusal :=
  .next (if ready s && s.power.vioValid && !s.link.pinBlank then beginBlank false s else s)

/-- BLANK_IN_END: 20 µs after BLANK_IN fell. -/
def execBlankInEnd (s : State) : Host.Outcome State Fault Refusal := .next (if s.link.pinBlank then endBlank false s else s)

end Sys2Proof.Machine
end

