-- ==== Sys2Proof/Machine/Stopping.lean ====
section
/-!
DEFINITION. How a running command stops (Table 4-7, R94, R96): at once where it stands at a stopping point, otherwise at its next one, and
which modes run a command's function (Table 1-2, R83).
-/
namespace Sys2Proof.Machine

/-- The modes that run the function of a command (R83, Table 1-2). -/
def opModes (c : Cmd) : List Nat :=
  match cmdOp c with
  | 0x10 | 0x11 | 0x12 | 0x14 | 0x20 | 0x21 | 0x30 | 0x38 | 0x40 | 0x41 | 0x42 | 0x43 => [3, 4, 5, 6]
  | 0x13 => [3, 4, 5]
  | 0x18 | 0x19 => [4, 5]
  | 0x31 => if cmdKind c = 1 || cmdKind c = 2 then [3, 4, 5, 6] else [1, 2, 3, 4, 5, 6]
  | 0x39 => if bit (par c 9) 3 then [6] else [4, 5, 6]
  | 0x48 | 0x49 | 0x4A => [5]
  | _ => [1, 2, 3, 4, 5, 6]

/-- A command that has started and is not complete. -/
def hasStarted (c : Cmd) : Bool := c.phase != .waiting && c.phase != .abortWaiting

/-- The command completes ABORTED. -/
def abortNow (seq cause : Nat) (s : State) : State := complete seq (abortedReply s cause).1 (abortedReply s cause).2 s

/-- A phase-step request stops at its next step; a reference change runs to its end (R148, R150). -/
def stopSteps (cause : Nat) (c : Cmd) (s : State) : State := setPhase s c.seq (.stopping cause)

/-- A LINK_RX stops at once, or with the packet in progress (R96, R370). -/
def stopLinkRx (cause : Nat) (c : Cmd) (s : State) : State :=
  match s.link.hostRx with
  | some w =>
    if w.seq != c.seq then s
    else if inPacket s then setPhase s c.seq (.stopping cause)
    else abortNow c.seq cause { s with link := { s.link with hostRx := none } }
  | none => s

/-- A LINK_TX stops: before step 4, while it backs off and while it waits for AT at once, on air not at all (R363). -/
def stopLinkTx (cause : Nat) (c : Cmd) (s : State) : State :=
  match s.link.txs.find? fun j => j.owner == .host c.seq with
  | none => s
  | some j =>
    match j.stage with
    | .queued | .held | .backoff | .timed | .ready => stopTx j cause { s with link := { s.link with txs := s.link.txs.erase j } }
    | .tuning | .check | .listen => setPhase s c.seq (.stopping cause)
    | .onAir | .after => s

/-- A check's CHALLENGE is on air. -/
def challengeOnAir (s : State) : Bool := s.link.txs.any fun j => isCheckTx j && j.stage == .onAir

/-- A command whose cellar write has not started stops there with no write; one whose write runs goes to its end (Table 4-7; DESIGN CHOICE,
notes/assumptions/13.md). -/
def stopDue (cause : Nat) (c : Cmd) (s : State) : State := if c.due.isSome then startDue (abortNow c.seq cause s) else s

/-- A check that a PAIR or SESSION_CFG waits for stops whenever no packet of its own is on air; a record's write runs to its end. -/
def stopCheck (cause : Nat) (c : Cmd) (s : State) : State :=
  if s.sessions.checks.any fun k => checkSeq k.purpose == some c.seq then
    let first := (s.sessions.checks.take 1).any fun k => checkSeq k.purpose == some c.seq
    if first && challengeOnAir s then setPhase s c.seq (.stopping cause) else startDue (abortCheck c.seq cause s)
  else stopDue cause c s

/-- A RELEASE_STOP whose STOP frame is not on air stops with the frame. -/
def stopRelease (cause : Nat) (c : Cmd) (s : State) : State :=
  let mine (j : TxJob) : Bool := isRelease (cmdIdx c) true j && j.margin.isSome
  if s.link.txs.any fun j => mine j && notOnAir j then abortNow c.seq cause (dropTx mine s) else s

/-- The calibration that runs for a command. -/
def jobOf (s : State) (seq : Nat) : Option CalJob :=
  [s.pathL.job, s.pathV.job, s.pathS.job, s.cal.x32Job, s.cal.linkJob].findSome? fun j => j.filter fun k => k.seq == seq

/-- A running command is asked to stop (Table 4-7): at once, at its next stopping point, or not at all. -/
def stopCmd (cause : Nat) (s : State) (c : Cmd) : State :=
  match cmdOp c with
  | 0x10 =>
    if cmdKind c = 3 then stopSteps cause c s
    else
      let s := setPhase s c.seq (.stopping cause)
      if blanked s (cmdIdx c) then tuneBoundary (cmdIdx c) s else s
  | 0x30 => match jobOf s c.seq with
    | some _ => setPhase s c.seq (.stopping cause)
    | none => stopDue cause c s
  | 0x38 => stopLinkRx cause c s
  | 0x39 => stopLinkTx cause c s
  | 0x40 | 0x41 => stopCheck cause c s
  | 0x50 | 0x52 => stopDue cause c s
  | 0x42 => abortNow c.seq cause s
  | 0x43 => stopRelease cause c s
  | _ => s

/-- Asks every running command that satisfies a condition, and that was not asked before, to stop. -/
def stopAll (cause : Nat) (p : Cmd → Bool) (s : State) : State :=
  forAll (s.rings.inflight.filter fun c => c.phase == .running && p c) (stopCmd cause) s

end Sys2Proof.Machine
end

