-- ==== Sys2Proof/Machine/Commands.lean ====
section
/-!
DEFINITION. BARRIER and ABORT (R86, R94, R95).
-/
namespace Sys2Proof.Machine

/-! BARRIER -/

def checkBarrier (c : Cmd) : Option Reply :=
  firstFail (needObject [0] c :: needHeader c ++ [needField 8 (par c 8 < 2)] ++ needZeros c 9 31)

/-- BARRIER: it completes once every command issued before it has completed. -/
def execBarrier (seq : Nat) (s : State) : Host.Outcome State Fault Refusal :=
  match startable s seq 0x01 with
  | none => .next s
  | some c =>
    match checkBarrier c with
    | some r => .next (complete seq r.1 r.2 s)
    | none => .next (if (earlier s.rings.inflight seq).isEmpty then complete seq 0x00 [] s else s)

/-! ABORT -/

def checkAbort (_s : State) (c : Cmd) : Option Reply :=
  firstFail (needObject [0] c :: needHeader c ++ [needField 8 (par c 8 < 4)] ++ needZeros c 9 9 ++ needZeros c 12 31)

/-- An ABORT selects a command (Table 4-6); never another ABORT. -/
def selects (a c : Cmd) : Bool :=
  cmdOp c != 0x02 &&
    match par a 8 with
    | 0 => c.seq % 65536 == parN a 10 2
    | 1 => cmdTag c == parN a 10 2
    | 2 => cmdObj c == parN a 10 2
    | _ => true

/-- A reference change that waits at step 1 of Table 7-4 has not started (R150): its hold on other commands ends. -/
def dropStage (seq : Nat) (s : State) : State :=
  if s.clocks.stage == .waiting seq then { s with clocks := { s.clocks with stage := .idle } } else s

/-- What an ABORT does to a command that it selects (Table 4-7). -/
def abortOne (s : State) (c : Cmd) : State :=
  match c.phase with
  | .waiting => dropStage c.seq (setPhase s c.seq .abortWaiting)
  | .running => stopCmd 2 s c
  | .abortWaiting | .stopping _ => s

/-- ABORT runs until every command it selected has completed. -/
def runAbort (s : State) (a : Cmd) : State :=
  let chosen := (earlier s.rings.inflight a.seq).filter (selects a)
  let mark (c : Cmd) : Cmd := if c.seq = a.seq then { c with selected := chosen.length, abortedCount := 0, waitFor := chosen.map (·.seq) } else c
  let s := { s with rings := { s.rings with inflight := s.rings.inflight.map mark } }
  serve (sweep (forAll chosen abortOne s))

def execAbort (seq : Nat) (s : State) : Host.Outcome State Fault Refusal := .next (startCmd s seq 0x02 checkAbort runAbort)

end Sys2Proof.Machine
end

