-- ==== Sys2Proof/Machine/Analogue.lean ====
section
/-!
DEFINITION. The RDS and RBDS decoder of an analogue unit (R250 to R260): a received group, its decoded fields and its items.
-/
namespace Sys2Proof.Machine

/-- A lane takes samples: held by the host or by tasting, and delivering. -/
def laneTakes (s : State) (n : Nat) : Bool :=
  ((laneOf s n).hold == .host || (laneOf s n).hold == .tasting) && delivering s n

/-- The GPOS of a group whose first bit lies at `sc` (R259). -/
def groupPos (sc : Nat) : Nat := (2 * sc * 2375 + 208 * countsPerSecond) / (416 * countsPerSecond) % 2 ^ 32

/-- A received group as the decoder takes it: four 16-bit contents, their status bytes (R251), whether each is erased, and whether each came with
a zero syndrome. -/
structure Group where
  blocks : List Nat
  status : List Nat
  erased : List Bool
  clean : List Bool
  cPrime : Bool
  eBlocks : Nat
  startSc : Nat
  endSc : Nat
  deriving DecidableEq, Repr

/-- How many of a block's 26 bits stand in a number. -/
def bitCount (n : Nat) : Nat := ((List.range 26).filter (bit n)).length

/-- From the first to the last bit that stands: the length of an error burst. -/
def burstLength (n : Nat) : Nat :=
  let on := (List.range 26).filter (bit n)
  match on.head?, on.getLast? with
  | some lo, some hi => hi - lo + 1
  | _, _ => 0

/-- A block's content and its status byte (R250, R251): the code word found where the burst is no longer than CORR_MAX bits, else the block as received,
BAD; an erased block is BAD too. -/
def readBlock (corrMax : Nat) (erased : Bool) (b : RdsBlock) : Nat × Nat :=
  let fixed := b.found.filter fun w => burstLength (b.raw ^^^ w) ≤ corrMax && !erased
  match fixed with
  | some w => (w / 1024 % 65536, b.reliability % 16 + 16 * bitCount (b.raw ^^^ w))
  | none => (b.raw / 1024 % 65536, b.reliability % 16 + 128)

/-- The group as its lane's decoder takes it. Block i's bits lie in the i-th quarter of the group, and a bit in a block that the engine took as an
erasure is one (R250). -/
def readGroup (x : Lane) (g : RdsGroup) : Group :=
  let from_ (i : Nat) : Nat := g.startSc + i * (g.endSc - g.startSc) / 4
  let erased (i : Nat) : Bool := erasedIn x (from_ i) (from_ (i + 1))
  let block (i : Nat) : RdsBlock := g.blocks.getD i { raw := 0, found := none, reliability := 0 }
  let read (i : Nat) : Nat × Nat := readBlock (engPar x.cur 15) (erased i) (block i)
  { blocks := (List.range 4).map fun i => (read i).1
    status := (List.range 4).map fun i => (read i).2
    erased := (List.range 4).map erased
    clean := (List.range 4).map fun i => (block i).found == some (block i).raw && !erased i
    cPrime := g.cPrime, eBlocks := g.eBlocks, startSc := g.startSc, endSc := g.endSc }

/-- A block is BAD (R251). -/
def blockBad (status : Nat) : Bool := 128 ≤ status

/-- The bits corrected in a block. -/
def blockCorrected (status : Nat) : Nat := bits status 6 4

/-- Block `i` of a group. -/
def rdsBlock (g : Group) (i : Nat) : Nat := g.blocks.getD i 0

/-- Block `i` is good: neither bad nor erased. -/
def rdsGood (g : Group) (i : Nat) : Bool := !blockBad (g.status.getD i 128)

def rdsAllGood (g : Group) : Bool := (List.range 4).all (rdsGood g)

/-- Block `i` came with a zero syndrome. -/
def rdsClean (g : Group) (i : Nat) : Bool := g.clean.getD i false

/-- Two neighbouring blocks arrived with zero syndrome, block A after the block D before it included: block sync (R250). That D ended where A
begins to within half a bit, of which a second has 1,187.5. -/
def rdsGainsSync (a : Analogue) (g : Group) : Bool :=
  ((List.range 3).any fun i => rdsClean g i && rdsClean g (i + 1)) ||
    (rdsClean g 0 && a.cleanEnd.any fun e => 2375 * freqGap e g.startSc ≤ countsPerSecond)

/-- One block counted (R250). -/
def countBlock (g : Group) (a : Analogue) (i : Nat) : Analogue :=
  let st := g.status.getD i 128
  let a := { a with history := ((!rdsGood g i) :: a.history).take 50 }
  if g.erased.getD i false then { a with blocksErased := bump 4 a.blocksErased 1 }
  else if blockBad st then { a with blocksBad := bump 4 a.blocksBad 1 }
  else if blockCorrected st = 0 then { a with blocksGood := bump 4 a.blocksGood 1 }
  else { a with blocksCorrected := bump 4 a.blocksCorrected 1 }

/-- E blocks passed (R252): with RBDS discarded and counted, without it uncorrectable blocks like any other. -/
def countE (x : LaneSet) (n : Nat) (a : Analogue) : Analogue :=
  if bit (engPar x 12) 1 then { a with eBlocks := bump 2 a.eBlocks n }
  else { a with blocksBad := bump 4 a.blocksBad n, history := (List.replicate n true ++ a.history).take 50 }

/-- The E blocks before a group and its four blocks counted. -/
def countGroup (x : LaneSet) (g : Group) (a : Analogue) : Analogue := (List.range 4).foldl (countBlock g) (countE x g.eBlocks a)

/-- Sync is lost when SYNC_LOSS of the last 50 blocks were uncorrectable. -/
def loseSync (x : LaneSet) (a : Analogue) : Analogue :=
  if engPar x 16 ≤ (a.history.filter id).length then
    { a with rdsSync := false, history := [], syncLosses := bump 2 a.syncLosses 1 }
  else a

/-- The good PI codes of a group: block A, and block C of a C′ group. -/
def groupPis (g : Group) : List Nat :=
  (if rdsGood g 0 then [rdsBlock g 0] else []) ++ (if g.cPrime && rdsGood g 2 then [rdsBlock g 2] else [])

/-- PI_EXPECT (Table 11-1). -/
def piExpect (x : LaneSet) : Nat := engPar x 18 + 256 * engPar x 19

/-- A good PI of the group differs from PI_EXPECT (R254). -/
def piMismatch (x : LaneSet) (g : Group) : Bool := piExpect x != 0 && (groupPis g).any (· != piExpect x)

/-- Two good PI-bearing blocks in succession carry one PI: the last PI seen, and the PIs confirmed. -/
def confirmPis (seen : Option Nat) : List Nat → Option Nat × List Nat
  | [] => (seen, [])
  | v :: vs =>
    let (last, more) := confirmPis (some v) vs
    (last, if seen = some v then v :: more else more)

/-- A confirmed PI that changes clears the AF list, the ODA map and RadioText (R254). -/
def takePi (a : Analogue) (v : Nat) : Analogue :=
  match a.pi with
  | none => { a with pi := some v }
  | some w =>
    if w = v then a
    else { a with pi := some v, piChanges := bump 2 a.piChanges 1, af := {}, afNeed := 0, afCodes := [], afLf := false,
                  afPrev := none, oda := [], rtFlag := none, rtSegs := [] }

/-- A value is confirmed by two successive good receptions. -/
def confirmed {α : Type} [DecidableEq α] (seen : Option α) (v held : α) : α := if seen = some v then v else held

/-- PTY and TP of every group, TA and MS of 0A, 0B and 15B, from a good block B (Table 11-2). -/
def takeFlags (g : Group) (a : Analogue) : Analogue :=
  if !rdsGood g 1 then a
  else
    let b := rdsBlock g 1
    let pt := (bits b 9 5, bit b 10)
    let held := confirmed a.ptySeen pt (a.pty, a.tp)
    let a := { a with pty := held.1, tp := held.2, ptySeen := some pt }
    if [0, 1, 31].contains (b / 2048) then
      let tm := (bit b 4, bit b 3)
      let held := confirmed a.taSeen tm (a.ta, a.ms)
      { a with ta := held.1, ms := held.2, taSeen := some tm }
    else a

/-! AF lists (R255) -/

/-- The entry word of an AF code. -/
def afEntry (lf : Bool) (c : Nat) : Option Nat :=
  if lf then
    if 1 ≤ c && c ≤ 15 then some (2 ^ 15 + 144 + 9 * c)
    else if 16 ≤ c && c ≤ 135 then some (2 ^ 15 + 387 + 9 * c)
    else none
  else if 1 ≤ c && c ≤ 204 then some (8750 + 10 * c) else none

/-- The lane's own frequency as an entry word, rounded to 100 kHz. -/
def ownEntry (hz : Nat) : Nat := (hz + 50000) / 100000 * 10

/-- One AF code taken: a header opens a list, 205 fills, 250 marks the next code as LF/MF. -/
def afCode (a : Analogue) (c : Nat) : Analogue :=
  if a.afLf then
    match afEntry true c with
    | some e => { a with afLf := false, afCodes := if a.afNeed = 0 then a.afCodes else a.afCodes ++ [e] }
    | none => { a with afLf := false }
  else if 225 ≤ c && c ≤ 249 then { a with afNeed := c - 224, afCodes := [], afLf := false }
  else if c = 250 then { a with afLf := true }
  else match afEntry false c with
    | some e => if a.afNeed = 0 then a else { a with afCodes := a.afCodes ++ [e] }
    | none => a

/-- The pairs of a list of codes; a single one left over is dropped. -/
def pairsOf : List Nat → List (Nat × Nat)
  | a :: b :: rest => (a, b) :: pairsOf rest
  | _ => []

/-- A regional variant is a pair in falling order (R255). -/
def afPair (own : Nat) (p : Nat × Nat) : Nat :=
  (if p.1 = own then p.2 else p.1) + (if p.2 < p.1 then 2 ^ 14 else 0)

/-- The list that a complete cycle of codes gives: method B of the lane's own frequency, method A, or none for a method B list
headed by another frequency. -/
def afListOf (own : Nat) (codes : List Nat) : Option AfList :=
  match codes with
  | h :: rest =>
    let pairs := pairsOf rest
    if !pairs.isEmpty && rest.length % 2 == 0 && pairs.all fun p => p.1 == own || p.2 == own then
      if h = own then some { method := 2, own := own, entries := pairs.map (afPair own) } else none
    else some { method := 1, own := own, entries := codes }
  | [] => none

/-- An AF cycle that is complete is accepted when it agrees with the cycle before: the unit, and whether it accepted a list, and
whether that list differs from the one held. -/
def afComplete (own : Nat) (a : Analogue) : Analogue × Bool × Bool :=
  if a.afNeed = 0 || a.afCodes.length < a.afNeed then (a, false, false)
  else
    let codes := a.afCodes.take a.afNeed
    let a := { a with afNeed := 0, afCodes := [] }
    match afListOf own codes with
    | none => (a, false, false)
    | some l =>
      if a.afPrev = some codes then ({ a with af := l }, true, l != a.af)
      else ({ a with afPrev := some codes }, false, false)

/-! RadioText and the ODA map (R257, R258) -/

/-- The characters of a 2A or 2B group's segment, none while a block that carries them is not good. -/
def rtChars (g : Group) (versionB : Bool) : Option (List Byte) :=
  let d := [lowByte (rdsBlock g 3 / 256), lowByte (rdsBlock g 3)]
  if versionB then if rdsGood g 3 then some d else none
  else if rdsGood g 2 && rdsGood g 3 then some ([lowByte (rdsBlock g 2 / 256), lowByte (rdsBlock g 2)] ++ d)
  else none

/-- A segment taken into the RadioText buffer; a change of the flag, or between 2A and 2B, clears it. -/
def rtTake (g : Group) (a : Analogue) : Analogue :=
  let b := rdsBlock g 1
  let kind := b / 2048 % 2
  let flag := b / 16 % 2
  let a := if a.rtFlag = some flag && a.rtKind = kind then a else { a with rtKind := kind, rtFlag := some flag, rtSegs := [] }
  match rtChars g (kind == 1) with
  | some cs => { a with rtSegs := tabSet a.rtSegs (b % 16) cs }
  | none => a

/-- The text up to the end or a carriage return, when every segment of it has been received. -/
def rtText (segs : Tab (List Byte)) : Nat → Nat → Option (List Byte)
  | 0, _ => some []
  | k + 1, i =>
    match segs.find? fun e => e.1 == i with
    | some (_, cs) =>
      if cs.contains 0x0D then some (cs.takeWhile (· != 0x0D)) else (rtText segs k (i + 1)).map (cs ++ ·)
    | none => none

/-- A good 3A group adds to the ODA map, the least recently confirmed first (R258). -/
def odaTake (g : Group) (a : Analogue) : Analogue :=
  let code := rdsBlock g 1 % 32
  if !rdsAllGood g || code = 0 || code = 31 then a
  else
    let rest := a.oda.filter fun e => e.1 != code
    { a with oda := (if rest.length = 16 then rest.drop 1 else rest) ++ [(code, rdsBlock g 3)] }

/-! The group -/

/-- The item of an RDS lane (R270). -/
def rdsItem (s : State) (n kind gpos stamp : Nat) (payload : List Byte) (size : Nat) : Item :=
  { kind := kind, lane := n, gen := (laneOf s n).gen, iseq := gpos, stamp := stamp,
    payload := (payload ++ List.replicate (size - 16) 0).take (size - 16) }

/-- The payload of RDS_GROUP (Table 11-8), blocks most significant byte first (R2). -/
def groupPayload (x : LaneSet) (g : Group) (a : Analogue) : List Byte :=
  let code := rdsBlock g 1 / 2048
  let aid := match a.oda.find? fun e => e.1 == code with
    | some (_, aid) => if rdsGood g 1 then aid else 0
    | none => 0
  ((List.range 4).map fun i => [lowByte (rdsBlock g i / 256), lowByte (rdsBlock g i)]).flatten ++
    ((List.range 4).map fun i => lowByte (g.status.getD i 128)) ++
    [lowByte code, lowByte (flagNat g.cPrime + 2 * flagNat (piMismatch x g) + 4 * flagNat (g.erased.any id) +
      8 * flagNat (bit (engPar x 12) 1))] ++ leBytes aid 2

/-- The payload of RDS_PI. -/
def piPayload (x : LaneSet) (a : Analogue) : List Byte :=
  leBytes (a.pi.getD 0) 2 ++ [lowByte a.pty, lowByte (flagNat a.tp + 2 * flagNat a.ta + 4 * flagNat a.ms + 8 * flagNat (bit (engPar x 12) 1))]

/-- GROUP_MIN lets a group be offered (Table 11-1). -/
def groupOffered (x : LaneSet) (g : Group) : Bool :=
  match engPar x 17 with
  | 0 => true
  | 1 => rdsGood g 1
  | _ => rdsAllGood g

/-- The clock-time of a good 4A group: MJD, hour, minute, local offset in half-hours (R256, IEC 62106). -/
def clockTime (g : Group) : Option (Nat × Nat × Nat × Int) :=
  let b := rdsBlock g 1
  let c := rdsBlock g 2
  let d := rdsBlock g 3
  let mjd := b % 4 * 2 ^ 15 + c / 2
  let hour := c % 2 * 16 + d / 4096
  let minute := bits d 11 6
  let off : Int := if bit d 5 then -((d % 32 : Nat) : Int) else ((d % 32 : Nat) : Int)
  if rdsAllGood g && 51544 ≤ mjd && mjd ≤ 124592 && hour < 24 && minute < 60 then some (mjd, hour, minute, off) else none

/-- What the unit's identity tells a tasting (Table 13-2). -/
def tastePis (n : Nat) (pis : List Nat) (s : State) : State :=
  match tastingOf s n with
  | none => s
  | some t =>
    let want := identityOf s (followOf s t.entry)
    forAll pis (fun s v => reportIdentity n (if v = want then .matched else .refuted) s) s

/-- The fields decoded from a group once a PI is confirmed (Table 11-2): AF, RadioText, ODA, clock-time. -/
def decodeGroup (n u : Nat) (g : Group) (s : State) : State :=
  let code := rdsBlock g 1 / 2048
  let gpos := groupPos g.startSc
  if !rdsGood g 1 || (analogueOf s u).pi.isNone then s
  else if code = 0 then
    if !rdsGood g 2 then s
    else
      let own := ownEntry (boundFreq (laneOf s n))
      let c := rdsBlock g 2
      let (a, accepted, differs) := afComplete own (afCode (afCode (analogueOf s u) (c / 256)) (c % 256))
      let s := modAnalogue s u fun _ => a
      let l := a.af
      let s := if differs then
          emit (rdsItem s n 0x12 gpos g.startSc ([lowByte l.method, lowByte l.entries.length] ++ leBytes l.own 2 ++
            (l.entries.map fun e => leBytes e 2).flatten) 72) none s
        else s
      if accepted then listChanged n (modTasting s n fun t => { t with afTaken := true }) else s
  else if code = 4 || code = 5 then
    let a := rtTake g (analogueOf s u)
    match rtText a.rtSegs 16 0 with
    | some text =>
      let a := { a with rtSegs := [], rtLastFlag := a.rtFlag.getD 0, rtLast := text }
      emit (rdsItem s n 0x14 gpos g.startSc ([lowByte a.rtKind, lowByte a.rtLastFlag, lowByte text.length, 0] ++ text) 84) none
        (modAnalogue s u fun _ => a)
    | none => modAnalogue s u fun _ => a
  else if code = 6 then modAnalogue s u (odaTake g)
  else if code = 8 then
    match clockTime g with
    | some (mjd, hour, minute, off) =>
      emit (rdsItem s n 0x13 gpos g.endSc (leBytes mjd 3 ++ [lowByte hour, lowByte minute, lowByte (twos 1 off)]) 32) none s
    | none => s
  else s

/-- A group in sync: offered (R253), its PI and flags confirmed (R254), its fields decoded, its unit ended (R304). -/
def takeGroup (n u : Nat) (g : Group) (s : State) : State :=
  let x := (laneOf s n).cur
  let gpos := groupPos g.startSc
  let mismatch := piMismatch x g
  let s := if groupOffered x g then
      emit (rdsItem s n 0x10 gpos g.startSc (groupPayload x g (analogueOf s u)) 32) none
        (modAnalogue s u fun a => { a with groupsOut := bump 4 a.groupsOut 1 })
    else s
  let old := analogueOf s u
  let (seen, pis) := confirmPis old.piSeen (groupPis g)
  let s := modAnalogue s u fun a => { a with piSeen := seen, piMismatches := bump 2 a.piMismatches (flagNat mismatch) }
  let s :=
    if mismatch then s
    else
      let a := takeFlags g (pis.foldl takePi (analogueOf s u))
      let shown (a : Analogue) := (a.pi, a.pty, a.tp, a.ta, a.ms)
      let s := modAnalogue s u fun _ => a
      let s := if shown a != shown old then emit (rdsItem s n 0x11 gpos g.startSc (piPayload x a) 32) none s else s
      let s := if old.pi.isSome && a.pi != old.pi then listChanged n s else s
      decodeGroup n u g s
  unitEnd n (g.status.all fun st => !blockBad st) (g.erased.any id) (tastePis n pis s)

/-- RDS_GROUP (R250 to R260): a group of an FM unit with RDS_EN. Out of sync a group only counts once two of its blocks give sync. -/
def execRdsGroup (lane : Nat) (group : RdsGroup) (s : State) : Host.Outcome State Fault Refusal :=
  let x := (laneOf s lane).cur
  let u := x.engIndex
  if laneTakes s lane && x.engKind == 1 && (engPar x 10 == 3 || engPar x 10 == 4) && bit (engPar x 12) 0 then
    let a := analogueOf s u
    let g := readGroup (laneOf s lane) group
    if a.rdsSync || rdsGainsSync a g then
      let s := modAnalogue s u fun a => countGroup x g { a with rdsSync := true, acquiring := false, cleanEnd := none }
      let s := takeGroup lane u g s
      .next (if (laneOf s lane).hold == .free then s else modAnalogue s u (loseSync x))
    else .next (modAnalogue s u fun a => { a with cleanEnd := if rdsClean g 3 then some g.endSc else none })
  else .next s

end Sys2Proof.Machine
end

