-- ==== Sys2Proof/Machine/Chain.lean ====
section
/-!
DEFINITION. A lane's decimation chain: NCO and mixer, CIC, half-bands, preset FIR and coarse output (R216 to R222, R226), and the detectors
and the watch unit over a block's samples (R238, R240).
-/
namespace Sys2Proof.Machine

/-! Words of the chain -/

/-- The exact result num / den as a word of `w` bits at a point of the chain (1 the mixer, 2 and 3 the half-bands, 4 the FIR, 5 the coarse
output): between two words it is the one below or above, and beyond the range any word, by free values (DESIGN CHOICE,
notes/assumptions/94.md). -/
def narrow (point w : Nat) (num : Int) (den : Nat) : Int :=
  let floor := num / (den : Int)
  let v := if num % (den : Int) = 0 then floor else floor + (flagNat (Config.roundsUp point num den) : Nat)
  let half : Int := ((2 ^ (w - 1) : Nat) : Int)
  if -half ≤ v && v < half then v else (BitVec.ofNat w (Config.overRange point v)).toInt

/-- A delay line of `n` words with one more in front. -/
def push (n : Nat) (x : Int) (xs : List Int) : List Int := (x :: xs).take n

/-- A linear-phase filter of `n` taps over a delay line, in a 48-bit accumulator (Table 10-3). -/
def tapSum (tap : Nat → Int) (n : Nat) (xs : List Int) : Int :=
  ((List.range n).foldl (fun (a : BitVec 48) k => a + BitVec.ofInt 48 (tap (min k (n - 1 - k)) * xs.getD k 0)) 0).toInt

/-! The stages -/

/-- What the chain takes from a lane's path and settings. -/
structure ChainCfg where
  word : Nat
  /-- The bits by which an ADC word is left-aligned in 18 (Tables 8-1, 10-3). -/
  align : Nat
  r : Nat
  half : Nat
  fir : Nat
  preset : Nat
  deriving DecidableEq, Repr

/-- The chain of a setting on a path (R218). -/
def chainCfg (p word : Nat) (x : LaneSet) : ChainCfg :=
  let (_, r, h, f) := (laneRate p x.rate).getD (0, 1, 0, 1)
  { word := word, align := if p = 0 then 2 else 4, r := r, half := h, fir := f, preset := x.preset }

/-- D (R218). -/
def ChainCfg.decimation (c : ChainCfg) : Nat := c.r * 2 ^ c.half * c.fir

/-- ceil(5 log2 R) (R220). -/
def cicShift (r : Nat) : Nat := if r ≤ 1 then 0 else Nat.log2 (r ^ 5 - 1) + 1

/-- The mixer: the left-aligned sample times the NCO turned backwards, from its offset to DC (R216). -/
def mixed (c : ChainCfg) (phase : BitVec 32) (x : Int × Int) : Int × Int :=
  let i := x.1 * (2 ^ c.align : Int)
  let q := x.2 * (2 ^ c.align : Int)
  let co := (Config.ncoCos phase).toInt
  let si := (Config.ncoSin phase).toInt
  (narrow 1 18 (i * co + q * si) (2 ^ 17), narrow 1 18 (q * co - i * si) (2 ^ 17))

/-- Integrators in a row, each adding what the one before it holds now; they wrap modulo 2^58 (R219). -/
def integrate (x : BitVec 58) : List (BitVec 58) → List (BitVec 58)
  | [] => []
  | a :: as => (a + x) :: integrate (a + x) as

/-- Combs in a row with a differential delay of 1: what they hold next, and the output modulo 2^58 (R219). -/
def combs (x : BitVec 58) : List (BitVec 58) → List (BitVec 58) × BitVec 58
  | [] => ([], x)
  | p :: ps =>
    let (next, y) := combs (x - p) ps
    (x :: next, y)

/-- The CIC's output as the 24-bit word of full scale 2^23: shifted right by ceil(5 log2 R), of the 18-bit mixer word's scale, which stands 6 bits
below it (R220; DEDUCED, notes/assumptions/94.md). -/
def cicWord (r : Nat) (y : BitVec 58) : Int := (y.sshiftRight (cicShift r - 6)).toInt

/-- A half-band's output from its data: 11 taps in HB1, 23 in HB2 (R218). -/
def halfBand (stage : Nat) (xs : List Int) : Int :=
  narrow (1 + stage) 24 (tapSum (Config.halfTap stage) (if stage = 1 then 11 else 23) xs) (2 ^ Config.tapFrac)

/-- The preset FIR's output: its T taps, times the residual 2^ceil(5 log2 R) / R^5 (R220, R221). -/
def firOut (c : ChainCfg) (xs : List Int) : Int :=
  narrow 4 24 (tapSum (Config.firTap c.preset c.r) (presetTaps c.preset) xs * (2 ^ cicShift c.r : Int)) (c.r ^ 5 * 2 ^ Config.tapFrac)

/-- The coarse output: the sum of 2^h F words of the CIC, scaled to the fine output's full scale (R226). -/
def coarseOut (c : ChainCfg) (sum : Int) : Int := narrow 5 24 (sum * (2 ^ cicShift c.r : Int)) (2 ^ c.half * c.fir * c.r ^ 5)

/-- One rail at ADC sample `n` since the last output, with its mixer word: the integrators at every sample, the combs at every R-th, and each later
stage at its own rate. -/
def railStep (c : ChainCfg) (n : Nat) (x : Int) (r : Rail) : Rail :=
  let r := { r with integ := integrate (BitVec.ofInt 58 x) r.integ }
  if n % c.r != 0 then r
  else
    let (comb, y) := combs (r.integ.getLastD 0) r.comb
    let w := cicWord c.r y
    let r := { r with comb := comb, coarse := r.coarse + w }
    let taps := presetTaps c.preset
    if c.half = 0 then { r with fir := push taps w r.fir }
    else
      let r := { r with hb1 := push 11 w r.hb1 }
      if n % (2 * c.r) != 0 then r
      else
        let r := { r with hb2 := push 23 (halfBand 1 r.hb1) r.hb2 }
        if n % (4 * c.r) != 0 then r else { r with fir := push taps (halfBand 2 r.hb2) r.fir }

/-- An output sample: fine and coarse, I and Q each. -/
structure OutSample where
  fine : Int × Int
  coarse : Int × Int
  deriving DecidableEq, Repr

/-- The chain takes one ADC sample; at every D-th it gives an output. -/
def chainStep (c : ChainCfg) (ch : Chain) (x : Int × Int) : Chain × List OutSample :=
  let n := ch.count + 1
  let m := mixed c ch.phase x
  let ch := { ch with phase := ch.phase + BitVec.ofNat 32 c.word, i := railStep c n m.1 ch.i, q := railStep c n m.2 ch.q, count := n }
  if n % c.decimation != 0 then (ch, [])
  else
    ({ ch with count := 0, i := { ch.i with coarse := 0 }, q := { ch.q with coarse := 0 } },
     [{ fine := (firOut c ch.i.fir, firOut c ch.q.fir), coarse := (coarseOut c ch.i.coarse, coarseOut c ch.q.coarse) }])

/-- The chain over a run of ADC samples, and the outputs it gives in order. -/
def chainRun (c : ChainCfg) : Chain → List (Int × Int) → Chain × List OutSample
  | ch, [] => (ch, [])
  | ch, x :: xs =>
    let (ch, out) := chainStep c ch x
    let (ch, rest) := chainRun c ch xs
    (ch, out ++ rest)

/-- The output samples that end within `n` more ADC samples, and the ADC samples left over. -/
def outputsDue (c : ChainCfg) (ch : Chain) (n : Nat) : Nat × Nat := ((ch.count + n) / c.decimation, (ch.count + n) % c.decimation)

/-! Detectors and watch unit -/

/-- The output full scale A (R220). -/
def fullScale : Nat := 2 ^ 23

/-- I² + Q². -/
def power (x : Int × Int) : Nat := (x.1 * x.1 + x.2 * x.2).toNat

/-- A level as its register shows it (R238). -/
def levelField (v : Int) : Int := if v < -32766 then -32768 else min 32767 v

/-- A power ratio in 1/16 dB as its register shows it; a power of 0 lies below every level (R238). -/
def laneLevel (num den : Nat) (s : State) : Int × State :=
  if num = 0 then (-32768, s)
  else
    let (v, s) := dbLevel 16 num den s
    (levelField v, s)

/-- PEAK, RMS (R238). -/
def peakOf (xs : List (Int × Int)) : State → Int × State := laneLevel ((xs.map power).foldl max 0) (fullScale ^ 2)

def rmsOf (xs : List (Int × Int)) : State → Int × State := laneLevel (energy xs) (xs.length * fullScale ^ 2)

/-- A number of the envelope between two of its steps: the one below or above, by a free value (DESIGN CHOICE, notes/assumptions/94.md). -/
def envWord (floor : Nat) (exact : Bool) (num : Int) : Nat := if exact then floor else floor + flagNat (Config.roundsUp 6 num 1)

/-- The whole root of a number, bit by bit from 2^(k - 1) down. -/
def rootSearch (n : Nat) : Nat → Nat → Nat
  | 0, r => r
  | k + 1, r => rootSearch n k (if (r + 2 ^ k) ^ 2 ≤ n then r + 2 ^ k else r)

/-- The largest number whose square is at most n. -/
def wholeRoot (n : Nat) : Nat := rootSearch n (Nat.log2 n / 2 + 1) 0

/-- |x| in the envelope's units. -/
def magnitude (x : Int × Int) : Nat :=
  let p := power x * 4 ^ Config.envFrac
  envWord (wholeRoot p) (wholeRoot p ^ 2 == p) p

/-- e[n] from e[n - 1] and a sample (R238). -/
def envStep (att rel e : Nat) (x : Int × Int) : Nat :=
  let m := magnitude x
  let sh := if e < m then att else rel
  let num : Int := (e : Int) * (2 ^ sh : Int) + ((m : Int) - (e : Int))
  envWord (num / (2 ^ sh : Int)).toNat (num % (2 ^ sh : Int) == 0) num

/-- The envelope over a block's samples. -/
def envRun (x : LaneSet) (e : Nat) (xs : List (Int × Int)) : Nat := xs.foldl (envStep x.attSh x.relSh) e

/-- ENV (R238). -/
def envOf (e : Nat) : State → Int × State := laneLevel (e ^ 2) ((fullScale * 2 ^ Config.envFrac) ^ 2)

/-- Passband edge of a preset in hundredths of f_out (Table 10-4). -/
def presetEdge : Nat → Nat
  | 0 => 25
  | 1 => 38
  | 2 => 40
  | _ => 42

/-- Passband ripple of a preset in 1/100 dB, and its stopband attenuation in dB from ±0.5 f_out on (Table 10-4): what its taps keep. -/
def presetRipple : Nat → Nat
  | 0 => 50
  | 1 => 20
  | 2 => 10
  | _ => 5

def presetStop : Nat → Nat
  | 0 => 40
  | 1 => 60
  | 2 => 80
  | _ => 100

/-- QUAL (R240): the density within the passband edge against that from the edge to ±0.5 f_out. With no power beyond the edge, where the spec
states no figure, a free value (DESIGN CHOICE, notes/assumptions/94.md). -/
def qualOf (preset : Nat) (xs : List (Int × Int)) (s : State) : Int × State :=
  let edge := presetEdge preset
  let (inner, outer) := Config.bandPower edge xs
  if outer = 0 then
    let (k, s) := draw 65536 s
    (ofTwos 2 k, s)
  else laneLevel (inner * (50 - edge)) (outer * edge) s

/-- STAMP (R223): the instant of the ADC sample on which the block's first output is computed, less the fine group delay in counts; between two
counts it is the earlier or the later by a free value (DESIGN CHOICE, notes/assumptions/94.md). -/
def blockStamp (p : Nat) (x : LaneSet) (firstSc : Nat) (s : State) : Nat × State :=
  let num := fineDelay2 p x * countsPerSecond
  let den := 2 * adcRate p
  let whole := (firstSc + 2 ^ 64 - num / den % 2 ^ 64) % 2 ^ 64
  if num % den = 0 then (whole, s)
  else
    let (k, s) := draw 2 s
    ((whole + 2 ^ 64 - k) % 2 ^ 64, s)

end Sys2Proof.Machine
end

