-- ==== Sys2Proof/Machine/Lf.lean ====
section
/-!
DEFINITION. The LF time-code decoders (R262 to R268): the classification of a second, the minute mark, a frame's checks and its
LF_TIME item.
-/
namespace Sys2Proof.Machine

/-! Format descriptors (Tables 11-4, 11-5) -/

/-- A field entry of a descriptor. -/
structure LfEntry where
  start : Nat
  len : Nat
  kind : Nat
  flags : Nat
  deriving DecidableEq, Repr

/-- The entries in use of a descriptor. -/
def lfEntries (d : List Byte) : List LfEntry :=
  (List.range (min 32 (byteAt d 0x0D))).map fun e =>
    { start := byteAt d (0x20 + 4 * e), len := byteAt d (0x21 + 4 * e), kind := byteAt d (0x22 + 4 * e), flags := byteAt d (0x23 + 4 * e) }

/-- Descriptor flags: POLARITY 0, MARK_RULE 1, VALID_AT 2, TIMEBASE 3. -/
def lfFlag (d : List Byte) (k : Nat) : Bool := bit (byteAt d 8) k

/-- A window of a descriptor in ms: 0 ZERO, 1 ONE, 2 MARK. -/
def lfWindow (d : List Byte) (w : Nat) : Nat × Nat := (fieldAt d (0x10 + 4 * w) 2, fieldAt d (0x12 + 4 * w) 2)

/-- The MARK window is in use. -/
def lfMarkUsed (d : List Byte) : Bool := lfWindow d 2 != (0, 0)

/-- Two windows overlap. -/
def windowsMeet (a b : Nat × Nat) : Bool := a.1 ≤ b.2 && b.1 ≤ a.2

/-- The KINDs whose entries are numbers (Table 11-5). -/
def lfValueKind (k : Nat) : Bool := 1 ≤ k && k ≤ 7

/-- A descriptor is valid (R268). -/
def lfDescOk (d : List Byte) : Bool :=
  let es := lfEntries d
  let has (k : Nat) : Bool := es.any fun e => e.kind == k
  let z := lfWindow d 0
  let o := lfWindow d 1
  let m := lfWindow d 2
  1 ≤ byteAt d 0x0D && byteAt d 0x0D ≤ 32 && byteAt d 9 == 60 && z.1 ≤ z.2 && o.1 ≤ o.2 && !windowsMeet z o &&
    (!lfMarkUsed d || (!windowsMeet z m && !windowsMeet o m)) &&
    es.all (fun e => e.start + e.len ≤ 60 && (!lfValueKind e.kind || (1 ≤ e.len && e.len ≤ 4))) &&
    has 1 && has 2 && has 5 && ((has 3 && has 4) || has 6)

/-! The envelope of a second (R263) -/

/-- The reference as a sum and a number of samples: the mean envelope outside keying over the last 10 s. -/
def lfReference (x : LfDec) : Nat × Nat := ((x.reference.map (·.1)).sum, (x.reference.map (·.2)).sum)

/-- An envelope of num / den lies `db` dB or more beyond the reference in the sense of POLARITY: below it, or above it. -/
def lfBeyond (d : List Byte) (ref : Nat × Nat) (db num den : Nat) : Bool :=
  let r := (ref.1 * den) ^ 2
  let v := (ref.2 * num) ^ 2
  if lfFlag d 0 then dbAtLeast 1 v r (db : Int) else dbAtLeast 1 r v (db : Int)

/-- The envelope at a count between two of its samples, along the line through them (DEDUCED, notes/assumptions/98.md). -/
def lfBetween (p q : Nat × Nat) (t : Nat) : Nat × Nat := (p.2 * (q.1 - t) + q.2 * (t - p.1), q.1 - p.1)

/-- The first count from `lo` on, within 2^k, at which a condition holds that stays once it holds. -/
def lfFirst (c : Nat → Bool) : Nat → Nat → Nat
  | 0, lo => lo
  | k + 1, lo => if c (lo + 2 ^ k - 1) then lfFirst c k lo else lfFirst c k (lo + 2 ^ k)

/-- The counts at which the envelope passes into a condition, in order. -/
def lfCrossings (c : Nat × Nat → Bool) : List (Nat × Nat) → List Nat
  | p :: q :: rest =>
    if !c (p.2, 1) && c (q.2, 1) then
      lfFirst (fun t => c (lfBetween p q (min t q.1))) (Nat.log2 (q.1 - p.1) + 1) (p.1 + 1) :: lfCrossings c (q :: rest)
    else lfCrossings c (q :: rest)
  | _ => []

/-- The keyed intervals that begin in a second: the leading edge, past THRESH, and the end, on the return past THRESH − 3 dB; none where the
envelope does not return. -/
def lfKeyed (d : List Byte) (thresh : Nat) (ref : Nat × Nat) (m : LfMeas) : List (Nat × Option Nat) :=
  let ends := lfCrossings (fun v => !lfBeyond d ref (thresh - 3) v.1 v.2) m.points
  (lfCrossings (fun v => lfBeyond d ref thresh v.1 v.2) m.points).map fun t => (t, ends.find? fun e => t < e)

/-- A second of the envelope taken into the reference: its samples outside keying, none of a second that is erased. -/
def lfRefer (thresh : Nat) (erased : Bool) (m : LfMeas) (x : LfDec) : LfDec :=
  let ref := lfReference x
  let free := if erased then [] else m.points.filter fun p => ref.2 == 0 || !lfBeyond x.copy ref (thresh - 3) p.2 1
  { x with reference := (((free.map (·.2)).sum, free.length) :: x.reference).take 10 }

/-! Seconds (R263, R264) -/

/-- A second as the decoder takes it: its leading edge with the end of the keyed interval, none without an edge within 30 ms of its expected start;
its start; whether it is erased, and whether its edge lies in an erasure. -/
structure LfSecond where
  key : Option (Nat × Option Nat)
  start : Nat
  erased : Bool
  edgeErased : Bool
  unc : Nat
  deriving DecidableEq, Repr

/-- Milliseconds as counts, rounded down. -/
def milliCounts (ms : Nat) : Nat := ms * countsPerSecond / 1000

/-- The upper limit of the widest class window, ms. -/
def lfWidest (d : List Byte) : Nat := max (max (lfWindow d 0).2 (lfWindow d 1).2) (lfWindow d 2).2

/-- The second that the locked phase expects, in the samples that have come: its erasure covers 30 ms before its start to 30 ms after the
widest window (R265). -/
def lfSecondOf (l : Lane) (thresh : Nat) (m : LfMeas) (x : LfDec) : LfSecond :=
  let slack := milliCounts 30
  let key := (lfKeyed x.copy thresh (lfReference x) m).find? fun e => freqGap e.1 x.expected ≤ slack
  { key := key, start := x.expected, unc := m.unc
    erased := erasedIn l (x.expected - slack) (x.expected + milliCounts (lfWidest x.copy + 30))
    edgeErased := match key with
      | some (e, _) => erasedIn l e (e + 1)
      | none => false }

/-- The class of a second by its keyed width. -/
def lfClass (d : List Byte) (m : LfSecond) : LfSym :=
  match m.key with
  | none => .missing
  | some (_, none) => .invalid
  | some (lead, some end_) =>
    let w := (end_ - lead) * 1000
    let inside (k : Nat) : Bool := (lfWindow d k).1 * countsPerSecond ≤ w && w ≤ (lfWindow d k).2 * countsPerSecond
    if inside 0 then .zero
    else if inside 1 then .one
    else if lfMarkUsed d && inside 2 then .mark
    else .invalid

/-- The second that begins here is second 0 of a minute: the edge after a MISSING second (MARK_RULE 0), or the second of two MARK seconds. An
edge in an erasure is none. -/
def lfIsMark (d : List Byte) (x : LfDec) (sym : LfSym) (edgeErased : Bool) : Bool :=
  x.prevMark && !edgeErased && (if lfFlag d 1 then sym == .mark else sym != .missing)

/-- What `prevMark` remembers of a second: MISSING (MARK_RULE 0), or MARK. -/
def lfNotes (d : List Byte) (sym : LfSym) (erased : Bool) : Bool := !erased && sym == (if lfFlag d 1 then .mark else .missing)

/-! Frames (R265) -/

/-- The bits an entry covers, its first second first. -/
def lfBits (syms : List (LfSym × Bool)) (e : LfEntry) : List Nat :=
  ((syms.drop e.start).take e.len).map fun s => if s.1 == .one then 1 else 0

/-- A value entry's number: LEN bits in the order MSB_FIRST gives. -/
def lfRaw (syms : List (LfSym × Bool)) (e : LfEntry) : Nat :=
  let b := lfBits syms e
  (if bit e.flags 0 then b else b.reverse).foldl (fun n x => 2 * n + x) 0

/-- SCALE; the code that Table 11-5 leaves out multiplies by a free value (DESIGN CHOICE, notes/assumptions/98.md). -/
def lfScale (e : LfEntry) : Nat := if bits e.flags 2 1 = 3 then Config.lfScale else 10 ^ bits e.flags 2 1

/-- The sum of a KIND's entries, scaled. -/
def lfField (es : List LfEntry) (syms : List (LfSym × Bool)) (kind : Nat) : Nat :=
  ((es.filter fun e => e.kind == kind).map fun e => lfRaw syms e * lfScale e).sum

def lfHas (es : List LfEntry) (kind : Nat) : Bool := es.any fun e => e.kind == kind

/-- A one-bit field stands: some entry of the KIND holds a 1. -/
def lfSet (es : List LfEntry) (syms : List (LfSym × Bool)) (kind : Nat) : Bool :=
  es.any fun e => e.kind == kind && (lfBits syms e).contains 1

/-- Why a frame is not valid. -/
inductive LfFault where
  | erased | symbol | parity | range
  deriving DecidableEq, Repr

/-- What a valid frame says: UTC as minutes of the MJD epoch, the two-digit year, the offset in quarter-hours, LEAP_ANNOUNCE, DST_NOW,
DST_ANNOUNCE. -/
structure LfTime where
  minutes : Nat
  year2 : Nat
  offset : Int
  leap : Bool
  dst : Bool
  dstAnnounce : Bool
  deriving DecidableEq, Repr

/-- The frame's date in a year, by day and month or by day of year: none where it is no real date. -/
def lfDate (es : List LfEntry) (syms : List (LfSym × Bool)) (y : Nat) : Option Nat :=
  let doy := lfField es syms 6
  let byDoy := if 1 ≤ doy && doy ≤ yearDays y then some (mjdOf y 1 1 + doy - 1) else none
  let m := lfField es syms 4
  let d := lfField es syms 3
  let byMonth := if dateOk y m d then some (mjdOf y m d) else none
  if lfHas es 3 && lfHas es 4 then
    if lfHas es 6 && byDoy != byMonth then none else byMonth
  else
    let monthOk := !lfHas es 4 || (1 ≤ m && m ≤ 12)
    let dayOk (mjd : Nat) : Bool := !lfHas es 3 || dateOk (civil mjd).1 (civil mjd).2.1 d
    byDoy.filter fun mjd => monthOk && dayOk mjd

/-- The year and MJD on which the frame is placed (R347). -/
def lfPlace (s : State) (es : List LfEntry) (syms : List (LfSym × Bool)) : Option (Nat × Nat) :=
  let yy := lfField es syms 5
  let dated (y : Nat) : Option (Nat × Nat) := (lfDate es syms y).map fun m => (y, m)
  let gap (m : Nat) : Nat := freqGap m (mjdAt (calendarNow s))
  if 99 < yy then none
  else if !s.time.valid then dated (2000 + yy)
  else match dated (2000 + yy), dated (2100 + yy) with
    | some a, some b => if gap b.2 < gap a.2 then some b else some a
    | some a, none => some a
    | none, b => b

/-- A frame of 60 symbols checked and read (R265). -/
def lfRead (s : State) (d : List Byte) (syms : List (LfSym × Bool)) : Except LfFault LfTime :=
  let es := lfEntries d
  let covered := (es.map fun e => (syms.drop e.start).take e.len).flatten
  let ones (e : LfEntry) : Nat := (lfBits syms e).sum
  if covered.any (·.2) then .error .erased
  else if covered.any fun x => x.1 != .zero && x.1 != .one then .error .symbol
  else if es.any fun e => (e.kind == 0x10 && ones e % 2 == 1) || (e.kind == 0x11 && ones e % 2 == 0) then .error .parity
  else if es.any fun e => (e.kind == 0x12 && ones e != 0) || (e.kind == 0x13 && ones e != e.len) ||
      (lfValueKind e.kind && 9 < lfRaw syms e) then .error .range
  else
    let minute := lfField es syms 1
    let hour := lfField es syms 2
    let dst := lfSet es syms 0x0A
    match lfPlace s es syms with
    | none => .error .range
    | some (y, mjd) =>
      let weekdayOk := !lfHas es 7 || lfField es syms 7 == (mjd + 2) % 7 + 1
      let leapOk := !lfHas es 0x0C || lfSet es syms 0x0C == leapYear y
      let dstOk := !lfHas es 0x0D || lfSet es syms 0x0D != dst
      let offset := ofTwos 1 (byteAt d 0x0B) + (if dst then ofTwos 1 (byteAt d 0x0C) else 0)
      let local_ : Int := ((mjd * 1440 + hour * 60 + minute : Nat) : Int)
      let utc := if lfFlag d 3 then local_ - 15 * offset else local_
      if minute ≤ 59 && hour ≤ 23 && weekdayOk && leapOk && dstOk &&
          decide ((51544 * 1440 : Nat) ≤ utc) && decide (utc < (124593 * 1440 : Nat)) then
        .ok { minutes := utc.toNat, year2 := lfField es syms 5, offset := offset, leap := lfSet es syms 9, dst := dst,
              dstAnnounce := lfSet es syms 0x0B }
      else .error .range

/-- The frame describes the minute after the last one; in KEEPTIME, the minute that the system counter has carried it to (R266). -/
def lfFollows (s : State) (x : LfDec) (minutes stamp : Nat) : Bool :=
  match x.lastMinute with
  | some (m, t) =>
    let passed := if modeNow s = 2 then ((stamp - t) + 30 * countsPerSecond) / (60 * countsPerSecond) else 1
    minutes == m + passed && 0 < x.consec
  | none => false

/-- The payload of LF_TIME (Table 11-8). -/
def lfPayload (t : LfTime) (confirmed sixtyOne : Bool) (consec desc unc : Nat) : List Byte :=
  leBytes (t.minutes / 1440) 3 ++ [lowByte (t.minutes / 60 % 24), lowByte (t.minutes % 60), lowByte t.year2, lowByte (twos 1 t.offset),
    lowByte (flagNat t.leap + 2 * flagNat t.dst + 4 * flagNat t.dstAnnounce + 8 * flagNat confirmed + 16 * flagNat sixtyOne),
    lowByte consec, lowByte desc, lowByte unc, 0, 0, 0, 0, 0]

/-- A frame's checks failed. -/
def lfFailed (f : LfFault) (x : LfDec) : LfDec :=
  let x := { x with consec := 0, leapNext := false }
  match f with
  | .erased => { x with erasedFrames := bump 4 x.erasedFrames 1 }
  | .parity => { x with parityFails := bump 4 x.parityFails 1 }
  | .range => { x with rangeFails := bump 4 x.rangeFails 1 }
  | .symbol => x

/-- The vote of a confirmed frame (Table 15-1). -/
def lfVote (n : Nat) (d : List Byte) (t : LfTime) (stamp unc : Nat) (s : State) : State :=
  let leap := if lfHas (lfEntries d) 9 then (if t.leap then 2 else 1) else 0
  ktTaken n (takeVote 1 n (utcCounts (t.minutes / 1440) (t.minutes % 1440 * 60)) stamp (max 1 ((unc + 9) / 10)) leap s)

/-- A frame closed by a mark: `syms` from second 0 on, `edge` the leading edge that closes it (R264 to R267). -/
def lfClose (n u : Nat) (syms : List (LfSym × Bool)) (edge unc : Nat) (s : State) : State :=
  let x := lfOf s u
  let d := x.copy
  let sixtyOne := syms.length == 61 && x.leapNext
  if syms.length != 60 && !sixtyOne then
    modLf s u fun x => { x with consec := 0, leapNext := false, minuteLosses := bump 2 x.minuteLosses 1 }
  else
    let syms := if sixtyOne then syms.eraseIdx (byteAt d 0x0A) else syms
    match lfRead s d syms with
    | .error f => modLf s u (lfFailed f)
    | .ok t =>
      let stamp := if lfFlag d 2 then x.frameStart else edge
      let consec := if lfFollows s x t.minutes stamp then min 255 (x.consec + 1) else 1
      let set := (laneOf s n).cur
      let confirmed := engPar set 11 ≤ consec
      let payload := lfPayload t confirmed sixtyOne consec (engPar set 10) unc
      let s := modLf s u fun x =>
        { x with consec := consec, leapNext := t.leap, lastMinute := some (t.minutes, stamp), framesOk := bump 4 x.framesOk 1,
                 lastFrame := payload }
      let s := if bit (engPar set 13) 0 || confirmed then
          emit { kind := 0x20, lane := n, gen := (laneOf s n).gen, iseq := t.minutes % 2 ^ 32, stamp := stamp, payload := payload } none s
        else s
      if confirmed && (laneOf s n).hold == .host then lfVote n d t stamp unc s else s

/-- The decoder returns to SEARCH (R263). -/
def lfSearch (x : LfDec) : LfDec :=
  { x with state := 1, empty := 0, edges := 0, lastEdge := none, symbols := [], prevMark := false, secondPos := 0, reference := [] }

/-- A second with no edge: ten in succession, none of them erased, return SECONDS and FRAMES to SEARCH (R263). -/
def lfEmpty (empty : Bool) (x : LfDec) : LfDec :=
  let n := if empty then x.empty + 1 else 0
  if (x.state = 2 || x.state = 4) && 10 ≤ n then lfSearch x else { x with empty := n }

/-- SEARCH forms the reference of 10 s; SECONDS waits for five leading edges spaced 1 s ± 20 ms, and locks its second phase to the last. -/
def lfSeek (thresh : Nat) (erased : Bool) (m : LfMeas) (x : LfDec) : LfDec :=
  if x.state = 1 then
    let x := lfRefer thresh erased m x
    if x.reference.length = 10 && (lfReference x).2 != 0 then { x with state := 2, empty := 0, edges := 0, lastEdge := none } else x
  else
    let lead := if erased then none else (lfKeyed x.copy thresh (lfReference x) m).head?
    let x := lfRefer thresh erased m x
    match lead with
    | none => lfEmpty (!erased) { x with edges := 0, lastEdge := none }
    | some (e, _) =>
      let near := x.lastEdge.any fun t => freqGap (e - t) countsPerSecond * 50 ≤ countsPerSecond
      let edges := if near then x.edges + 1 else 1
      let x := { x with empty := 0, edges := edges, lastEdge := some e }
      if 5 ≤ edges then { x with state := 3, prevMark := false, symbols := [], expected := e + countsPerSecond } else x

/-- REF_LEVEL reports the reference in 1/16 dBFS. -/
def lfReport (u : Nat) (s : State) : State :=
  let ref := lfReference (lfOf s u)
  if ref.2 = 0 then s
  else
    let (v, s) := laneLevel (ref.1 ^ 2) ((ref.2 * fullScale) ^ 2) s
    modLf s u fun x => { x with refLevel := v }

/-- MINUTE and FRAMES (R263, R264): the second classified, the mark found, a frame closed and the next begun. The phase follows the edges, or goes on
by 1 s (DEDUCED, notes/assumptions/98.md). -/
def lfCollect (n u : Nat) (m : LfSecond) (s : State) : State :=
  let x := lfOf s u
  let sym := lfClass x.copy m
  let mark := lfIsMark x.copy x sym m.edgeErased
  let edge := (m.key.map (·.1)).getD m.start
  let s := modLf s u fun x => { x with symbolsInvalid := bump 4 x.symbolsInvalid (flagNat (sym == .invalid && !m.erased)) }
  let s := if mark && x.state = 4 then lfClose n u x.symbols.reverse edge m.unc s else s
  modLf s u fun (x : LfDec) =>
    let x : LfDec := { x with prevMark := lfNotes x.copy sym m.erased, expected := (if m.edgeErased then m.start else edge) + countsPerSecond }
    let x : LfDec :=
      if mark then { x with state := 4, symbols := [(sym, m.erased)], frameStart := edge, secondPos := 0 }
      else if x.state = 4 then
        { x with symbols := (sym, m.erased) :: x.symbols, secondPos := min 255 x.symbols.length }
      else x
    lfEmpty (m.key.isNone && !m.erased) x

/-- LF_SECOND: a second of a decoder that has taken its first block. -/
def execLfSecond (lane : Nat) (meas : LfMeas) (s : State) : Host.Outcome State Fault Refusal :=
  let x := (laneOf s lane).cur
  let u := x.engIndex
  if laneTakes s lane && x.engKind == 4 then
    let thresh := engPar x 12
    match (lfOf s u).state with
    | 0 => .next s
    | 1 | 2 =>
      let erased := match meas.points.head?, meas.points.getLast? with
        | some p, some q => erasedIn (laneOf s lane) p.1 (q.1 + 1)
        | _, _ => true
      .next (lfReport u (modLf s u (lfSeek thresh erased meas)))
    | _ =>
      let second := lfSecondOf (laneOf s lane) thresh meas (lfOf s u)
      .next (lfReport u (lfCollect lane u second (modLf s u (lfRefer thresh second.erased meas))))
  else .next s

end Sys2Proof.Machine
end

