-- ==== Sys2Proof/Machine/Digital.lean ====
section
/-!
DEFINITION. What the DRM and DAB engines share (chapter 12): positions and item headers (R293, R297), ENGINE_EVENT items, the frozen
correction and its residual (R277, R278), erasures (R275), joined packets (R285, R292), AF lists (R295), admitted sub-channels (R289).
-/
namespace Sys2Proof.Machine

/-! Positions and headers -/

/-- A stamp divided by a period of `num`/`den` seconds, rounded. -/
def roundPeriod (sc num den : Nat) : Nat := (2 * sc * den + num * countsPerSecond) / (2 * num * countsPerSecond)

/-- SFPOS of the super-frame that begins at a stamp (R293, Table 12-3). -/
def superPos (mode stamp : Nat) : Nat := if mode = 4 then roundPeriod stamp 4 10 else roundPeriod stamp 12 10

/-- CIFPOS of a CIF that begins at a stamp, with its count (R293). -/
def cifPos (stamp count : Nat) : Nat :=
  let n : Int := (roundPeriod stamp 24 1000 : Nat)
  twos 4 (n + (((count : Int) - n + 2500) % 5000) - 2500)

/-- The index of the next item of a KIND and stream at a position, and the counts after it. -/
def nextIndex (l : List IndexCount) (kind stream pos : Nat) : Nat × List IndexCount :=
  let k := match l.find? fun i => i.kind == kind && i.stream == stream with
    | some i => if i.pos = pos then i.count else 0
    | none => 0
  (k, { kind := kind, stream := stream, pos := pos, count := k + 1 } :: l.filter fun i => !(i.kind == kind && i.stream == stream))

/-- The common part of the engine of a lane: kind 2 DRM, otherwise DAB. -/
def engOf (s : State) (kind u : Nat) : Engine := if kind = 2 then (drmOf s u).eng else (dabOf s u).eng

def modEng (s : State) (kind u : Nat) (f : Engine → Engine) : State :=
  if kind = 2 then modDrm s u fun d => { d with eng := f d.eng } else modDab s u fun d => { d with eng := f d.eng }

/-- Where an item belongs: its lane, engine kind and unit, position (SFPOS or CIFPOS) and STAMP. -/
structure Place where
  lane : Nat
  kind : Nat
  unit : Nat
  pos : Nat
  stamp : Nat
  deriving DecidableEq, Repr

/-- An engine completes an item of a KIND and stream (256 without one): ISEQ counted, delivered or kept as must data. -/
def emitAt (p : Place) (kind stream : Nat) (payload : List Byte) (field : Option (Nat × Nat)) (s : State) : State :=
  let (k, l) := nextIndex (engOf s p.kind p.unit).indices kind stream p.pos
  let s := modEng s p.kind p.unit fun e => { e with indices := l }
  let s := if p.kind = 2 then modDrm s p.unit fun d => { d with itemsOut := bump 4 d.itemsOut 1 } else s
  let iseq := (p.pos * (if p.kind = 2 then 64 else 16) + k) % 2 ^ 32
  emit { kind := kind, lane := p.lane, gen := (laneOf s p.lane).gen, iseq := iseq, stamp := p.stamp, payload := payload } field s

/-- FLAGS of the data-item header (Table 12-9). -/
def dataFlags (crc : Option Bool) (erased whole : Bool) : Nat :=
  flagNat (crc == some true) + 2 * flagNat crc.isNone + 4 * flagNat erased + 8 * flagNat whole

/-- The payload of a data item: header, data, padding to a multiple of 4 (R297). -/
def dataPayload (stream flags sub : Nat) (bytes : List Byte) : List Byte :=
  leBytes bytes.length 2 ++ [lowByte stream, lowByte flags] ++ leBytes sub 2 ++ [0, 0] ++ bytes ++
    List.replicate ((4 - bytes.length % 4) % 4) 0

/-- A payload of a fixed size. -/
def padTo (n : Nat) (bs : List Byte) : List Byte := (bs ++ List.replicate n 0).take n

/-- ENGINE_EVENT (Table 12-8): cause, stream (256 where the cause names none), super-frames or CIFs lost, the counter its cause names. -/
def engineEvent (p : Place) (cause stream lost counter : Nat) (s : State) : State :=
  emitAt p (if p.kind = 2 then 0x37 else 0x47) (if stream < 256 then stream else 256)
    (padTo 16 ([lowByte cause, lowByte stream] ++ leBytes (min 0xFFFF lost) 2 ++ leBytes counter 4)) none s

/-- An event whose count of super-frames or CIFs lost the spec does not fix: the count is a free value. -/
def lossEvent (p : Place) (cause stream counter : Nat) (s : State) : State :=
  let (lost, s) := draw 65536 s
  engineEvent p cause stream lost counter s

/-! Acquisition and frequency -/

/-- SYNC_LOSS of an engine's parameters (Table 12-2). -/
def syncLoss (x : LaneSet) : Nat := if engPar x 12 = 0 then 4 else engPar x 12

/-- Drift limits of Table 12-3, in 0.01 Hz: DRM modes A to E, and 5 for DAB. -/
def driftLimit : Nat → Int
  | 0 => 1042
  | 1 => 1172
  | 2 => 1705
  | 3 => 2679
  | 4 => 11111
  | _ => 25000

/-- Samples of the useful part and of the guard, symbols of a frame, and samples of the null symbol, by mode: DRM A to E, and 5 for DAB
(Table 12-3). -/
def modeSymbols : Nat → Nat × Nat × Nat × Nat
  | 0 => (1152, 128, 15, 0)
  | 1 => (1024, 256, 15, 0)
  | 2 => (704, 256, 20, 0)
  | 3 => (448, 352, 24, 0)
  | 4 => (432, 48, 40, 0)
  | _ => (2048, 504, 76, 2656)

/-- A mode's lane rate in Hz. -/
def modeRate : Nat → Nat
  | 4 => 192000
  | 5 => 2048000
  | _ => 48000

/-- A frame's length in counts. -/
def frameCounts (mode : Nat) : Nat :=
  let (useful, guard, symbols, null) := modeSymbols mode
  ((useful + guard) * symbols + null) * countsPerSecond / modeRate mode

/-- Pull-in of a mode in 0.01 Hz. -/
def pullIn : Nat → Int
  | 4 => 1500000
  | 5 => 2500000
  | _ => 200000

/-- Frames in a super-frame: three of modes A to D, four of mode E. -/
def superFrames (mode : Nat) : Nat := if mode = 4 then 4 else 3

/-- An engine returns to its search; on a tasting lane that restarts the tasting (R310). -/
def toSearch (p : Place) (s : State) : State := tasteRestart p.lane (restartEngine p.kind p.unit s)

/-- A frame's residual joins the last four (R278). -/
def takeResidual (r : Int) (e : Engine) : Engine := { e with residuals := (r :: e.residuals).take 4 }

/-- RESIDUAL reports their average; between two units the spec states no rounding: the one below or above, by a free value (DESIGN CHOICE,
notes/assumptions/99.md). -/
def reportResidual (p : Place) (s : State) : State :=
  let l := (engOf s p.kind p.unit).residuals
  if l.isEmpty then s
  else
    let sum := l.foldl (· + ·) 0
    let n : Int := (l.length : Int)
    let (k, s) := if sum % n = 0 then (0, s) else draw 2 s
    modEng s p.kind p.unit fun e => { e with residual := satInt 2 (sum / n + (k : Int)) }

/-- An engine begins its acquisition anew from FREQ or PRS, its mode kept: what the acquisition has shown so far is forgotten. -/
def reacquire (p : Place) (s : State) : State :=
  let s := modEng s p.kind p.unit fun e => { e with state := 2, afcFrozen := false, residuals := [], fails := 0, assembly := [] }
  if p.kind = 2 then modDrm s p.unit fun d => { d with facSeen := false, seen := [], cycle := [] } else s

/-- The average exceeds the drift limit: back to FREQ (DRM) or PRS (DAB), counted, with a DRIFT event (R278). -/
def checkDrift (p : Place) (limit : Int) (s : State) : State :=
  let e := engOf s p.kind p.unit
  let sum := e.residuals.foldl (· + ·) 0
  if e.afcFrozen && limit * (e.residuals.length : Int) < sum.natAbs then
    let n := bump 4 e.driftReacqs 1
    lossEvent p 0x03 256 n (modEng (reacquire p s) p.kind p.unit fun e => { e with driftReacqs := n })
  else s

/-- The place of an event that no received frame carries: the frame or CIF that holds an instant on the engine's time grid, which it keeps
(R275, R293); before any frame, none. -/
def gridPlace (s : State) (lane sc : Nat) : Option Place :=
  let x := (laneOf s lane).cur
  let e := engOf s x.engKind x.engIndex
  e.frameStamp.map fun t =>
    if x.engKind = 2 then
      let mode := (drmOf s x.engIndex).mode
      let len := frameCounts mode
      let stamp := t + (sc - t) / len * len
      let sup := superFrames mode * len
      { lane := lane, kind := 2, unit := x.engIndex, stamp := stamp, pos := superPos mode (e.superStamp + (stamp - e.superStamp) / sup * sup) }
    else
      let k := (sc - t) * 1000 / (24 * countsPerSecond)
      let stamp := t + k * 24 * countsPerSecond / 1000
      { lane := lane, kind := x.engKind, unit := x.engIndex, stamp := stamp, pos := cifPos stamp (((dabOf s x.engIndex).cif + k) % 5000) }

/-- That place, or one at the instant itself where the engine has no grid yet. -/
def placeAt (s : State) (lane sc : Nat) : Place :=
  let x := (laneOf s lane).cur
  (gridPlace s lane sc).getD
    { lane := lane, kind := x.engKind, unit := x.engIndex, stamp := sc,
      pos := if x.engKind = 2 then superPos (drmOf s x.engIndex).mode sc else cifPos sc (dabOf s x.engIndex).cif }

/-- SYNC_LOSS failed frames in succession end sync (R280, R287). -/
def syncLost (p : Place) (s : State) : State :=
  let n := bump 4 (engOf s p.kind p.unit).syncLosses 1
  lossEvent p 0x02 256 n (toSearch p (modEng s p.kind p.unit fun e => { e with syncLosses := n }))

/-- GAP (R275): a run of erased blocks has lasted 2 s; the engine returns to its search once for the run. Its event carries the STAMP of the frame
or CIF in which the run reached 2 s. -/
def execGap (lane : Nat) (s : State) : Host.Outcome State Fault Refusal :=
  let x := (laneOf s lane).cur
  let e := engOf s x.engKind x.engIndex
  let due : Bool := match e.erasedSince with
    | some t => decide (t + 2 * countsPerSecond ≤ s.clocks.sc)
    | none => false
  if laneTakes s lane && (x.engKind == 2 || x.engKind == 3) && e.state != 0 && due && !e.gapDone then
    let n := bump 4 e.gapResets 1
    let p := placeAt s lane (e.erasedSince.getD 0 + 2 * countsPerSecond)
    let s := toSearch p (modEng s x.engKind x.engIndex fun e => { e with gapResets := n })
    let s := modEng s x.engKind x.engIndex fun e => { e with gapDone := true }
    .next (lossEvent p 0x04 256 n s)
  else .next s

/-! Packets joined into data units and data groups (R285, R292) -/

/-- What a packet does: the units being joined after it, whether a unit was dropped, and the unit it completes. -/
structure Joined where
  units : List Assembly
  dropped : Bool := false
  done : Option (Bool × List Byte) := none
  deriving DecidableEq, Repr

/-- Takes one good packet of a stream and address: continuity modulo `wrap`, at most `most` addresses of a stream being joined at once. A unit that
lost a packet, its first one included, that a new first packet cuts off, that grows past 8,191 bytes, or for which the engine has no capacity, is
dropped once; its further packets belong to nothing. -/
def joinPacket (wrap most stream addr : Nat) (first last : Bool) (ci : Nat) (erased : Bool) (bytes : List Byte) (l : List Assembly) : Joined :=
  let mine (a : Assembly) : Bool := a.stream == stream && a.addr == addr
  let rest := l.filter fun a => !mine a
  let held := l.find? mine
  let live := held.filter fun a => !a.lost
  let mark : List Assembly :=
    if last then rest else rest ++ [{ stream := stream, addr := addr, next := 0, erased := false, bytes := [], lost := true }]
  let room := (rest.filter fun a => a.stream == stream && !a.lost).length < most
  let base : Option (Bool × List Byte) :=
    if first then (if room then some (false, []) else none)
    else (live.filter fun a => a.next == ci % wrap).map fun a => (a.erased, a.bytes)
  match base with
  | none => { units := mark, dropped := first || live.isSome || held.isNone }
  | some (e, old) =>
    let all := old ++ bytes
    let cut := first && live.isSome
    if 8191 < all.length then { units := mark, dropped := true }
    else if last then { units := rest, dropped := cut, done := some (e || erased, all) }
    else { units := rest ++ [{ stream := stream, addr := addr, next := (ci + 1) % wrap, erased := e || erased, bytes := all }], dropped := cut }

/-! Alternative frequencies (R295) -/

/-- One complete reception of an AF list: accepted when it agrees with the one before, on a host-bound lane with FOLLOW_AF. -/
def takeDigAf (p : Place) (list : List AfFreq) (s : State) : State :=
  let x := laneOf s p.lane
  if x.hold == .host && followAf p.kind x.cur then
    let l := list.map fun e => ({ khz := e.khz, otherService := e.otherService, otherEnsemble := e.otherEnsemble } : DigAf)
    let e := engOf s p.kind p.unit
    if e.afPrev = some l then
      let s := modEng s p.kind p.unit fun e => { e with af := l }
      listChanged p.lane (if l = e.af then s else engineEvent p 0x09 256 0 0 s)
    else modEng s p.kind p.unit fun e => { e with afPrev := some l }
  else s

/-! Sub-channels (R289, R321) -/

/-- An open slot of a lane names a sub-channel: a RAW slot with a DAB payload class, or an envelope slot. -/
def slotNames (x : Slot) (lane sub : Nat) : Bool :=
  x.isOpen && x.srcLane == lane && x.stream == sub && (x.policy != 0 || [15, 16, 17, 18].any fun k => bit x.kindMask k)

/-- The sub-channels asked of the DAB engine on a lane: those that open slots name, in slot order, or those that the followed engine
decodes. -/
def subchAsked (s : State) (lane : Nat) : List Nat :=
  match tastingOf s lane with
  | some t =>
    let d := dabOf s (laneOf s (followOf s t.entry).lane).cur.engIndex
    (d.subch.filter fun e => e.2.decoding).map (·.1)
  | none =>
    if (laneOf s lane).hold == .host then
      ((s.slots.slots.filter fun e => e.2.stream < 64 && slotNames e.2 lane e.2.stream).map fun e => e.2.stream).eraseDups
    else []

/-- Sub-channels decoded, and the capacity units in use. -/
def subchActive (d : Dab) : Nat := (d.subch.filter fun e => e.2.decoding).length

def cuInUse (d : Dab) : Nat := ((d.subch.filter fun e => e.2.decoding).map fun e => e.2.size).sum

/-- One asked sub-channel that is not decoded is admitted within Table 12-1, or refused once with an event. -/
def admitOne (p : Place) (s : State) (sub : Nat) : State :=
  let d := dabOf s p.unit
  match d.subch.find? fun e => e.1 == sub with
  | none => s
  | some (_, x) =>
    if x.decoding then s
    else if subchActive d < 12 && cuInUse d + x.size ≤ 432 then
      modDab s p.unit fun d =>
        { d with subch := tabSet d.subch sub { x with decoding := true, refused := false, from_ := p.stamp, until_ := none } }
    else if x.refused then s
    else
      let n := bump 4 d.subchRefused 1
      engineEvent p 0x07 sub 0 n (modDab s p.unit fun d =>
        { d with subch := tabSet d.subch sub { x with refused := true }, subchRefused := n })

/-- A sub-channel goes on decoding where it still fits, from the instant that it did; one that has outgrown Table 12-1 is refused (R272). -/
def keepOne (p : Place) (s : State) (e : Nat × SubCh) : State :=
  let s := admitOne p s e.1
  modDab s p.unit fun d => { d with subch := tabMod {} d.subch e.1 fun x => { x with from_ := e.2.from_ } }

/-- The requests of a lane's DAB engine are looked at afresh: ended ones stop, those being decoded go on in the order they were first asked for
while they fit, new ones join in order, each is admitted or refused (R289). -/
def admitSubch (p : Place) (s : State) : State :=
  if p.kind = 3 then
    let now := subchAsked s p.lane
    let d := dabOf s p.unit
    let asked := (d.asked.filter now.contains) ++ now.filter fun k => !d.asked.contains k
    let subch := d.subch.map fun e =>
      if asked.contains e.1 then (e.1, { e.2 with decoding := false })
      else (e.1, { e.2 with decoding := false, refused := false, until_ := if e.2.decoding then some p.stamp else e.2.until_ })
    let was := asked.filterMap fun k => (d.subch.find? fun e => e.1 == k && e.2.decoding)
    let s := forAll was (keepOne p) (modDab s p.unit fun d => { d with asked := asked, subch := subch })
    forAll (asked.filter fun k => !was.any fun e => e.1 == k) (admitOne p) s
  else s

/-- A sub-channel decodes the CIF that begins at an instant. -/
def decodesAt (x : SubCh) (stamp : Nat) : Bool :=
  x.from_ < stamp && (x.decoding || x.until_.any fun t => decide (stamp ≤ t))

/-- The place of an event that no frame carries, at the present count. -/
def placeNow (s : State) (lane : Nat) : Place := placeAt s lane s.clocks.sc

end Sys2Proof.Machine
end

