-- ==== Sys2Proof/Machine/Drm.lean ====
section
/-!
DEFINITION. The DRM engines: a received transmission frame with its FAC, SDC and MSC (R276 to R285, R296).
-/
namespace Sys2Proof.Machine

/-- AU_WHOLE (Table 12-2). -/
def auWhole (x : LaneSet) : Bool := bit (engPar x 11) 1

/-- The frame's number in its super-frame, from the FAC identity field (ES 201 980): in modes A to D identity 3 is a first frame too. -/
def frameInSuper (mode identity : Nat) : Nat := if mode = 4 then identity % 4 else identity % 3

/-- What a FAC changes of the decoded values, identity field aside (R281). -/
def facValues (d : Drm) := (d.so, d.longInt, d.mscMode, d.sdcMode, d.serviceCount, d.reconf, d.services)

/-- The service a FAC gives, in its place of the list; the stream that the SDC gave it stays. -/
def facService (l : List DrmSvc) (i : Nat) (v : FacSvc) : List DrmSvc :=
  let l := l ++ List.replicate (i + 1 - l.length) ({} : DrmSvc)
  l.set i { id := v.id, shortId := v.shortId, data := v.data, ca := v.ca, language := v.language, stream := (l.getD i {}).stream }

/-- The engine after a good FAC (R281). -/
def takeFac (f : Fac) (d : Drm) : Drm :=
  { d with so := f.so, longInt := f.longInt, mscMode := f.mscMode, sdcMode := f.sdcMode, serviceCount := f.services,
           reconf := f.reconf,
           services := (if f.svcIndex < 4 then facService d.services f.svcIndex f.svc else d.services).take f.services,
           facSeen := true, cycle := tabSet d.cycle f.svcIndex f.svc.id }

/-- The payload of DRM_FAC (Table 12-8). -/
def facPayload (mode : Nat) (f : Fac) : List Byte :=
  [lowByte mode, lowByte f.so, lowByte (flagNat f.longInt + 4 * (f.mscMode % 4) + 16 * (f.sdcMode % 4)), lowByte f.services,
    lowByte f.reconf, lowByte (frameInSuper mode f.identity), 0, 0] ++ padTo 16 f.raw ++ List.replicate 8 0

/-- The announced configuration takes effect (R296): streams that cease to exist end with an event each. -/
def applyMux (p : Place) (new : List (Nat × Nat × Nat × Nat)) (s : State) : State :=
  let d := drmOf s p.unit
  let gone := (d.streams.filter fun e => 0 < e.2.lenA + e.2.lenB && !new.any fun n => n.1 == e.1 && 0 < n.2.1 + n.2.2.1).map (·.1)
  let streams : Tab DrmStream := new.foldl (fun t n =>
    tabSet t n.1 { tabGet {} d.streams n.1 with lenA := n.2.1, lenB := n.2.2.1, prot := n.2.2.2 }) []
  let s := modDrm s p.unit fun d =>
    { d with streams := streams, nextStreams := none,
             eng := { d.eng with assembly := d.eng.assembly.filter fun a => !gone.contains a.stream } }
  forAll gone (fun s k => engineEvent p 0x08 k 0 0 s) s

/-- The identity a FAC shows a tasting: a match when it lists the service; a refutation when a cycle over every signalled service lacks
it (Table 13-2). -/
def tasteFac (p : Place) (f : Fac) (s : State) : State :=
  match tastingOf s p.lane with
  | none => s
  | some t =>
    let want := identityOf s (followOf s t.entry)
    let seen := (drmOf s p.unit).cycle
    let whole := (List.range f.services).all fun i => seen.any fun e => e.1 == i
    let listed := seen.any fun e => e.2 == want
    let s := if whole then modDrm s p.unit fun d => { d with cycle := [] } else s
    if f.svc.id = want then reportIdentity p.lane .matched s
    else if whole && !listed then reportIdentity p.lane .refuted s
    else s

/-- A good FAC, whose frame counts as good unless more than half its FAC cells are erased (R280): its values taken, a reconfiguration's description applied at its frame, a DRM_FAC item when something changed. -/
def goodFac (p : Place) (f : Fac) (counts : Bool) (s : State) : State :=
  let old := drmOf s p.unit
  let new := takeFac f old
  let s := modDrm s p.unit fun _ => { new with facOk := bump 4 new.facOk 1, framesOk := bump 4 new.framesOk (flagNat counts) }
  let s := match old.nextStreams with
    | some l => if old.reconf != 0 && f.reconf == 0 then applyMux p l s else s
    | none => s
  if !old.facSeen || facValues new != facValues old then emitAt p 0x30 256 (facPayload old.mode f) none s else s

/-- The FAC of a frame (R276, R280): in state FAC a good one freezes the correction, SYNC_LOSS failures in succession return to SEARCH;
in RUN they end sync. -/
def takeFacFrame (p : Place) (fr : DrmFrame) (s : State) : State :=
  let d := drmOf s p.unit
  let loss := syncLoss (laneOf s p.lane).cur
  match fr.fac with
  | some f =>
    let s := goodFac p f (!fr.facErased) s
    let first := d.eng.state == 4
    let s := modEng s 2 p.unit fun e =>
      { e with fails := if fr.facErased then e.fails else 0, afcFrozen := true, state := if first then 5 else e.state }
    tasteFac p f (if first then engineEvent p 0x01 256 0 0 s else s)
  | none =>
    if fr.facErased then s
    else
      let fails := d.eng.fails + 1
      let s := modDrm s p.unit fun d =>
        { d with facBad := bump 4 d.facBad 1, eng := if d.eng.state = 5 then d.eng else { d.eng with fails := fails } }
      if d.eng.state = 5 || fails < loss then s
      else if d.eng.state = 4 then toSearch p s
      else syncLost p s

/-! SDC (R282, R283) -/

/-- A DRM_TIME item from a type 8 entity in range (R283). -/
def drmTime (p : Place) (mjd hour minute : Nat) (offset : Option Int) (s : State) : State :=
  if 51544 ≤ mjd && mjd ≤ 124592 && hour < 24 && minute < 60 then
    let mode := (drmOf s p.unit).mode
    emitAt p 0x32 256 (padTo 16 (leBytes mjd 3 ++ [lowByte hour, lowByte minute, lowByte (twos 1 (offset.getD 0)),
      lowByte (2 * flagNat offset.isSome + 4), lowByte (if mode = 4 then 4 else 12)])) none s
  else s

/-- A stream's fields changed. -/
def modStream (s : State) (u stream : Nat) (f : DrmStream → DrmStream) : State :=
  modDrm s u fun d => { d with streams := tabMod {} d.streams stream f }

/-- The stream of the service with a short ID. -/
def setServiceStream (s : State) (u shortId stream : Nat) : State :=
  modDrm s u fun d =>
    { d with services := d.services.map fun v => if v.shortId = shortId then { v with stream := stream } else v }

/-- The use of an entity inside the Rhatre (Table 12-5). `sup` is the place of the super-frame. -/
def useEntity (p sup : Place) (s : State) (e : SdcEntity) : State :=
  match e.use with
  | .none => s
  | .mux true streams => modDrm s p.unit fun d => { d with nextStreams := some streams }
  | .mux false streams =>
    modDrm s p.unit fun d => { d with
      streams := streams.foldl (fun t n =>
        tabSet t n.1 { tabGet {} d.streams n.1 with lenA := n.2.1, lenB := n.2.2.1, prot := n.2.2.2 }) [] }
  | .label bytes => modDrm s p.unit fun d => { d with label := padTo 32 bytes }
  | .af list => takeDigAf p list s
  | .app shortId stream packet len =>
    setServiceStream (modStream s p.unit stream fun x => { x with packet := packet, packetLen := len }) p.unit shortId stream
  | .time mjd hour minute offset => drmTime sup mjd hour minute offset s
  | .audio shortId stream split =>
    setServiceStream (modStream s p.unit stream fun x => { x with splittable := split }) p.unit shortId stream

/-- An entity of a good SDC block: a DRM_SDC item for type 8, for a first reception and for a changed body; then its use (R282). -/
def takeEntity (p sup : Place) (s : State) (e : SdcEntity) : State :=
  let seen := (drmOf s p.unit).seen
  let same (x : Nat × Nat × List Byte) : Bool := x.1 == e.typ && x.2.1 == e.header
  let fresh : Bool := match seen.find? same with
    | some x => x.2.2 != e.bytes
    | none => true
  let s := modDrm s p.unit fun d => { d with seen := (e.typ, e.header, e.bytes) :: seen.filter fun x => !same x }
  let s := if fresh || e.typ == 8 then emitAt p 0x31 256 (dataPayload 0 (dataFlags (some true) false false) 0 e.bytes) none s else s
  useEntity p sup s e

/-- The SDC block of a super-frame's first frame; a good one completes acquisition (Table 12-4). -/
def takeSdc (p sup : Place) (sdc : Option (Bool × List SdcEntity)) (s : State) : State :=
  match sdc with
  | none => s
  | some (false, _) => modDrm s p.unit fun d => { d with sdcBad := bump 4 d.sdcBad 1 }
  | some (true, es) =>
    let s := modDrm s p.unit fun d =>
      { d with sdcOk := bump 4 d.sdcOk 1, eng := { d.eng with state := if d.eng.state = 5 then 6 else d.eng.state } }
    es.foldl (takeEntity p sup) s

/-! MSC (R284, R285) -/

/-- A data unit is dropped (R285): counted, with an event that names its stream and packet ID. Table 12-8 gives the two names one byte: it is
the one or the other by a free value (DESIGN CHOICE, notes/assumptions/99.md). -/
def unitDropped (p : Place) (stream addr : Nat) (s : State) : State :=
  let n := bump 4 (drmOf s p.unit).eng.unitsDropped 1
  let (k, s) := draw 2 (modEng s 2 p.unit fun e => { e with unitsDropped := n })
  lossEvent p 0x05 (if k = 0 then stream else addr) n s

/-- One part of the MSC completed in this frame. -/
def takeMsc (p : Place) (s : State) (m : MscPart) : State :=
  let d := drmOf s p.unit
  let x := (laneOf s p.lane).cur
  let str (k : Nat) : DrmStream := tabGet {} d.streams k
  match m with
  | .unit k place crc erased bytes =>
    if auWhole x || !(str k).splittable then s
    else
      let s := match crc with
        | some ok => modEng s 2 p.unit fun e =>
            if ok then { e with auOk := bump 4 e.auOk 1 } else { e with auBad := bump 4 e.auBad 1 }
        | none => s
      emitAt p 0x33 k (dataPayload k (dataFlags crc erased false) place bytes) none s
  | .whole k erased bytes =>
    if auWhole x || !(str k).splittable then
      emitAt p 0x33 k (dataPayload k (dataFlags none erased true) 0 bytes) none s
    else s
  | .frame k erased bytes =>
    if (str k).packet then s else emitAt p 0x34 k (dataPayload k (dataFlags none erased false) 0 bytes) none s
  | .packet k addr first last ci ok erased bytes =>
    if !(str k).packet then s
    else if !ok then modEng s 2 p.unit fun e => { e with packetsBad := bump 4 e.packetsBad 1 }
    else
      let j := joinPacket 8 4 k addr first last ci erased bytes d.eng.assembly
      let s := modEng s 2 p.unit fun e => { e with packetsOk := bump 4 e.packetsOk 1, assembly := j.units }
      let s := if j.dropped then unitDropped p k addr s else s
      match j.done with
      | none => s
      | some (erased, bytes) =>
        emitAt p 0x35 k (dataPayload k (dataFlags (some true) erased false) addr bytes) none
          (modEng s 2 p.unit fun e => { e with unitsOk := bump 4 e.unitsOk 1 })

/-- The equaliser after a frame: a tap that depends only on erased reference cells keeps its last value (R279). -/
def nextTaps (old : List (Int × Int)) (new : List (Option (Int × Int))) : List (Int × Int) :=
  (List.range new.length).map fun i => (new.getD i none).getD (old.getD i (0, 0))

/-- A frame's estimates: MER, erased cells, the residual after the freeze. -/
def frameEstimates (erasedCells : Nat) (mer residual : Int) (allErased : Bool) (e : Engine) : Engine :=
  let e := { e with erasedCells := bump 4 e.erasedCells erasedCells }
  if allErased then e else takeResidualIf e.afcFrozen residual { e with mer := mer }
where
  takeResidualIf (frozen : Bool) (r : Int) (e : Engine) : Engine := if frozen then takeResidual r e else e

/-- The engine still decodes SDC: in state SDC or RUN, its lane not released meanwhile. -/
def drmLive (lane u : Nat) (s : State) : Bool := 5 ≤ (drmOf s u).eng.state && (laneOf s lane).hold != .free

/-- The SDC block of a frame. -/
def drmSdc (p sup : Place) (frame : DrmFrame) (s : State) : State := if drmLive p.lane p.unit s then takeSdc p sup frame.sdc s else s

/-- The multiplex frames of a frame, in state RUN. -/
def drmMsc (p : Place) (frame : DrmFrame) (s : State) : State :=
  if drmLive p.lane p.unit s && (drmOf s p.unit).eng.state == 6 then frame.msc.foldl (takeMsc p) s else s

/-- The drift check of a frame. -/
def drmDrift (p : Place) (s : State) : State :=
  if (laneOf s p.lane).hold == .free then s else checkDrift p (driftLimit (drmOf s p.unit).mode) s

/-- A part of the MSC decoded over an erasure. -/
def mscErased : MscPart → MscPart
  | .unit stream place crc _ bytes => .unit stream place crc true bytes
  | .whole stream _ bytes => .whole stream true bytes
  | .frame stream _ bytes => .frame stream true bytes
  | .packet stream addr first last ci ok _ bytes => .packet stream addr first last ci ok true bytes

/-- The frame as the engine takes it from its lane's blocks (R23, R275): of one that lies whole in erasures it decodes nothing as good; one that
meets none has no erased frame. -/
def drmTaken (x : Lane) (mode : Nat) (fr : DrmFrame) : DrmFrame :=
  let end_ := fr.stamp + frameCounts mode
  if erasedWhole x fr.stamp end_ then
    { fr with facErased := true, allErased := true, fac := none, sdc := fr.sdc.map fun _ => (false, []), msc := fr.msc.map mscErased,
              taps := fr.taps.map fun _ => none }
  else if erasedIn x fr.stamp end_ then fr
  else { fr with facErased := false, allErased := false }

/-- DRM_FRAME: a frame of an engine in FAC, SDC or RUN. -/
def execDrmFrame (lane : Nat) (received : DrmFrame) (s : State) : Host.Outcome State Fault Refusal :=
  let x := (laneOf s lane).cur
  let u := x.engIndex
  let d := drmOf s u
  let frame := drmTaken (laneOf s lane) d.mode received
  if laneTakes s lane && x.engKind == 2 && 4 ≤ d.eng.state then
    let p : Place := { lane := lane, kind := 2, unit := u, pos := superPos d.mode frame.superStamp, stamp := frame.stamp }
    .next (unitEnd lane frame.fac.isSome (0 < frame.erasedCells)
      (drmDrift p (drmMsc p frame (drmSdc p { p with stamp := frame.superStamp } frame (takeFacFrame p frame
        (reportResidual p (modEng s 2 u fun e =>
          { frameEstimates frame.erasedCells frame.mer frame.residual frame.allErased e with
            taps := nextTaps e.taps frame.taps, frameStamp := some frame.stamp, superStamp := frame.superStamp })))))))
  else .next s

end Sys2Proof.Machine
end

