-- ==== Sys2Proof/Machine/Dab.lean ====
section
/-!
DEFINITION. The DAB ensemble engines: a received transmission frame with its FIC and its sub-channels (R286 to R292, R296).
-/
namespace Sys2Proof.Machine

/-- DABPLUS_WHOLE (Table 12-2). -/
def dabWhole (x : LaneSet) : Bool := bit (engPar x 11) 0

/-- The CIF count of the frame's first CIF: FIG 0/0's in a good FIB, or four on from the frame before. -/
def frameCif (d : Dab) (fr : DabFrame) : Nat :=
  let figs := ((fr.fibs.filter (·.1)).map (·.2)).flatten
  match figs.findSome? fun f => match f.use with
    | .ensemble _ cif _ _ => some cif
    | _ => none with
  | some c => c
  | none => (d.cif + 4) % 5000

/-- The STAMP of CIF `k` of a frame. -/
def cifStamp (fr : DabFrame) (k : Nat) : Nat := fr.stamp + k * 24 * countsPerSecond / 1000

/-- Sub-channels that cease to exist end with an event each; one whose place changes loses what it was joining (R296). -/
def applyOrganisation (p : Place) (s : State) : State :=
  let d := dabOf s p.unit
  let gone := (d.subch.filter fun e => !d.nextSubch.any fun n => n.1 == e.1).map (·.1)
  let moved (k : Nat) : Bool :=
    let a := tabGet {} d.subch k
    let b := tabGet {} d.nextSubch k
    a.startCu != b.startCu || a.size != b.size || a.prot != b.prot
  let subch := d.nextSubch.map fun n =>
    (n.1, { tabGet {} d.subch n.1 with startCu := n.2.startCu, size := n.2.size, prot := n.2.prot })
  let s := modDab s p.unit fun d =>
    { d with subch := subch, nextSubch := [], change := 0,
             eng := { d.eng with assembly := d.eng.assembly.filter fun a => !gone.contains a.stream && !moved a.stream } }
  admitSubch p (forAll gone (fun s k => engineEvent p 0x08 k 0 0 s) s)

/-- The service components of a FIG 0/2 replace those held of its service, 64 at most. -/
def setService (l : List DabSvc) (sid : Nat) (comps : List (Nat × Nat)) : List DabSvc :=
  (l.filter (fun v => v.sid != sid) ++ comps.map fun c => ({ sid := sid, tmid := c.1, comp := c.2 } : DabSvc)).take 64

/-- A FIG 0/2 lists a tasting's service (R301, R303). -/
def tasteService (p : Place) (sid : Nat) (s : State) : State :=
  match tastingOf s p.lane with
  | some t => if sid = identityOf s (followOf s t.entry) then reportIdentity p.lane .matched s else s
  | none => s

/-- A FIG 0/10 in range gives a DAB_TIME, stamped at the null symbol of the next frame (R290). -/
def dabTime (p : Place) (nextNull mjd hour minute second milli : Nat) (long lsi : Bool) (s : State) : State :=
  let second := if long then second else 0
  let milli := if long then milli else 0
  if 51544 ≤ mjd && mjd ≤ 124592 && hour < 24 && minute < 60 && second < 60 && milli < 1000 then
    emitAt { p with stamp := nextNull } 0x41 256 (padTo 16 (leBytes mjd 3 ++ [lowByte hour, lowByte minute, lowByte second] ++
      leBytes milli 2 ++ [lowByte (2 * flagNat lsi + 4 * flagNat long)])) none s
  else s

/-- The use of a FIG inside the Rhatre (Table 12-7). -/
def useFig (p : Place) (nextNull : Nat) (use : FigUse) (s : State) : State :=
  match use with
  | .none => s
  | .ensemble eid _ change occ => modDab s p.unit fun d => { d with eid := eid, change := change, occ := occ }
  | .subch true id startCu size prot =>
    modDab s p.unit fun d => { d with nextSubch := tabSet d.nextSubch id { startCu := startCu, size := size, prot := prot } }
  | .subch false id startCu size prot =>
    admitSubch p (modDab s p.unit fun d =>
      { d with subch := tabMod {} d.subch id fun x => { x with startCu := startCu, size := size, prot := prot } })
  | .service sid comps => tasteService p sid (modDab s p.unit fun d => { d with services := setService d.services sid comps })
  | .packetComp scid subch addr groups =>
    modDab s p.unit fun d => { d with packets := tabSet d.packets scid { subch := subch, addr := addr, groups := groups } }
  | .time mjd hour minute second milli long lsi => dabTime p nextNull mjd hour minute second milli long lsi s
  | .af list => takeDigAf p list s
  | .ensembleLabel bytes => modDab s p.unit fun d => { d with label := bytes }
  | .serviceLabel sid bytes => modDab s p.unit fun d => { d with labels := tabSet d.labels sid bytes }

/-- FIB `i` of a frame: counted; from a good one every FIG is offered raw, and used (R288). -/
def takeFib (p : Place) (fr : DabFrame) (base : Nat) (s : State) (f : Nat × Bool × List Fig) : State :=
  let (i, ok, figs) := f
  if !ok then modDab s p.unit fun d => { d with fibBad := bump 4 d.fibBad 1 }
  else
    let stamp := cifStamp fr (i / 3)
    let p : Place := { p with stamp := stamp, pos := cifPos stamp ((base + i / 3) % 5000) }
    let s := modDab s p.unit fun d => { d with fibOk := bump 4 d.fibOk 1 }
    figs.foldl (fun s fig =>
      useFig p fr.nextNull fig.use
        (emitAt p 0x40 i (dataPayload i (dataFlags (some true) false false) 0 fig.bytes) none s)) s

/-- An address of a packet-mode sub-channel is joined: FIG 0/3 or a slot names it (R292). -/
def addrNamed (s : State) (p : Place) (sub addr : Nat) : Bool :=
  (dabOf s p.unit).packets.any (fun c => c.2.subch == sub && c.2.addr == addr) ||
    s.slots.slots.any fun e => slotNames e.2 p.lane sub && e.2.sub == addr

/-- One access unit: delivered, and counted good or bad. -/
def takeAu (p : Place) (k : Nat) (erased : Bool) (s : State) (x : Bool × List Byte) : State :=
  emitAt p 0x43 k (dataPayload k (dataFlags (some x.1) erased false) 0 x.2) none
    (modEng s 3 p.unit fun e => if x.1 then { e with auOk := bump 4 e.auOk 1 } else { e with auBad := bump 4 e.auBad 1 })

/-- A superframe: failed, delivered whole, or taken apart into its access units. -/
def takeSuperframe (p : Place) (k : Nat) (fire : Bool) (corrected : Nat) (erased : Bool) (bytes : List Byte)
    (units : List (Bool × List Byte)) (s : State) : State :=
  let failed := bump 4 (dabOf s p.unit).rsFailed 1
  if !fire then engineEvent p 0x06 k 5 failed (modDab s p.unit fun d => { d with rsFailed := failed })
  else
    let t := modDab s p.unit fun d =>
      { d with superframesOk := bump 4 d.superframesOk 1, rsCorrected := bump 4 d.rsCorrected corrected }
    if dabWhole (laneOf s p.lane).cur then emitAt p 0x44 k (dataPayload k (dataFlags (some true) erased true) 0 bytes) none t
    else units.foldl (takeAu p k erased) t

/-- A data group is dropped (R292). -/
def groupDropped (p : Place) (k : Nat) (s : State) : State :=
  let n := bump 4 (dabOf s p.unit).eng.unitsDropped 1
  lossEvent p 0x05 k n (modEng s 3 p.unit fun e => { e with unitsDropped := n })

/-- What a good packet does to the groups: one dropped, one completed. -/
def takeJoined (p : Place) (k addr : Nat) (groupCrc : Option Bool) (off len : Nat) (j : Joined) (s : State) : State :=
  let s := modEng s 3 p.unit fun e => { e with assembly := j.units }
  let s := if j.dropped then groupDropped p k s else s
  match j.done with
  | none => s
  | some (erased, bytes) =>
    emitAt p 0x45 k (dataPayload k (dataFlags groupCrc erased false) addr bytes) (some (off, len))
      (modEng s 3 p.unit fun e => { e with unitsOk := bump 4 e.unitsOk 1 })

/-- One part of a sub-channel completed in a CIF (R291, R292). -/
def takeSub (lane u : Nat) (s : State) (part : Nat × Nat × SubPart) : State :=
  let p : Place := { lane := lane, kind := 3, unit := u, pos := cifPos part.2.1 part.1, stamp := part.2.1 }
  let d := dabOf s u
  match part.2.2 with
  | .stream k erased bytes =>
    if decodesAt (tabGet {} d.subch k) p.stamp then emitAt p 0x42 k (dataPayload k (dataFlags none erased false) 0 bytes) none s else s
  | .superframe k fire corrected erased bytes units =>
    if decodesAt (tabGet {} d.subch k) p.stamp then takeSuperframe p k fire corrected erased bytes units s else s
  | .packet k addr first last ci ok erased bytes groupCrc off len =>
    if !decodesAt (tabGet {} d.subch k) p.stamp then s
    else if !ok then modEng s 3 u fun e => { e with packetsBad := bump 4 e.packetsBad 1 }
    else
      let t := modEng s 3 u fun e => { e with packetsOk := bump 4 e.packetsOk 1 }
      let j := joinPacket 4 8 k addr first last ci erased bytes d.eng.assembly
      if !addrNamed t p k addr then t else takeJoined p k addr groupCrc off len j t

/-- The end of a frame in state FIC or RUN: acquired with 4 good FIBs, or one more failed frame (R280, R286, R287). -/
def settleDabFrame (p : Place) (good : Nat) (fr : DabFrame) (s : State) : State :=
  let e := (dabOf s p.unit).eng
  if e.state = 3 then
    if 4 ≤ good then engineEvent p 0x01 256 0 0 (modEng s 3 p.unit fun e => { e with state := 4, fails := 0 }) else s
  else if good = 0 || !fr.prsOk then
    if fr.allErased then s
    else if e.fails + 1 < syncLoss (laneOf s p.lane).cur then modEng s 3 p.unit fun e => { e with fails := e.fails + 1 }
    else syncLost p s
  else modEng s 3 p.unit fun e => { e with fails := 0 }

/-- One CIF of a frame: a change of organisation that names it takes effect (R296), its three FIBs are taken, and, once the engine is in RUN, the parts
of sub-channels completed in it. -/
def takeCif (p : Place) (frame : DabFrame) (base : Nat) (run : Bool) (s : State) (k : Nat) : State :=
  let d := dabOf s p.unit
  let count := (base + k) % 5000
  let here : Place := { p with stamp := cifStamp frame k, pos := cifPos (cifStamp frame k) count }
  let s := if d.change != 0 && count % 250 == d.occ then applyOrganisation here s else s
  let fibs := (((List.range 12).zip frame.fibs).drop (3 * k)).take 3
  let s := fibs.foldl (takeFib p frame base) s
  if run then (frame.parts.filter fun part => part.1 == count).foldl (takeSub p.lane p.unit) s else s

/-- A part of a sub-channel decoded over an erasure. -/
def subErased : SubPart → SubPart
  | .stream subch _ bytes => .stream subch true bytes
  | .superframe subch fire corrected _ bytes units => .superframe subch fire corrected true bytes units
  | .packet subch addr first last ci ok _ bytes crc off len => .packet subch addr first last ci ok true bytes crc off len

/-- The frame as the engine takes it from its lane's blocks (R23, R275). -/
def dabTaken (x : Lane) (fr : DabFrame) : DabFrame :=
  let end_ := fr.stamp + frameCounts 5
  if erasedWhole x fr.stamp end_ then
    { fr with allErased := true, prsOk := false, fibs := fr.fibs.map fun _ => (false, []),
              parts := fr.parts.map fun part => (part.1, part.2.1, subErased part.2.2) }
  else if erasedIn x fr.stamp end_ then fr
  else { fr with allErased := false }

/-- DAB_FRAME: a frame of an engine in FIC or RUN. -/
def execDabFrame (lane : Nat) (received : DabFrame) (s : State) : Host.Outcome State Fault Refusal :=
  let x := (laneOf s lane).cur
  let u := x.engIndex
  let d := dabOf s u
  let frame := dabTaken (laneOf s lane) received
  if laneTakes s lane && x.engKind == 3 && 3 ≤ d.eng.state then
    let base := frameCif d frame
    let good := (frame.fibs.filter (·.1)).length
    let p : Place := { lane := lane, kind := 3, unit := u, pos := cifPos frame.stamp base, stamp := frame.stamp }
    let s := modEng (modDab s u fun d => { d with cif := base }) 3 u fun e =>
      { frameEstimates frame.erasedCells frame.mer frame.residual frame.allErased e with frameStamp := some frame.stamp }
    let s := forAll (List.range 4) (takeCif p frame base (d.eng.state == 4)) (reportResidual p s)
    .next (unitEnd lane (frame.fibs.length == 12 && good == 12) (0 < frame.erasedCells)
      (checkDrift p (driftLimit 5) (settleDabFrame p good frame s)))
  else .next s

end Sys2Proof.Machine
end

