-- ==== Sys2Proof/Machine/AudioOps.lean ====
section
/-!
DEFINITION. A serial audio port's configuration and divider (R395 to R404), the microphone groups it takes, its capture pool (R412), and how
a port stops (R411, R418 to R420).
-/
namespace Sys2Proof.Machine

/-- The CPLL's VCO, Hz (R145). -/
def vcoHz : Nat := 3932160000

/-- Audio instants are told in 1/16 VCO periods, the size of a phase step (R148), in which a count, a second, and every sample period and PDM clock
period are whole. -/
def unitsPerSecond : Nat := 16 * vcoHz

def unitsPerCount : Nat := 3750

/-- The instants that belong to a count and those before it end here. -/
def unitsNow (s : State) : Nat := s.clocks.sc * unitsPerCount + (unitsPerCount - 1)

/-! The configuration -/

/-- SLOTS and OFFSET in force: those of the named formats, or the host's (Table 18-1). -/
def effSlots (c : SapCfg) : Nat := if c.format = 0 then c.slots else 2

def effOffset (c : SapCfg) : Nat :=
  match c.format with
  | 0 => c.offset
  | 1 => 1
  | _ => 0

/-- Bit clocks of a slot. -/
def slotBits (c : SapCfg) : Nat :=
  match c.width with
  | 0 => 16
  | 1 => 20
  | 2 => 24
  | _ => 32

def frameBits (c : SapCfg) : Nat := effSlots c * slotBits c

/-- The slot map entries of the slots that are sent, SD0 first, each with its block offset. -/
def usedEntries (c : SapCfg) : List (Nat × Nat) :=
  (List.range (effSlots c)).map (fun k => (0x020 + 2 * k, tabGet 0 c.map0 k)) ++
    (if c.sd1En then (List.range (effSlots c)).map (fun k => (0x060 + 2 * k, tabGet 0 c.map1 k)) else [])

/-- A slot map entry is in range (Table 18-2). -/
def entryOk (e : Nat) : Bool :=
  match e / 4096 with
  | 0 => bits e 11 8 == 0
  | 1 => bits e 11 8 ≤ 2 && e % 256 < 64
  | 2 => bits e 11 8 == 0 && e % 256 < 8
  | _ => false

/-- The lanes that a slot map names. -/
def mapLanes (c : SapCfg) : List Nat := ((usedEntries c).filter fun e => e.2 / 4096 == 1).map fun e => e.2 % 256

/-- The microphones that a slot map takes. -/
def mapMics (c : SapCfg) : List Nat := ((usedEntries c).filter fun e => e.2 / 4096 == 2).map fun e => e.2 % 256

/-- The slot map takes a microphone of a group: 0 A (M0 to M3), 1 B (M4 to M7). -/
def takesGroup (c : SapCfg) (g : Nat) : Bool := (mapMics c).any fun m => m / 4 == g

/-- A port that is not stopped. -/
def sapRuns (x : Sap) : Bool := x.state != .stopped

def anySapRuns (s : State) : Bool := sapRuns (sapOf s 0) || sapRuns (sapOf s 1)

/-- Some running port takes a microphone of a group. -/
def groupTaken (s : State) (g : Nat) : Bool := [0, 1].any fun p => sapRuns (sapOf s p) && takesGroup (sapOf s p).used g

/-! Dividers -/

/-- The divider of the CPLL output that a port divides (R397). -/
def sapCkDiv (s : State) (port : Nat) : Nat := if port = 0 then s.clocks.ck4.div else s.clocks.ck5.div

/-- D in steps of 2^-24, rounded half up (R397). -/
def sapDivider (ckDiv : Nat) (c : SapCfg) : Nat :=
  let den := ckDiv * c.rateHz * frameBits c
  (2 * vcoHz * 2 ^ 24 + den) / (2 * den)

/-- FS_ERR in 0.01 ppb, saturating. -/
def sapFsErr (ckDiv d : Nat) (c : SapCfg) : Int :=
  let den := d * (ckDiv * c.rateHz * frameBits c)
  let num : Int := ((vcoHz * 2 ^ 24 : Nat) - (den : Nat) : Int) * (10 ^ 11 : Nat)
  satInt 2 ((2 * num + (den : Int)) / (2 * (den : Int)))

/-- Rate and DEC of a microphone rate code (Table 18-3). -/
def micRate : Nat → Nat × Nat
  | 0 => (8000, 128)
  | 1 => (16000, 64)
  | 2 => (32000, 64)
  | _ => (48000, 64)

/-- PDM_DIV of a rate code from CK6: none when it is no integer or its clock leaves 0.768 to 3.2 MHz (R404). -/
def pdmDiv (ck6Div code : Nat) : Option Nat :=
  let clock := (micRate code).1 * (micRate code).2
  if vcoHz % (ck6Div * clock) = 0 && 768000 ≤ clock && clock ≤ 3200000 then some (vcoHz / (ck6Div * clock)) else none

/-- The rate code of a group: as the host wrote it, and in force. -/
def setRate (p : Pdm) (g : Nat) : Nat := if g = 0 then p.rateA else p.rateB

def usedRate (p : Pdm) (g : Nat) : Nat := if g = 0 then p.usedRateA else p.usedRateB

/-! The capture pool (R412) -/

/-- Slots captured in a frame. -/
def captured (c : SapCfg) : Nat :=
  let n := effSlots c
  let marks (mask : Nat) : Nat := ((List.range n).filter (bit mask)).length
  marks c.capMask0 + (if c.sd1En then marks c.capMask1 else 0)

def sampleBytes (c : SapCfg) : Nat := if c.pack then 4 else 3

/-- BLOCK_BYTES of a block of `frames` frames. -/
def blockBytes (c : SapCfg) (frames : Nat) : Nat := (32 + frames * captured c * sampleBytes c + 7) / 8 * 8

def poolBlocks (c : SapCfg) : Nat := min 255 (98304 / blockBytes c c.framesPerBlock)

def poolBase (port : Nat) : Nat := if port = 0 then 0x1C0000 else 0x1D8000

/-- Blocks queued. -/
def capQueued (x : Sap) : Nat := (x.capProd + 65536 - x.capCons) % 65536

/-! Stopping -/

/-- Clocks of the microphone groups that no running port takes stop (R404). -/
def stopPdm (s : State) : State :=
  let a := groupTaken s 0
  let b := groupTaken s 1
  { s with pdm := { s.pdm with clkA := s.pdm.clkA && a, clkB := s.pdm.clkB && b,
                               settlingA := if a then s.pdm.settlingA else none, settlingB := if b then s.pdm.settlingB else none } }

/-- Counts of a time in milliseconds, to the count above. -/
def millisCounts (ms : Nat) : Nat := (ms * countsPerSecond + 999) / 1000

/-- The microphones of a group start afresh with their clock. -/
def clearMics (g : Nat) (p : Pdm) : Pdm := { p with mics := [0, 1, 2, 3].foldl (fun t m => tabDel t (4 * g + m)) p.mics }

/-- Clocks of the microphone groups that a running port takes start, settling (R404). The instant of the first edge within the present count is
a free value (DESIGN CHOICE, notes/assumptions/100.md). -/
def startPdm (s : State) : State :=
  let until_ := s.clocks.sc + millisCounts s.pdm.usedSettleMs
  let a := groupTaken s 0 && !s.pdm.clkA
  let b := groupTaken s 1 && !s.pdm.clkB
  let (k, s) := draw unitsPerCount s
  let at_ := s.clocks.sc * unitsPerCount + k
  let p := s.pdm
  let p := if a then { clearMics 0 p with clkA := true, startA := at_, settlingA := some until_ } else p
  let p := if b then { clearMics 1 p with clkB := true, startB := at_, settlingB := some until_ } else p
  { s with pdm := p }

/-- A port's clocks stop and its pins go low; frames that no block holds yet are gone. -/
def stopPort (port : Nat) (s : State) : State :=
  stopPdm (modSap s port fun x => { x with state := .stopped, sent := [], frames := [], stretches := [], swaps := [], fall := none })

/-- Every port stops at once, without a ramp. -/
def stopPorts (s : State) : State := stopPort 1 (stopPort 0 s)

/-- SAP1 takes SAP0's frame timing (R418). -/
def sharesFs (s : State) : Bool := (sapOf s 1).used.shareFs

/-- A CPLL FAULT: each running port stops at once with CLOCK_FAULT and AUDIO_EVENT (R420). -/
def portsClockFault (s : State) : State :=
  let fault (s : State) (port : Nat) : State :=
    if sapRuns (sapOf s port) then raise .audioEvent (modSap (stopPort port s) port fun x => { x with clockFault := true }) else s
  forAll [0, 1] fault s

/-- AOUT goes to high impedance at once (Table 6-7). -/
def aoutOff (s : State) : State := { s with pdm := { s.pdm with aout := .highZ } }

/-- On leaving PLAY, AOUT falls to 0 V over 20 ms (R419). -/
def aoutFall (s : State) : State :=
  if s.pdm.aout = .highZ then s else { s with pdm := { s.pdm with aout := .falling (s.clocks.sc + millisCounts 20) } }

end Sys2Proof.Machine
end

