-- ==== Sys2Proof/Machine/Frames.lean ====
section
/-!
DEFINITION. A port's frames: when each begins (R397, R398, R405), which source and gain each slot has in it (R396, R402, R408 to R411), and the
words it sends (R400, R403, R406, R416).
-/
namespace Sys2Proof.Machine

/-! Frame timing -/

/-- What times a port's frames: the first FS edge and its frame, the divider and its accumulator, the CK divider, the bit clocks of a frame, and
the phase steps applied since. -/
structure FrameClock where
  start : Nat
  first : Nat
  acc : Nat
  /-- D × 2^24. -/
  div : Nat
  ckDiv : Nat
  bits : Nat
  moved : List (Nat × Int)
  deriving DecidableEq, Repr

/-- The port whose divider times a port: SAP0 while SAP1 shares its frame clock (R418). -/
def timingPort (s : State) (port : Nat) : Nat := if port = 1 && sharesFs s then 0 else port

def frameClock (s : State) (port : Nat) : FrameClock :=
  let p := timingPort s port
  let x := sapOf s p
  { start := x.firstEdge, first := x.firstFrame, acc := x.bclkAcc, div := x.divInt * 2 ^ 24 + x.divFrac, ckDiv := sapCkDiv s p,
    bits := frameBits x.used, moved := x.moved }

/-- The phase steps that have moved a frame's edges (R420). -/
def FrameClock.shift (c : FrameClock) (f : Nat) : Int := ((c.moved.filter fun m => m.1 ≤ f).map (·.2)).sum

/-- The instant of the edge that begins bit clock `k` since the first FS edge: the whole CK periods in k D and what the accumulator held (R398). -/
def FrameClock.bitEdge (c : FrameClock) (k : Nat) : Int :=
  (c.start + 16 * c.ckDiv * ((k * c.div + c.acc) / 2 ^ 24) : Nat) + c.shift (c.first + k / c.bits)

/-- The instant of a frame's FS leading edge. -/
def FrameClock.edge (c : FrameClock) (f : Nat) : Int := c.bitEdge ((f - c.first) * c.bits)

/-- The number of the first frame whose FS edge comes at or after an instant. -/
def FrameClock.frameFrom (c : FrameClock) (t : Int) : Nat :=
  let guess := c.first + ((t - c.start - c.shift (c.first + 2 ^ 64)) * (2 ^ 24 : Int) / (16 * c.ckDiv * c.bits * c.div : Nat)).toNat
  match [guess - 2, guess - 1, guess, guess + 1, guess + 2].find? fun f => decide (c.first ≤ f && t ≤ c.edge f) with
  | some f => f
  | none => guess + 3

/-- The number of a running port's next frame: every frame whose FS edge has come is sent. -/
def nextFrame (s : State) (port : Nat) : Nat :=
  if sapRuns (sapOf s port) then max (sapOf s port).firstFrame ((frameClock s port).frameFrom (unitsNow s + 1)) else (sapOf s port).nextOut

/-- N, the frames of a ramp: round(fs × RAMP_MS / 1,000) (R408). -/
def rampFrames (s : State) (port : Nat) : Nat :=
  let c := frameClock s port
  let num := vcoHz * 2 ^ 24 * (sapOf s port).used.rampMs
  let den := c.ckDiv * c.div * c.bits * 1000
  (2 * num + den) / (2 * den)

/-- P in counts: round(PLAYOUT_MS × 2^24 / 1,000) (R405). -/
def playoutCounts (c : SapCfg) : Nat := (2 * (c.playoutMs * countsPerSecond) + 1000) / 2000

/-- The instant whose source values a frame carries (R405). -/
def frameInstant (s : State) (port f : Nat) : Int :=
  (frameClock s port).edge f - (playoutCounts (sapOf s port).used * unitsPerCount : Nat)

/-- The first frame that carries an instant or a later one. -/
def frameAt (s : State) (port : Nat) (t : Int) : Nat :=
  (frameClock s port).frameFrom (t + (playoutCounts (sapOf s port).used * unitsPerCount : Nat))

/-! Ramps (R408): gains in units of 2^-96 -/

def unity : Nat := 2 ^ 96

/-- π in those units. -/
def piWord : Nat := 248902613312231085230521944622

/-- The next `n` terms of cos x from its `i`-th on, with x² and that term, each to a unit. -/
def cosTerms (sq : Nat) : Nat → Nat → Int → Int
  | 0, _, _ => 0
  | n + 1, i, term => term + cosTerms sq n (i + 1) (-(term * sq / (2 ^ 96 * ((2 * i + 1) * (2 * i + 2)) : Nat)))

/-- (1 − cos(πk/N)) / 2 for 2k < N. Where the cosine is rational it is exact, and elsewhere good to its last units. -/
def lowRise (n k : Nat) : Nat :=
  let x := piWord * k / n
  if 3 * k = n then unity / 4 else ((unity - cosTerms (x * x / unity) 20 0 unity) / 2).toNat

/-- g(k) of a rise over N frames. -/
def rise (n k : Nat) : Nat :=
  if k = 0 then 0
  else if n ≤ k then unity
  else if 2 * k < n then lowRise n k
  else if 2 * k = n then unity / 2
  else unity - lowRise n (n - k)

/-- 1 − g(k) of a fall. -/
def fall (n k : Nat) : Nat := unity - rise n k

/-! Sources -/

/-- A slot map entry's source: TYPE and INDEX without CHAN (Table 18-2). -/
def sourceOf (entry : Nat) : Nat := entry / 4096 * 256 + entry % 256

/-- The entry that a slot had in the last map, before a SAP_CFG that the port is ramping over. -/
def mapEntry (c : SapCfg) (line k : Nat) : Nat := tabGet 0 (if line = 0 then c.map0 else c.map1) k

/-- The slots that a port sends, by data line. -/
def sentSlots (c : SapCfg) : List (Nat × Nat) :=
  (List.range (effSlots c)).map (fun k => (0, k)) ++ (if c.sd1En then (List.range (effSlots c)).map (fun k => (1, k)) else [])

/-- A port takes a source, in its map or in one that it is still leaving. -/
def takesSource (x : Sap) (src : Nat) : Bool :=
  (usedEntries x.used).any (fun e => sourceOf e.2 == src) || x.swaps.any fun w => sourceOf w.old == src

/-- A lane source is present (R402). -/
def audioPresent (s : State) (n : Nat) : Bool :=
  let x := laneOf s n
  x.hold == .host && x.cur.engKind == 1 && bit (engPar x.cur 12) 2

def audioOf (s : State) (n : Nat) : List AudioBlock := tabGet [] s.audio n

/-- Audio samples a second, and their period. -/
def audioRate : Nat := 48000

def audioPeriod : Nat := unitsPerSecond / audioRate

/-- The instant at which a lane's audio ends. -/
def audioEnd (s : State) (n : Nat) : Int :=
  match audioOf s n with
  | b :: _ => (b.start + b.samples.length * audioPeriod : Nat)
  | [] => 0

/-! Mute stretches (R409, R410) -/

/-- What a slot's gain is at a frame for one stretch: the fall reaches 0 at the first sample of the stretch and the rise starts at the first one after
it; a frame that was sent before the stretch was known keeps the gain it had, and the fall goes on from there along the same curve. -/
def stretchGain (s : State) (port n : Nat) (w : Stretch) (f : Nat) : Nat :=
  let a := frameAt s port w.start
  if f < w.known then unity
  else if f < a then fall n (f + n - a)
  else match w.stop with
    | none => 0
    | some t => if f ≤ frameAt s port t then 0 else rise n (f - frameAt s port t)

/-- A stretch continues an earlier one: they are one run of samples. STAMPs are whole counts, so ends and beginnings that lie two counts apart at
most are one. -/
def continues (old : Stretch) (src : Nat) (start : Int) : Bool :=
  old.source == src && match old.stop with
    | none => true
    | some t => start ≤ t + 2 * unitsPerCount

/-- A port learns of a stretch: it counts in MUTES unless it continues one, and in LATE_MUTES when its fall can no longer be whole. -/
def addStretch (src : Nat) (cause : MuteCause) (start : Int) (stop : Option Int) (s : State) (port : Nat) : State :=
  let x := sapOf s port
  if !(sapRuns x && takesSource x src) then s
  else
    let known := nextFrame s port
    let joined := x.stretches.any fun w => continues w src start
    let late := !joined && frameAt s port start < known + rampFrames s port
    modSap s port fun x => { x with
      stretches := x.stretches ++ [{ source := src, cause := cause, start := start, stop := stop, known := known }],
      mutes := bump 4 x.mutes (flagNat (!joined)), lateMutes := bump 4 x.lateMutes (flagNat late) }

/-- Both ports learn of a stretch. -/
def muteSource (src : Nat) (cause : MuteCause) (start : Int) (stop : Option Int) (s : State) : State :=
  forAll [0, 1] (addStretch src cause start stop) s

/-- A lane's audio has come again: the stretch that lasted till now ends where it begins. -/
def endStretches (src : Nat) (stop : Int) (s : State) : State :=
  let close (w : Stretch) : Stretch := if w.source == src && w.stop.isNone then { w with stop := some stop } else w
  forAll [0, 1] (fun s p => modSap s p fun x => { x with stretches := x.stretches.map close }) s

/-- A source whose absence a port must learn of: no stretch that still lasts covers it. -/
def newlyAbsent (s : State) (port n : Nat) : Bool :=
  !audioPresent s n && !(sapOf s port).stretches.any fun w => w.source == 256 + n && w.stop.isNone

/-- Each running port learns of the lanes that have become absent: the stretch begins where their audio ends. -/
def noteAbsent (s : State) : State :=
  forAll [0, 1] (fun s p =>
    if sapRuns (sapOf s p) then
      forAll ((mapLanes (sapOf s p).used).eraseDups.filter (newlyAbsent s p)) (fun s n => addStretch (256 + n) .absent (audioEnd s n) none s p) s
    else s) s

/-- A block of audio is muted: flagged BLANK, CAL, RETUNE or OVERRUN. -/
def mutedBlock (b : AudioBlock) : Bool := b.flags % 16 != 0

/-- What a port that takes up a lane source finds in its audio, oldest first: the stretches that are flagged, and those between blocks, where the source
was absent. -/
def pastStretches : Int → List AudioBlock → List (MuteCause × Int × Int)
  | _, [] => []
  | t, b :: bs =>
    let stop : Int := (b.start + b.samples.length * audioPeriod : Nat)
    (if t + 2 * unitsPerCount < b.start then [(.absent, t, (b.start : Int))] else []) ++
      (if mutedBlock b then [(.flagged, (b.start : Int), stop)] else []) ++ pastStretches stop bs

/-- A port takes up lane sources: it learns of their stretches that it has still to send. -/
def takeUp (port : Nat) (ns : List Nat) (s : State) : State :=
  let from_ := frameInstant s port (nextFrame s port)
  forAll ns (fun s n =>
    forAll ((pastStretches 0 (audioOf s n).reverse).filter fun e => from_ < e.2.2) (fun s e => addStretch (256 + n) e.1 e.2.1 (some e.2.2) s port) s) s

/-! Gains -/

/-- A slot's source and the gain of its map's changes at a frame: each change falls from what the slot had, then the new source rises (R396). -/
def slotAt (n : Nat) (entry : Nat) : List Swap → Nat → Nat × Nat
  | [], _ => (entry, unity)
  | w :: ws, f =>
    if w.start + n ≤ f then (entry, rise n (f - (w.start + n)))
    else
      let (e, g) := slotAt n w.old ws (min f w.start)
      if f < w.start then (e, g) else (e, min g (fall n (f - w.start)))

/-- The rise of a microphone group after its settle time, 0 while that lasts (R404). -/
def settleGain (s : State) (port n g f : Nat) : Nat :=
  let (settling, settled) := if g = 0 then (s.pdm.settlingA, s.pdm.settledA) else (s.pdm.settlingB, s.pdm.settledB)
  let b := (frameClock s port).frameFrom ((settled + 1) * unitsPerCount : Nat)
  if settling.isSome || f < b then 0 else rise n (f - b)

/-- The entry and gain of a slot at a frame, without a stop fall: the lowest of the gains of the ramps that cover it (R408). -/
def openGain (s : State) (port n line k f : Nat) : Nat × Nat :=
  let x := sapOf s port
  let (e, g) := slotAt n (mapEntry x.used line k) (x.swaps.filter fun w => w.line == line && w.slot == k) f
  let mic := if e / 4096 = 2 then settleGain s port n (e % 256 / 4) f else unity
  let muted := (x.stretches.filter fun w => w.source == sourceOf e).map fun w => stretchGain s port n w f
  (e, muted.foldl min (min (min g mic) (rise n (f - x.firstFrame))))

/-- The entry and gain of a slot at a frame. A stop falls from the gain reached: what was rising rises no further (R411 and the Edge of a mode
change during a start ramp; DEDUCED, notes/assumptions/101.md). -/
def slotGain (s : State) (port line k f : Nat) : Nat × Nat :=
  let n := rampFrames s port
  let (e, g) := openGain s port n line k f
  match (sapOf s port).fall with
  | some q => if q ≤ f then (e, min (min g (openGain s port n line k q).2) (fall n (f - q))) else (e, g)
  | none => (e, g)

/-! Sample values -/

/-- The nearest whole number to num / den; at a tie the one below or above by a free value, since the spec states none (DESIGN CHOICE,
notes/assumptions/102.md). -/
def nearest (num : Int) (den : Nat) : Int :=
  let q := num / (den : Int)
  let r := 2 * (num % (den : Int))
  if r < den then q else if (den : Int) < r then q + 1 else q + (flagNat (Config.roundsUp 9 num den) : Nat)

/-- What a slot sends of the exact value num / den of full scale 2^23: in 16 and 20 bits the nearest word, saturated; in 24 and 32 bits, for which the
spec states no rounding, a 24-bit word below or above by a free value (R400; DESIGN CHOICE, notes/assumptions/102.md). -/
def slotWord (c : SapCfg) (num : Int) (den : Nat) : Int :=
  let w := slotBits c
  if w < 24 then clampInt (-((2 ^ (w - 1) : Nat) : Int)) ((2 ^ (w - 1) : Nat) - 1) (nearest num (den * 2 ^ (24 - w)))
  else narrow 8 24 num den

/-- The value at an instant of a source's samples: the interpolator over those in its reach (R406). -/
def interpolate (s : State) (port period : Nat) (points : List (Int × Int)) (t : Int) (scale : Nat) : Int :=
  let c := frameClock s port
  let near := points.filter fun p => decide ((t - p.1).natAbs < Config.interpSpan)
  let sum := (near.map fun p => Config.interpTap period (vcoHz * 2 ^ 24) (c.ckDiv * c.div * c.bits) (t - p.1) * p.2).sum
  narrow 7 24 sum (scale * 2 ^ Config.tapFrac)

/-- A lane's audio samples in a channel with their instants, at twice their value (Table 18-2). -/
def lanePoints (s : State) (n chan : Nat) : List (Int × Int) :=
  let value (v : Int × Int) : Int := match chan with
    | 0 => 2 * v.1
    | 1 => 2 * v.2
    | _ => v.1 + v.2
  ((audioOf s n).map fun b => b.samples.zipIdx.map fun v => (((b.start + v.2 * audioPeriod : Nat) : Int), value v.1)).flatten

/-- Microphone sample period in 1/16 VCO periods. -/
def micPeriod (code : Nat) : Nat := unitsPerSecond / (micRate code).1

/-- The value of a slot's source at an instant. -/
def sourceValue (s : State) (port entry : Nat) (t : Int) : Int :=
  match entry / 4096 with
  | 1 => interpolate s port audioPeriod (lanePoints s (entry % 256) (bits entry 11 8)) t 2
  | 2 => interpolate s port (micPeriod (usedRate s.pdm (entry % 256 / 4))) (tabGet {} s.pdm.mics (entry % 256)).recent t 1
  | _ => 0

/-! Sending -/

/-- The word of a slot in a frame: its source's value at the frame's instant times its gain (R405, R408). -/
def slotSends (s : State) (port f : Nat) (slot : Nat × Nat) : Int :=
  let (e, g) := slotGain s port slot.1 slot.2 f
  if e / 4096 = 0 then 0 else slotWord (sapOf s port).used (sourceValue s port e (frameInstant s port f) * g) unity

/-- A frame lies in a stretch of a cause. -/
def inStretch (s : State) (port f : Nat) (cause : MuteCause) : Bool :=
  (sapOf s port).stretches.any fun w => w.cause == cause && takesSource (sapOf s port) w.source && frameAt s port w.start ≤ f &&
    match w.stop with
    | none => true
    | some t => f < frameAt s port t

/-- The frame as the port sends it. -/
def frameSent (s : State) (port f : Nat) : SentFrame :=
  let x := sapOf s port
  let slots := sentSlots x.used
  let gains := slots.map fun k => slotGain s port k.1 k.2 f
  let words (line : Nat) : List Int := (slots.filter fun k => k.1 == line).map (slotSends s port f)
  let settles (g : Nat) : Bool := (if g = 0 then s.pdm.settlingA else s.pdm.settlingB).isSome && takesGroup x.used g
  { words0 := words 0, words1 := words 1, muted := gains.any fun e => e.1 / 4096 != 0 && e.2 != unity, settling := settles 0 || settles 1,
    lost := inStretch s port f .lost, zero := false }

/-- A stretch or a change of the map matters to no later frame. -/
def stretchOver (s : State) (port f : Nat) (w : Stretch) : Bool :=
  match w.stop with
  | none => false
  | some t => frameAt s port t + 2 * rampFrames s port < f

/-- A port sends a frame. A port with both masks 0 keeps none for capture (R412). -/
def sendFrame (port : Nat) (s : State) (f : Nat) : State :=
  let fr := frameSent s port f
  let absent := inStretch s port f .absent
  let n := rampFrames s port
  modSap s port fun x => { x with
    nextOut := f + 1, sent := (fr :: x.sent).take 4, frames := if captured x.used = 0 then [] else x.frames ++ [fr],
    sourceAbsentFrames := bump 4 x.sourceAbsentFrames (flagNat absent),
    stretches := x.stretches.filter fun w => !stretchOver s port f w, swaps := x.swaps.filter fun w => f < w.start + 2 * n + 1 }

/-- The last frame of a port that stops: that in which its fall reaches 0 (R411), or SAP0's where SAP1 stops with it (R418). -/
def lastFrame (s : State) (port : Nat) : Option Nat :=
  match (sapOf s port).fall, (sapOf s 0).fall with
  | some q, some q0 => some (if port = 1 && sharesFs s && q0 ≤ q then q0 + rampFrames s 0 else q + rampFrames s port)
  | some q, none => some (q + rampFrames s port)
  | none, _ => none

/-- A port sends the frames whose FS edges have come. -/
def sendFrames (s : State) (port : Nat) : State :=
  let x := sapOf s port
  if !sapRuns x then s
  else
    let next := nextFrame s port
    let stop := match lastFrame s port with
      | some f => min next (f + 1)
      | none => next
    forAll ((List.range (stop - x.nextOut)).map (x.nextOut + ·)) (sendFrame port) s

/-! Microphones (R403, R404) -/

/-- What clocks a microphone's group: the first edge, the clock period and DEC. -/
def micClock (s : State) (g : Nat) : Nat × Nat × Nat :=
  let p := s.pdm
  (if g = 0 then p.startA else p.startB, (if g = 0 then p.divA else p.divB) * s.clocks.ck6.div * 16, (micRate (usedRate p g)).2)

/-- The instant at which bit `i` of a microphone is latched: the even-numbered one at the rising edges, the odd-numbered one at the falling ones. -/
def latchAt (s : State) (m i : Nat) : Nat :=
  let (start, period, _) := micClock s (m / 4)
  start + i * period + (if m % 2 = 0 then 0 else period / 2)

/-- The value of a PDM density of `ones` bits in `dec`: (2d − 1) × 2^23, saturating at 2^23 − 1. -/
def densityValue (ones dec : Nat) : Int := min (2 ^ 23 - 1) ((2 * (ones : Int) - dec) * 2 ^ 23 / dec)

/-- The value of sample `j` of a microphone, of its own run of DEC bits. -/
def micValue (s : State) (m j : Nat) : Int :=
  let dec := (micClock s (m / 4)).2.2
  densityValue ((List.range dec).filter fun i => Config.pdmPin (m / 2) (latchAt s m (j * dec + i))).length dec

/-- The instant that sample `j` stands for: the middle of its run, which the decimator's delay leads back to (R405). -/
def micInstant (s : State) (m j : Nat) : Int :=
  let (_, period, dec) := micClock s (m / 4)
  ((latchAt s m (j * dec) + (dec - 1) * period / 2 : Nat) : Int)

/-- A microphone takes its next sample: 0 while its group settles, DC removed where the group's HPF is 1. -/
def micStep (s : State) (m : Nat) (x : Mic) : Mic :=
  let g := m / 4
  let hpf := if g = 0 then s.pdm.usedHpfA else s.pdm.usedHpfB
  let v := if (if g = 0 then s.pdm.settlingA else s.pdm.settlingB).isSome then 0 else micValue s m x.next
  let out := if hpf then Config.highPass (micRate (usedRate s.pdm g)).1 x.lastOut x.lastIn v else v
  let t := micInstant s m x.next
  { next := x.next + 1, lastIn := v, lastOut := out, recent := (t, out) :: x.recent.filter fun p => t ≤ p.1 + unitsPerSecond }

/-- The samples that a microphone has completed by now. -/
def micDue (s : State) (m : Nat) : Nat :=
  let (_, period, dec) := micClock s (m / 4)
  if period * dec = 0 then 0 else (unitsNow s + period - latchAt s m 0) / (period * dec)

/-- Every microphone whose clock runs takes the samples that have come. -/
def takeMics (s : State) : State :=
  let step (s : State) (m : Nat) : State :=
    let x := tabGet {} s.pdm.mics m
    { s with pdm := { s.pdm with mics := tabSet s.pdm.mics m ((List.range (micDue s m - x.next)).foldl (fun x _ => micStep s m x) x) } }
  forAll (((if s.pdm.clkA then [0, 1, 2, 3] else []) ++ (if s.pdm.clkB then [4, 5, 6, 7] else []))) step s

/-! AOUT (R419) -/

/-- What AOUT carries of a channel: mid-scale silence, or its SD0 slot's last word under the ramp that brings the audio in. -/
def aoutValue (s : State) (right : Bool) : Int :=
  let x := sapOf s 0
  match s.pdm.aout, x.sent with
  | .on f, w :: _ =>
    let v := w.words0.getD (if right then x.used.aoutSrcR else x.used.aoutSrcL) 0
    if x.used.aoutEn then nearest (v * (2 ^ (24 - min 24 (slotBits x.used)) : Int) * rise (rampFrames s 0) (x.nextOut - 1 - f)) unity else 0
  | _, _ => 0

/-- AOUT's rise or fall is over. -/
def moveAout (s : State) : State :=
  match s.pdm.aout with
  | .rising t => if t ≤ s.clocks.sc then { s with pdm := { s.pdm with aout := .on (nextFrame s 0) } } else s
  | .falling t => if t ≤ s.clocks.sc then aoutOff s else s
  | _ => s

/-! Stopping -/

/-- A port begins its stop ramp at its next frame; SAP1 with it while it shares SAP0's frame clock (R411, R418). -/
def rampDown (port : Nat) (s : State) : State :=
  let start (s : State) (p : Nat) : State :=
    let x := sapOf s p
    if x.state = .stopped || x.state = .stopping then s else setSap s p { x with state := .stopping, fall := some (nextFrame s p) }
  let s := start s port
  if port = 0 && sharesFs s then start s 1 else s

end Sys2Proof.Machine
end

