-- ==== Sys2Proof/Machine/Detect.lean ====
section
/-!
DEFINITION. The audio of an analogue unit: AM and FM detection, stereo, the audio low-pass and the 48 kHz blocks (R247 to R249).
-/
namespace Sys2Proof.Machine

/-- −6 dB as a fraction of full scale: 10^(−6/20). -/
def minusSix : Nat × Nat := (501187233627272285, 10 ^ 18)

/-- Full modulation in the detector's output. -/
def fullDepth : Nat := 2 ^ 30

/-- The output rate of a lane's setting, and its sample period in 1/16 VCO periods. -/
def outRate (p : Nat) (x : LaneSet) : Nat := ((laneRate p x.rate).map (·.1)).getD 1

/-- AM_BW in Hz (Table 11-1). -/
def amBandwidth (code : Nat) : Nat :=
  match code with
  | 0 => 2500
  | 1 => 4000
  | 2 => 6000
  | _ => 9000

/-- The audio bandwidth in force in Hz: in AM modes AM_BW, limited to the passband edge (R247); in FM modes the spec names none, and the low-pass is
that of its taps alone. -/
def audioBandwidth (p : Nat) (x : LaneSet) : Nat :=
  if engPar x 10 < 3 then min (amBandwidth (bits (engPar x 11) 1 0)) (presetEdge x.preset * outRate p x / 100) else 0

/-- The envelope, from the carrier's level, in parts of it (R247). -/
def envelopeDepth (past : List (Int × Int)) (x : Int × Int) : Int :=
  let c := Config.carrierLevel (x :: past)
  narrow 10 32 (((wholeRoot (power x) : Int) - c) * fullDepth) c

/-- The output of the carrier loop: the part of the sample in the carrier's phase (R247). -/
def loopDepth (past : List (Int × Int)) (x : Int × Int) : Int :=
  let c := Config.carrierLevel (x :: past)
  let θ := Config.carrierPhase (x :: past)
  narrow 10 32 ((x.1 * (Config.ncoCos θ).toInt + x.2 * (Config.ncoSin θ).toInt - (c * 2 ^ 17 : Nat)) * fullDepth) (c * 2 ^ 17)

/-- The deviation, in parts of the full deviation of FM_BAND (R248). -/
def deviationDepth (hz fullHz : Nat) (past : List (Int × Int)) (x : Int × Int) : Int :=
  let turn := (Config.angle x - Config.angle (past.headD x)).toInt
  narrow 10 32 (turn * hz * fullDepth) (2 ^ 32 * fullHz)

/-- The detector of a unit's MODE. In MODE 2 it is the envelope while the carrier loop is not locked. -/
def detect (p : Nat) (x : LaneSet) (locked : Bool) (past : List (Int × Int)) (v : Int × Int) : Int :=
  match engPar x 10 with
  | 1 => envelopeDepth past v
  | 2 => if locked then loopDepth past v else envelopeDepth past v
  | _ => deviationDepth (outRate p x) (if bit (engPar x 11) 6 then 50000 else 75000) past v

/-- The samples and the detector's output with a block's in front, newest first. -/
def detectRun (p : Nat) (x : LaneSet) (locked : Bool) : List (Int × Int) → List (Int × Int) → List Int → List (Int × Int) × List Int
  | [], past, out => (past, out)
  | v :: vs, past, out => detectRun p x locked vs (v :: past) (detect p x locked past v :: out)

/-- The detector's output moved down from 38 kHz, twice the pilot's phase: the stereo difference (R248). -/
def differenceRun : List Int → List Int
  | [] => []
  | v :: vs => narrow 12 32 (2 * v * (Config.ncoSin (2 * Config.pilotPhase (v :: vs))).toInt) (2 ^ 17) :: differenceRun vs

/-- The low-pass at an instant `t` after the newest of a detector's outputs, at the audio level: full modulation is −6 dBFS. -/
def lowPass (p : Nat) (x : LaneSet) (xs : List Int) (t : Int) : Int :=
  let period := unitsPerSecond / outRate p x
  let tap (i : Nat) : Int := Config.audioTap (outRate p x) (audioBandwidth p x) (bits (engPar x 11) 5 4) (t + (i * period : Nat))
  let sum := ((xs.take Config.audioSpan).zipIdx.map fun v => tap v.2 * v.1).sum
  narrow 11 24 (sum * (2 ^ 23 * minusSix.1 : Nat)) (fullDepth * minusSix.2 * 2 ^ Config.tapFrac)

/-- One audio sample: left and right, blended between mono and the stereo difference (R248). -/
def audioSample (p : Nat) (x : LaneSet) (blend : Nat) (sum diff : List Int) (t : Int) : Int × Int :=
  let m := lowPass p x sum t
  let d := lowPass p x diff t
  (narrow 13 24 (100 * m + blend * d) 100, narrow 13 24 (100 * m - blend * d) 100)

/-- A unit's audio from a lane block: its samples at 48 kHz over the block, and the unit after it. -/
def audioRun (p : Nat) (x : LaneSet) (samples : List (Int × Int)) (a : Analogue) : List (Int × Int) × Analogue :=
  let period := unitsPerSecond / outRate p x
  let span := samples.length * period
  let (heard, detected) := detectRun p x a.carrierLock samples (a.heard.take Config.audioSpan) (a.detected.take Config.audioSpan)
  let diff := if a.blend = 0 then [] else differenceRun detected
  let count := (span + audioPeriod - 1 - a.audioPos) / audioPeriod
  let at_ (j : Nat) : Int := ((a.audioPos + j * audioPeriod : Nat) : Int) - ((span - period : Nat) : Int)
  ((List.range count).map fun j => audioSample p x a.blend detected diff (at_ j),
   { a with heard := heard.take Config.audioSpan, detected := detected.take Config.audioSpan, audioPos := a.audioPos + count * audioPeriod - span })

/-- A lane's audio with one block more; what is older than a second before it is gone. -/
def keepAudio (b : AudioBlock) (bs : List AudioBlock) : List AudioBlock := b :: bs.filter fun o => b.start ≤ o.start + unitsPerSecond

/-- An analogue unit makes audio from a lane block and, with AUDIO_EN, offers it to the ports; a block flagged BLANK, CAL, RETUNE or OVERRUN is a
stretch that they mute (R249, R409). -/
def offerAudio (n : Nat) (r : BlockRec) (flags : Nat) (samples : List (Int × Int)) (s : State) : State :=
  let x := laneOf s n
  let u := x.cur.engIndex
  let start := r.stamp * unitsPerCount + (analogueOf s u).audioPos
  let (out, a) := audioRun x.path x.cur samples (analogueOf s u)
  let s := modAnalogue s u fun _ => a
  if !audioPresent s n then s
  else
    let b : AudioBlock := { stamp := r.stamp, gen := r.gen, flags := flags, start := start, samples := out }
    let s := endStretches (256 + n) start s
    let s := { s with audio := tabSet s.audio n (keepAudio b (audioOf s n)) }
    if mutedBlock b then muteSource (256 + n) .flagged start (some (audioEnd s n)) s else s

/-- A switch-over joins two chains of a lane: its audio is muted from the old one's end to the new one's beginning (R309). -/
def joinAudio (n : Nat) (s : State) : State :=
  if audioPresent s n then muteSource (256 + n) .joined (audioEnd s n) none s else s

end Sys2Proof.Machine
end

