-- ==== Sys2Proof/Machine/Lanes.lean ====
section
/-!
DEFINITION. The lane commands (R213 to R237), a completed lane block with its flags, detectors and threshold events (R223 to R243),
and what its engine takes from it.
-/
namespace Sys2Proof.Machine

/-- Lanes may be bound and set in LISTEN, FOLLOW, PLAY and SERVICE (R215). -/
def laneModes : List Nat := [3, 4, 5, 6]

/-- A lane that is not HOST: STATE with its LANE_STATE. -/
def needHost (s : State) (n : Nat) : Option Reply := needState ((laneOf s n).hold == .host) (holdCode (laneOf s n).hold)

/-! LANE_BIND (R213, R214) -/

/-- The host-bound lanes that run in LISTEN. -/
def listenRunning (s : State) : Nat := (runningHost s).length

def checkLaneBind (s : State) (c : Cmd) : Option Reply :=
  let x := laneOf s (cmdIdx c)
  let path := par c 8
  let unbind := path == 0xFF
  firstFail (needObject [1] c :: needHeader c ++
    [needField 8 (path < 2 || unbind), needField 9 (unbind || freqOk s path (parN c 9 4)),
     needField 13 (par c 13 < 8 && (unbind || (laneRate path (par c 13)).isSome))] ++ needZeros c 14 31 ++
    [needMode s laneModes,
     if unbind then needState (x.hold == .free || x.hold == .host) (holdCode x.hold)
     else needState (x.hold == .free || x.hold == .tasting) (holdCode x.hold),
     needLimit (unbind || modeNow s != 3 || listenRunning s < 8) 1])

/-- A lane is no longer held in LISTEN: it leaves HELD_MASK and the count LISTEN_HELD (R125, Table 6-14). -/
def releaseHeld (n : Nat) (s : State) : State :=
  let m := s.modes
  { s with modes := { m with heldMask := m.heldMask &&& ~~~(1#64 <<< n),
                             listenHeld := if m.heldMask.getLsbD n then m.listenHeld - 1 else m.listenHeld } }

/-- A lane's unbind takes effect: the entry that follows it loses its tastings, the lane becomes FREE. -/
def unbindNow (n : Nat) (s : State) : State := releaseHeld n (freeLane n (followBroken n s))

def runLaneBind (s : State) (c : Cmd) : State :=
  let n := cmdIdx c
  let x := laneOf s n
  if par c 8 = 0xFF then
    let s := if x.hold != .host then s
      else if delivering s n && !x.idle then modLane s n fun x => { x with unbind := true }
      else unbindNow n s
    complete c.seq 0x00 [] s
  else
    let s := endTasting 4 n s
    let s := releaseHeld n s
    let s := occupiedNow (bindLane n .host (par c 8) { freqHz := parN c 9 4, rate := par c 13 } s)
    complete c.seq 0x00 (leBytes 1 2 ++ leBytes (laneOf s n).ncoWord 4) s

def execLaneBind (seq : Nat) (s : State) : Host.Outcome State Fault Refusal :=
  .next (startCmd s seq 0x11 checkLaneBind runLaneBind)

/-! LANE_SET (R227, R228) -/

/-- Bit `k` of SET_MASK. -/
def setMask (c : Cmd) (k : Nat) : Bool := bit (parN c 8 2) k

/-- A setting with the selected fields of a LANE_SET (Table 10-8). -/
def setFields (c : Cmd) (x : LaneSet) : LaneSet :=
  let x := if setMask c 0 then { x with freqHz := parN c 10 4 } else x
  let x := if setMask c 1 then { x with rate := bits (par c 14) 2 0 } else x
  let x := if setMask c 2 then { x with preset := bits (par c 14) 5 4 } else x
  let x := if setMask c 3 then { x with blockLen := bits (par c 15) 2 0 } else x
  let x := if setMask c 4 then { x with lossRank := bits (par c 15) 6 4 } else x
  let x := if setMask c 7 then { x with syncPinEn := bit (par c 15) 7 } else x
  let x := if setMask c 5 then { x with detSrc := bits (par c 16) 1 0, attSh := bits (par c 17) 3 0, relSh := bits (par c 17) 7 4 } else x
  let x := if setMask c 6 then
      { x with thSrc := bits (par c 18) 2 0, thDwell := max 1 (bits (par c 18) 7 4), thHigh := parI c 19 2, thLow := parI c 21 2 }
    else x
  if setMask c 8 then { x with ncoPhase0 := parN c 23 2 } else x

/-- The engine that a setting has accepts its rate and preset (Table 10-11). -/
def settingAccepted (p : Nat) (x : LaneSet) : Bool := engineAccepts p x.engKind (engPar x 10) x.rate x.preset

/-- The checks of a LANE_SET. A lane that is not HOST has no path of its own: its FREQ_HZ and RATE are judged against path L, before STATE (DESIGN
CHOICE, notes/assumptions/93.md). -/
def checkLaneSet (s : State) (c : Cmd) : Option Reply :=
  let x := laneOf s (cmdIdx c)
  let sel (ks : List Nat) : Bool := ks.any (setMask c)
  firstFail (needObject [1] c :: needHeader c ++
    [needField 9 (par c 9 < 2), needField 10 (!sel [0] || freqOk s x.path (parN c 10 4)),
     needField 14 ((!sel [1] || (laneRate x.path (bits (par c 14) 2 0)).isSome) &&
       (!sel [1, 2] || (!bit (par c 14) 3 && par c 14 < 64))),
     needField 15 ((!sel [3] || bits (par c 15) 2 0 ≤ 4) && (!sel [3, 4, 7] || !bit (par c 15) 3)),
     needField 16 (!sel [5] || par c 16 < 3), needField 18 (!sel [6] || par c 18 % 16 ≤ 4),
     needField 21 (!sel [6] || parI c 21 2 ≤ parI c 19 2)] ++ needZeros c 25 31 ++
    [needMode s laneModes, needHost s (cmdIdx c), needState (settingAccepted x.path (setFields c (nextSet x))) 0x10])

def runLaneSet (s : State) (c : Cmd) : State :=
  let (s, g, merged) := pendSet (cmdIdx c) (setFields c) s
  complete c.seq 0x00 (leBytes g 2 ++ [lowByte (flagNat merged)]) s

def execLaneSet (seq : Nat) (s : State) : Host.Outcome State Fault Refusal :=
  .next (startCmd s seq 0x12 checkLaneSet runLaneSet)

/-! ENGINE_ATTACH (R232 to R234) -/

/-- The descriptor of a slot: factory ones from the cellar, slots 2 to 7 from the host (R269). -/
def lfDesc (s : State) (slot : Nat) : List Byte :=
  if slot < 2 then ((keyContent s.cellar (0xF030 + slot)).map (·.2)).getD [] else tabGet [] s.lfDescs slot

/-- The parameter checks of an analogue unit (Table 11-1); RDS fields are read only with RDS_EN in an FM mode. `path` is the lane's, none while
the host has not bound it. -/
def checkAnalogue (path : Option Nat) (c : Cmd) : List (Option Reply) :=
  let mode := par c 10
  let fm := 3 ≤ mode
  let rds := fm && bit (par c 12) 0
  [needField 10 (1 ≤ mode && mode ≤ 4 && (path.isNone || (if path = some 0 then !fm else fm))),
   needField 11 (par c 11 < 128 && bits (par c 11) 3 2 == 0 && !(fm && bits (par c 11) 5 4 == 3)),
   needField 12 (par c 12 < 16), needField 13 (mode != 4 || par c 13 < par c 14),
   needField 15 (par c 15 < 8 && (!rds || par c 15 ≤ 5)), needField 16 (!rds || (10 ≤ par c 16 && par c 16 ≤ 50)),
   needField 17 (par c 17 < 4 && (!rds || par c 17 ≤ 2))] ++ needZeros c 20 31

/-- SYNC_LOSS in range (Table 12-2). -/
def needSyncLoss (c : Cmd) : Option Reply := needField 12 (par c 12 == 0 || (2 ≤ par c 12 && par c 12 ≤ 16))

def checkDrm (path : Option Nat) (c : Cmd) : List (Option Reply) :=
  let named := if path = some 0 then par c 10 % 16 else par c 10 / 16
  [needField 10 (par c 10 < 32 && (path.isNone || par c 10 == 0 || named != 0)), needField 11 (par c 11 < 4), needSyncLoss c] ++ needZeros c 13 31

def checkDab (c : Cmd) : List (Option Reply) :=
  [needField 10 (par c 10 < 2), needField 11 (par c 11 < 2), needSyncLoss c] ++ needZeros c 13 31

def checkLf (s : State) (c : Cmd) : List (Option Reply) :=
  [needField 10 (par c 10 < 8 && lfDescOk (lfDesc s (par c 10))), needField 11 (1 ≤ par c 11 && par c 11 ≤ 4),
   needField 12 (4 ≤ par c 12 && par c 12 ≤ 20), needField 13 (par c 13 < 2)] ++ needZeros c 14 31

/-- ENGINE_PARAMS of a kind. -/
def checkParams (s : State) (path : Option Nat) (c : Cmd) : List (Option Reply) :=
  match par c 8 with
  | 1 => checkAnalogue path c
  | 2 => checkDrm path c
  | 3 => checkDab c
  | 4 => checkLf s c
  | _ => []

/-- The lowest-numbered engine of a kind that tasting holds. -/
def tastingEngine (s : State) (kind : Nat) : Option Nat :=
  (List.range (engineCount kind)).find? fun i => match engineHolder s kind i with
    | some (_, x) => x.hold == .tasting
    | none => false

/-- The engine an attach takes: the one named, or the lowest free one, or the lowest one that tasting holds. -/
def pickEngine (s : State) (kind index : Nat) : Option Nat :=
  if index = 0xFF then
    match freeEngine s kind with
    | some i => some i
    | none => tastingEngine s kind
  else some index

/-- Another host-bound lane holds an engine. -/
def engineTaken (s : State) (n kind idx : Nat) : Bool :=
  s.lanes.any fun e => e.1 != n && e.2.hold == .host && holdsEngine e.2 kind idx

/-- The lane's next setting with the engine of an attach. -/
def withEngine (c : Cmd) (idx : Nat) (x : LaneSet) : LaneSet :=
  if par c 8 = 0 then { x with engKind := 0, engIndex := 0, params := [] }
  else { x with engKind := par c 8, engIndex := idx, params := c.desc.drop 10 }

def checkEngineAttach (s : State) (c : Cmd) : Option Reply :=
  let n := cmdIdx c
  let x := laneOf s n
  let kind := par c 8
  let index := par c 9
  firstFail (needObject [1] c :: needHeader c ++
    [needField 8 (kind < 5), needField 9 (kind == 0 || index == 0xFF || index < engineCount kind)] ++
    checkParams s (if x.hold == .host then some x.path else none) c ++
    [needMode s laneModes, needHost s n, needState (settingAccepted x.path (withEngine c 0 (nextSet x))) 0x10,
     needLimit (kind == 0 || (pickEngine s kind index).isSome) 2,
     needIdle (kind == 0 || index == 0xFF || !engineTaken s n kind index) 1])

def runEngineAttach (s : State) (c : Cmd) : State :=
  let n := cmdIdx c
  let kind := par c 8
  let idx := if kind = 0 then 0 else (pickEngine s kind (par c 9)).getD 0
  let taken := match engineHolder s kind idx with
    | some (m, x) => if kind != 0 && x.hold == .tasting then some m else none
    | none => none
  let s := match taken with
    | some m => endTasting 4 m s
    | none => s
  let s := if kind = 4 then modLf s idx fun d => { d with nextCopy := lfDesc s (par c 10) } else s
  let (s, g, _) := pendSet n (withEngine c idx) s
  let s := modLane s n fun x => { x with pendEngine := true }
  complete c.seq 0x00 ([lowByte kind, lowByte idx, lowByte (flagNat taken.isSome), 0] ++ leBytes g 2) s

def execEngineAttach (seq : Nat) (s : State) : Host.Outcome State Fault Refusal :=
  .next (startCmd s seq 0x14 checkEngineAttach runEngineAttach)

/-! Blocks and their boundaries -/

/-- The causes that stand on a lane: bits 0 BLANK, 1 CAL, 2 RETUNE (Table 10-7). -/
def standing (s : State) (x : Lane) : Nat :=
  let fe := (pathOf s x.path).fe
  flagNat (s.link.txBlank || s.link.pinBlank) + 2 * flagNat (fe.state == .cal) +
    4 * flagNat ((fe.state != .run && fe.state != .cal) || !inWindow s x.path x.cur.freqHz)

/-- A cause that has ended reaches a block through the fine filter: its end lies no further before the ADC sample on which the block's first
output is computed than the filter's span, which is twice its group delay (R222, R225). -/
def reaches (x : Lane) (firstSc k : Nat) : Bool :=
  match x.causeEnd.find? fun e => e.1 == k with
  | some e => (firstSc - e.2) * adcRate x.path ≤ fineDelay2 x.path x.cur * countsPerSecond
  | none => false

/-- FLAGS of the block a lane completes (Table 10-7): the causes that stand, that touched it or that reach it, and SETTLING, SHORT, SYNC. -/
def blockFlags (s : State) (n firstSc : Nat) : Nat :=
  let x := laneOf s n
  let t := x.touched ||| standing s x
  let hit (k : Nat) : Bool := bit t k || reaches x firstSc k
  let blank := hit 0
  let cal := hit 1
  let retune := hit 2
  let missed := hit 3 || x.shed
  flagNat blank + 2 * flagNat cal + 4 * flagNat retune + 8 * flagNat missed + 16 * flagNat (0 < x.settling) + 64 * flagNat x.shortNext +
    128 * flagNat x.syncNext

/-- A block with these flags is zero-filled. -/
def zeroFilled (flags : Nat) : Bool := flags % 16 != 0

/-- The detectors take the coarse output (R239). -/
def takesCoarse (x : LaneSet) (flags : Nat) : Bool := x.detSrc == 2 || (x.detSrc == 0 && bit flags 4)

/-- The samples of a block as delivered: zeros in a zero-filled one (Table 10-7). -/
def delivered (flags : Nat) (xs : List (Int × Int)) : List (Int × Int) := if zeroFilled flags then xs.map fun _ => (0, 0) else xs

/-- The record of a block (R223, R238 to R240), and the envelope after it. A zero-filled block has no QUAL. -/
def blockRec (x : Lane) (flags firstSc : Nat) (outs : List OutSample) (s : State) : BlockRec × Nat × State :=
  let coarse := takesCoarse x.cur flags
  let xs := delivered flags (outs.map fun o => if coarse then o.coarse else o.fine)
  let env := envRun x.cur x.chain.env xs
  let (stamp, s) := blockStamp x.path x.cur firstSc s
  let (peak, s) := peakOf xs s
  let (rms, s) := rmsOf xs s
  let (level, s) := envOf env s
  let (qual, s) := if zeroFilled flags || coarse then (-32768, s) else qualOf x.cur.preset xs s
  ({ gen := x.gen, flags := flags + 32 * flagNat coarse, seq := x.seq, stamp := stamp, peak := peak, rms := rms, env := level, qual := qual,
     len := outs.length }, env, s)

/-- The value TH_SRC selects. -/
def thValue (src : Nat) (r : BlockRec) : Int :=
  match src with
  | 1 => r.peak
  | 2 => r.rms
  | 3 => r.env
  | _ => r.qual

/-- The threshold state after a block (R241, R242): state, dwell count, and the event raised (1 RISE, 2 FALL). -/
def stepThreshold (x : Lane) (flags : Nat) (r : BlockRec) : Bool × Nat × Option Nat :=
  let src := x.cur.thSrc
  let settles := bit flags 4
  if src = 0 || zeroFilled flags || (settles && (!bit r.flags 5 || src == 4)) then (x.thAbove, x.dwell, none)
  else
    let v := thValue src r
    let hit := if x.thAbove then v ≤ x.cur.thLow else x.cur.thHigh ≤ v
    if !hit then (x.thAbove, 0, none)
    else if x.dwell + 1 < x.cur.thDwell then (x.thAbove, x.dwell + 1, none)
    else (!x.thAbove, 0, some (if x.thAbove then 2 else 1))

/-- Table 10-12. -/
def eventBytes (n kind : Nat) (src : Nat) (r : BlockRec) : List Byte :=
  [lowByte n, lowByte kind] ++ leBytes r.gen 2 ++ leBytes r.seq 4 ++ leBytes (twos 2 (thValue src r)) 2 ++
    [lowByte src, lowByte (flagNat (bit r.flags 5))] ++ leBytes (r.stamp / 65536) 4

/-- STEREO after a block (R248): the pilot at 5 kHz or more for 100 ms, or below 3 kHz for 100 ms. -/
def stepStereo (x : LaneSet) (sc pilotHz : Nat) (a : Analogue) : Analogue :=
  let held (since : Option Nat) : Bool := match since with
    | some t => decide (t + countsPerSecond / 10 ≤ sc)
    | none => false
  if engPar x 10 = 4 && !bit (engPar x 11) 6 then
    let high := if 5000 ≤ pilotHz then some (a.pilotHigh.getD sc) else none
    let low := if pilotHz < 3000 then some (a.pilotLow.getD sc) else none
    { a with pilotHigh := high, pilotLow := low, stereo := if a.stereo then !held low else held high }
  else { a with stereo := false, pilotHigh := none, pilotLow := none }

/-- BLEND in per cent (R248). -/
def blendOf (x : LaneSet) (stereo : Bool) (snr : Int) : Nat :=
  let lo : Int := (engPar x 13 : Nat)
  let hi : Int := (engPar x 14 : Nat)
  if stereo then (clampInt 0 100 ((snr - lo) * 100 / (hi - lo))).toNat else 0

/-- An analogue unit takes a block of samples. -/
def analogueBlock (x : LaneSet) (sc : Nat) (m : BlockMeas) (a : Analogue) : Analogue :=
  let a := stepStereo x sc m.pilotHz a
  { a with acquiring := false, quality := satInt 2 m.quality, carrierLock := engPar x 10 == 2 && m.carrier,
           blend := blendOf x a.stereo m.snrDb }

/-- The modes a DRM engine may try on its path (R276). -/
def modeAllowed (p : Nat) (x : LaneSet) (mode : Nat) : Bool :=
  (if p = 0 then mode < 4 else mode == 4) && (engPar x 10 == 0 || bit (engPar x 10) mode)

/-- A DRM or DAB engine's search advances (Tables 12-4, 12-6). -/
def acquire (n kind u : Nat) (a : Acq) (s : State) : State :=
  let x := laneOf s n
  let e := engOf s kind u
  match a with
  | .signal mode =>
    if e.state = 1 && (kind == 3 || modeAllowed x.path x.cur mode) then
      let s := if kind = 2 then modDrm s u fun d => { d with mode := mode } else s
      modEng s kind u fun e => { e with state := 2 }
    else s
  | .offset v => if e.state = 2 && v.natAbs ≤ pullIn (if kind = 2 then (drmOf s u).mode else 5) then modEng s kind u fun e => { e with state := 3, freqOffset := v, afcFrozen := kind == 3 } else s
  | .frame => if e.state = 3 && kind == 2 then modEng s kind u fun e => { e with state := 4, fails := 0 } else s

/-- A DRM or DAB engine takes a block: the run of erased blocks (R275), its erased cells, its search. -/
def digitalBlock (n kind u : Nat) (erased : Bool) (m : BlockMeas) (s : State) : State :=
  let s := modEng s kind u fun e =>
    let e := { e with erasedCells := bump 4 e.erasedCells m.erasedCells }
    if erased then { e with erasedSince := if e.gapDone then none else some (e.erasedSince.getD (laneOf s n).last.stamp) }
    else { e with erasedSince := none, gapDone := false }
  match m.acq with
  | some a => if erased then s else acquire n kind u a s
  | none => s

/-- The engine of a lane takes its block (R23, R115): one that it is too late for is an erasure flagged OVERRUN to it. -/
def engineBlock (n : Nat) (r : BlockRec) (samples : List (Int × Int)) (m : BlockMeas) (s : State) : State :=
  let x := (laneOf s n).cur
  let flags := if m.taken then r.flags else r.flags ||| 8
  let erased := zeroFilled flags
  match x.engKind with
  | 1 => offerAudio n r flags (delivered flags samples) (if erased then s else modAnalogue s x.engIndex (analogueBlock x s.clocks.sc m))
  | 4 => modLf s x.engIndex fun d => if d.state = 0 then { d with state := 1 } else d
  | 0 => s
  | k => digitalBlock n k x.engIndex erased m s

/-- The signal instants that a block spans, from its STAMP on. -/
def blockSpan (x : Lane) (r : BlockRec) : Nat × Nat :=
  match laneRate x.path x.cur.rate with
  | some (hz, _) => (r.stamp, r.stamp + (r.len * countsPerSecond + hz - 1) / hz)
  | none => (r.stamp, r.stamp)

/-- The runs that an engine took as erasures with one more block's span: joined to the run that it continues, and those that ended more than 4 s
before it dropped, which no frame that is still being received reaches. -/
def addGap (g : Nat × Nat) : List (Nat × Nat) → List (Nat × Nat)
  | [] => [g]
  | h :: t => if h.1 ≤ g.1 && g.1 ≤ h.2 + 1 then (h.1, max h.2 g.2) :: t else g :: (h :: t).filter fun e => g.1 ≤ e.2 + 4 * countsPerSecond

/-- The lane's record, counters and threshold state after a block, and the event raised. `now`: the count, up to which the causes that stand have
touched the lane (R225). -/
def recordBlock (x : Lane) (flags stands now : Nat) (r : BlockRec) (env : Nat) (taken : Bool) : Lane × Option Nat :=
  let (above, dwell, event) := stepThreshold x flags r
  ({ x with last := { r with thAbove := above, dwell := dwell }, seq := (x.seq + 1) % 2 ^ 32, settling := x.settling - 1,
            touched := 0, syncNext := false, chain := { x.chain with env := env },
            causeEnd := [0, 1, 2].foldl (fun t k => if bit stands k then tabSet t k now else t) x.causeEnd,
            gaps := if zeroFilled flags || !taken then addGap (blockSpan x r) x.gaps else x.gaps,
            thAbove := above, dwell := dwell, events := bump 4 x.events (flagNat event.isSome),
            overrunBlocks := bump 4 x.overrunBlocks (flagNat (bit flags 3)),
            zeroedBlocks := bump 4 x.zeroedBlocks (flagNat (flags % 8 != 0)), blocks := bump 4 x.blocks 1,
            engineLate := bump 2 x.engineLate (flagNat (!taken && x.cur.engKind != 0)),
            quals := if r.qual == -32768 then x.quals else (r.qual :: x.quals).take 16 }, event)

/-- What a generation means beyond its lane: for the entry that follows it, for tastings of its frequency, for its sub-channels. -/
def afterGeneration (n : Nat) (ch : GenChange) (s : State) : State :=
  let s := if !ch.bind && (ch.freq || ch.rate || ch.preset || ch.engine) then followBroken n s else s
  let s := match entryOf s n with
    | some e => if ch.engine then modFollow s e fun f => { f with last := [] } else s
    | none => s
  let s := if ch.freq && (laneOf s n).hold == .host then occupiedNow s else s
  if ch.engine && (laneOf s n).cur.engKind = 3 then admitSubch (placeNow s n) s else s

/-- The pending set takes effect at a boundary, with what follows from it. -/
def boundarySet (n : Nat) (s : State) : State :=
  match applyPending n s with
  | (s, some ch) => afterGeneration n ch s
  | (s, none) => s

/-- The boundary after a SHORT block (R237): the chain cleared, the NCO at NCO_PHASE0 in units of 2^-16 turn, the envelope 0, SYNC and SETTLING
on the next block; a DRM or DAB engine returns to its search (R280). -/
def boundarySync (n : Nat) (s : State) : State :=
  let s := modLane s n fun x =>
    clearLane { x with shortNext := false, syncNext := true, settling := settleCount x.cur,
                       chain := { x.chain with phase := BitVec.ofNat 32 (x.cur.ncoPhase0 * 2 ^ 16), env := 0 } }
  let x := (laneOf s n).cur
  if x.engKind == 2 || x.engKind == 3 then toSearch (placeNow s n) s else s

/-- A lane that R112 waits for has passed a block boundary since it was shed, or since it resumed; `now`: it is among the lanes being shed.
One that a later change of level returned to what it was, before its boundary, is waited for no more; nor is one bound elsewhere since. -/
def passWaits (n : Nat) (x : Lane) (now : Bool) (f : Fabric) : Fabric :=
  let done (p : Nat) (w : Option Nat) (c : Bool) : Option Nat := if w == some n && (c || x.path != p) then none else w
  let shed := x.shed || !now
  let back := !x.shed || now
  { f with raiseWaitL := done 0 f.raiseWaitL shed, lowerWaitL := done 0 f.lowerWaitL back,
           raiseWaitV := done 1 f.raiseWaitV shed, lowerWaitV := done 1 f.lowerWaitV back }

/-- At a boundary a lane comes to be shed, or resumes with its decimators cleared, its engine searching (R112, R113, R280). -/
def boundaryShed (n : Nat) (s : State) : State :=
  let x := laneOf s n
  let now := (shedSet s x.path).contains n
  let s := { s with fabric := passWaits n x now s.fabric }
  if now == x.shed then s
  else if now then setLane s n { x with shed := true }
  else
    let s := setLane s n (clearLane { x with shed := false, settling := settleCount x.cur })
    if x.cur.engKind == 2 || x.cur.engKind == 3 then toSearch (placeNow s n) s else s

/-- A lane's block boundary: an unbind takes effect, or the pending set does. -/
def boundary (n : Nat) (s : State) : State :=
  let x := laneOf s n
  if x.unbind then unbindNow n s
  else
    let s := boundaryShed n (boundarySet n s)
    if x.shortNext then boundarySync n s else s

/-- A tasting lane outside its window ends with cause WINDOW at its first RETUNE block (Table 13-4). -/
def tasteWindow (n : Nat) (flags : Nat) (s : State) : State :=
  if (laneOf s n).hold == .tasting && bit flags 2 && !inWindow s (laneOf s n).path (laneOf s n).cur.freqHz then endTasting 6 n s else s

/-- A block shed on a path is counted (R112, Table 5-7). -/
def countShed (p : Nat) (s : State) : State :=
  let f := s.fabric
  { s with fabric := if p = 0 then { f with shedBlocksL := bump 4 f.shedBlocksL 1 } else { f with shedBlocksV := bump 4 f.shedBlocksV 1 } }

/-- A lane's first block since it started begins: its pending set takes effect (R215), the chain is clear, and SETTLING counts by the settings in
force (R230). -/
def beginFirst (n : Nat) (s : State) : State :=
  let s := boundarySet n s
  boundaryShed n (modLane s n fun x => clearLane { x with idle := false, touched := 0, settling := settleCount x.cur })

/-! Synchronisation (R235 to R237) -/

/-- A running HOST lane of a path. -/
def syncable (s : State) (p n : Nat) : Bool :=
  (laneOf s n).hold == .host && (laneOf s n).path == p && delivering s n

/-- One lane is synchronised: its block in progress ends SHORT, the block after it carries SYNC, and of its pending set what stands at the sync
sample takes effect there (R237). A lane whose first block has not begun has none to cut short. -/
def syncLane (stamp : Nat) (s : State) (n : Nat) : State :=
  if (laneOf s n).idle then boundarySync n (modLane (beginFirst n s) n fun x => { x with syncStamp := stamp })
  else modLane s n fun x =>
    if x.shortNext then { x with syncStamp := stamp }
    else { x with shortNext := true, syncStamp := stamp, synced := x.pending.map fun p => (p, x.genPending, x.pendEngine),
                  pending := none, pendEngine := false }

def checkLaneSync (s : State) (c : Cmd) : Option Reply :=
  firstFail (needObject [2] c :: failUnless (cmdIdx c < 2) (0x11, []) :: needHeader c ++ needZeros c 16 31 ++ [needMode s [3, 4, 5]])

/-- LANE_SYNC (R236) on the first ADC sample after it starts, whose count is `stamp`. -/
def runLaneSync (stamp : Nat) (s : State) (c : Cmd) : State :=
  let mask := parN c 8 8
  let named := (List.range 64).filter (bit mask)
  let go := named.filter (syncable s (cmdIdx c))
  complete c.seq 0x00 [lowByte go.length, lowByte (named.length - go.length)] (forAll go (syncLane stamp) s)

def execLaneSync (seq stamp : Nat) (s : State) : Host.Outcome State Fault Refusal :=
  .next (startCmd s seq 0x13 checkLaneSync (runLaneSync stamp))

/-- LANESYNC (R235): the pin's edge synchronises the lanes of paths L and V that follow it. -/
def execLanesync (stampL stampV : Nat) (s : State) : Host.Outcome State Fault Refusal :=
  let go (p : Nat) : List Nat := (List.range 64).filter fun n => syncable s p n && (laneOf s n).cur.syncPinEn
  if ready s && s.power.vioValid then .next (forAll (go 1) (syncLane stampV) (forAll (go 0) (syncLane stampL) s)) else .next s

/-! A completed block -/

/-- The chain of a lane. -/
def laneCfg (x : Lane) : ChainCfg := chainCfg x.path x.ncoWord x.cur

/-- A run of ADC samples completes the lane's block in progress: it ends on the block's last output, or the block is one that a synchronisation
cut short (R223, R237). -/
def blockDue (x : Lane) (n : Nat) : Bool :=
  let (outs, rest) := outputsDue (laneCfg x) x.chain n
  (outs == blockSamples x.cur && rest == 0) || (x.shortNext && outs < blockSamples x.cur)

/-- The outputs of a block. A shed lane's decimators do not run: its block is zeros (R113). -/
def blockOutputs (x : Lane) (samples : List (Int × Int)) : Chain × List OutSample :=
  if x.shed then (x.chain, List.replicate (outputsDue (laneCfg x) x.chain samples.length).1 { fine := (0, 0), coarse := (0, 0) })
  else chainRun (laneCfg x) x.chain samples

/-- LANE_BLOCK: a delivering lane completes a block, once the samples that make it have come. -/
def execLaneBlock (lane : Nat) (meas : BlockMeas) (s₀ : State) : Host.Outcome State Fault Refusal :=
  let s := if laneTakes s₀ lane && (laneOf s₀ lane).idle then beginFirst lane s₀ else s₀
  if laneTakes s lane && blockDue (laneOf s lane) meas.samples.length then
    let s := if (laneOf s lane).shed then countShed (laneOf s lane).path s else s
    let flags := blockFlags s lane meas.firstSc
    let (chain, outs) := blockOutputs (laneOf s lane) meas.samples
    let x := { laneOf s lane with chain := chain }
    let (r, env, s) := blockRec x flags meas.firstSc outs s
    let (x, event) := recordBlock x flags (standing s x) s.clocks.sc r env meas.taken
    let s := setLane s lane x
    let s := match event with
      | some k => if x.hold == .host then deliverEvent lane (eventBytes lane k x.cur.thSrc x.last) s else s
      | none => s
    let s := engineBlock lane r (outs.map (·.fine)) meas s
    let s := tasteWindow lane flags s
    .next (if (laneOf s lane).hold == .free then s else boundary lane s)
  else .next s₀

/-- The lanes whose first block begins by now begin it. -/
def beginBlocks (s : State) : State :=
  forAll ((s.lanes.filter fun e => e.2.idle && e.2.startAt ≤ s.clocks.sc && delivering s e.1).map (·.1)) (fun s n => beginFirst n s) s

end Sys2Proof.Machine
end

