-- ==== Sys2Proof/Machine/Fabric.lean ====
section
/-!
DEFINITION. The pace window and the die temperature (R103, R205, R206, R467), the governor (R105 to R107), and the shedding of lanes and
ADC samples (R111 to R116).
-/
namespace Sys2Proof.Machine

/-! The die temperature -/

/-- |a − b| has reached TEMP_DELTA, in 0.125 °C. -/
def tempMoved (s : State) (a b : Int) : Bool := 8 * s.cal.tempDelta ≤ (a - b).natAbs

/-- R205: a path's CAL_DUE bit rises when TEMP_AVG has moved TEMP_DELTA from T_CAL_PATH. -/
def checkCalDue (s : State) (p : Nat) : State :=
  if tempMoved s s.cal.tempAvg (pathOf s p).cal.tCalPath && !bit s.cal.calDue p then
    raise .calEvent { s with cal := { s.cal with calDue := s.cal.calDue + 2 ^ p } }
  else s

/-- R206: the thermal warning with its 2 °C of hysteresis and its second of rest. -/
def checkTherm (s : State) : State :=
  let c := s.cal
  let rested : Bool := match c.thermSc with
    | some t => decide (t + countsPerSecond ≤ s.clocks.sc)
    | none => true
  if rested && !c.thermWarn && decide ((8 * c.thermLimit : Nat) ≤ c.tempAvg) then
    raise .thermWarn { s with cal := { c with thermWarn := true, thermSc := some s.clocks.sc } }
  else if rested && c.thermWarn && decide (c.tempAvg ≤ ((8 * c.thermLimit : Nat) : Int) - 16) then
    { s with cal := { c with thermWarn := false, thermSc := some s.clocks.sc } }
  else s

/-- A sample of the die-temperature sensor (R467): TEMP, and TEMP_AVG as the mean of the samples of the last second. The spec states
no rounding: a mean that is no whole number of units goes to the unit below or above, freely (DESIGN CHOICE, notes/assumptions/5.md). -/
def takeSample (temp : Int) (s : State) : State :=
  let kept := ((s.clocks.sc, temp) :: s.cal.samples).filter fun e => s.clocks.sc < e.1 + countsPerSecond
  let sum := kept.foldl (fun t e => t + e.2) 0
  let p := if sum % (kept.length : Int) = 0 then (0, s) else draw 2 s
  checkTherm (forAll [0, 1, 2] checkCalDue { p.2 with cal := { p.2.cal with
    temp := satInt 2 temp, samples := kept, tempAvg := satInt 2 (sum / (kept.length : Int) + (p.1 : Int)) } })

/-! Pace (R103, R117, R459) -/

/-- Table 22-5's minima in a VCORE row: at −20, 25, 60 and 85 °C. Rows 0 to 3 are 0.55, 0.65, 0.75 and 0.90 V. -/
def paceRow : Nat → Nat × Nat × Nat × Nat
  | 0 => (18, 30, 38, 42)
  | 1 => (45, 64, 76, 82)
  | 2 => (85, 105, 118, 124)
  | _ => (150, 168, 178, 182)

/-- A row's minimum at a die temperature in 0.125 °C, as a numerator over the width of the columns around it: linear between two columns, none
where no minimum is specified. -/
def rowMin (row : Nat) (temp : Int) : Option (Nat × Nat) :=
  let (a, b, c, d) := paceRow row
  let between (lo hi : Nat) (t0 t1 : Int) : Option (Nat × Nat) :=
    some (lo * (t1 - temp).toNat + hi * (temp - t0).toNat, (t1 - t0).toNat)
  if temp < -160 || 680 < temp then none
  else if temp ≤ 200 then between a b (-160) 200
  else if temp ≤ 480 then between b c 200 480
  else between c d 480 680

/-- The rows around a step code, with their codes. -/
def rowsAround (code : Nat) : (Nat × Nat) × (Nat × Nat) :=
  if code ≤ 10 then ((0, 0), (1, 10)) else if code ≤ 20 then ((1, 10), (2, 20)) else ((2, 20), (3, 35))

/-- The minimum pace at a step code and die temperature (R459), as a fraction: linear in temperature, then in step code. -/
def minPace (code : Nat) (temp : Int) : Option (Nat × Nat) :=
  let ((r0, c0), (r1, c1)) := rowsAround code
  match rowMin r0 temp, rowMin r1 temp with
  | some (x, den), some (y, _) => some (x * (c1 - code) + y * (code - c0), den * (c1 - c0))
  | _, _ => none

/-- Table 22-5's typical pace at 25 °C and its maximum at 85 °C in a VCORE row: it gives none at other temperatures. -/
def paceTypical : Nat → Nat
  | 0 => 40
  | 1 => 80
  | 2 => 125
  | _ => 190

def paceMaximum : Nat → Nat
  | 0 => 62
  | 1 => 105
  | 2 => 145
  | _ => 205

/-- A column of Table 22-5 at a step code, as a fraction: linear in step code between two rows (R459). -/
def paceColumn (row : Nat → Nat) (code : Nat) : Nat × Nat :=
  let ((r0, c0), (r1, c1)) := rowsAround code
  (row r0 * (c1 - code) + row r1 * (code - c0), c1 - c0)

/-- The whole pace units of a window: those completed, and no fewer than the minimum at the lowest step code of the window and its die
temperature, which the part always reaches (R459). -/
def paceUnits (code : Nat) (temp : Int) (units : Nat) : Nat :=
  match minPace code temp with
  | some (n, d) => min 255 (max units (n / d))
  | none => min 255 units

/-- Counts of a pace window, and of a governor tick (R103, R105). -/
def windowCounts : Nat := 2 ^ 14

def tickCounts : Nat := 2 ^ 12

/-- PACE_WINDOW: outside PARKED, at the end of the window PACE takes the units completed, PACE_MIN their minimum, and the temperature is
sampled. -/
def execPaceWindow (units : Nat) (temp : Int) (s : State) : Host.Outcome State Fault Refusal :=
  let f := s.fabric
  if ready s && modeNow s != 1 && f.windowStart + windowCounts ≤ s.clocks.sc then
    let pace := paceUnits f.windowLow temp units
    .next (takeSample temp { s with fabric :=
      { f with pace := pace, paceMin := min f.paceMin pace, windowStart := f.windowStart + windowCounts, windowLow := f.vcore } })
  else .next s

/-- Demand of Table 5-5 in twentieths of a pace unit: a shed lane and its engine demand nothing. -/
def laneDemand (x : Lane) : Nat :=
  if !x.running || x.shed then 0
  else (if x.path = 0 then 5 else 32) +
    match x.cur.engKind with
    | 1 => 16
    | 2 => 80
    | 3 => 240
    | 4 => 2
    | _ => 0

/-- Path S listens or receives. -/
def pathSReceives (s : State) : Bool :=
  match s.pathS.fe.state with
  | .off | .txRampUp | .tx | .txRampDown => false
  | _ => true

/-- The sum of demand of everything running (Table 5-5), in twentieths of a pace unit. A PDM pin runs with two microphones. -/
def demand (s : State) : Nat :=
  let on (b : Bool) (d : Nat) : Nat := if b then d else 0
  let pins := ([0, 1, 2, 3].filter fun i => [0, 1].any fun p =>
    sapRuns (sapOf s p) && (mapMics (sapOf s p).used).any fun m => m / 2 == i).length
  on (s.pathL.fe.state != .off) 60 + on (s.pathV.fe.state != .off) 360 + on (pathSReceives s) 100 + on (packetOn s) 120 +
    (s.lanes.map fun e => laneDemand e.2).sum + 10 * ([0, 1].filter fun p => sapRuns (sapOf s p)).length + 12 * pins

/-- COUNTER_SECOND: in PARKED the counter passes a whole second and the temperature is sampled. -/
def execCounterSecond (temp : Int) (s : State) : Host.Outcome State Fault Refusal :=
  if ready s && modeNow s == 1 && s.clocks.secondDone < counterSeconds s then
    .next (takeSample temp { s with clocks := { s.clocks with secondDone := counterSeconds s } })
  else .next s

/-! The governor -/

/-- FIFO depth of paths L and V in samples (Table 5-2). -/
def fifoDepth (p : Nat) : Nat := if p = 1 then 16384 else 4096

/-- Some fill passed `n`/8 of its FIFO's depth. -/
def fillOver (f : Fills) (n : Nat) : Bool :=
  [(f.pathL, 4096), (f.pathV, 16384), (f.pathS, 4096), (f.linkTx, 4096), (f.sap0, 64), (f.sap1, 64), (f.pdm, 256)].any fun e =>
    n * e.2 < 8 * e.1

/-- Pace floor of a mode (Table 5-4). -/
def paceFloor : Nat → Nat
  | 2 => 10
  | 3 => 30
  | _ => 60

/-- The ceiling in force (R106). -/
def ceiling (s : State) : Nat := if packetOn s then 35 else s.fabric.vcoreCap

/-- R117 holds of what runs: its demand is within 0.85 of the minimum pace at the ceiling in force and the die temperature. -/
def planHolds (s : State) : Bool :=
  match minPace (ceiling s) s.cal.temp with
  | some (n, d) => 100 * d * demand s ≤ 1700 * n
  | none => false

/-- The fills of a tick: under R117 none passes half its FIFO's depth. -/
def fillsOf (s : State) (f : Fills) : Fills :=
  if planHolds s then
    { pathL := min f.pathL 2048, pathV := min f.pathV 8192, pathS := min f.pathS 2048, linkTx := min f.linkTx 2048, sap0 := min f.sap0 32,
      sap1 := min f.sap1 32, pdm := min f.pdm 128 }
  else f

/-- GOV_STATE.AT_CEIL (R106). -/
def atCeil (s : State) : Bool := s.fabric.vcore == ceiling s

/-- VCORE after a tick (R105, R106); `quiet` counts this tick. Above the ceiling it falls one step a tick, as R106 has it after a write of
VCORE_CAP; that it does so too when a packet ends above VCORE_CAP is the model's (DESIGN CHOICE, notes/assumptions/83.md). -/
def nextVcore (v ceil pace floor quiet : Nat) (f : Fills) : Nat :=
  if ceil < v then v - 1
  else if fillOver f 4 then min ceil (v + 4)
  else if fillOver f 2 || pace < floor then min ceil (v + 1)
  else if 16 ≤ quiet && floor + 8 ≤ pace then v - 1
  else v

/-- The highest fills of paths L and V since they were read (R120). -/
def noteFill (p fill : Nat) (f : Fabric) : Fabric :=
  if p = 0 then { f with fillHwL := min 65535 (max f.fillHwL fill) } else { f with fillHwV := min 65535 (max f.fillHwV fill) }

/-- GOVERNOR_TICK: at the end of a tick VCORE moves by the fills and PACE; in PARKED no tick runs. -/
def execGovernorTick (fills : Fills) (s : State) : Host.Outcome State Fault Refusal :=
  let f := s.fabric
  if ready s && 2 ≤ modeNow s && f.tickStart + tickCounts ≤ s.clocks.sc then
    let fills := fillsOf s fills
    let quiet := if fillOver fills 1 then 0 else min 16 (f.quietTicks + 1)
    let v := nextVcore f.vcore (ceiling s) f.pace (paceFloor (modeNow s)) quiet fills
    let f := noteFill 0 fills.pathL (noteFill 1 fills.pathV
      { f with vcore := v, quietTicks := quiet, windowLow := min f.windowLow v, tickStart := f.tickStart + tickCounts })
    .next { s with fabric := { f with ceilTicks := bump 2 f.ceilTicks (flagNat (v == ceiling s)) } }
  else .next s

/-! Shedding -/

/-- What R112 waits for on a lane is over: the lane passed its boundary, or it no longer runs. -/
def waitOver (s : State) (w : Option Nat) : Bool :=
  match w with
  | none => true
  | some n => !(laneOf s n).running

/-- SHED_RAISE: the next lane of the order is to be shed from its next block boundary (R112, R116); none while R117 holds. -/
def execShedRaise (path fill : Nat) (s : State) : Host.Outcome State Fault Refusal :=
  let f := s.fabric
  let level := shedLevel s path
  let (last, wait) := if path = 0 then (f.raiseFillL, f.raiseWaitL) else (f.raiseFillV, f.raiseWaitV)
  if path < 2 && ready s && !planHolds s && 3 * fifoDepth path ≤ 4 * fill && atCeil s && level < (shedOrder s path).length &&
      (level == 0 || (last < fill && waitOver s wait)) then
    let next := (shedOrder s path)[level]?
    let f := noteFill path fill f
    let f := if path = 0 then { f with shedLevelL := level + 1, raiseFillL := fill, raiseWaitL := next }
      else { f with shedLevelV := level + 1, raiseFillV := fill, raiseWaitV := next }
    .next (raiseIf (level == 0) .paceShed { s with fabric := f })
  else .next s

/-- SHED_LOWER: the lane shed last resumes at its next block boundary (R112, R113). -/
def execShedLower (path fill : Nat) (s : State) : Host.Outcome State Fault Refusal :=
  let f := s.fabric
  let level := shedLevel s path
  let wait := if path = 0 then f.lowerWaitL else f.lowerWaitV
  if path < 2 && ready s && 4 * fill ≤ fifoDepth path && 0 < level && waitOver s wait then
    let lane := (shedOrder s path)[level - 1]?
    .next { s with fabric :=
      if path = 0 then { f with shedLevelL := level - 1, lowerWaitL := lane } else { f with shedLevelV := level - 1, lowerWaitV := lane } }
  else .next s

/-- PATH_DROPS: a full ADC FIFO discards a run of 256 samples; every block it overlaps is flagged OVERRUN (R114). While R117 holds no FIFO is
full. -/
def execPathDrops (path : Nat) (s : State) : Host.Outcome State Fault Refusal :=
  if path < 2 && ready s && !planHolds s && (pathOf s path).fe.state != .off then
    let f := s.fabric
    let s := { s with fabric := noteFill path (fifoDepth path) { f with pathDrops := bump 4 f.pathDrops 1 } }
    .next (raise .paceShed (touchLanes path 3 s))
  else .next s

end Sys2Proof.Machine
end

