-- ==== Sys2Proof/Machine/Audio.lean ====
section
/-!
DEFINITION. SAP_CFG, SAP_START and SAP_STOP (R394 to R411), capture blocks (R412 to R415), underruns, microphone overruns and the ends of
the settle time and of the stop ramp (R404, R411, R416, R417).
-/
namespace Sys2Proof.Machine

/-! SAP_CFG (R395, R396) -/

/-- BAD_FIELD naming a byte of the configuration. -/
def needConfig (off : Nat) (ok : Bool) : Option Reply := failUnless ok (0x12, [lowByte (0x80 + off)])

/-- The configuration part's fields, by block offset. -/
def configFields (c : SapCfg) (ckDiv : Nat) : List (Option Reply) :=
  let bclk := c.rateHz * frameBits c
  [needConfig 0 (c.format < 3), needConfig 1 (c.format != 0 || (1 ≤ c.slots && c.slots ≤ 32)),
   needConfig 3 (c.format != 0 || c.offset < 32),
   needConfig 4 (8000 ≤ c.rateHz && c.rateHz ≤ 96000 && bclk ≤ 24576000 && 2 * 2 ^ 24 ≤ sapDivider ckDiv c),
   needConfig 9 (1 ≤ c.rampMs && c.rampMs ≤ 100), needConfig 0x0A (20 ≤ c.playoutMs && c.playoutMs ≤ 500),
   needConfig 0x14 (16 ≤ c.framesPerBlock && c.framesPerBlock ≤ 2048),
   needConfig 0x1A (!c.aoutEn || c.aoutSrcL < effSlots c), needConfig 0x1B (!c.aoutEn || c.aoutSrcR < effSlots c)] ++
    (usedEntries c).map fun e => needConfig e.1 (entryOk e.2)

/-- The microphone settings that the slot map uses: rates that can be reached from CK6, and a settle time in range; a failure names the byte of the
PDM block. -/
def micFields (s : State) (c : SapCfg) : List (Option Reply) :=
  [0, 1].map (fun g => needConfig g (!takesGroup c g || (pdmDiv s.clocks.ck6.div (setRate s.pdm g)).isSome)) ++
    [needConfig 2 (!(takesGroup c 0 || takesGroup c 1) || (1 ≤ s.pdm.micSettleMs && s.pdm.micSettleMs ≤ 100))]

/-- A group's rate equals the rate in force for another running port that takes it. -/
def ratesAgree (s : State) (port : Nat) (c : SapCfg) : Bool :=
  [0, 1].all fun g =>
    !takesGroup c g || !sapRuns (sapOf s (1 - port)) || !takesGroup (sapOf s (1 - port)).used g ||
      setRate s.pdm g == usedRate s.pdm g

/-- SAP1's shared fields equal those in force on SAP0. -/
def sharedAgree (s : State) (c : SapCfg) : Bool :=
  let o := (sapOf s 0).used
  o.slots == c.slots && o.width == c.width && o.offset == c.offset && o.format == c.format && o.rateHz == c.rateHz

/-- The fields that may change while the port runs: the slot maps and AOUT's sources (R396). -/
def withMaps (c new : SapCfg) : SapCfg :=
  { c with map0 := new.map0, map1 := new.map1, aoutSrcL := new.aoutSrcL, aoutSrcR := new.aoutSrcR }

/-- The CK divider that a configuration divides: SAP0's while SAP1 is to share its frame clock (R418). -/
def cfgCkDiv (s : State) (port : Nat) (c : SapCfg) : Nat := sapCkDiv s (if port = 1 && c.shareFs then 0 else port)

/-- The checks of a SAP_CFG: the fields of the configuration and of the PDM block are fields of the command (R88, R395). No parameter table is
printed for its bytes 8 to 31, which must be 0 (DESIGN CHOICE, notes/assumptions/96.md). -/
def checkSapCfg (s : State) (c : Cmd) : Option Reply :=
  let port := cmdIdx c
  let x := sapOf s port
  firstFail (needObject [10] c :: needHeader c ++ needZeros c 8 31 ++ configFields x.cfg (cfgCkDiv s port x.cfg) ++ micFields s x.cfg ++
    [needMode s [5], needState (!sapRuns x || withMaps x.used x.cfg == x.cfg) 0x01, needState (ratesAgree s port x.cfg) 0x02,
     needState (port == 0 || !x.cfg.shareFs || sharedAgree s x.cfg) 0x05])

/-- The PDM block's settings of the groups that a configuration takes come into force. -/
def configurePdm (ck6Div : Nat) (c : SapCfg) (p : Pdm) : Pdm :=
  let div (g old : Nat) : Nat := (pdmDiv ck6Div (setRate p g)).getD old
  let p := if takesGroup c 0 then
    { p with usedRateA := p.rateA, usedHpfA := p.hpfA, usedSettleMs := p.micSettleMs, divA := div 0 p.divA } else p
  if takesGroup c 1 then
    { p with usedRateB := p.rateB, usedHpfB := p.hpfB, usedSettleMs := p.micSettleMs, divB := div 1 p.divB } else p

/-- The configuration comes into force with its divider, FS_ERR and pool (R395, R397, R412). -/
def configure (port : Nat) (s : State) : State :=
  let c := (sapOf s port).cfg
  let ck := cfgCkDiv s port c
  let d := sapDivider ck c
  let s := modSap s port fun x => { x with
    used := c, configOk := true, divInt := d / 2 ^ 24, divFrac := d % 2 ^ 24, fsErr := sapFsErr ck d c, poolBlocks := poolBlocks c }
  { s with pdm := configurePdm s.clocks.ck6.div c s.pdm }

/-- SAP_CFG's result bytes (R395). -/
def cfgResult (x : Sap) : List Byte := leBytes x.divFrac 3 ++ leBytes x.divInt 2 ++ leBytes (twos 2 x.fsErr) 2 ++ [lowByte x.poolBlocks]

/-- The slots whose source a new map changes while the port runs begin their fall at the next frame (R396). -/
def swapSlots (port : Nat) (old : SapCfg) (s : State) : State :=
  let next := nextFrame s port
  let changed := (sentSlots old).filter fun k => mapEntry old k.1 k.2 != mapEntry (sapOf s port).used k.1 k.2
  modSap s port fun x => { x with
    swaps := changed.map (fun k => { line := k.1, slot := k.2, old := mapEntry old k.1 k.2, start := next }) ++ x.swaps, mapFrom := next }

/-- A stopped port's SAP_CFG completes at once. On a running port the maps change at the next frame, and the completion follows that frame. -/
def runSapCfg (s : State) (c : Cmd) : State :=
  let port := cmdIdx c
  let x := sapOf s port
  let s := configure port s
  if !sapRuns x then complete c.seq 0x00 (cfgResult (sapOf s port)) s
  else
    let s := swapSlots port x.used s
    takeUp port (((mapLanes (sapOf s port).used).eraseDups).filter fun n => !takesSource x (256 + n)) (startPdm (stopPdm s))

def execSapCfg (seq : Nat) (s : State) : Host.Outcome State Fault Refusal :=
  .next (startCmd s seq 0x48 checkSapCfg runSapCfg)

/-! SAP_START (R407) -/

/-- Parts of a second in which every block length and group delay of a lane is whole. -/
def playoutUnits : Nat := 61440000

/-- A lane's block duration, and its fine group delay, in those parts. -/
def laneBlockUnits (x : Lane) : Nat :=
  match laneRate x.path (nextSet x).rate with
  | some (hz, _) => blockSamples (nextSet x) * (playoutUnits / hz)
  | none => 0

def laneDelayUnits (x : Lane) : Nat := fineDelay2 x.path (nextSet x) * (playoutUnits / (2 * adcRate x.path))

/-- PLAYOUT_MS covers the ramp, the longest block, the largest fine delay and 5 ms. -/
def playoutOk (s : State) (c : SapCfg) : Bool :=
  let xs := ((mapLanes c).map (laneOf s)).filter fun x => x.hold == .host
  let top (f : Lane → Nat) : Nat := (xs.map f).foldl max 0
  (c.rampMs + 5) * (playoutUnits / 1000) + top laneBlockUnits + top laneDelayUnits ≤ c.playoutMs * (playoutUnits / 1000)

/-- The checks of a SAP_START. Its bytes 8 to 31, for which no parameter table is printed, must be 0 (DESIGN CHOICE, notes/assumptions/96.md). -/
def checkSapStart (s : State) (c : Cmd) : Option Reply :=
  let port := cmdIdx c
  let x := sapOf s port
  firstFail (needObject [10] c :: needHeader c ++ needZeros c 8 31 ++
    [needMode s [5], needState x.configOk 0x03, needState (!sapRuns x) 0x04,
     needState (port == 0 || !x.used.shareFs || sapRuns (sapOf s 0)) 0x05, needState (playoutOk s x.used) 0x07])

/-- A port's counters and frames at a start whose first FS edge comes at an instant, as the frame of a number. -/
def freshSap (at_ frame acc : Nat) (x : Sap) : Sap :=
  { x with
    state := .starting, startStamp := at_ / unitsPerCount, capProd := 0, capCons := 0, stagedCapCons := 0, underrunFrames := 0, blocksLost := 0,
    micLostFrames := 0, mutes := 0, lateMutes := 0, capFaults := 0, sourceAbsentFrames := 0, blockFrame := frame, bseq := 0,
    gapNext := false, startNext := true, firstEdge := at_, firstFrame := frame, bclkAcc := acc, moved := [], nextOut := frame, sent := [],
    frames := [], stretches := [], swaps := [], fall := none, wakeCount := 0 }

/-- AOUT rises from high impedance to mid-scale over 20 ms at the first start of SAP0 after entering PLAY (R419). -/
def aoutRise (s : State) : State :=
  match s.pdm.aout with
  | .highZ | .falling _ => { s with pdm := { s.pdm with aout := .rising (s.clocks.sc + millisCounts 20) } }
  | _ => s

/-- The first FS edge has come: the port runs, and its SAP_START completes with the edge's STAMP. -/
def firstEdgeDone (port : Nat) (s : State) : State :=
  let x := sapOf s port
  if s.clocks.sc < x.startStamp then s
  else
    let s := if x.state = .starting then setSap s port { x with state := .running } else s
    match runningOf s 0x49 (0xA000 + port) with
    | some c => complete c.seq 0x00 (leBytes x.startStamp 8) s
    | none => s

/-- The port starts. Its first FS edge comes at the count `edge`, at a free instant of that count and with a free value in the divider's accumulator
(DESIGN CHOICE, notes/assumptions/100.md); a SAP1 that shares SAP0's frame clock joins at SAP0's next frame (R418). -/
def runSapStart (edge : Nat) (s : State) (c : Cmd) : State :=
  let port := cmdIdx c
  let (k, s) := draw unitsPerCount s
  let (acc, s) := draw (2 ^ 24) s
  let next := nextFrame s 0
  let s :=
    if port = 1 && sharesFs s then modSap s port (freshSap ((frameClock s 0).edge next).toNat next 0)
    else modSap s port (freshSap (max edge s.clocks.sc * unitsPerCount + k) 0 acc)
  let s := takeUp port (mapLanes (sapOf s port).used).eraseDups (startPdm s)
  firstEdgeDone port (if port = 0 && (sapOf s 0).used.aoutEn then aoutRise s else s)

def execSapStart (seq edge : Nat) (s : State) : Host.Outcome State Fault Refusal :=
  .next (startCmd s seq 0x49 checkSapStart (runSapStart edge))

/-! Capture blocks (R412 to R415) -/

/-- The words of a frame in the slots marked for capture, SD0's then SD1's. -/
def capturedWords (c : SapCfg) (f : SentFrame) : List Int :=
  let marked (mask : Nat) (ws : List Int) : List Int := (ws.zipIdx.filter fun w => bit mask w.2).map (·.1)
  marked c.capMask0 f.words0 ++ marked c.capMask1 f.words1

/-- A word as capture holds it: at a sample's full scale, a word of 16 or 20 bits having 0 in the bits below it (DESIGN CHOICE,
notes/assumptions/103.md), in 3 bytes or sign-extended to 4. -/
def wordBytes (c : SapCfg) (w : Int) : List Byte :=
  let n := sampleBytes c
  leBytes (twos n (w * (2 ^ (24 - min 24 (slotBits c)) : Int))) n

/-- The header and samples of a capture block (Table 18-5). -/
def captureBytes (s : State) (port : Nat) (fs : List SentFrame) : List Byte :=
  let x := sapOf s port
  let c := x.used
  let len := blockBytes c fs.length
  let zeros := (fs.filter (·.zero)).length
  let flags := flagNat x.gapNext + 2 * flagNat (0 < zeros) + 4 * flagNat (fs.any (·.muted)) + 8 * flagNat x.startNext +
    16 * flagNat (fs.any (·.settling)) + 32 * flagNat (fs.any (·.lost))
  let stamp := ((frameClock s port).edge x.blockFrame).toNat / unitsPerCount
  let head := leBytes len 2 ++ [lowByte port, lowByte flags] ++ leBytes x.bseq 4 ++ leBytes x.blockFrame 4 ++ leBytes fs.length 2 ++
    [lowByte (captured c), lowByte (flagNat c.pack)] ++ leBytes stamp 8 ++ leBytes zeros 4 ++ [0, 0, 0, 0]
  (head ++ ((fs.map fun f => ((capturedWords c f).map (wordBytes c)).flatten).flatten) ++ List.replicate len 0).take len

/-- The port after a block of `n` frames, the block lost or not. -/
def afterBlock (n : Nat) (lost : Bool) (x : Sap) : Sap :=
  { x with blockFrame := x.blockFrame + n, frames := x.frames.drop n, bseq := (x.bseq + 1) % 2 ^ 32, gapNext := lost, startNext := false }

/-- A block of a port's next `n` frames is written to its pool, or discarded whole when no block is free (R415). -/
def writeBlock (port n : Nat) (s : State) : State :=
  let x := sapOf s port
  if x.poolBlocks ≤ capQueued x then
    raise .audioEvent (modSap s port fun x => { afterBlock n true x with blocksLost := bump 4 x.blocksLost 1 })
  else
    let at_ := poolBase port + x.capProd % x.poolBlocks * blockBytes x.used x.used.framesPerBlock
    let s := devPuts s at_ (captureBytes s port (x.frames.take n))
    let wake := x.used.wakeBlocks != 0 && x.used.wakeBlocks ≤ x.wakeCount + 1
    raiseIf wake .audioEvent (modSap s port fun x =>
      { afterBlock n false x with capProd := (x.capProd + 1) % 65536, wakeCount := if wake then 0 else x.wakeCount + 1 })

/-- The blocks of the frames sent so far, the last one as long as they go (R411). -/
def closeBlocks (port : Nat) : Nat → State → State
  | 0, s => s
  | k + 1, s =>
    let n := min (sapOf s port).frames.length (sapOf s port).used.framesPerBlock
    if n = 0 then s else closeBlocks port k (writeBlock port n s)

/-- CAPTURE_BLOCK: a running port's block is complete once its last frame has been sent whole, which the next frame's beginning shows. A port with both
masks 0 keeps no frames and writes no blocks. -/
def execCaptureBlock (port : Nat) (s : State) : Host.Outcome State Fault Refusal :=
  let x := sapOf s port
  if port < 2 && sapRuns x && x.used.framesPerBlock < x.frames.length then .next (writeBlock port x.used.framesPerBlock s) else .next s

/-- The write of CAP_CONS's high byte (R413). -/
def writeCapCons (port : Nat) (v : Byte) (s : State) : State :=
  modSap s port fun x =>
    let new := x.stagedCapCons.toNat + 256 * v.toNat
    if (new + 65536 - x.capCons) % 65536 ≤ capQueued x then { x with capCons := new }
    else { x with capFaults := bump 4 x.capFaults 1 }

/-! SAP_STOP (R411) -/

/-- The checks of a SAP_STOP. Its bytes 8 to 31, for which no parameter table is printed, must be 0 (DESIGN CHOICE, notes/assumptions/96.md). -/
def checkSapStop (s : State) (c : Cmd) : Option Reply :=
  firstFail (needObject [10] c :: needHeader c ++ needZeros c 8 31 ++ [needMode s [5]])

/-- SAP_STOP's result bytes. -/
def stopResult (x : Sap) : List Byte := leBytes x.nextOut 4 ++ leBytes x.underrunFrames 4

/-- A stopped port completes at once; a running one begins its fall, and completes when its pins are low. -/
def runSapStop (s : State) (c : Cmd) : State :=
  let x := sapOf s (cmdIdx c)
  if sapRuns x then rampDown (cmdIdx c) s else complete c.seq 0x00 (stopResult x) s

def execSapStop (seq : Nat) (s : State) : Host.Outcome State Fault Refusal :=
  .next (startCmd s seq 0x4A checkSapStop runSapStop)

/-- A port's last frame has been sent to its end: its block in progress is closed, and its pins go low. -/
def closePort (s : State) (port : Nat) : State := stopPort port (closeBlocks port (sapOf s port).frames.length s)

/-- SAP_STOP_RAMP_END: once the frame in which the fall reached 0 has been sent to its end the port's clocks stop, and SAP1's with SAP0's when it
shares them (R411, R418). -/
def execSapStopRampEnd (port : Nat) (s : State) : Host.Outcome State Fault Refusal :=
  match lastFrame s port with
  | some f =>
    if (frameClock s port).edge (f + 1) ≤ unitsNow s then
      let s := if port = 0 && sharesFs s && (sapOf s 1).state == .stopping then closePort s 1 else s
      let s := closePort s port
      .next (match runningOf s 0x4A (0xA000 + port) with
        | some c => complete c.seq 0x00 (stopResult (sapOf s port)) s
        | none => s)
    else .next s
  | none => .next s

/-! Falling behind -/

/-- A frame replaced by one with every slot 0 (R416). -/
def zeroFrame (f : SentFrame) : SentFrame := { f with words0 := f.words0.map fun _ => 0, words1 := f.words1.map fun _ => 0, zero := true }

/-- UNDERRUN (R416): the frame whose FS edge has come last is sent with every slot 0. -/
def execUnderrun (port : Nat) (s : State) : Host.Outcome State Fault Refusal :=
  match (sapOf s port).sent with
  | f :: fs =>
    if f.zero then .next s
    else .next (raise .audioEvent (modSap s port fun x =>
      { x with underrunFrames := bump 4 x.underrunFrames 1, sent := zeroFrame f :: fs,
               frames := match x.frames.getLast? with
                 | some g => x.frames.dropLast ++ [zeroFrame g]
                 | none => [] }))
  | [] => .next s

/-- PDM_OVERRUN (R417): runs of a pin's words, those that came last, are discarded: a mute stretch of both its microphones, counted at every
running port that takes one of them (DESIGN CHOICE, notes/assumptions/104.md). While R117 holds no FIFO overflows. -/
def execPdmOverrun (pin runs : Nat) (s : State) : Host.Outcome State Fault Refusal :=
  let (_, period, dec) := micClock s (pin / 2)
  let clocked := if pin / 2 = 0 then s.pdm.clkA else s.pdm.clkB
  if pin < 4 && 0 < runs && clocked && !planHolds s then
    let stop : Int := (s.clocks.sc * unitsPerCount : Nat)
    let count (s : State) (port : Nat) : State :=
      let x := sapOf s port
      if sapRuns x && (takesSource x (512 + 2 * pin) || takesSource x (513 + 2 * pin)) then
        setSap s port { x with micLostFrames := bump 4 x.micLostFrames runs }
      else s
    let lose (s : State) (m : Nat) : State := muteSource (512 + m) .lost (stop - (runs * dec * period : Nat)) (some stop) s
    .next (forAll [2 * pin, 2 * pin + 1] lose (forAll [0, 1] count s))
  else .next s

/-- MIC_SETTLE (R404): a group's settle time has passed, and its samples ramp in. -/
def execMicSettle (group : Nat) (s : State) : Host.Outcome State Fault Refusal :=
  let due (t : Option Nat) : Bool := t.any fun t => decide (t ≤ s.clocks.sc)
  .next { s with pdm :=
    if group = 0 && due s.pdm.settlingA then { s.pdm with settlingA := none, settledA := s.clocks.sc }
    else if group = 1 && due s.pdm.settlingB then { s.pdm with settlingB := none, settledB := s.clocks.sc }
    else s.pdm }

/-! What passes with time -/

/-- The commands of a port that time completes: a SAP_START at the first FS edge, a SAP_CFG of a running port after the first frame of its new map.
Where a clock fault has stopped the port first, SAP_START completes with STATE and a free code, the others with OK (DESIGN CHOICE,
notes/assumptions/105.md). -/
def finishSap (s : State) (port : Nat) : State :=
  let obj := 0xA000 + port
  let runs := sapRuns (sapOf s port)
  let s := if runs then firstEdgeDone port s
    else match runningOf s 0x49 obj with
      | some c =>
        let (k, s) := draw 256 s
        complete c.seq 0x17 [lowByte k] s
      | none => s
  let x := sapOf s port
  let s := match runningOf s 0x48 obj with
    | some c => if runs && x.nextOut ≤ x.mapFrom then s else complete c.seq 0x00 (cfgResult x) s
    | none => s
  match runningOf s 0x4A obj with
  | some c => if runs then s else complete c.seq 0x00 (stopResult x) s
  | none => s

/-- The ports send the frames that are due, and what waits for them goes on. -/
def passAudio (s : State) : State :=
  moveAout (forAll [0, 1] finishSap (forAll [0, 1] sendFrames (noteAbsent (takeMics s))))

end Sys2Proof.Machine
end

