-- ==== Sys2Proof/Machine/Sessions.lean ====
section
/-!
DEFINITION. PAIR, SESSION_CFG, RELEASE_START and RELEASE_STOP (R373 to R388), and the events of sessions and release targets.
-/
namespace Sys2Proof.Machine

/-- The modes in which sessions and release run (R373). -/
def sessionModes : List Nat := [3, 4, 5, 6]

/-! PAIR (R374, R375, Table 17-1) -/

/-- A command of the endpoints: the record is paired with a role. -/
def needPaired (s : State) (n : Nat) : Option Reply := needState (endpointOf s n).paired 1

/-- Another record holds an EUI. -/
def euiTaken (s : State) (n eui : Nat) : Bool := s.sessions.endpoints.any fun e => e.1 != n && e.2.paired && e.2.eui == eui

/-- A running RELEASE object names an endpoint. -/
def releaseNames (s : State) (n : Nat) : Bool := [0, 1, 2, 3].any fun k => armed (targetOf s k) && (targetOf s k).ep == n

/-- The checks of R88 and Table 17-2. The reserved bits [7:1] of CHECK must be 0 in an unpair too, though an unpair reads no more of it, nor
ROLE, EUI and KEY_SRC (DESIGN CHOICE, notes/assumptions/97.md). -/
def checkPair (s : State) (c : Cmd) : Option Reply :=
  let n := cmdIdx c
  let pair := par c 8 == 0
  firstFail (needObject [8] c :: needHeader c ++
    [needField 8 (par c 8 < 2), needField 9 (!pair || (1 ≤ par c 9 && par c 9 ≤ 3)), needField 10 (par c 10 < 2)] ++
    needZeros c 11 11 ++ [needField 20 (!pair || inScratch (parN c 20 3) 16)] ++ needZeros c 23 31 ++
    [needMode s sessionModes, if pair then none else needPaired s n, needState (!pair || !(endpointOf s n).paired) 2,
     needState (!pair || !euiTaken s n (parN c 12 8)) 8, needState (pair || !releaseNames s n) 0x0A,
     if pair then none else needAccess (fraction s.cellar 2 != 3) (refuse 2 1)])

/-- PAIR copies and zeroes the key and clears TX_LOW, then runs its check or writes the record; an unpair ends the session and writes a
tombstone. With no check the spec gives RTT_RES and RSSI no value: free values. -/
def runPair (margin : Int) (s : State) (c : Cmd) : State :=
  let n := cmdIdx c
  let c := { c with prot := fraction s.cellar 2 == 3 }
  let s := modCmd s c.seq fun d => { d with prot := c.prot }
  if par c 8 = 0 then
    let key := memGets s (parN c 20 3) 16
    let s := devPuts s (parN c 20 3) (List.replicate 16 0)
    let s := epSet n 0 3 0 (modEndpoint s n fun e => { e with cntOut := false })
    if bit (par c 10) 0 then
      serve (startCheck n (.pair c.seq) (endpointOf s n).checkTries (some margin) key (parN c 12 8) s)
    else
      let (a, s) := draw (2 ^ 16) s
      let (b, s) := draw (2 ^ 16) s
      writePairing c 0 (ofTwos 2 a) (ofTwos 2 b) key s
  else
    let had := (endpointOf s n).session
    let s := endSession n 4 s
    let s := modCmd s c.seq fun d => { d with result := [lowByte (flagNat had)] }
    serve (issueWrite s c.seq (0x8000 + n) true [])

def execPair (seq : Nat) (margin : Int) (s : State) : Host.Outcome State Fault Refusal :=
  .next (startCmd s seq 0x40 checkPair (runPair margin))

/-- The record of a PAIR is committed: the endpoint is paired, its sensor closed (R385), or forgotten. -/
def pairWritten (c : Cmd) (s : State) : State :=
  let n := cmdIdx c
  if par c 8 = 0 then
    modEndpoint s n fun e => { e with role := par c 9, eui := parN c 12 8, paired := true, winReport := false }
  else modEndpoint s n fun e => { e with role := 0, eui := 0, paired := false, winReport := false, cntOut := false }

/-! SESSION_CFG (R382, Table 17-5) -/

/-- The window input that the fields of a SESSION_CFG name reads open. -/
def cfgWindowOpen (s : State) (c : Cmd) : Bool :=
  (bit (par c 9) 4 && s.sessions.winPin) || (par c 10 < 128 && (endpointOf s (par c 10)).winReport)

def checkSessionCfg (s : State) (c : Cmd) : Option Reply :=
  let n := cmdIdx c
  let e := endpointOf s n
  let op := par c 8
  let stores := op == 0 || op == 3
  let period := if parN c 12 2 = 0 then 300 else parN c 12 2
  let timeout := if parN c 14 4 = 0 then 1800 else parN c 14 4
  firstFail (needObject [8] c :: needHeader c ++
    [needField 8 (op < 4), needField 9 (par c 9 < 32), needField 10 (!stores || par c 10 < 128 || par c 10 == 0xFF),
     needField 11 (!stores || par c 11 ≤ 5),
     needField 12 (!stores || (60 ≤ period && period ≤ 3600 && period < timeout)),
     needField 14 (!stores || (120 ≤ timeout && timeout ≤ 86400))] ++ needZeros c 18 31 ++
    [needMode s sessionModes, needPaired s n, needState (!stores || e.role != 3) 3, needState (op != 0 || !e.session) 4,
     needState (op != 0 || !cfgWindowOpen s c) 5, needState (op == 1 || op == 3 || txLow s n < 0xFFFFFF) 7])

/-- The fields that OP 0 and OP 3 store. -/
def storeSession (c : Cmd) (e : Endpoint) : Endpoint :=
  { e with targetMask := par c 9 % 16, useWinPin := bit (par c 9) 4, windowEp := par c 10,
           checkTries := if par c 11 = 0 then 3 else par c 11, checkPeriod := if parN c 12 2 = 0 then 300 else parN c 12 2,
           timeout := if parN c 14 4 = 0 then 1800 else parN c 14 4 }

/-- A check with the key and EUI of an endpoint's record. -/
def checkRecordOf (n : Nat) (purpose : CheckFor) (margin : Int) (s : State) : State :=
  let e := endpointOf s n
  startCheck n purpose e.checkTries (some margin) (epKey s n) e.eui s

def runSessionCfg (margin : Int) (s : State) (c : Cmd) : State :=
  let n := cmdIdx c
  match par c 8 with
  | 0 => serve (checkRecordOf n (.start c.seq) margin (modEndpoint s n (storeSession c)))
  | 1 => serve (complete c.seq 0x00 [] (endSession n 4 s))
  | 2 => serve (checkRecordOf n (.now c.seq) margin s)
  | _ =>
    let s := modEndpoint s n (storeSession c)
    serve (complete c.seq 0x00 [] (if (endpointOf s n).useWinPin && s.sessions.winPin then endSession n 2 s else refreshDemand s))

def execSessionCfg (seq : Nat) (margin : Int) (s : State) : Host.Outcome State Fault Refusal :=
  .next (startCmd s seq 0x41 checkSessionCfg (runSessionCfg margin))

/-! RELEASE_START and RELEASE_STOP (R386) -/

def checkReleaseStart (s : State) (c : Cmd) : Option Reply :=
  let k := cmdIdx c
  let e := endpointOf s (par c 8)
  let i := parN c 12 2
  firstFail (needObject [9] c :: needHeader c ++
    [needField 8 (par c 8 < 128), needField 9 (par c 9 < 2), needField 10 (par c 10 ≤ 100)] ++ needZeros c 11 11 ++
    [needField 12 (i == 0 || (60 ≤ i && i ≤ 600))] ++ needZeros c 14 31 ++
    [needMode s sessionModes, needPaired s (par c 8), needState (e.role == 3) 3, needState s.modes.epochOk 6,
     needState (txLow s (par c 8) < 0xFFFFFF) 7,
     needState (!List.any [0, 1, 2, 3] fun j => j != k && armed (targetOf s j) && (targetOf s j).ep == par c 8) 9])

/-- RELEASE_START arms its target: with demand the command waits for the first attempt. -/
def runReleaseStart (s : State) (c : Cmd) : State :=
  let k := cmdIdx c
  let was := armed (targetOf s k)
  let s := modTarget s k fun t =>
    { t with ep := par c 8, requireSession := bit (par c 9) 0, level := par c 10,
             interval := if parN c 12 2 = 0 then 120 else parN c 12 2 }
  if was then serve (refreshDemand (complete c.seq 0x00 [2] s))
  else
    let s := modTarget s k fun t => { t with state := .waiting }
    if hasDemand s k then startSchedule k s else complete c.seq 0x00 [1] s

def execReleaseStart (seq : Nat) (s : State) : Host.Outcome State Fault Refusal :=
  .next (startCmd s seq 0x42 checkReleaseStart runReleaseStart)

def checkReleaseStop (s : State) (c : Cmd) : Option Reply :=
  firstFail (needObject [9] c :: needHeader c ++ [needField 8 (par c 8 < 2)] ++ needZeros c 9 31 ++ [needMode s sessionModes])

/-- A target is disarmed: its frames that wait are dropped, REQUIRE_SESSION, EP, LEVEL and INTERVAL_S stand. -/
def disarm (k : Nat) (s : State) : State :=
  dropTx (fun j => isRelease k false j || (isRelease k true j && j.margin.isNone))
    (modTarget s k fun t => { t with state := .idle, retry := false, denied := false })

/-- RELEASE_STOP disarms, after one STOP frame where SEND_STOP asks for it. -/
def runReleaseStop (margin : Int) (s : State) (c : Cmd) : State :=
  let k := cmdIdx c
  let was := armed (targetOf s k)
  let s := disarm k s
  if was && bit (par c 8) 0 then serve (pushTx (newTx (.release k true) (some margin)) s)
  else serve (complete c.seq 0x00 [] s)

def execReleaseStop (seq : Nat) (margin : Int) (s : State) : Host.Outcome State Fault Refusal :=
  .next (startCmd s seq 0x43 checkReleaseStop (runReleaseStop margin))

/-! Events -/

/-- RESPONSE_TIMEOUT: the response window of a try ends. -/
def execResponseTimeout (s : State) : Host.Outcome State Fault Refusal :=
  match s.sessions.checks with
  | c :: _ => .next (if c.windowOpen && c.until_ ≤ s.clocks.sc then serve (windowEnds s) else s)
  | [] => .next s

/-- SESSION_CHECK: a periodic check of a session falls due (R383). -/
def execSessionCheck (ep : Nat) (margin : Int) (s : State) : Host.Outcome State Fault Refusal :=
  let e := endpointOf s ep
  if e.session && e.nextCheck ≤ counterSeconds s then
    .next (serve (checkRecordOf ep .periodic margin (modEndpoint s ep fun e => { e with nextCheck := e.nextCheck + e.checkPeriod })))
  else .next s

/-- SESSION_TIMEOUT: the counter passes EXPIRES (Table 17-6). -/
def execSessionTimeout (ep : Nat) (s : State) : Host.Outcome State Fault Refusal :=
  let e := endpointOf s ep
  .next (if e.session && e.expires * countsPerSecond < s.clocks.sc then serve (endSession ep 1 s) else s)

/-- The target's frame waits or is on air. -/
def frameUnderWay (s : State) (k : Nat) : Bool := s.link.txs.any (isRelease k false)

/-- RELEASE_DUE: the attempt of a due time, begun up to the 20 ms before it that R388 leaves for its steps. -/
def execReleaseDue (target : Nat) (margin : Int) (s : State) : Host.Outcome State Fault Refusal :=
  let t := targetOf s target
  if t.state == .sending && !t.retry && !t.denied && !frameUnderWay s target && t.nextDue ≤ s.clocks.sc + microsCounts 20000 then
    .next (serve (pushTx (newTx (.release target false) (some margin)) s))
  else .next s

/-- RELEASE_RETRY: the delay after CHANNEL_BUSY or NO_LOCK is over. -/
def execReleaseRetry (target : Nat) (s : State) : Host.Outcome State Fault Refusal :=
  let t := targetOf s target
  if t.state == .sending && t.retry && t.retryAt ≤ s.clocks.sc && !frameUnderWay s target then
    let s := modTarget s target fun t => { t with retry := false, busyRetries := bump 2 t.busyRetries 1 }
    .next (serve (pushTx (newTx (.release target false) none) s))
  else .next s

/-- RELEASE_SKIP: the frame was not sent by its due time plus half INTERVAL_S (R388). -/
def execReleaseSkip (target : Nat) (s : State) : Host.Outcome State Fault Refusal :=
  let t := targetOf s target
  if t.state == .sending && !releaseOnAir s target && t.nextDue + t.interval * countsPerSecond / 2 ≤ s.clocks.sc then
    let s := dropTx (isRelease target false) s
    let s := modTarget s target fun t =>
      { t with missed := bump 2 t.missed 1, dutyMisses := bump 2 t.dutyMisses (flagNat (t.denied && t.lastStatus == 0x40)) }
    let s := { s with sessions := { s.sessions with skips := bump 2 s.sessions.skips 1 } }
    .next (serve (raise .releaseEvent (nextDueTime target s)))
  else .next s

/-- WIN_OPEN: the debounced level changes (R385); without VIO it is not seen (R37). -/
def execWinOpen (level : Bool) (s : State) : Host.Outcome State Fault Refusal :=
  if s.power.vioValid then
    let s := { s with sessions := { s.sessions with winPin := level } }
    .next (if level && ready s then serve (endSessions 2 (fun e => e.2.useWinPin) s) else s)
  else .next s

end Sys2Proof.Machine
end

