-- ==== Sys2Proof/Machine/Tasting.lean ====
section
/-!
DEFINITION. The tasting commands and the tasting unit's own steps (chapter 13): arming, viewing, a tasting's start, its time limits
and the switch-over.
-/
namespace Sys2Proof.Machine

/-! TASTE_ARM (R299) -/

def checkTasteArm (s : State) (c : Cmd) : Option Reply :=
  let op := par c 8
  let lane := par c 14
  let set := op == 0
  let dab := (laneOf s lane).cur.engKind == 3
  let taken : Bool := match entryOf s lane with
    | some e => e != par c 9
    | none => false
  firstFail (needObject [4] c :: needHeader c ++
    [needField 8 (op < 4), needField 9 (1 < op || par c 9 < 8),
     needField 10 ((op != 3 || (1 ≤ par c 10 && par c 10 ≤ 64)) && !(set && lane < 64 && dab && parN c 10 4 == 0)),
     needField 11 (op != 3 || (1 ≤ par c 11 && par c 11 ≤ 16)), needField 14 (!set || lane < 64),
     needField 15 (!set || 1 ≤ par c 15), needField 16 (!set || par c 16 ≤ 80), needField 17 (!set || (1 ≤ par c 17 && par c 17 ≤ 8)),
     needField 18 (!set || (1 ≤ par c 18 && par c 18 ≤ 60)), needField 19 (!set || 5 ≤ par c 19)] ++ needZeros c 20 31 ++
    [needMode s [4, 5], needState (!set || followable s lane) 4, needState (!set || !taken) 5])

/-- The entry an OP 0 writes. -/
def armedEntry (s : State) (c : Cmd) : Follow :=
  { valid := true, lane := par c 14, kind := (laneOf s (par c 14)).cur.engKind, ident := parN c 10 4, goodRun := par c 15,
    margin := par c 16, perFollow := par c 17, idTimeout := par c 18, dwellMax := par c 19 }

/-- Ends the highest-numbered tasting lanes until no more than MAX_TASTE are under way. -/
def fitTastings : Nat → State → State
  | 0, s => s
  | k + 1, s =>
    if s.taste.maxTaste < s.taste.tastings.length then
      fitTastings k (endTasting 4 ((s.taste.tastings.map (·.1)).foldl max 0) s)
    else s

def runTasteArm (s : State) (c : Cmd) : State :=
  let e := par c 9
  let before := s.taste.tastings.length
  let s := match par c 8 with
    | 0 =>
      let s := clearEntry e s
      { s with taste := { s.taste with follows := tabSet s.taste.follows e (armedEntry s c) } }
    | 1 => clearEntry e s
    | 2 => forAll (List.range 8) (fun s e => clearEntry e s) s
    | _ => fitTastings 64 { s with taste := { s.taste with maxTaste := par c 10, mustCap := par c 11 } }
  complete c.seq 0x00 [lowByte e, lowByte (before - s.taste.tastings.length)] s

def execTasteArm (seq : Nat) (s : State) : Host.Outcome State Fault Refusal :=
  .next (startCmd s seq 0x18 checkTasteArm runTasteArm)

/-! TASTE_VIEW (R312, R313) -/

def checkTasteView (s : State) (c : Cmd) : Option Reply :=
  let release := bit (par c 9) 0
  let max_ := parN c 13 2
  firstFail (needObject [4] c :: needHeader c ++
    [needField 8 (par c 8 < 64 || par c 8 == 0xFF), needField 9 (par c 9 < 2),
     needField 10 (release || inScratch (parN c 10 3) (16 * max_)), needField 13 (release || (1 ≤ max_ && max_ ≤ 2048))] ++
    needZeros c 15 31 ++ [needMode s [4, 5]])

/-- Releases every pin. -/
def releasePins (s : State) : State :=
  { s with taste := { s.taste with
      pinned := [],
      tastings := s.taste.tastings.map fun t => (t.1, { t.2 with items := t.2.items.map fun m => { m with pinned := false } }) } }

/-- A view entry (Table 13-9). -/
def viewEntry (lane tgen : Nat) (m : MustItem) : List Byte :=
  leBytes m.addr 3 ++ [lowByte lane] ++ leBytes (mustLen m) 2 ++ leBytes tgen 2 ++ [1, lowByte m.item.kind, 0, 0] ++
    leBytes m.item.iseq 4

/-- The view entries of the selected tastings so far: bytes written, items left to write, bytes pinned. -/
structure View where
  out : List Byte
  left : Nat
  pinned : Nat
  count : Nat
  deriving DecidableEq, Repr

/-- One tasting's items described and pinned. -/
def viewTasting (acc : State × View) (lane : Nat) : State × View :=
  let (s, v) := acc
  match tastingOf s lane with
  | none => acc
  | some t =>
    let shown := t.items.take v.left
    let items := shown.map (fun m => { m with pinned := true }) ++ t.items.drop v.left
    (setTasting s lane { t with items := items },
     { out := v.out ++ (shown.map (viewEntry lane t.tgen)).flatten, left := v.left - shown.length,
       pinned := v.pinned + (shown.map mustLen).sum, count := v.count + shown.length })

def runTasteView (s : State) (c : Cmd) : State :=
  let s := releasePins s
  let under := lowByte s.taste.tastings.length
  if bit (par c 9) 0 then complete c.seq 0x00 [0, 0, 0, 0, 0, 0, under] s
  else
    let lanes := if par c 8 = 0xFF then List.range 64 else [par c 8]
    let (s, v) := lanes.foldl viewTasting (s, { out := [], left := parN c 13 2, pinned := 0, count := 0 })
    complete c.seq 0x00 (leBytes v.count 2 ++ leBytes v.count 2 ++ leBytes ((v.pinned + 1023) / 1024) 2 ++ [under])
      (devPuts s (parN c 10 3) v.out)

def execTasteView (seq : Nat) (s : State) : Host.Outcome State Fault Refusal :=
  .next (startCmd s seq 0x19 checkTasteView runTasteView)

/-! A tasting's start and its time limits (R301, R303) -/

/-- The parameters of a tasting engine: the followed engine's with FOLLOW_AF and AUDIO_EN 0, and PI_EXPECT the identity (R301). -/
def tasteParams (s : State) (f : Follow) (x : LaneSet) : List Byte :=
  let byte (k : Nat) : Nat := engPar x k
  match f.kind with
  | 1 =>
    let id := identityOf s f
    spliceAt (spliceAt x.params 2 [lowByte (byte 12 % 4 + byte 12 / 16 * 16)]) 8 (leBytes id 2)
  | 2 => spliceAt x.params 1 [lowByte (byte 11 / 2 * 2)]
  | _ => spliceAt x.params 0 [lowByte (byte 10 / 2 * 2)]

/-- No path-interrupting calibration or self-test holds a path. -/
def pathFree (s : State) (p : Nat) : Bool := (pathOf s p).job.isNone

/-- Begins the tasting of a candidate on a lane with an engine. -/
def beginTasting (e n idx at_ hz : Nat) (s : State) : State :=
  let f := followOf s e
  let x := (laneOf s f.lane).cur
  let set : LaneSet := { freqHz := hz, rate := x.rate, preset := x.preset, blockLen := x.blockLen, detSrc := x.detSrc, engKind := f.kind,
                         engIndex := idx, params := tasteParams s f x }
  let t : Tasting := { state := 1, entry := e, kind := f.kind, engIndex := idx, tgen := s.taste.tgenNext, freqHz := hz, run := 0,
                       started := s.clocks.sc, matchedAt := 0, items := [], rolled := 0, afTaken := false }
  let len := (candidateList s f).length
  let s := bindLane n .tasting (laneOf s f.lane).path set s
  let s := modFollow s e fun f => { f with nextCand := (at_ + 1) % len }
  { s with taste := { s.taste with tgenNext := nextGen s.taste.tgenNext, tastings := s.taste.tastings ++ [(n, t)] } }

/-- TASTING_START: the next candidate of an entry, when R301 lets one start. -/
def execTastingStart (entry : Nat) (s : State) : Host.Outcome State Fault Refusal :=
  let f := followOf s entry
  if ready s && [4, 5].contains (modeNow s) && f.valid && followable s f.lane && (laneOf s f.lane).cur.engKind == f.kind &&
      tastingsOf s entry < f.perFollow && s.taste.tastings.length < s.taste.maxTaste && pathFree s (laneOf s f.lane).path then
    match nextCandidate s entry, borrowable s f.kind with
    | some (i, hz), some (n, idx) => .next (beginTasting entry n idx i hz s)
    | _, _ => .next s
  else .next s

/-- ID_TIMEOUT: seconds have passed in ACQUIRING. -/
def execIdTimeout (lane : Nat) (s : State) : Host.Outcome State Fault Refusal :=
  match tastingOf s lane with
  | some t =>
    if t.state == 1 && t.started + (followOf s t.entry).idTimeout * countsPerSecond ≤ s.clocks.sc then .next (endTasting 2 lane s)
    else .next s
  | none => .next s

/-- Another candidate of an entry waits for want of a lane, an engine or a tasting place. -/
def candidateWaits (s : State) (e : Nat) : Bool :=
  let f := followOf s e
  (nextCandidate s e).isSome &&
    (f.perFollow ≤ tastingsOf s e || s.taste.maxTaste ≤ s.taste.tastings.length || (borrowable s f.kind).isNone)

/-- DWELL_MAX: seconds have passed in MATCHED while another candidate waits. -/
def execDwellMax (lane : Nat) (s : State) : Host.Outcome State Fault Refusal :=
  match tastingOf s lane with
  | some t =>
    if t.state == 2 && t.matchedAt + (followOf s t.entry).dwellMax * countsPerSecond ≤ s.clocks.sc && candidateWaits s t.entry then
      .next (endTasting 3 lane s)
    else .next s
  | none => .next s

/-! The switch-over (R307 to R309, Table 13-3) -/

/-- Step 4: the followed lane on the tasting chain and engine, in its next generation. A pending set that changes FREQ_HZ, RATE, PRESET
or the engine stays pending on the new chain; any other merges. -/
def switchedLane (x t : Lane) : Lane :=
  let old := x.cur
  let move (l : LaneSet) : LaneSet :=
    { l with freqHz := if l.freqHz = old.freqHz then t.cur.freqHz else l.freqHz,
             engIndex := if l.engKind = old.engKind && l.engIndex = old.engIndex then t.cur.engIndex else l.engIndex }
  let gen := nextGen x.gen
  let attach := x.pendEngine || x.synced.any (·.2.2)
  let (cur, pending) := match waitingSet x with
    | none => (move old, none)
    | some p =>
      if p.freqHz == old.freqHz && p.rate == old.rate && p.preset == old.preset && !attach then (move p, none)
      else (move old, some (move p))
  { x with cur := cur, pending := pending, pendEngine := pending.isSome && attach, synced := none, shortNext := false, gen := gen,
           genPending := if pending.isSome then nextGen gen else gen, ncoWord := t.ncoWord, settling := settleCount cur,
           chain := t.chain, touched := t.touched, causeEnd := t.causeEnd, gaps := t.gaps, quals := t.quals, idle := false }

/-- The AF list after step 4: the tasting engine's own when it accepted one, and otherwise the one the followed lane held. -/
def carryAf (kind old new : Nat) (taken : Bool) (s : State) : State :=
  match kind with
  | 1 => if taken then s else modAnalogue s new fun a =>
      { a with af := (analogueOf s old).af, afPrev := (analogueOf s old).afPrev }
  | k => modEng s k new fun e => { e with af := (engOf s k old).af, afPrev := (engOf s k old).afPrev }

/-- Which must items are newer than their watermarks, in completion order (R308). -/
def rackCount (marks : List (Nat × Nat × Nat)) : List MustItem → Nat
  | [] => 0
  | m :: ms =>
    match markOf marks (itemKey m.item) with
    | some w =>
      if newerThan m.item.iseq w then 1 + rackCount (setMark marks (itemKey m.item) m.item.iseq) ms else rackCount marks ms
    | none => 1 + rackCount marks ms

/-- TASTE_SWITCH (Table 13-10). -/
def switchItem (lane gen stamp oldHz newHz tgen borrowed racked skipped rolled : Nat) : Item :=
  { kind := 0x50, lane := lane, gen := gen, iseq := 0, stamp := stamp,
    payload := padTo 32 (leBytes oldHz 4 ++ leBytes newHz 4 ++ leBytes tgen 2 ++ [lowByte borrowed, lowByte (min 0xFF racked)] ++
      leBytes (min 0xFFFF skipped) 2 ++ leBytes (min 0xFFFF rolled) 2) }

/-- A racked item delivered as the followed lane's own (step 5). -/
def rackItem (lane gen : Nat) (s : State) (m : MustItem) : State :=
  deliverGated { m.item with lane := lane, gen := gen } m.field s

/-- Steps 2 to 4: the two lanes exchange chains, the old engine returns to its pool. -/
def switchLanes (t : Tasting) (lane follow : Nat) (s : State) : State :=
  let x := laneOf s follow
  let tl := laneOf s lane
  releaseEngine t.kind x.cur.engIndex
    (setLane (setLane (carryAf t.kind x.cur.engIndex t.engIndex t.afTaken (joinAudio follow s)) follow (switchedLane x tl)) lane (keepStats tl))

/-- The tasting ends, its items racked or discarded, and the counters of the switch advance. -/
def countSwitch (t : Tasting) (lane left lost racked : Nat) (s : State) : State :=
  let u := modFollow s t.entry fun f => { f with marks := f.last, last := [], left := some left, switches := bump 4 f.switches 1 }
  { u with taste := { u.taste with
    tastings := u.taste.tastings.filter fun y => y.1 != lane, pinned := u.taste.pinned ++ t.items.filter (·.pinned),
    switches := bump 4 u.taste.switches 1, switchDiscards := bump 4 u.taste.switchDiscards lost,
    rackedDelivered := bump 4 u.taste.rackedDelivered racked } }

/-- Step 6: the other tastings of the entry whose candidates left the list end; a DAB lane's sub-channel is admitted. -/
def settleSwitch (t : Tasting) (follow : Nat) (s : State) : State :=
  let l := candidateList s (followOf s t.entry)
  let u := endTastings 7 (fun _ y => y.entry == t.entry && !l.contains y.freqHz) (occupiedNow s)
  raise .tasteEvent (if t.kind = 3 then admitSubch (placeNow u follow) u else u)

/-- SWITCH_OVER: steps 2 to 6 at the tasting lane's block boundary. How many items the old engine would have completed later the spec
leaves to the signal: SWITCH_DISCARDS advances by a free value. -/
def execSwitchOver (lane stamp : Nat) (s : State) : Host.Outcome State Fault Refusal :=
  match tastingOf s lane with
  | none => .next s
  | some t =>
    if t.state != 3 then .next s
    else
      let f := followOf s t.entry
      let x := laneOf s f.lane
      let gen := (switchedLane x (laneOf s lane)).gen
      let lost := draw (2 ^ 32) s
      let racked := rackCount f.last t.items
      .next (settleSwitch t f.lane (t.items.foldl (rackItem f.lane gen)
        (deliverItem (switchItem f.lane gen stamp x.cur.freqHz t.freqHz t.tgen lane racked (t.items.length - racked) t.rolled) none
          (countSwitch t lane x.cur.freqHz lost.1 racked (switchLanes t lane f.lane lost.2)))))

end Sys2Proof.Machine
end

