-- ==== Sys2Proof/Machine/ModeOps.lean ====
section
/-!
DEFINITION. A mode change (Table 6-1): its request and step 2, what it waits for, what it stops and starts (Table 6-3, R118, R124 to R127,
R314, R333), and its arrival.
-/
namespace Sys2Proof.Machine

/-! Steps 1 and 2 -/

/-- A lane is host-bound on path L or V with a time source in force (R126). -/
def timeSource (s : State) (n : Nat) : Bool :=
  let x := laneOf s n
  x.hold == .host && x.path < 2 &&
    match x.cur.engKind with
    | 1 => (engPar x.cur 10 == 3 || engPar x.cur 10 == 4) && bit (engPar x.cur 12) 0
    | 2 | 4 => true
    | _ => false

/-- Sessions and release end (R28): targets are disarmed, sessions end with cause MODE, periodic checks go, and the records take their
values at rest. -/
def endRelease (s : State) : State :=
  let s := forAll [0, 1, 2, 3] (fun s k => disarm k s) s
  let s := endSessions 5 (fun _ => true) s
  let first := (s.sessions.checks.take 1).any fun c => (checkSeq c.purpose).isNone
  let s := if first then dropTx isCheckTx s else s
  releaseAtRest { s with sessions := { s.sessions with checks := s.sessions.checks.filter fun c => (checkSeq c.purpose).isSome } }

/-- The running commands whose function the target does not run are asked to stop (R96). -/
def stopUnrun (m : Nat) (s : State) : State := stopAll 3 (fun c => !(opModes c).contains m) s

/-- Step 2: what the target does not run is asked to stop. -/
def leaveMode (m : Nat) (s : State) : State :=
  let s := stopUnrun m s
  let s := if m = 4 || m = 5 then s else releasePins (endTastings 9 (fun _ _ => true) s)
  let s := if m = 5 then s else rampDown 1 (rampDown 0 s)
  serve (if m < 3 then endRelease s else s)

/-- A request is refused: MODE_ERR says why (R122). -/
def refuseMode (code : Nat) (s : State) : State := raise .modeEvent { s with modes := { s.modes with modeErr := code } }

/-- Step 1 for a new target, and step 2 once it is accepted (R126, R127). -/
def requestMode (m : Nat) (s : State) : State :=
  let x := s.modes
  if m < 3 && !x.x32Ok then refuseMode 1 s
  else if m = 2 && !timeSource s x.ktLane then refuseMode 2 s
  else
    let x := { x with target := some m, modeErr := 0 }
    let x := if m = 2 then { x with ktLaneUsed := x.ktLane, ktPeriodUsed := x.ktPeriod, ktListenUsed := x.ktListen } else x
    leaveMode m { s with modes := x }

/-- A MODE_REQ write of a code from 1 to 6: kept for the end of a change under way (R123), or a request (R121). -/
def takeModeReq (m : Nat) (s : State) : State :=
  let s := { s with modes := { s.modes with modeReq := m } }
  match s.modes.target with
  | some _ => { s with modes := { s.modes with queued := some m } }
  | none => if m = modeNow s then s else requestMode m s

/-- What step 2 still waits for: commands at their stopping points, ports to be silent, a packet on air. -/
def changeWaits (m : Nat) (s : State) : Bool :=
  s.rings.inflight.any (fun c => hasStarted c && !(opModes c).contains m) || (m != 5 && anySapRuns s) ||
    (m < 3 && s.link.txs.any fun j => j.stage == .onAir)

/-! Steps 3 and 4 -/

/-- A lane that stops: its block in progress is given up with what touched it, a set that a synchronisation took waits with any later one. -/
def haltLane (x : Lane) : Lane :=
  clearLane { x with running := false, idle := true, shortNext := false, shed := false, touched := 0,
                     pending := waitingSet x, pendEngine := x.pendEngine || x.synced.any (·.2.2), synced := none }

/-- A lane stops; an unbind that waited for its boundary takes effect. -/
def stopLane (n : Nat) (s : State) : State :=
  if (laneOf s n).unbind then unbindNow n s
  else
    let x := (laneOf s n).cur
    let s := if x.engKind = 4 then modLf s x.engIndex lfRest else s
    capShed (modLane s n haltLane)

/-- Stops the host-bound lanes that a condition selects. -/
def stopLanes (p : Nat → Bool) (s : State) : State :=
  forAll ((s.lanes.filter fun e => e.2.hold == .host && e.2.running && p e.1).map (·.1)) (fun s n => stopLane n s) s

/-- Both shed levels become 0 (R118). -/
def clearShed (s : State) : State :=
  { s with fabric := { s.fabric with
    shedLevelL := 0, shedLevelV := 0, raiseWaitL := none, raiseWaitV := none, lowerWaitL := none, lowerWaitV := none } }

/-- Lane and engine settings are lost in PARKED (R29, Table 6-8): an LF decoder's last frame stands (Table 11-9). -/
def discardLanes (s : State) : State :=
  { s with lanes := [], statLatch := {}, analogue := [], drm := [], dab := [], lfDescs := [],
           lf := s.lf.map fun e => (e.1, { lastFrame := e.2.lastFrame }) }

/-- Paths, CPLL and synthesisers stop, the counter goes on with the oscillator, the link and its windows are off (Table 6-1 step 4). A
reference change that still waits ends with WRONG_MODE (R150). -/
def stopClocks (m : Nat) (s : State) : State :=
  let s := forAll [0, 1, 2] (fun s p => pathOff p s) s
  let s := match s.clocks.stage with
    | .waiting q => complete q 0x14 [lowByte m] s
    | _ => s
  { s with clocks := { s.clocks with
    locked := false, refCheck := false, stage := .idle, scOnX32 := s.modes.x32Ok, scHeld := s.clocks.scHeld || !s.modes.x32Ok } }

/-- Entering PARKED or KEEPTIME. -/
def enterLow (m : Nat) (s : State) : State :=
  let s := discardEnvelopes (stopClocks m s)
  if m = 1 then
    let s := discardLanes s
    { s with fabric := { s.fabric with pace := 0, vcore := 0, quietTicks := 0, windowLow := 0 },
             clocks := { s.clocks with secondDone := counterSeconds s } }
  else s

/-! Steps 5 and 6 -/

/-- The host-bound lanes that LISTEN runs: the eight of lowest LOSS_RANK, the lower number first within one (R125). -/
def keptLanes (s : State) : List Nat :=
  ([0, 1, 2, 3, 4, 5, 6, 7].map fun r =>
    (s.lanes.filter fun e => e.2.hold == .host && e.2.cur.lossRank == r).map (·.1)).flatten.take 8

/-- Lanes held on entering LISTEN, in HELD_MASK and LISTEN_HELD, with MODE_ERR 0x03 unless an oscillator stop stands there (R125, R127). -/
def holdLanes (s : State) : State :=
  let kept := keptLanes s
  let held := (s.lanes.filter fun e => e.2.hold == .host && !kept.contains e.1).map (·.1)
  let mask := held.foldl (fun m n => m ||| (1#64 <<< n)) 0#64
  { s with modes := { s.modes with
    heldMask := mask, listenHeld := held.length,
    modeErr := if held.isEmpty || s.modes.modeErr = 4 then s.modes.modeErr else 3 } }

/-- A lane starts: its first block begins at the count `at_` (R215, R230). -/
def startLane (at_ : Nat) (x : Lane) : Lane := { x with running := true, idle := true, startAt := at_, shed := false }

/-- Every host-bound lane that the mode in force runs is started; how soon its first block begins the spec leaves open: free values (DESIGN CHOICE,
notes/assumptions/95.md). -/
def startLanes (s : State) : State :=
  { s with lanes := s.lanes.map (fun e =>
             if e.2.hold == .host && !e.2.running && modeRuns s e.1 then
               (e.1, startLane (s.clocks.sc + Config.freeNat (s.fresh + e.1)) e.2)
             else e)
           fresh := s.fresh + 64 }

/-- Paths L and V that have been tuned start from OFF (R173). -/
def startPaths (s : State) : State :=
  forAll [0, 1] (fun s p => if (pathOf s p).fe.tuned && (pathOf s p).fe.state == .off then startPath p s else s) s

/-- Follow entries whose lane no longer meets R299 are cleared when tasting starts again (R314). -/
def dropEntries (s : State) : State :=
  let bad := (s.taste.follows.filter fun e => e.2.valid && !followable s e.2.lane).map (·.1)
  let s := forAll bad (fun s e => clearEntry e s) s
  { s with taste := { s.taste with entriesDropped := bump 1 s.taste.entriesDropped bad.length } }

/-- Open slots are suspended in SERVICE and nowhere else (R333). -/
def suspendSlots (s : State) : State :=
  { s with slots := { s.slots with slots := s.slots.slots.map fun e =>
      if e.2.isOpen then (e.1, { e.2 with suspended := modeNow s == 6 }) else e } }

/-- The fabric leaves PARKED's rest: its first pace window and governor tick begin (R103). -/
def leaveRest (m : Nat) (s : State) : State :=
  if modeNow s = 1 && m != 1 then
    { s with fabric := { s.fabric with windowStart := s.clocks.sc, windowLow := s.fabric.vcore, tickStart := s.clocks.sc } }
  else s

/-- MODE_NOW takes the target; in KEEPTIME the first listen is due at once, elsewhere none (R126). -/
def setMode (m : Nat) (s : State) : State :=
  let s := leaveRest m s
  { s with modes := { s.modes with
    modeNow := m, target := none, ktNext := if m = 2 then some s.clocks.sc else none, ktEnd := none } }

/-- What the new mode starts (Table 6-3). -/
def startMode (m : Nat) (s : State) : State :=
  let s := if m = 3 then holdLanes s
    else if m = 4 || m = 5 then { s with modes := { s.modes with heldMask := 0, listenHeld := 0 } }
    else s
  let s := stopLanes (fun n => !modeRuns s n) s
  let s := if m < 3 then s else startLanes (startPaths s)
  let s := suspendSlots (clearShed s)
  let s := if m = 4 || m = 5 then dropEntries s else s
  if m = 5 then s else aoutFall s

/-- Step 6: the mode is in force; the request that waited follows (R123). -/
def arrive (m : Nat) (s : State) : State :=
  let s := serve (raise .modeEvent (startMode m (setMode m s)))
  match s.modes.queued with
  | some k => takeModeReq k { s with modes := { s.modes with queued := none } }
  | none => s

/-- The CPLL starts and locks (Table 6-1 step 5); one that runs already is handed the counter at once. -/
def startClocks (m : Nat) (s : State) : State :=
  if s.clocks.locked then arrive m (counterBack s)
  else { s with clocks := { s.clocks with stage := .locking none none } }

/-- The CPLL is starting for a boot, a mode change or a listen. -/
def cpllStarting (s : State) : Bool :=
  match s.clocks.stage with
  | .locking none _ | .restoring none => true
  | _ => false

end Sys2Proof.Machine
end

