-- ==== Sys2Proof/Machine/Clocks.lean ====
section
/-!
DEFINITION. TUNE of the CPLL (R146 to R150), the CPLL's locks (R144, R151), the 32.768 kHz oscillator (R127, R164), and the system counter's
holds and minutes (R337, R468).
-/
namespace Sys2Proof.Machine

/-! TUNE_CPLL (Table 7-3) -/

def doRef (c : Cmd) : Bool := bit (par c 8) 0

def doCk (c : Cmd) : Bool := bit (par c 8) 1

def doStep (c : Cmd) : Bool := bit (par c 8) 2

/-- The arrangement that the command names. -/
def refAsked (c : Cmd) : RefArr := { freq := par c 9, mult := par c 10, src := par c 11 }

/-- The output's divider, delay or enable is changed. -/
def ckChanges (s : State) (c : Cmd) : Bool :=
  let x := ckOf s (par c 12)
  doCk c && !(x.div == parN c 14 2 && x.delay == par c 16 && x.en == bit (par c 13) 0)

/-- The consumer of an output runs: SAP0, SAP1, or a port that takes microphones (R147). -/
def ckInUse (s : State) (n : Nat) : Bool :=
  match n with
  | 4 => sapRuns (sapOf s 0)
  | 5 => sapRuns (sapOf s 1)
  | _ => groupTaken s 0 || groupTaken s 1

/-- The output runs once the command's own setting is applied (R148). -/
def ckRuns (s : State) (c : Cmd) : Bool :=
  (if doCk c then bit (par c 13) 0 else (ckOf s (par c 12)).en) && (clocksRun s || doRef c)

def checkTuneCpll (s : State) (c : Cmd) : Option Reply :=
  let sel := doCk c || doStep c
  let refChange := doRef c && refAsked c != s.clocks.ref
  firstFail (needObject [3] c :: needHeader c ++
    [needField 8 (par c 8 < 8), needField 9 (!doRef c || par c 9 < 5), needField 10 (!doRef c || par c 10 < 3),
     needField 11 (!doRef c || par c 11 < 2), needField 12 (!sel || (4 ≤ par c 12 && par c 12 ≤ 6)),
     needField 13 (!doCk c || par c 13 < 2), needField 14 (!doCk c || (40 ≤ parN c 14 2 && parN c 14 2 ≤ 1023)),
     needField 16 (!doCk c || par c 16 < 64)] ++ needZeros c 19 31 ++
    [needMode s [3, 4, 5, 6], needIdle (!(refChange && anySapRuns s) && !(ckChanges s c && ckInUse s (par c 12))) 10,
     needState (!refChange || s.modes.x32Ok) 1, needState (!doStep c || ckRuns s c) 0])

/-- The command runs Table 7-4: another arrangement, or a relock while FAULT is 1 (R150). -/
def runsRefChange (s : State) (c : Cmd) : Bool := doRef c && (refAsked c != s.clocks.ref || s.clocks.fault)

/-- Step 1 of Table 7-4 waits: a TUNE or CAL_RUN that names a path or the link runs, or a packet is in progress. -/
def refBusy (s : State) : Bool :=
  packetOn s ||
    s.rings.inflight.any fun c =>
      hasStarted c && ((cmdOp c == 0x10 && cmdKind c == 2) || (cmdOp c == 0x30 && (cmdKind c == 2 || cmdKind c == 7)))

/-- Steps 2 and 3: the counter goes to the oscillator and CK0 to CK7 stop. Without the oscillator it holds. -/
def counterOff (s : State) : State :=
  { s with clocks := { s.clocks with scOnX32 := s.modes.x32Ok, scHeld := s.clocks.scHeld || !s.modes.x32Ok } }

/-- A path that runs loses its LO for the length of a reference change: its lanes deliver RETUNE blocks. -/
def suspendPath (s : State) (p : Nat) : State :=
  match (pathOf s p).fe.state with
  | .off | .noLock => s
  | .starting | .cal => modSynth s p stopSynth
  | _ => setFe p .retune (modSynth s p stopSynth)

/-- Steps 2 to 4 begin. -/
def startRef (s : State) (c : Cmd) : State :=
  let prev := s.clocks.ref
  let s := cutTransmission (forAll [0, 1, 2] suspendPath (counterOff s))
  forAll [0, 1, 2] (fun s p => trackZeros p s) { s with clocks := { s.clocks with
    ref := refAsked c, locked := false, refCheck := false, stage := .locking (some c.seq) (some prev) } }

/-- The settings of an output take effect (R147). -/
def applyCk (s : State) (c : Cmd) : State :=
  if doCk c then modCk s (par c 12) fun x => { x with div := parN c 14 2, delay := par c 16, en := bit (par c 13) 0 } else s

/-- The command runs: a reference change in the steps of Table 7-4, or at once its phase steps or its completion. R150 gives the parts of one
command no order: the output's settings apply first, even where the reference part then ends NO_LOCK, then the reference, then the phase
steps, which a NO_LOCK drops (DESIGN CHOICE, notes/assumptions/88.md). -/
def runTuneCpll (s : State) (c : Cmd) : State :=
  let s := applyCk (setPhase s c.seq .running) c
  if runsRefChange s c then startRef s c else serve (endCpllTune { s with clocks := { s.clocks with stage := .idle } } c)

/-- The CPLL is free for the TUNE: no other reference change stands; while the CPLL starts for a listen or a mode change, the mode that
is still in force refuses the TUNE (R149). -/
def cpllFree (s : State) (seq : Nat) : Bool :=
  s.clocks.stage == .idle || s.clocks.stage == .waiting seq || modeNow s < 3

/-- TUNE of the CPLL object. -/
def execTuneCpll (seq : Nat) (s : State) : Host.Outcome State Fault Refusal :=
  match startable s seq 0x10 with
  | none => .next s
  | some c =>
    if cmdKind c != 3 || !cpllFree s seq then .next s
    else match checkTuneCpll s c with
      | some r => .next (complete seq r.1 r.2 (dropStage seq s))
      | none =>
        if runsRefChange s c && refBusy s then .next { s with clocks := { s.clocks with stage := .waiting seq } }
        else .next (runTuneCpll s c)

/-- `k` phase steps of an output's request are applied: PHASE_PEND counts those still to apply (R148). -/
def stepCk (k : Nat) (x : CkOut) : CkOut :=
  let n : Int := min k x.pend.natAbs
  let d : Int := if x.pend < 0 then -n else n
  { x with pend := x.pend - d, applied := x.applied + d }

/-- Phase steps of CK4 or CK5 move the edges of the port that it clocks from the next frame on (R420). -/
def movePort (ck : Nat) (steps : Int) (s : State) : State :=
  if ck = 4 || ck = 5 then modSap s (ck - 4) fun x => { x with moved := x.moved ++ [(nextFrame s (ck - 4), steps)] } else s

/-- Applies `k` phase steps of an output. -/
def applySteps (ck k : Nat) (s : State) : State :=
  let t := modCk s ck (stepCk k)
  movePort ck ((ckOf t ck).applied - (ckOf s ck).applied) t

/-- PHASE_STEPS_APPLIED: steps of an output's phase-step request are applied; with the last one its TUNE completes (R148, R150), and one that
was asked to stop ends after its next step. -/
def execPhaseStepsApplied (ck steps : Nat) (s : State) : Host.Outcome State Fault Refusal :=
  match runningOf s 0x10 0x3000 with
  | some c =>
    if par c 12 = ck && (ckOf s ck).pend != 0 && 0 < steps then
      match stopCause s c.seq with
      | some k =>
        let s := applySteps ck 1 s
        .next (complete c.seq 0x20 (stepsAborted s k (ckOf s ck).applied) (modCk s ck fun x => { x with pend := 0 }))
      | none =>
        let s := applySteps ck steps s
        .next (if (ckOf s ck).pend = 0 then complete c.seq 0x00 (cpllResult s (ckOf s ck).applied) s else s)
    else .next s
  | none => .next s

/-! CPLL_LOCK (R144, R151) -/

/-- The CPLL is locked; its check against the oscillator runs while that runs (R144). -/
def cpllLocked (s : State) : State := { s with clocks := { s.clocks with locked := true, refCheck := s.modes.x32Ok } }

/-- FAULT: CK0 to CK7 stay stopped and every path that runs has no lock (R151). -/
def cpllFault (s : State) : State :=
  let s := portsClockFault (raise .clockEvent { s with clocks := { s.clocks with fault := true, locked := false, stage := .idle } })
  let fail (s : State) (p : Nat) : State := if (pathOf s p).fe.state == .off then s else noLock p 3 s
  forAll [0, 1, 2] fail s

/-- Step 5 of Table 7-4: the running synthesisers relock. -/
def relockAll (seq : Option Nat) (failed : Bool) (s : State) : State :=
  let s := { s with clocks := { s.clocks with stage := .synths seq failed } }
  synthsDone (forAll [0, 1, 2] (fun s p => relockPath p s) s)

/-- The start of a lane for a KEEPTIME listen (R126). -/
def beginListen (s : State) : State :=
  let n := s.modes.ktLaneUsed
  let s := { s with clocks := { s.clocks with stage := .idle } }
  let (wait, s) := drawAny (startPath (laneOf s n).path s)
  modLane s n (startLane (s.clocks.sc + wait))

/-- A lock that no TUNE asked for has ended: the mode change it belongs to arrives, or the KEEPTIME listen starts. -/
def afterStart (s : State) : State :=
  let s := { s with clocks := { s.clocks with stage := .idle } }
  if s.modes.ktEnd.isSome then beginListen s
  else match s.modes.target with
    | some m => arrive m (if s.clocks.locked then counterBack s else s)
    | none => s

/-- CPLL_LOCK: the CPLL locks, or 2 ms pass without lock. -/
def execCpllLock (ok : Bool) (s : State) : Host.Outcome State Fault Refusal :=
  match s.clocks.stage with
  | .locking (some q) prev =>
    if ok then .next (serve (relockAll (some q) false (cpllLocked { s with clocks := { s.clocks with fault := false } })))
    else .next { s with clocks := { s.clocks with ref := prev.getD s.clocks.ref, stage := .restoring (some q) } }
  | .restoring (some q) =>
    if ok then .next (serve (relockAll (some q) true (cpllLocked s)))
    else .next (serve (complete q 0x52 [3] (cpllFault s)))
  | .locking none _ =>
    if ok then .next (serve (afterStart (cpllLocked s))) else .next { s with clocks := { s.clocks with stage := .restoring none } }
  | .restoring none => .next (serve (afterStart (if ok then cpllLocked s else cpllFault s)))
  | _ => .next s

/-- REF_CHECK: the 1 s check against the oscillator ends (R144). -/
def execRefCheck (ppm : Nat) (s : State) : Host.Outcome State Fault Refusal :=
  if s.clocks.refCheck then
    let bad := 1000 < ppm
    .next (raiseIf bad .clockEvent { s with clocks := { s.clocks with refMismatch := bad, refCheck := false } })
  else .next s

/-! The 32.768 kHz oscillator -/

/-- X32_START: the oscillator runs (X32_OK). It drives the counter while CK7 does not, and a locked CPLL is checked. -/
def execX32Start (s : State) : Host.Outcome State Fault Refusal :=
  let c := s.clocks
  .next { s with modes := { s.modes with x32Ok := true },
                 clocks := { c with refCheck := c.refCheck || (c.locked && !s.modes.x32Ok), scOnX32 := c.scOnX32 || !c.locked } }

/-- Without the oscillator PARKED and KEEPTIME end: LISTEN is entered with MODE_ERR 0x04 and MODE_REQ 0x03 (R127). -/
def leaveLow (s : State) : State :=
  let upward : Bool := match s.modes.target with
    | some m => 3 ≤ m
    | none => false
  if modeNow s == 0 || 3 ≤ modeNow s || upward then s
  else
    let s := { s with modes := { s.modes with target := some 3, modeErr := 4, modeReq := 3, ktEnd := none } }
    if cpllStarting s then s else startClocks 3 s

/-- X32_STOP: the oscillator stops; a counter that it drove holds. -/
def execX32Stop (s : State) : Host.Outcome State Fault Refusal :=
  let c := s.clocks
  let s := { s with modes := { s.modes with x32Ok := false },
                    clocks := { c with refCheck := false, scHeld := c.scHeld || c.scOnX32, scOnX32 := false } }
  .next (if ready s then leaveLow s else s)

/-! The system counter -/

/-- A source drives the counter: the oscillator, or CK7. -/
def counterDriven (s : State) : Bool := if s.clocks.scOnX32 then s.modes.x32Ok else clocksRun s

/-- The counter after one tick of its source (R163): 512 counts for a cycle of the oscillator, 128/125 of a count for one of CK7, whose
fraction stands in the remainder. A held counter, or one whose source stands, keeps its value (R164). -/
def tick (s : State) : State :=
  let c := s.clocks
  if c.scHeld || !counterDriven s then s
  else if c.scOnX32 then { s with clocks := { c with sc := (c.sc + 512) % 2 ^ 64 } }
  else { s with clocks := { c with sc := (c.sc + (128 + c.scRem) / 125) % 2 ^ 64, scRem := (128 + c.scRem) % 125 } }

/-- What passes with time alone, when no command waits: a tick of the counter, and the first blocks that begin by then (R215). -/
def passTime (s : State) : State := passAudio (beginBlocks (tick s))

/-- COUNTER_HOLD_END: a hold under 5 ms keeps the calendar; a longer one makes it invalid and discards the votes (R337). -/
def execCounterHoldEnd (micros : Nat) (s : State) : Host.Outcome State Fault Refusal :=
  if s.clocks.scHeld && counterDriven s then
    let s := { s with clocks := { s.clocks with scHeld := false } }
    if micros < 5000 then .next { s with time := { s.time with scHolds := bump 2 s.time.scHolds 1 } }
    else .next (dropVotes (invalidate 2 s))
  else .next s

/-- COUNTER_MINUTE: the counter passes a whole minute: the newest duty bins start, and ON_MINUTES advances (R355, R468). -/
def execCounterMinute (s : State) : Host.Outcome State Fault Refusal :=
  if ready s && s.clocks.minuteDone < s.clocks.sc / (60 * countsPerSecond) then
    let s := ageBins { s with clocks := { s.clocks with minuteDone := s.clocks.minuteDone + 1 } }
    .next { s with cellar := shadowSet s.cellar 0x1C50 4 (bump 4 (shadowGet s.cellar 0x1C50 4) 1) }
  else .next s

/-! KEEPTIME listens (R126) -/

/-- Counts of KT_PERIOD. -/
def ktPeriodCounts (s : State) : Nat := s.modes.ktPeriodUsed * (60 * countsPerSecond)

/-- KEEPTIME_LISTEN: a listen is due; the reference and the CPLL start, and the counter stays on the oscillator. -/
def execKeeptimeListen (s : State) : Host.Outcome State Fault Refusal :=
  let m := s.modes
  match m.ktNext with
  | some t =>
    if ready s && modeNow s == 2 && m.ktEnd.isNone && m.target.isNone && decide (t ≤ s.clocks.sc) && s.clocks.stage == .idle then
      let missed := (s.clocks.sc - t) / max 1 (ktPeriodCounts s)
      .next { s with
        modes := { m with ktNext := some (t + (missed + 1) * ktPeriodCounts s),
                          ktEnd := some (s.clocks.sc + m.ktListenUsed * countsPerSecond) },
        clocks := { s.clocks with stage := .locking none none } }
    else .next s
  | none => .next s

/-- KT_LISTEN_END: one time was delivered or KT_LISTEN passed; the lane, the path and the CPLL stop again. -/
def execKtListenEnd (s : State) : Host.Outcome State Fault Refusal :=
  match s.modes.ktEnd with
  | some t =>
    if t ≤ s.clocks.sc && s.modes.target.isNone then
      let n := s.modes.ktLaneUsed
      let s := pathOff (laneOf s n).path (stopLane n s)
      .next { s with modes := { s.modes with ktEnd := none },
                     clocks := { s.clocks with locked := false, refCheck := false, stage := .idle } }
    else .next s
  | none => .next s

end Sys2Proof.Machine
end

