-- ==== Sys2Proof/Machine/Resets.lean ====
section
/-!
DEFINITION. How the part stops for a reset, a brown-out or a decant (Tables 2-4, 6-4, 6-8; R47, R49, R74, R98, R129 to R132, R137).
-/
namespace Sys2Proof.Machine

/-- The window, the interrupt registers, the holding and staged bytes, and the BOOKS latch at their values after a reset (Tables 20-4 to
20-7). WIN_EDGE, IRQ_POL, the SC latch, CELLAR_RECOVERED and RESET_CAUSE stand. -/
def portReset (p : Port) : Port :=
  { ack := p.ack, data := p.data, irqPol := p.irqPol, winEdge := p.winEdge, scLatch := p.scLatch,
    cellarRecovered := p.cellarRecovered, resetCause := p.resetCause }

/-- Path S stops sending and receiving, its windows and checks go, and a transmission's blanking ends. -/
def stopLink (s : State) : State :=
  let s := if s.link.txBlank then endBlank true s else s
  releaseAtRest { s with link := { s.link with txs := [], hostRx := none }, sessions := { s.sessions with checks := [] } }

/-- Calibrations and self-tests end where they stand; a lane under test is free. -/
def stopJobs (s : State) : State :=
  let tested := (s.lanes.filter fun e => e.2.hold == .test).map (·.1)
  let s := forAll tested (fun s n => freeLane n s) s
  let s := forAll [0, 1, 2] (fun s p => modPath s p fun x => { x with job := none }) s
  { s with cal := { s.cal with x32Job := none, linkJob := none } }

/-- Every port stops at once with its pins low, and its capture pool is empty (R421). -/
def stopAudio (s : State) : State :=
  let empty (s : State) (p : Nat) : State := modSap s p fun x => { x with capProd := 0, capCons := 0, stagedCapCons := 0 }
  let s := stopPorts s
  forAll [0, 1] empty (aoutOff { s with audio := [] })

/-- Every path goes to OFF, the CPLL and its outputs stop, and the counter goes on with the oscillator (Table 2-4 step 4, R164). -/
def stopRadio (s : State) : State :=
  let s := forAll [0, 1, 2] (fun s p => pathOff p s) s
  let c := s.clocks
  let rest (x : CkOut) : CkOut := { x with pend := 0, applied := 0 }
  { s with clocks := { c with
    locked := false, fault := false, refCheck := false, stage := .idle, ck4 := rest c.ck4, ck5 := rest c.ck5, ck6 := rest c.ck6,
    scOnX32 := s.modes.x32Ok, scHeld := c.scHeld || !s.modes.x32Ok } }

/-- The part stops for a reset or a decant and stands in a phase, VCORE at code 20 (R107): commands in flight end without a completion (R97), tastings become
lees, envelopes are discarded (R333), ports, lanes, link and paths stop, sessions and release end. -/
def halt (ph : Phase) (s : State) : State :=
  let s := { s with power := { s.power with phase := ph }, modes := { s.modes with target := none, queued := none, ktNext := none, ktEnd := none } }
  let s := ringsReset s
  let s := { s with port := portReset s.port }
  let s := discardEnvelopes (releasePins (endTastings 9 (fun _ _ => true) s))
  let s := stopLanes (fun _ => true) (stopAudio (stopLink (stopJobs s)))
  let s := clearShed (stopRadio s)
  { s with fabric := { s.fabric with vcore := 20, paceMin := 255, fillHwL := 0, fillHwV := 0, quietTicks := 0 } }

/-- The cellar as a reset or a decant that lets the operation under way finish leaves it (R49, R98). -/
def settleCellar (s : State) : State := { s with cellar := settleStore (cutReclaim (settleWrite s.cellar)) }

/-- A soft reset starts (R74, R137): the port stays live, MODE_NOW reads 0 and the mode in force is kept for the boot. -/
def beginSoft (s : State) : State :=
  let s := settleCellar (halt .softBoot s)
  { s with power := { s.power with savedMode := s.modes.modeNow, pendingKind := .soft },
           modes := { s.modes with modeNow := 0, modeErr := 0 }, port := { s.port with resetCause := 4 } }

/-- A decant ends in the decanted hold (Table 2-4 step 7, R51), where VHOLD charges again while VIN is at power-good (R40). Whether the
energy it gave took VHOLD below its clearing level is open; one given up at exhaustion has VHOLD below it (DESIGN CHOICE,
notes/assumptions/80.md). -/
def endDecant (exhausted : Bool) (s : State) : State :=
  let (k, s) := draw 2 s
  { s with power := { s.power with
    phase := .decantHold, decantBus := false, charging := s.power.vinGood, holdLow := s.power.holdLow || exhausted || k = 1 } }

/-- A decant starts (Table 2-4 steps 2 to 6, R46, R49, R437): the open record is finished or abandoned, and a dirty array begins its store,
as does one whose SHADOW_STORE is abandoned; a clean one skips it. Charging of VHOLD stops (R40), and HOLD_LOW stands as it was. The port
answers for as long as PRES_N has stood asserted (R46). -/
def beginDecant (s : State) : State :=
  let s := halt .decanting s
  let c := settleStore (cutReclaim (settleWrite s.cellar))
  let abandoned : Bool := match s.cellar.store with
    | some t => 1 < t.opsLeft
    | none => false
  let s := { s with power := { s.power with charging := false, decantBus := s.power.present } }
  if c.dirty || abandoned then { s with cellar := beginStore c none }
  else endDecant false { s with cellar := { c with decantSkips := bump 2 c.decantSkips 1 } }

/-- A brown-out reset (R47): nothing is finished. -/
def brownOutReset (s : State) : State :=
  let s := cutWrite (halt .waiting s)
  { s with cellar := { cutReclaim s.cellar with store := none },
           power := { s.power with vinGood := false, charging := false, pendingKind := .brownOut } }

end Sys2Proof.Machine
end

