-- ==== Sys2Proof/Machine/Boot.lean ====
section
/-!
DEFINITION. The boot of Table 6-5, from any of the five resets of Table 6-4 to READY (R133 to R137, R143, R201, R353, R436, R442, R443), and
what it keeps, loads or sets to its default by Table 6-8.
-/
namespace Sys2Proof.Machine

/-- RESET_CAUSE (Table 6-4). -/
def causeCode : ResetKind → Nat
  | .powerOn => 1
  | .brownOut => 2
  | .pin => 3
  | .soft => 4
  | .decantReturn => 5

/-- The always-on domain was not kept: a power-on or a brown-out reset. -/
def coldKind (k : ResetKind) : Bool := k == .powerOn || k == .brownOut

/-- Working SRAM is zeroed: every kind but the pin and the soft reset (R135). -/
def scrubKind (k : ResetKind) : Bool := coldKind k || k == .decantReturn

/-! Steps 3 to 5: the cellar -/

/-- Step 3: both logs are recovered, and the counts of this boot stand in the cellar block (R443). -/
def recoverCellar (c : Cellar) : Cellar × Bool :=
  let (l, n) := recoverLog c.recLog {}
  let (k, n) := recoverLog c.keyLog n
  ({ c with recLog := l, keyLog := k, rolledBack := min 0xFFFF n.rolledBack, completed := min 0xFFFF n.completed,
            redone := min 0xFFFF n.redone, crcFallbacks := min 0xFFFF n.fallbacks, keysLost := min 0xFFFF n.lost }, n.any)

/-- BOOT_EPOCH as its record holds it. -/
def epochRecord (c : Cellar) : Nat :=
  match keyContent c 0x4000 with
  | some (_, p) => fieldAt p 0 2
  | none => 0

/-- Step 5: BOOT_EPOCH advances and is committed, the flash allowing; at 0xFFFF nothing is committed (R136). Answers whether it was. -/
def commitEpoch (flashOk : Bool) (c : Cellar) : Cellar × Bool :=
  let n := epochRecord c
  if n = 0xFFFF || cellarFull c false 0x4000 2 then (c, false)
  else if !flashOk then ({ c with cellarFaults := bump 2 c.cellarFaults 1 }, false)
  else
    let c := makeRoom false (recSize 2) (areaCount false) c
    match place false c.recLog (recSize 2) with
    | some (l, sec, off) =>
      let r : Rec := { key := 0x4000, version := nextVersion l 0x4000, tomb := false, payload := leBytes (n + 1) 2, stage := .committed,
                       superseded := false, crcOk := true, sector := sec, off := off }
      ({ c with recLog := commitRec l r }, true)
    | none => (c, false)

/-- The cellar's part of a boot: the regions relocked, the always-on counters, recovery, the banks, DECANTS, the epoch, FACTORY_BAD. Answers
what it repaired and whether it committed the epoch. -/
def bootCellar (k : ResetKind) (flashOk : Bool) (c : Cellar) : Cellar × Bool × Bool :=
  let c := { c with unlocked := 0 }
  let c := if coldKind k then { c with reclaims := 0, cellarFaults := 0, decantSkips := 0 } else c
  let (c, logs) := recoverCellar c
  let (c, banks) := loadBanks c
  let c := if k == .decantReturn then shadowSet c 0x1C54 4 (bump 4 (shadowGet c 0x1C54 4) 1) else c
  let (c, epoch) := commitEpoch flashOk c
  ({ c with factoryBad := c.factory.any fun e => !e.2.crcOk }, logs || banks, epoch)

/-! Step 6: what the cellar loads into the blocks -/

/-- A sub-band of the regulatory image, whose bytes are taken to stand as the link block shows them (PRESUMED, notes/assumptions/6.md). -/
def imageBand (p : List Byte) (b : Nat) : SubBand :=
  let o := 0x20 + 0x20 * b
  { fLowKhz := fieldAt p o 3, fHighKhz := fieldAt p (o + 3) 3, chFirstKhz := fieldAt p (o + 6) 3, chStepKhz := fieldAt p (o + 9) 2,
    maxPower := signedAt p (o + 0x0B) 1, phyAllow := byteAt p (o + 0x0C) % 16, lbtReq := bit (byteAt p (o + 0x0C)) 4,
    lbtThresh := signedAt p (o + 0x0D) 1, listenMin := fieldAt p (o + 0x0E) 2, listenRand := fieldAt p (o + 0x10) 2,
    backoffMax := fieldAt p (o + 0x12) 2, dutyPpm := fieldAt p (o + 0x14) 4, grant := fieldAt p (o + 0x18) 4,
    mask := (p.drop (0x120 + 0x20 * b)).take 0x20 }

/-- The region image (R353); without a good one nothing is transmitted (R442). -/
def loadRegion (c : Cellar) : Region :=
  match keyContent c 0xF020 with
  | some (_, p) =>
    if byteAt p 4 ≤ 8 then { ok := true, id := fieldAt p 0 4, bands := (List.range (byteAt p 4)).map (imageBand p) } else {}
  | none => {}

/-- The duty buckets of a start without a history: BUDGET less GRANT counts as spent in the newest minute (R356). -/
def coldDuty (r : Region) : Tab Duty :=
  (List.range r.bands.length).map fun i =>
    let b := r.bands.getD i {}
    (i, { bins := [budgetOf b - b.grant], denials := 0 })

/-- An endpoint as its pairing record gives it: ROLE, EUI, PAIRED, and CNT_OUT where TX_LOW is spent. -/
def loadEndpoint (s : State) (n : Nat) : State :=
  match keyContent s.cellar (0x8000 + n) with
  | some (_, p) => modEndpoint s n fun e =>
      { e with role := byteAt p 0 % 4, eui := fieldAt p 2 8, paired := true, cntOut := txLow s n == 0xFFFFFF }
  | none =>
    if s.sessions.endpoints.any fun e => e.1 == n then
      modEndpoint s n fun e => { e with role := 0, eui := 0, paired := false, cntOut := false }
    else s

/-- The records of every kind of boot: the region image, DEVICE_EUI, the pairing records. -/
def loadRecords (s : State) : State :=
  let eui := match keyContent s.cellar 0xF040 with
    | some (_, p) => fieldAt p 0 8
    | none => 0
  forAll (List.range 128) loadEndpoint { s with
    link := { s.link with region := loadRegion s.cellar }, sessions := { s.sessions with deviceEui := eui } }

/-- A factory band table: 32 entries of 8 bytes (R155). -/
def bandTable (c : Cellar) (p : Nat) : Tab BandEntry :=
  match keyContent c (0xF010 + p) with
  | some (_, bs) => (List.range 32).map fun i =>
      (i, { fStart := fieldAt bs (8 * i) 4, bandStart := byteAt bs (8 * i + 4), bandEnd := byteAt bs (8 * i + 5),
            khzPerBand := fieldAt bs (8 * i + 6) 2 })
  | none => []

/-- The bytes of a path's calibration record: the path block's 0x040 to 0x07F (PRESUMED, notes/assumptions/6.md). -/
def calFromRecord (p : Nat) (r : List Byte) : CalPart :=
  let pairs (off n : Nat) : Tab (Int × Int) := (List.range n).map fun i => (i, (signedAt r (off + 4 * i) 2, signedAt r (off + 4 * i + 2) 2))
  let nats (off n : Nat) : Tab Nat := (List.range n).map fun i => (i, byteAt r (off + i))
  { valid := byteAt r 0 % 64, field := byteAt r 1 % 64, tCalPath := signedAt r 2 2, offsetTrim := pairs 0x10 (rangeCount p),
    img := pairs 0x20 2, filt := nats 0x28 (if p = 2 then 1 else 3 + p), irr := nats 0x2C 2, txIqGain := signedAt r 0x30 2,
    txIqPhase := signedAt r 0x32 2, txIqLeakI := signedAt r 0x34 2, txIqLeakQ := signedAt r 0x36 2, pdetSlope := signedAt r 0x38 2,
    pdetOffset := signedAt r 0x3A 2 }

/-- A path's band table and calibration results; without a record the corrections are neutral and CAL_DUE is set (R201). -/
def loadPath (s : State) (p : Nat) : State :=
  let t := bandTable s.cellar p
  let s := modSynth s p fun x => { x with table := t, factory := t }
  match keyContent s.cellar (0x4010 + p) with
  | some (_, r) => modCal s p fun _ => calFromRecord p r
  | none => { modCal s p (fun _ => {}) with cal := { s.cal with calDue := s.cal.calDue + 2 ^ p } }

/-- The board record's reference frequency and source; without one a 26 MHz crystal (R143). -/
def loadBoard (s : State) : State :=
  match keyContent s.cellar 0xF000 with
  | some (_, p) => { s with clocks := { s.clocks with
      ref := { freq := byteAt p 0 % 8, mult := 0, src := byteAt p 1 % 2 }, boardRefAbsent := false } }
  | none => { s with clocks := { s.clocks with ref := {}, boardRefAbsent := true } }

/-- What every kind but the soft reset also loads: band tables, calibration results, the reference arrangement. -/
def loadResults (s : State) : State :=
  let s := match keyContent s.cellar 0x4013 with
    | some (_, r) => { s with cal := { s.cal with x32Err := signedAt r 0 2, x32Temp := signedAt r 2 2 } }
    | none => s
  forAll [0, 1, 2] loadPath (loadBoard s)

/-! Table 6-8: what is kept and what takes its default -/

/-- The calendar that a pin reset and a decant return keep; votes and TIME_VOTE_CFG take their defaults. -/
def keptTime (t : Time) : Time :=
  let d : Time := {}
  { t with votes := [], consensusEn := d.consensusEn, quorum := d.quorum, agreeMs := d.agreeMs, voteLife := d.voteLife, weights := d.weights }

/-- The counter that a pin reset and a decant return keep. -/
def keptClocks (c : Clocks) : Clocks :=
  { locked := false, sc := c.sc, scRem := c.scRem, scOnX32 := c.scOnX32, scHeld := c.scHeld }

/-- The state after any reset but a soft one, with nothing loaded yet: Table 6-8's defaults, over what the kind keeps. -/
def bootDefaults (k : ResetKind) (s : State) : State :=
  let cold := coldKind k
  { State.reset with
    port := { ack := s.port.ack, data := s.port.data, scLatch := if cold then 0 else s.port.scLatch,
              cellarRecovered := !cold && s.port.cellarRecovered }
    power := { s.power with pfLevel := 0, decantOnVin := true }
    modes := { x32Ok := s.modes.x32Ok }
    scrub := if scrubKind k then {} else s.scrub
    clocks := if cold then { locked := false } else keptClocks s.clocks
    cal := { samples := if cold then [] else s.cal.samples }
    time := if cold then {} else keptTime s.time
    link := { duty := if cold then [] else s.link.duty.map fun e => (e.1, { e.2 with denials := 0 }),
              minute := if cold then 0 else s.link.minute }
    sessions := { winPin := s.sessions.winPin }
    cellar := s.cellar
    mem := if scrubKind k then [] else s.mem
    fresh := s.fresh
    pending := s.pending }

/-! The boot -/

/-- Steps 3 to 8, with RESET_CAUSE: everything up to the mode. -/
def bootLoad (k : ResetKind) (m : BootMeas) (s : State) : State :=
  let (c, repaired, epoch) := bootCellar k m.epochOk s.cellar
  let s := if k == .soft then s else bootDefaults k s
  let s := loadRecords { s with cellar := c, modes := { s.modes with bootEpoch := epochRecord c, epochOk := epoch } }
  let s := if k == .soft then forAll [0, 1, 2] (fun s p => modCal s p fun x => { x with doneSince := 0 }) s else loadResults s
  let s := if coldKind k then { s with link := { s.link with duty := coldDuty s.link.region } } else s
  ringsReset { s with port := { s.port with
    resetCause := causeCode k, cellarRecovered := s.port.cellarRecovered || repaired } }

/-- Step 9: the fabric runs at VCORE code 20 with a first pace window and a first temperature sample; windows and ticks, the counter's
seconds and minutes are taken up where they stand. -/
def bootFabric (m : BootMeas) (s : State) : State :=
  takeSample m.temp { s with
    fabric := { s.fabric with vcore := 20, pace := paceUnits 20 m.temp m.pace, paceMin := 255, windowStart := s.clocks.sc, windowLow := 20,
                              tickStart := s.clocks.sc },
    clocks := { s.clocks with secondDone := counterSeconds s, minuteDone := s.clocks.sc / (60 * countsPerSecond) } }

/-- Steps 5 and 6 of Table 6-1 for the mode of R137: the CPLL locks, or faults with the counter on the oscillator (R151, R164), the counter
goes to CK7, and the mode starts. A soft reset that enters LISTEN again with more than eight lanes bound sets MODE_ERR 0x03 as any entry does
(R125), over the 0x00 of Table 6-14 (DESIGN CHOICE, notes/assumptions/84.md). PARKED and KEEPTIME leave the CPLL off and the counter with the oscillator. -/
def bootMode (mode : Nat) (lock : Bool) (s : State) : State :=
  let s := { s with modes := { s.modes with modeReq := mode } }
  if 3 ≤ mode then
    let s := if lock then counterBack (cpllLocked { s with clocks := { s.clocks with fault := false } }) else cpllFault (counterOff s)
    startMode mode (setMode mode s)
  else
    let s := startMode mode (setMode mode s)
    if mode = 1 then { s with fabric := { s.fabric with pace := 0, vcore := 0 } } else s

/-- A boot from start to READY. -/
def boot (k : ResetKind) (m : BootMeas) (s : State) : State :=
  let mode := if k == .soft then s.power.savedMode else 3
  let s := bootMode mode m.lock (bootFabric m (bootLoad k m s))
  let s := { s with power := { s.power with phase := .ready } }
  if mode < 3 && !s.modes.x32Ok then leaveLow s else s

/-- A boot may start: a soft reset's at once, any other with VIN good and PRES_N asserted (R44, R50, R465). -/
def bootStarts (s : State) : Bool :=
  match s.power.phase with
  | .softBoot => true
  | .waiting | .pinHeld => s.power.vinGood && s.power.present
  | _ => false

/-- BOOT: the debounce or the reset condition completes (for a pin reset, RESET_N is high again). -/
def execBoot (m : BootMeas) (s : State) : Host.Outcome State Fault Refusal :=
  .next (if bootStarts s then boot (if s.power.phase == .softBoot then .soft else s.power.pendingKind) m s else s)

end Sys2Proof.Machine
end

