-- ==== Sys2Proof/Machine/Blocks.lean ====
section
/-!
DEFINITION. What a host reads in the object blocks of the window (Table 20-3): the fields of each block by its chapter's table. A reserved
byte reads 0x00 (R4).
-/
namespace Sys2Proof.Machine

/-- A field of a block: offset, length in bytes, value. -/
abbrev BlockField := Nat × Nat × Nat

/-- The byte of a block at an offset: of the field that holds it, least significant byte first (R1), or 0x00. -/
def fieldByte (fs : List BlockField) (o : Nat) : Byte :=
  match fs.find? fun f => f.1 ≤ o && o < f.1 + f.2.1 with
  | some (a, _, v) => byteOf v (o - a)
  | none => 0

/-- Fields of `k` bytes each, one after another. -/
def fieldRun (off k : Nat) : List Nat → List BlockField
  | [] => []
  | v :: vs => (off, k, v) :: fieldRun (off + k) k vs

/-- A run of bytes as fields. -/
def byteRun (off : Nat) (bs : List Byte) : List BlockField := fieldRun off 1 (bs.map (·.toNat))

/-! Lanes (Tables 10-13, 10-14) -/

/-- The settings of a set from byte 0x08 of the block on. -/
def setFieldsAt (off nco : Nat) (x : LaneSet) : List BlockField :=
  [(off, 4, x.freqHz), (off + 4, 4, nco), (off + 8, 1, x.rate + 16 * x.preset),
   (off + 9, 1, x.blockLen + 16 * x.lossRank + 128 * flagNat x.syncPinEn), (off + 10, 1, x.detSrc),
   (off + 11, 1, x.attSh + 16 * x.relSh), (off + 12, 1, x.thSrc + 16 * x.thDwell), (off + 14, 2, twos 2 x.thHigh),
   (off + 16, 2, twos 2 x.thLow), (off + 18, 2, x.ncoPhase0)]

def laneFields (s : State) (n : Nat) : List BlockField :=
  let x := laneOf s n
  let flags := 64 * flagNat x.shed + 32 * flagNat (waitingSet x).isSome + 16 * flagNat (s.modes.heldMask.getLsbD n) +
    8 * flagNat (delivering s n) + 4 * x.path + holdCode x.hold
  let fout := match laneRate x.path x.cur.rate with
    | some r => r.1
    | none => 0
  [(0x00, 1, flags), (0x01, 1, x.cur.engKind), (0x02, 1, x.cur.engIndex), (0x04, 2, x.gen), (0x06, 2, x.genPending)] ++
    setFieldsAt 0x08 x.ncoWord x.cur ++
    (if x.hold = .free then []
     else [(0x1C, 4, fout), (0x20, 4, fineDelay2 x.path x.cur), (0x24, 2, coarseDelay2 x.path x.cur), (0x26, 1, settleCount x.cur)]) ++
    match waitingSet x with
    | some l => setFieldsAt 0x48 (ncoWordOf x.path l.freqHz (pathOf s x.path).fe.loHz) l
    | none => []

/-- A lane block. From 0x80 on stand the attached engine's settings: byte b of the ENGINE_ATTACH descriptor at 0x80 + (b - 10) (R244, R246). -/
def laneByte (s : State) (n o : Nat) : Byte :=
  let x := (laneOf s n).cur
  if o < 0x80 then fieldByte (laneFields s n) o else if x.engKind = 0 then 0 else x.params.getD (o - 0x80) 0

def statFields (s : State) (n : Nat) : List BlockField :=
  let x := laneOf s n
  let r := x.last
  [(0x00, 2, r.gen), (0x02, 2, r.flags), (0x04, 4, r.seq), (0x08, 8, r.stamp), (0x10, 2, twos 2 r.peak), (0x12, 2, twos 2 r.rms),
   (0x14, 2, twos 2 r.env), (0x16, 2, twos 2 r.qual), (0x18, 1, flagNat r.thAbove), (0x19, 1, r.dwell), (0x1C, 4, x.events),
   (0x20, 4, x.overrunBlocks), (0x24, 4, x.zeroedBlocks), (0x28, 8, x.syncStamp), (0x30, 4, x.blocks), (0x34, 2, x.engineLate)]

/-- A statistics block, its latched copy where one stands (R245). -/
def statByte (s : State) (n o : Nat) : Byte :=
  if s.statLatch.lane = some n && 1 ≤ o && o < 0x30 then s.statLatch.bytes.getD o 0 else fieldByte (statFields s n) o

/-! Paths (Tables 7-7, 8-9, 9-7) -/

def feCode : FeState → Nat
  | .off => 0
  | .starting => 1
  | .acquire => 2
  | .run => 3
  | .range => 4
  | .retune => 5
  | .cal => 7
  | .noLock => 8
  | .rxPacket => 9
  | .txRampUp => 10
  | .tx => 11
  | .txRampDown => 12

def synthFields (x : Synth) : List BlockField :=
  let flags := 16 * flagNat x.timedLock + 8 * flagNat x.ibNear + 4 * flagNat x.btFallback + 2 * flagNat x.locking + flagNat x.locked
  [(0x000, 1, flags), (0x001, 1, flagNat x.timedMode), (0x002, 1, x.winExp), (0x003, 1, x.tol), (0x004, 1, x.run), (0x005, 1, x.limit),
   (0x006, 1, x.time), (0x007, 1, x.bandTries), (0x008, 2, x.nInt), (0x00A, 3, x.nFrac), (0x00D, 1, x.divLog2), (0x00E, 1, x.band),
   (0x00F, 1, x.btEntry), (0x010, 4, x.vcoKhz), (0x014, 2, twos 2 x.loErr), (0x016, 2, x.ibOffset), (0x018, 2, x.lockLost),
   (0x01A, 2, x.noLockCount)]

/-- Pairs of signed 16-bit words from a table. -/
def pairRun (off n : Nat) (t : Tab (Int × Int)) : List BlockField :=
  ((List.range n).map fun i =>
    let e := tabGet (0, 0) t i
    [(off + 4 * i, 2, twos 2 e.1), (off + 4 * i + 2, 2, twos 2 e.2)]).flatten

/-- FILT_TRIM bytes that a path has: one per WIDTH code. -/
def widthCount : Nat → Nat
  | 0 => 3
  | 1 => 4
  | _ => 1

def calFields (p : Nat) (x : CalPart) : List BlockField :=
  [(0x040, 1, x.valid), (0x041, 1, x.field), (0x042, 2, twos 2 x.tCalPath), (0x044, 2, twos 2 x.tRefSyn), (0x046, 2, x.synRecals),
   (0x048, 2, x.calFails), (0x04A, 1, x.lastType), (0x04B, 1, x.lastReason)] ++
    pairRun 0x050 (rangeCount p) x.offsetTrim ++ pairRun 0x060 2 x.img ++
    fieldRun 0x068 1 ((List.range (widthCount p)).map (tabGet 0 x.filt)) ++ fieldRun 0x06C 1 ((List.range 2).map (tabGet 0 x.irr)) ++
    (if p = 2 then
      [(0x070, 2, twos 2 x.txIqGain), (0x072, 2, twos 2 x.txIqPhase), (0x074, 2, twos 2 x.txIqLeakI), (0x076, 2, twos 2 x.txIqLeakQ),
       (0x078, 2, twos 2 x.pdetSlope), (0x07A, 2, twos 2 x.pdetOffset)]
     else [])

def feFields (s : State) (p : Nat) : List BlockField :=
  let f := (pathOf s p).fe
  let w := f.set
  [(0xA00, 1, 16 * flagNat (blanked s p) + feCode f.state), (0xA01, 1, 2 * f.loSideUsed + f.presel), (0xA02, 1, f.width),
   (0xA03, 1, w.agcMode), (0xA04, 1, f.gainRange), (0xA05, 1, f.gainFine), (0xA06, 1, w.manualRange), (0xA07, 1, w.manualFine),
   (0xA08, 1, twos 1 w.agcTarget), (0xA09, 1, w.agcHyst), (0xA0A, 2, w.rangeHold), (0xA0C, 1, w.clipLimit), (0xA0D, 1, w.startRange),
   (0xA0E, 1, w.dcKTrack), (0xA0F, 1, w.dcKAcq), (0xA10, 4, f.loHz), (0xA14, 4, f.centreHz), (0xA18, 3, if p = 2 then 0 else f.rasterHz),
   (0xA1C, 2, twos 2 f.dcEstI), (0xA1E, 2, twos 2 f.dcEstQ), (0xA20, 2, twos 2 f.adcRms), (0xA24, 4, f.rangeChanges),
   (0xA28, 4, f.clipEvents), (0xA2C, 4, f.blankIntervals), (0xA30, 4, blankedNow s p f), (0xA34, 4, f.retunes), (0xA38, 2, f.acqTimeouts)]

/-- A band-table entry's bytes (R155). -/
def bandFields (e : BandEntry) : List BlockField := [(0, 4, e.fStart), (4, 1, e.bandStart), (5, 1, e.bandEnd), (6, 2, e.khzPerBand)]

def pathByte (s : State) (p o : Nat) : Byte :=
  let x := pathOf s p
  if o < 0x40 then fieldByte (synthFields x.synth) o
  else if o < 0x100 then fieldByte (calFields p x.cal) o
  else if o < 0x200 then fieldByte (bandFields (tabGet {} x.synth.table ((o - 0x100) / 8))) (o % 8)
  else if o < 0xA00 then
    let e := tabGet (0, 0) x.synth.edges ((o - 0x200) / 8)
    fieldByte [(0, 4, e.1), (4, 4, e.2)] (o % 8)
  else fieldByte (feFields s p) o

/-! CPLL (Table 7-6) -/

/-- A reference change of Table 7-4 is under way. -/
def refMoving (s : State) : Bool :=
  match s.clocks.stage with
  | .idle | .locking none _ | .restoring none | .synths none _ => false
  | _ => true

/-- A path or the link runs, so that its fixed output is on (R146). -/
def fixedRuns (s : State) (n : Nat) : Bool :=
  clocksRun s &&
    match n with
    | 0 => s.pathL.fe.state != .off
    | 1 => s.pathV.fe.state != .off
    | 2 | 3 => s.pathS.fe.state != .off
    | _ => true

/-- CKn's divider, delay, flags: Table 7-2 for the fixed outputs. -/
def ckFields (s : State) (n : Nat) : List BlockField :=
  let off := 0x08 + 4 * n
  let fixed (d : Nat) : List BlockField := [(off, 2, d), (off + 3, 1, 2 + flagNat (fixedRuns s n))]
  match n with
  | 0 => fixed 320
  | 1 => fixed 64
  | 2 => fixed 160
  | 3 => fixed 80
  | 7 => fixed 240
  | _ =>
    let x := ckOf s n
    [(off, 2, x.div), (off + 2, 1, x.delay), (off + 3, 1, flagNat (x.en && clocksRun s))]

def cpllFields (s : State) : List BlockField :=
  let c := s.clocks
  let flags := 64 * flagNat (refMoving s) + 32 * flagNat c.boardRefAbsent + 16 * flagNat c.scHeld + 8 * flagNat c.scOnX32 +
    4 * flagNat c.refMismatch + 2 * flagNat c.fault + flagNat c.locked
  let r := cpllRatio c.ref
  [(0x00, 1, flags), (0x01, 1, 32 * c.ref.src + 8 * c.ref.mult + c.ref.freq), (0x02, 2, r.1), (0x04, 2, r.2.1), (0x06, 2, r.2.2)] ++
    ((List.range 8).map (ckFields s)).flatten ++
    [(0x28, 2, twos 2 c.ck4.pend), (0x2A, 2, twos 2 c.ck5.pend), (0x2C, 2, twos 2 c.ck6.pend), (0x2E, 1, 0x80), (0x2F, 1, 0x7D)]

/-! Slots (Tables 14-7 to 14-9) -/

/-- The slot's source lane is HOST with an engine. -/
def laneActive (s : State) (x : Slot) : Bool := (laneOf s x.srcLane).hold == .host && (laneOf s x.srcLane).cur.engKind != 0

def slotFields (s : State) (x : Slot) : List BlockField :=
  [(0x00, 1, 4 * flagNat (x.isOpen && laneActive s x) + 2 * flagNat x.suspended + flagNat x.isOpen),
   (0x01, 1, x.policy + 4 * flagNat x.timeRule + 16 * x.wakeMode), (0x02, 1, x.srcLane), (0x03, 1, x.stream), (0x04, 1, x.groupType),
   (0x05, 4, x.kindMask), (0x09, 2, x.sub), (0x0B, 1, x.ptype), (0x0C, 2, x.aid), (0x0E, 2, x.issuerMask), (0x10, 3, x.ringBase),
   (0x13, 1, x.ringLog2), (0x14, 4, x.prod), (0x18, 4, x.cons), (0x1C, 4, x.rseqNext), (0x20, 3, x.wakeFill), (0x24, 4, x.records),
   (0x28, 4, x.overflowRecords), (0x2C, 4, x.overflowBytes), (0x30, 2, x.sdeRejected), (0x32, 2, x.sdeRepeats), (0x34, 2, x.verifyDrops),
   (0x36, 2, x.consFaults), (0x38, 4, x.filtered)]

/-- A slot descriptor; bytes 0x15 to 0x17 return the latch of PROD where one waits (R323). -/
def slotByte (s : State) (n o : Nat) : Byte :=
  let live := fieldByte (slotFields s (slotOf s n)) o
  match s.slots.latch with
  | some l => if l.slot = n then tabGet live l.bytes o else live
  | none => live

def sdeByte (s : State) (n o : Nat) : Byte := byteOf (tabGet 0 (slotOf s n).floors (o / 4)) (o % 4)

/-- Byte `k` of WAKE_PEND: bit n for slot n. -/
def wakeByte (s : State) (k : Nat) : Byte :=
  lowByte (((List.range 8).map fun i => 2 ^ i * flagNat (slotOf s (8 * k + i)).wake).sum)

def summaryFields (s : State) : List BlockField :=
  [(0x80, 2, (s.slots.slots.filter fun e => e.2.isOpen).length), (0x82, 1, s.slots.waiting.length), (0x83, 1, s.slots.assembling.length),
   (0x84, 4, s.slots.verified), (0x88, 4, s.slots.badSignatures), (0x8C, 4, s.slots.assemblyAbandoned)] ++
    fieldRun 0xC0 4 ((List.range 16).map (replayFloor s))

def summaryByte (s : State) (o : Nat) : Byte := if o < 0x80 then wakeByte s o else fieldByte (summaryFields s) o

/-! Audio (Tables 18-6 to 18-8) -/

def sapStateCode : SapState → Nat
  | .stopped => 0
  | .starting => 1
  | .running => 2
  | .stopping => 3

def sapFields (s : State) (port : Nat) : List BlockField :=
  let x := sapOf s port
  let c := x.cfg
  let head := c.format + 4 * flagNat c.fsWidth + 8 * flagNat c.fsPol + 16 * flagNat c.bclkPol + 32 * flagNat c.shareFs
  [(0x000, 1, head), (0x001, 1, c.slots), (0x002, 1, c.width), (0x003, 1, c.offset), (0x004, 4, c.rateHz),
   (0x008, 1, flagNat c.sd1En + 2 * flagNat c.aoutEn), (0x009, 1, c.rampMs), (0x00A, 2, c.playoutMs), (0x00C, 4, c.capMask0),
   (0x010, 4, c.capMask1), (0x014, 2, c.framesPerBlock), (0x016, 1, flagNat c.pack), (0x017, 1, c.wakeBlocks), (0x018, 2, x.capCons),
   (0x01A, 1, c.aoutSrcL), (0x01B, 1, c.aoutSrcR)] ++
    fieldRun 0x020 2 ((List.range 32).map (tabGet 0 c.map0)) ++ fieldRun 0x060 2 ((List.range 32).map (tabGet 0 c.map1)) ++
    [(0x100, 1, sapStateCode x.state + 4 * flagNat x.configOk + 8 * flagNat x.clockFault), (0x104, 3, x.divFrac), (0x107, 2, x.divInt),
     (0x10A, 2, twos 2 x.fsErr), (0x10C, 1, x.poolBlocks), (0x110, 4, nextFrame s port), (0x118, 2, x.capProd),
     (0x11A, 1, capQueued x), (0x120, 4, x.underrunFrames), (0x124, 4, x.blocksLost), (0x128, 4, x.micLostFrames), (0x12C, 4, x.mutes),
     (0x130, 4, x.lateMutes), (0x134, 4, x.capFaults), (0x138, 4, x.sourceAbsentFrames), (0x140, 8, x.startStamp)]

def pdmFields (p : Pdm) : List BlockField :=
  [(0x00, 1, p.rateA + 16 * flagNat p.hpfA), (0x01, 1, p.rateB + 16 * flagNat p.hpfB), (0x02, 1, p.micSettleMs),
   (0x04, 1, flagNat p.clkA + 2 * flagNat p.clkB), (0x05, 1, p.divA), (0x06, 1, p.divB)]

/-! The link (Tables 16-7 to 16-9) -/

def linkFields (s : State) : List BlockField :=
  let l := s.link
  let own := (s.sessions.checks.take 1).any (·.windowOpen)
  let rx := l.hostRx.isSome || (l.txs.any fun j => j.stage == .after)
  let flags := 8 * flagNat l.region.ok + 4 * flagNat own + 2 * flagNat rx + flagNat (activeTx s).isSome
  [(0x000, 1, flags), (0x002, 1, twos 1 l.detectDbm), (0x003, 1, l.qualThresh), (0x004, 1, l.qualTimeout), (0x006, 2, l.sfdTimeout),
   (0x008, 2, twos 2 l.rxTrim), (0x00A, 1, flagNat l.lbtMode), (0x00B, 1, twos 1 l.lbtThresh), (0x00C, 2, l.lbtListenUs),
   (0x00E, 1, l.lbtTries), (0x010, 3, l.afterDest), (0x013, 2, l.afterSize)] ++
    fieldRun 0x020 4 [l.rxPackets, l.fcsBad, l.phrBad, l.sfdMisses, l.qualFails, l.rxNoRoom, l.txPackets, l.txTokens, l.dutyDenials,
      l.busyDenials, l.regDenials, l.lostTx, l.foreignDrops, l.maskChecks, l.maskFails, l.atLate]

/-- A byte of a profile's SHAPE: what the host wrote, or a byte of the default filter, whose taps the spec does not print (log entry 70). -/
def shapeByte (p : Profile) (i : Nat) : Byte := tabGet (Config.blockByte (0x270110 + i) []) p.shape i

def profileFields (p : Profile) : List BlockField :=
  [(0x00, 1, p.flags), (0x01, 1, p.fskRate), (0x02, 1, p.option), (0x03, 1, p.mcs), (0x04, 1, p.modIndex), (0x05, 1, p.preambleLen),
   (0x06, 1, p.sfdSel), (0x07, 1, twos 1 p.power), (0x08, 4, p.channelHz)] ++ byteRun 0x10 ((List.range 32).map (shapeByte p)) ++
    byteRun 0x30 (p.mask.take 32) ++ [(0x50, 1, p.state), (0x52, 2, twos 2 p.maskMargin)]

/-- The fields of a sub-band, from 0x420 + 0x20 × b on. -/
def subBandFields (b : SubBand) : List BlockField :=
  [(0x00, 3, b.fLowKhz), (0x03, 3, b.fHighKhz), (0x06, 3, b.chFirstKhz), (0x09, 2, b.chStepKhz), (0x0B, 1, twos 1 b.maxPower),
   (0x0C, 1, b.phyAllow + 16 * flagNat b.lbtReq), (0x0D, 1, twos 1 b.lbtThresh), (0x0E, 2, b.listenMin), (0x10, 2, b.listenRand),
   (0x12, 2, b.backoffMax), (0x14, 4, b.dutyPpm), (0x18, 4, b.grant)]

def dutyFields (s : State) (b : Nat) : List BlockField :=
  [(0x0, 4, (dutyOf s b).denials), (0x4, 4, tokensHeld s b), (0x8, 4, budgetOf (bandAt s b))]

def linkByte (s : State) (o : Nat) : Byte :=
  if o < 0x100 then fieldByte (linkFields s) o
  else if o < 0x300 then fieldByte (profileFields (profileOf s ((o - 0x100) / 0x80))) (o % 0x80)
  else if o < 0x400 then 0
  else if o < 0x420 then fieldByte [(0x400, 4, s.link.region.id), (0x404, 1, s.link.region.bands.length)] o
  else if o < 0x520 then fieldByte (subBandFields (bandAt s ((o - 0x420) / 0x20))) (o % 0x20)
  else if o < 0x620 then (bandAt s ((o - 0x520) / 0x20)).mask.getD (o % 0x20) 0
  else if 0x640 ≤ o && o < 0x6C0 then fieldByte (dutyFields s ((o - 0x640) / 0x10)) (o % 0x10)
  else 0

/-! Sessions (Tables 17-9 to 17-11) -/

def sessionFields (s : State) : List BlockField :=
  let x := s.sessions
  let active := (activeSessions s).length
  [(0x00, 1, 2 * flagNat (watching s) + flagNat x.winPin), (0x01, 1, active), (0x02, 1, 128 - active), (0x04, 1, x.homeProfile),
   (0x08, 4, x.homeChannelHz), (0x0C, 2, x.rttLimit), (0x0E, 1, twos 1 x.rssiFloor), (0x10, 8, x.deviceEui),
   (0x18, 2, shadowGet s.cellar 0x1C40 2), (0x1A, 2, x.checkCount), (0x1C, 2, x.unknownSrc), (0x1E, 2, x.frameAuthFails),
   (0x20, 2, x.skips)]

def targetFields (t : Target) : List BlockField :=
  [(0x00, 1, 8 * flagNat t.requireSession + targetCode t.state), (0x01, 1, t.ep), (0x02, 1, t.level), (0x04, 2, t.interval),
   (0x08, 8, t.nextDue), (0x10, 8, t.lastSent), (0x18, 2, t.framesSent), (0x1A, 2, t.missed), (0x1C, 2, t.dutyMisses),
   (0x1E, 2, t.busyRetries), (0x20, 1, t.lastStatus), (0x21, 1, t.faultReason)]

def endpointFields (s : State) (n : Nat) : List BlockField :=
  let e := endpointOf s n
  let flags := 64 * flagNat e.winReport + 32 * flagNat e.demand + 16 * flagNat e.session + 8 * flagNat e.cntOut + 4 * flagNat e.paired + e.role
  [(0x00, 1, flags), (0x01, 1, e.targetMask + 16 * flagNat e.useWinPin), (0x02, 1, e.windowEp), (0x03, 1, e.checkTries), (0x04, 8, e.eui),
   (0x0C, 2, e.checkPeriod), (0x10, 4, e.timeout), (0x14, 4, e.expires), (0x18, 3, txLow s n), (0x1C, 5, rxFloor s n),
   (0x22, 2, epGet s n 8 2), (0x24, 2, epGet s n 10 2), (0x26, 2, twos 2 e.lastRtt), (0x28, 2, twos 2 e.lastRssi), (0x2A, 1, e.valve),
   (0x2B, 1, e.battery), (0x2C, 4, e.lastCheckS), (0x30, 1, e.endCause), (0x31, 1, e.lastResult)]

/-! The calendar (Tables 15-5, 15-6) -/

def calendarFields (s : State) : List BlockField :=
  let t := s.time
  [(0x00, 1, timeState s), (0x01, 1, t.invalidCause), (0x02, 1, t.quorum), (0x03, 1, t.cause.toNat), (0x04, 2, t.agreeMs),
   (0x08, 4, t.voteLife)] ++ fieldRun 0x0C 1 ([1, 2, 3, 4].map (weightOf t)) ++
    [(0x10, 8, twos 8 t.offset), (0x18, 8, t.lastSetSc), (0x20, 4, twos 4 t.lastStep)] ++
    fieldRun 0x24 2 [t.sets, t.leaps, t.votesIn, t.votesRefused, t.noQuorum, t.dissents, t.leapIgnored, t.scHolds] ++
    [(0x34, 3, t.leapTarget)] ++ byteRun 0x40 (t.snapshot.take 19)

def voteFields (s : State) (k : Nat) : List BlockField :=
  let v := voteOf s k
  [(0x00, 1, 16 * flagNat v.setAside + 8 * flagNat v.inGroup + 2 * v.leap + flagNat (voteCurrent s v)), (0x01, 1, v.lane),
   (0x02, 2, v.uncMs), (0x08, 8, twos 8 v.offset), (0x10, 8, v.stamp)]

/-! Pace, mode, calibration and cellar blocks (Tables 5-7, 6-14, 9-8, 19-11) -/

def paceFields (s : State) : List BlockField :=
  let f := s.fabric
  [(0x00, 1, f.vcore), (0x01, 1, f.vcoreCap),
   (0x02, 1, 4 * flagNat (0 < shedLevel s 1) + 2 * flagNat (0 < shedLevel s 0) + flagNat (atCeil s)), (0x03, 1, f.paceMin),
   (0x04, 2, f.ceilTicks), (0x08, 4, f.shedBlocksL), (0x0C, 4, f.shedBlocksV), (0x10, 4, f.pathDrops), (0x14, 2, f.fillHwL),
   (0x16, 2, f.fillHwV), (0x18, 1, shedLevel s 0), (0x19, 1, shedLevel s 1)]

def modeFields (m : Modes) : List BlockField :=
  [(0x00, 1, m.modeErr), (0x01, 1, m.ktLane), (0x02, 1, m.ktPeriod), (0x03, 1, m.ktListen),
   (0x04, 1, 2 * flagNat m.epochOk + flagNat m.x32Ok), (0x05, 1, m.listenHeld), (0x06, 2, m.bootEpoch), (0x08, 8, m.heldMask.toNat)]

def calBlockFields (c : Cal) : List BlockField :=
  [(0x00, 2, twos 2 c.tempAvg), (0x02, 1, c.tempDelta), (0x03, 1, flagNat c.synAuto), (0x04, 1, c.thermLimit),
   (0x05, 1, 16 * flagNat c.thermWarn + c.calDue), (0x08, 2, twos 2 c.x32Err), (0x0A, 2, twos 2 c.x32Temp), (0x0C, 2, c.testRuns),
   (0x0E, 2, c.testFails), (0x10, 1, c.lastTestFault)]

/-- Erase counts of the record area's sectors. -/
def recErases (c : Cellar) : List Nat := (List.range 224).map fun i => (sectorOf c.recLog (32 + i)).erases

def pwPresent (c : Cellar) : Nat :=
  ((List.range 6).map fun i => 2 ^ i * flagNat (hasPassword c (i / 2) (i % 2))).sum

def cellarFields (c : Cellar) : List BlockField :=
  let e := recErases c
  [(0x00, 1, 32 * flagNat c.lastBankB + 16 * flagNat c.factoryBad + 8 * flagNat c.shadowLost + 4 * flagNat c.reclaim.isSome +
     2 * flagNat c.store.isSome + flagNat c.dirty),
   (0x01, 1, 16 * fraction c 2 + 4 * fraction c 1 + fraction c 0), (0x02, 1, c.unlocked.toNat), (0x03, 1, pwPresent c),
   (0x04, 2, freeSectors false c.recLog), (0x06, 1, freeSectors true c.keyLog), (0x07, 1, badSectors c.recLog + badSectors c.keyLog),
   (0x08, 4, liveBytes c.recLog), (0x0C, 4, if c.bankA.valid then c.bankA.seq else 0xFFFFFFFF),
   (0x10, 4, if c.bankB.valid then c.bankB.seq else 0xFFFFFFFF), (0x14, 4, e.foldl min (e.headD 0)), (0x18, 4, e.foldl max 0),
   (0x1C, 4, c.bankA.erases), (0x20, 4, c.bankB.erases), (0x24, 2, c.rolledBack), (0x26, 2, c.completed), (0x28, 2, c.redone),
   (0x2A, 2, c.crcFallbacks), (0x2C, 2, c.keysLost), (0x30, 4, c.reclaims), (0x34, 2, c.cellarFaults), (0x36, 2, c.decantSkips)]

/-! Engines (Tables 11-9, 12-10) -/

/-- An engine held by tasting: its TASTING bit is all that reads (R302). -/
def engineTasted (s : State) (kind idx : Nat) : Bool :=
  match attachedLane s kind idx with
  | some (_, x) => x.hold == .tasting
  | none => false

/-- AUDIO_BW of an analogue unit: in an AM mode AM_BW, limited to the passband edge (R247); in an FM mode the spec states none. -/
def audioBw (s : State) (u : Nat) : Nat :=
  match attachedLane s 1 u with
  | some (_, x) =>
    let edge := match x.cur.preset with
      | 0 => 25
      | 1 => 38
      | 2 => 40
      | _ => 42
    let rate := match laneRate x.path x.cur.rate with
      | some r => r.1
      | none => 0
    let am := match bits (engPar x.cur 11) 1 0 with
      | 0 => 25
      | 1 => 40
      | 2 => 60
      | _ => 90
    if engPar x.cur 10 = 1 || engPar x.cur 10 = 2 then min am (rate * edge / 10000) else (Config.blockByte 0x2C0009 x.cur.params).toNat
  | none => 0

def analogueFields (s : State) (u : Nat) : List BlockField :=
  let a := analogueOf s u
  let running := (attachedLane s 1 u).isSome
  let st := if !running then 0 else if a.acquiring then 1 else 2
  let flags := 64 * flagNat a.stereo + 32 * flagNat a.pi.isSome + 16 * flagNat a.rdsSync + 8 * flagNat a.carrierLock + st
  [(0x00, 1, flags), (0x02, 2, a.pi.getD 0), (0x04, 1, a.pty), (0x05, 1, flagNat a.tp + 2 * flagNat a.ta + 4 * flagNat a.ms),
   (0x06, 2, twos 2 a.quality), (0x08, 1, a.blend), (0x09, 1, audioBw s u)] ++
    fieldRun 0x0C 4 [a.blocksGood, a.blocksCorrected, a.blocksBad, a.blocksErased, a.groupsOut] ++
    fieldRun 0x20 2 [a.syncLosses, a.eBlocks, a.piMismatches, a.piChanges] ++
    [(0x30, 1, a.af.method), (0x31, 1, a.af.entries.length), (0x32, 2, a.af.own)] ++ fieldRun 0x34 2 (a.af.entries.take 25) ++
    ((List.range 16).map fun i => match a.oda[i]? with
      | some (code, aid) => [(0x70 + 4 * i, 1, code), (0x72 + 4 * i, 2, aid)]
      | none => []).flatten ++
    [(0xB0, 1, a.rtLastFlag), (0xB1, 1, a.rtLast.length)] ++ byteRun 0xB4 (a.rtLast.take 64)

def lfFields (s : State) (d : Nat) : List BlockField :=
  let x := lfOf s d
  let desc := match attachedLane s 4 d with
    | some (_, l) => engPar l.cur 10
    | none => 0
  [(0x00, 1, x.state), (0x01, 1, desc), (0x02, 1, x.secondPos), (0x03, 1, x.consec), (0x04, 2, twos 2 x.refLevel)] ++
    byteRun 0x08 (x.lastFrame.take 16) ++ fieldRun 0x18 4 [x.framesOk, x.parityFails, x.rangeFails, x.erasedFrames, x.symbolsInvalid] ++
    [(0x2C, 2, x.minuteLosses)]

/-- Bytes 0x00 and 0x08 to 0x0F, common to DRM and DAB engines. -/
def engineFields (e : Engine) : List BlockField :=
  [(0x00, 1, 64 * flagNat e.afcFrozen + e.state), (0x08, 4, twos 4 e.freqOffset), (0x0C, 2, twos 2 e.residual), (0x0E, 2, twos 2 e.mer)]

def afFields (off : Nat) (af : List DigAf) : List BlockField :=
  (off, 1, af.length) :: fieldRun (off + 2) 4 ((af.take 63).map fun a =>
    a.khz % 2 ^ 24 + 2 ^ 24 * (flagNat a.otherService + 2 * flagNat a.otherEnsemble))

def drmFields (d : Drm) : List BlockField :=
  let e := d.eng
  engineFields e ++
    [(0x01, 1, d.mode), (0x02, 1, d.so), (0x03, 1, flagNat d.longInt + 4 * d.mscMode + 16 * d.sdcMode), (0x04, 1, d.serviceCount),
     (0x05, 1, d.reconf)] ++
    ((List.range 4).map fun i => match d.services[i]? with
      | some v => [(0x10 + 8 * i, 3, v.id), (0x13 + 8 * i, 1, v.shortId), (0x14 + 8 * i, 1, flagNat v.data + 2 * flagNat v.ca),
                   (0x15 + 8 * i, 1, v.language), (0x16 + 8 * i, 1, v.stream)]
      | none => []).flatten ++
    ((List.range 4).map fun i =>
      let v : DrmStream := tabGet {} d.streams i
      [(0x30 + 8 * i, 2, v.lenA), (0x32 + 8 * i, 2, v.lenB), (0x34 + 8 * i, 1, v.prot), (0x35 + 8 * i, 1, flagNat v.packet),
       (0x36 + 8 * i, 2, v.packetLen)]).flatten ++
    fieldRun 0x50 4 [d.facOk, d.facBad, d.sdcOk, d.sdcBad, e.auOk, e.auBad, e.packetsOk, e.packetsBad, e.unitsOk, e.unitsDropped,
      e.erasedCells, e.syncLosses, e.driftReacqs, e.gapResets, d.framesOk, d.itemsOut] ++
    byteRun 0x90 (d.label.take 32) ++ afFields 0x100 e.af

def dabFields (d : Dab) : List BlockField :=
  let e := d.eng
  engineFields e ++
    [(0x02, 2, d.eid), (0x04, 2, d.cif), (0x06, 1, d.change), (0x07, 1, subchActive d), (0x10, 2, cuInUse d)] ++
    fieldRun 0x40 4 [d.fibOk, d.fibBad, d.superframesOk, d.rsCorrected, d.rsFailed, e.auOk, e.auBad, e.packetsOk, e.packetsBad, e.unitsOk,
      e.unitsDropped, e.erasedCells, e.syncLosses, e.driftReacqs, e.gapResets, d.subchRefused] ++ afFields 0x400 e.af

def dabByte (d : Dab) (o : Nat) : Byte :=
  if 0x100 ≤ o && o < 0x200 then
    let x := tabGet {} d.subch ((o - 0x100) / 4)
    byteOf (x.startCu + 2 ^ 10 * x.size + 2 ^ 20 * x.prot + 2 ^ 28 * flagNat x.decoding + 2 ^ 29 * flagNat x.refused) (o % 4)
  else if 0x200 ≤ o && o < 0x400 then
    match d.services[(o - 0x200) / 8]? with
    | some v =>
      let c : PacketComp := if v.tmid = 3 then tabGet {} d.packets v.comp else { subch := v.comp }
      fieldByte [(0, 4, v.sid), (4, 1, c.subch), (5, 1, v.tmid), (6, 2, c.addr)] (o % 8)
    | none => 0
  else fieldByte (dabFields d) o

/-- A status byte of an engine, hidden while tasting holds it. -/
def engineByte (s : State) (kind idx o : Nat) : Byte :=
  if engineTasted s kind idx then (if o = 0 then 0x80 else 0)
  else match kind with
    | 1 => fieldByte (analogueFields s idx) o
    | 2 => fieldByte (drmFields (drmOf s idx)) o
    | 3 => dabByte (dabOf s idx) o
    | _ => fieldByte (lfFields s idx) o

/-! Tasting (Tables 13-6 to 13-8) -/

def tasteFields (s : State) : List BlockField :=
  let t := s.taste
  [(0x00, 1, t.maxTaste), (0x01, 1, t.tastings.length), (0x02, 2, t.tgenNext), (0x04, 1, t.mustCap), (0x05, 1, pagesFree s),
   (0x06, 1, t.entriesDropped)] ++
    fieldRun 0x08 4 [t.switches, t.leesTastings, t.leesItems, t.rackedDelivered, t.duplicatesSkipped, t.mustRolled] ++
    fieldRun 0x20 2 ((List.range 9).map fun i => tabGet 0 t.leesBy (i + 1)) ++ [(0x34, 4, t.mustDropped), (0x38, 4, t.switchDiscards)]

def followFields (f : Follow) : List BlockField :=
  [(0x00, 1, flagNat f.valid), (0x01, 1, f.lane), (0x02, 1, f.kind), (0x04, 4, f.ident), (0x08, 1, f.goodRun), (0x09, 1, f.margin),
   (0x0A, 1, f.perFollow), (0x0B, 1, f.idTimeout), (0x0C, 1, f.dwellMax), (0x0D, 1, f.nextCand), (0x10, 4, f.switches), (0x14, 4, f.lees)]

def tastingFields (s : State) (n : Nat) : List BlockField :=
  match tastingOf s n with
  | none => []
  | some t =>
    [(0x00, 1, t.state), (0x01, 1, t.entry), (0x02, 1, t.kind), (0x03, 1, t.engIndex), (0x04, 2, t.tgen), (0x06, 1, t.run),
     (0x08, 4, t.freqHz), (0x0C, 2, twos 2 (qualMeanField (laneOf s n))),
     (0x0E, 2, twos 2 (qualMeanField (laneOf s (followOf s t.entry).lane))), (0x10, 4, t.items.length),
     (0x14, 4, (t.items.map mustLen).sum)]

/-! The map (Table 20-3) -/

/-- The byte of an object block at a window address; none where no block lies (R450). -/
def blockRead (s : State) (a : Nat) : Option Byte :=
  if a < 0x200000 then none
  else if a < 0x204000 then some (laneByte s ((a - 0x200000) / 0x100) (a % 0x100))
  else if 0x210000 ≤ a && a < 0x213000 then some (pathByte s ((a - 0x210000) / 0x1000) (a % 0x1000))
  else if 0x218000 ≤ a && a < 0x218040 then some (fieldByte (cpllFields s) (a % 0x40))
  else if 0x240000 ≤ a && a < 0x250000 then some (slotByte s ((a - 0x240000) / 0x40) (a % 0x40))
  else if 0x250000 ≤ a && a < 0x260000 then some (sdeByte s ((a - 0x250000) / 0x40) (a % 0x40))
  else if 0x260000 ≤ a && a < 0x260800 then some (fieldByte (sapFields s ((a - 0x260000) / 0x400)) (a % 0x400))
  else if 0x260800 ≤ a && a < 0x260840 then some (fieldByte (pdmFields s.pdm) (a % 0x40))
  else if 0x270000 ≤ a && a < 0x270800 then some (linkByte s (a % 0x800))
  else if 0x280000 ≤ a && a < 0x280040 then some (fieldByte (sessionFields s) (a % 0x40))
  else if 0x280800 ≤ a && a < 0x280900 then some (fieldByte (targetFields (targetOf s ((a - 0x280800) / 0x40))) (a % 0x40))
  else if 0x281000 ≤ a && a < 0x283000 then some (fieldByte (endpointFields s ((a - 0x281000) / 0x40)) (a % 0x40))
  else if 0x290000 ≤ a && a < 0x290080 then some (fieldByte (calendarFields s) (a % 0x80))
  else if 0x290100 ≤ a && a < 0x290180 then some (fieldByte (voteFields s ((a - 0x290100) / 0x20 + 1)) (a % 0x20))
  else if 0x2A0000 ≤ a && a < 0x2A0040 then some (fieldByte (paceFields s) (a % 0x40))
  else if 0x2A0100 ≤ a && a < 0x2A0140 then some (fieldByte (modeFields s.modes) (a % 0x40))
  else if 0x2A0200 ≤ a && a < 0x2A0240 then some (fieldByte (calBlockFields s.cal) (a % 0x40))
  else if 0x2A0300 ≤ a && a < 0x2A0340 then some (fieldByte (cellarFields s.cellar) (a % 0x40))
  else if 0x2A0400 ≤ a && a < 0x2A0500 then some (summaryByte s (a % 0x100))
  else if 0x2B0000 ≤ a && a < 0x2B0800 then some ((lfDesc s ((a - 0x2B0000) / 0x100)).getD (a % 0x100) 0)
  else if 0x2C0000 ≤ a && a < 0x2C3000 then some (engineByte s 1 ((a - 0x2C0000) / 0x200) (a % 0x200))
  else if 0x2C4000 ≤ a && a < 0x2C4400 then some (engineByte s 4 ((a - 0x2C4000) / 0x100) (a % 0x100))
  else if 0x2C8000 ≤ a && a < 0x2CA000 then some (engineByte s 2 ((a - 0x2C8000) / 0x800) (a % 0x800))
  else if 0x2CC000 ≤ a && a < 0x2D0000 then some (engineByte s 3 ((a - 0x2CC000) / 0x2000) (a % 0x2000))
  else if 0x2D0000 ≤ a && a < 0x2D0040 then some (fieldByte (tasteFields s) (a % 0x40))
  else if 0x2D0100 ≤ a && a < 0x2D0300 then some (fieldByte (followFields (followOf s ((a - 0x2D0100) / 0x40))) (a % 0x40))
  else if 0x2D1000 ≤ a && a < 0x2D1800 then some (fieldByte (tastingFields s ((a - 0x2D1000) / 0x20)) (a % 0x20))
  else if 0x300000 ≤ a && a < 0x301000 then some (statByte s ((a - 0x300000) / 0x40) (a % 0x40))
  else none

end Sys2Proof.Machine
end

