-- ==== Sys2Proof/Machine/CalOps.lean ====
section
/-!
DEFINITION. Calibrations (chapter 9): their items (R198), when they may take their object (R192, R193, R195), what taking and releasing a
path does (R194, R196), what an item writes, and how a calibration ends (R198 to R200, R209).
-/
namespace Sys2Proof.Machine

/-! Items -/

/-- The bit number of an item without a CAL_VALID bit: a band of BAND_SCAN, or X32. -/
def noBit : Nat := 8

/-- The items of a TYPE on an object as (CAL_VALID bit, index), in their order (Table 9-1, R198). An item that is the whole of SYNTH, X32, TX_IQ
or TX_POWER has no range, section, WIDTH code or band, and the index that a CAL_FAIL gives for it is 0 (DESIGN CHOICE,
notes/assumptions/90.md). -/
def calItems (typ p : Nat) : List (Nat × Nat) :=
  let run (b n : Nat) : List (Nat × Nat) := (List.range n).map fun i => (b, i)
  match typ with
  | 0x01 => run 0 (rangeCount p)
  | 0x02 => run 1 2
  | 0x03 => run 2 (widthCount p)
  | 0x04 => run 3 1
  | 0x05 => run noBit 256
  | 0x06 => run 0 (rangeCount p) ++ run 1 2 ++ run 2 (widthCount p) ++ run 3 1
  | 0x10 => run noBit 1
  | 0x20 => run 4 1
  | _ => run 5 1

/-- TYPE of a CAL_RUN fits its object (Table 9-1). -/
def calTypeOk (c : Cmd) : Bool :=
  match cmdKind c with
  | 2 => 1 ≤ par c 8 && par c 8 ≤ 6
  | 3 => par c 8 == 0x10
  | _ => par c 8 == 0x20 || par c 8 == 0x21

/-! When a calibration starts -/

/-- Path L or V is idle: no host-bound lane on it runs; in SERVICE always. Path S is idle: no packet, and no LINK_RX, LINK_TX or release frame
(R193). -/
def pathIdle (s : State) (p : Nat) : Bool :=
  if p = 2 then !packetOn s && s.link.hostRx.isNone && s.link.txs.all isCheckTx
  else modeNow s == 6 || !((tuneOf s p).isSome || s.lanes.any fun e => e.2.hold == .host && e.2.path == p && e.2.running)

/-- The path cannot be taken yet by a calibration or self-test that asks or does not ask for ALLOW_INTERRUPT: a reference change, another
job, or the idle rule of R193. -/
def pathWaits (s : State) (p : Nat) (allow : Bool) : Bool :=
  s.clocks.stage != .idle || (pathOf s p).job.isSome || (p == 2 && s.cal.linkJob.isSome) ||
    (if allow then p == 2 && packetOn s else !pathIdle s p)

/-- A link-transmit calibration waits while a packet is in progress or a calibration holds path S (R195). -/
def linkWaits (s : State) : Bool := packetOn s || s.pathS.job.isSome || s.clocks.stage != .idle

/-! Taking and releasing -/

/-- Transmissions of path S that are not on air wait for the calibration, and go on from step 4 after it (R369). -/
def holdActive (s : State) : State :=
  modSynth (setActive (fun j => if notOnAir j then { j with stage := .held } else j) s) 2 fun x => { x with txCheck := none }

/-- A path goes to CAL with its job: its tastings end, a lock under way stops (R194, R196). -/
def takePath (p : Nat) (job : CalJob) (s : State) : State :=
  let s := endTastings 5 (fun lane _ => (laneOf s lane).path == p) s
  let s := modSynth s p fun x => if x.locking then stopSynth x else x
  let s := if p = 2 then holdActive s else s
  let s := setFe p .cal s
  serve (modPath s p fun x => { x with job := some job })

/-- A path leaves CAL: through ACQUIRE at its kept LO, through RETUNE when its lock is gone, from the band in use where that stands (R161), to
OFF when it was never tuned (R196). -/
def leaveCal (p : Nat) (s : State) : State :=
  let s := modPath s p fun x => { x with job := none }
  let x := pathOf s p
  let s :=
    if x.fe.state != .cal then s
    else if !x.fe.tuned && p != 2 then pathOff p s
    else if x.synth.locked then enterAcquire p s
    else if p = 2 && x.fe.loNow = 0 then pathOff p s
    else if x.synth.bandStands then relockBand p (setFe p .retune s)
    else beginLock p (setFe p .retune s)
  serve s

/-- The object of a job is released: 0 to 2 a path, 3 the CPLL, 4 the link. The blanking of a TX_POWER ends as a transmission's does, by step 6
of Table 8-8 (R195). -/
def releaseObject (obj : Nat) (s : State) : State :=
  match obj with
  | 3 => { s with cal := { s.cal with x32Job := none } }
  | 4 =>
    serve { s with cal := { s.cal with linkJob := none } }
  | p => leaveCal p s

/-- The calibration part that an object's job reports in: the path's, and path S's for the link. -/
def jobPath (obj : Nat) : Nat := if obj = 4 then 2 else obj

/-- Starts a CAL_RUN on its object. A band scan starts with an empty report (R158). -/
def startJob (c : Cmd) (s : State) : State :=
  let typ := par c 8
  let job : CalJob := { seq := c.seq, typ := typ, items := calItems typ (cmdIdx c), written := 0, store := bit (par c 9) 1 }
  match cmdKind c with
  | 2 =>
    let p := cmdIdx c
    let s := modCal s p fun x => { x with lastType := typ }
    let s := if typ = 5 then modSynth s p fun x => { x with edges := [] } else s
    let s := if typ = 4 || typ = 6 then modSynth s p takeTable else s
    takePath p job s
  | 3 => { s with cal := { s.cal with x32Job := some job } }
  | _ =>
    let s := modCal s 2 fun x => { x with lastType := typ }
    let s := holdActive { s with cal := { s.cal with linkJob := some job } }
    serve (if typ = 0x21 then beginBlank true s else s)

/-! Items written -/

/-- The job of an object. -/
def objectJob (s : State) : Nat → Option CalJob
  | 0 => s.pathL.job
  | 1 => s.pathV.job
  | 2 => s.pathS.job
  | 3 => s.cal.x32Job
  | 4 => s.cal.linkJob
  | _ => none

def setObjectJob (obj : Nat) (j : CalJob) (s : State) : State :=
  match obj with
  | 3 => { s with cal := { s.cal with x32Job := some j } }
  | 4 => { s with cal := { s.cal with linkJob := some j } }
  | p => modPath s p fun x => { x with job := some j }

/-- An item's measurement goes into the calibration part (Table 9-7) with its CAL_VALID and CAL_FIELD bits (R198). -/
def writeCalItem (bitNo idx : Nat) (m : CalMeas) (x : CalPart) : CalPart :=
  let a := satInt 2 m.x
  let b := satInt 2 m.y
  let x := { x with valid := x.valid ||| 2 ^ bitNo, field := x.field ||| 2 ^ bitNo }
  match bitNo with
  | 0 => { x with offsetTrim := tabSet x.offsetTrim idx (a, b) }
  | 1 => { x with img := tabSet x.img idx (a, b), irr := tabSet x.irr idx (m.z.toNat % 256) }
  | 2 => { x with filt := tabSet x.filt idx (m.x.toNat % 256) }
  | 4 => { x with txIqGain := a, txIqPhase := b, txIqLeakI := satInt 2 m.z, txIqLeakQ := satInt 2 m.w }
  | 5 => { x with pdetSlope := a, pdetOffset := b }
  | _ => x

/-- Writes the item that an object's job has measured. -/
def writeItem (obj typ bitNo idx : Nat) (m : CalMeas) (s : State) : State :=
  if typ = 0x10 then { s with cal := { s.cal with x32Err := satInt 2 m.x, x32Temp := s.cal.tempAvg } }
  else if typ = 0x05 then modSynth s obj fun x => { x with edges := tabSet x.edges idx (m.x.toNat, m.y.toNat) }
  else
    let s := modCal s (jobPath obj) (writeCalItem bitNo idx m)
    if bitNo = 3 then modSynth s obj fun x => { x with band := m.z.toNat % 256, bandStands := !x.locked } else s

/-! Ends -/

/-- TEMP_AVG as two result bytes. -/
def tempBytes (s : State) : List Byte := leBytes (twos 2 s.cal.tempAvg) 2

/-- A SYNTH or ALL calibration that ends sets T_REF_SYN (R202). -/
def endSynthCal (obj typ : Nat) (s : State) : State :=
  if typ = 4 || typ = 6 then modCal s obj fun x => { x with tRefSyn := s.cal.tempAvg } else s

/-- OFFSET, IMAGE and FILTER that have completed with OK; with all three T_CAL_PATH is set and CAL_DUE clears (R198, R205). -/
def noteDone (obj typ : Nat) (s : State) : State :=
  let mask := match typ with
    | 1 => 1
    | 2 => 2
    | 3 => 4
    | 6 => 7
    | _ => 0
  if mask = 0 then s
  else
    let s := modCal s obj fun x => { x with doneSince := x.doneSince ||| mask }
    if (pathOf s obj).cal.doneSince = 7 then
      let s := modCal s obj fun x => { x with tCalPath := s.cal.tempAvg }
      { s with cal := { s.cal with calDue := if bit s.cal.calDue obj then s.cal.calDue - 2 ^ obj else s.cal.calDue } }
    else s

/-- The calibration record of an object and its key (R199, chapter 19). -/
def calRecord (s : State) (obj : Nat) : Nat × List Byte :=
  if obj = 3 then (0x4013, leBytes (twos 2 s.cal.x32Err) 2 ++ leBytes (twos 2 s.cal.x32Temp) 2)
  else
    let p := jobPath obj
    (0x4010 + p, (List.range 64).map fun i => fieldByte (calFields p (pathOf s p).cal) (0x40 + i))

/-- The result bytes of an OK without its STORE byte (R200). -/
def calResult (s : State) (job : CalJob) : List Byte := [lowByte job.typ, lowByte job.written] ++ tempBytes s

/-- The last item is written: the object is released, and the command completes or stores its record (R199, R200). -/
def calDone (obj : Nat) (job : CalJob) (s : State) : State :=
  let s := noteDone obj job.typ (endSynthCal obj job.typ s)
  let result := calResult s job
  let s := releaseObject obj s
  if job.store then
    let s := modCmd s job.seq fun d => { d with result := result }
    startDue (issueWrite s job.seq (calRecord s obj).1 false (calRecord s obj).2)
  else complete job.seq 0x00 (result ++ [0]) s

/-- An item did not converge: CAL_FAIL (R198, R209). An item without a CAL_VALID bit gives a free bit number. -/
def calFailed (obj bitNo idx : Nat) (m : CalMeas) (job : CalJob) (s : State) : State :=
  let s := endSynthCal obj job.typ s
  let s := if obj = 3 then s
    else modCal s (jobPath obj) fun x => { x with calFails := bump 2 x.calFails 1, lastReason := m.reason % 256 }
  let (b, s) := if bitNo = noBit then draw 256 s else (bitNo, s)
  complete job.seq 0x50 ([lowByte job.typ, lowByte b, lowByte idx, lowByte m.reason] ++ tempBytes s) (releaseObject obj s)

end Sys2Proof.Machine
end

