-- ==== Sys2Proof/Machine/Cal.lean ====
section
/-!
DEFINITION. CAL_RUN, SELFTEST and their ends (R190 to R200, R207 to R209), and the temperature-triggered recalibration (R202 to R204).
-/
namespace Sys2Proof.Machine

/-! CAL_RUN -/

def checkCalRun (s : State) (c : Cmd) : Option Reply :=
  firstFail (needObject [2, 3, 7] c :: needHeader c ++ [needField 8 (calTypeOk c), needField 9 (par c 9 < 4)] ++ needZeros c 10 31 ++
    [needMode s [3, 4, 5, 6]])

/-- The calibration waits for its object; a waiting one has not started (R192, R193, R195). -/
def calWaits (s : State) (c : Cmd) : Bool :=
  match cmdKind c with
  | 2 => pathWaits s (cmdIdx c) (bit (par c 9) 0)
  | 3 => false
  | _ => linkWaits s

/-- CAL_RUN. -/
def execCalRun (seq : Nat) (s : State) : Host.Outcome State Fault Refusal :=
  match startable s seq 0x30 with
  | none => .next s
  | some c => match checkCalRun s c with
    | some r => .next (complete seq r.1 r.2 s)
    | none => .next (if calWaits s c then s else startJob c (setPhase s seq .running))

/-- The item is measured on ADC samples, which do not count while the path is blanked: its calibration pauses (R196, Table 9-3). -/
def itemPaused (s : State) (obj bitNo : Nat) : Bool := bitNo < 3 && blanked s obj

/-- CAL_ITEM_END: an item's measurement ends: it is written and the next begins, or the calibration stops, ends, or fails (R198). A self-test
has no items. -/
def execCalItemEnd (obj : Nat) (m : CalMeas) (s : State) : Host.Outcome State Fault Refusal :=
  match objectJob s obj with
  | none => .next s
  | some job => match job.items with
    | [] => .next s
    | (b, i) :: rest =>
      if itemPaused s obj b then .next s
      else if !m.converged then .next (calFailed obj b i m job s)
      else
        let s := writeItem obj job.typ b i m s
        let job := { job with items := rest, written := if b < 6 then job.written ||| 2 ^ b else job.written }
        match stopCause s job.seq with
        | some k =>
          let s := releaseObject obj (endSynthCal obj job.typ s)
          .next (complete job.seq (abortedReply s k).1 (abortedReply s k).2 s)
        | none => .next (if rest.isEmpty then calDone obj job s else setObjectJob obj job s)

/-! SELFTEST -/

/-- TYPE of a SELFTEST fits its object (Table 9-5). -/
def testTypeOk (c : Cmd) : Bool :=
  match cmdKind c with
  | 0 => 1 ≤ par c 8 && par c 8 ≤ 3
  | 1 => par c 8 == 0x10
  | 2 => par c 8 == 0x20
  | _ => par c 8 == 0x30

/-- STORE, byte 9 bit 1, is for CAL_RUN alone; a SELFTEST that sets it is accepted and the bit has no effect, since Table 9-2 does not call
it reserved there (DESIGN CHOICE, notes/assumptions/91.md). -/
def checkSelftest (s : State) (c : Cmd) : Option Reply :=
  let onChain := cmdKind c == 1 || cmdKind c == 2
  firstFail (needObject [0, 1, 2, 11] c :: needHeader c ++ [needField 8 (testTypeOk c), needField 9 (par c 9 < 4)] ++ needZeros c 10 31 ++
    [needMode s (if onChain then [3, 4, 5, 6] else [1, 2, 3, 4, 5, 6]),
     needState (cmdKind c != 1 || (laneOf s (cmdIdx c)).hold == .free) (holdCode (laneOf s (cmdIdx c)).hold)])

/-- A self-test starts: a LANE test takes its lane, a PATH test its path. -/
def startTest (c : Cmd) (s : State) : State :=
  match cmdKind c with
  | 1 => modLane s (cmdIdx c) fun x => { x with hold := .test }
  | 2 => takePath (cmdIdx c) { seq := c.seq, typ := 0x20, items := [], written := 0, store := false } s
  | _ => s

/-- SELFTEST. -/
def execSelftest (seq : Nat) (s : State) : Host.Outcome State Fault Refusal :=
  match startable s seq 0x31 with
  | none => .next s
  | some c => match checkSelftest s c with
    | some r => .next (complete seq r.1 r.2 s)
    | none =>
      .next (if cmdKind c == 2 && pathWaits s (cmdIdx c) (bit (par c 9) 0) then s else startTest c (setPhase s seq .running))

/-- A bank as a CELLAR test sees it: one that a store is writing as it stood before (chapter 9, edge of the CELLAR test). -/
def bankSound (c : Cellar) (b : Bool) : Bool :=
  match c.store with
  | some t => if t.bankB = b then t.wasValid else (bankOf c b).valid
  | none => (bankOf c b).valid

/-- Records whose CRC-32 does not check, and shadow banks that are not valid: what a CELLAR test finds (Table 9-5). Both are counted in [7:4],
and factory items, which no log holds, are not among the records (DESIGN CHOICE, notes/assumptions/92.md). -/
def badRecords (c : Cellar) : Nat :=
  ((c.recLog.recs ++ c.keyLog.recs).filter fun r => r.stage == .committed && !r.crcOk).length + flagNat (!bankSound c false) +
    flagNat (!bankSound c true)

/-- PACE is at least the minimum for the step code in use and the die temperature (R459). -/
def paceSound (s : State) : Bool :=
  match minPace s.fabric.vcore s.cal.temp with
  | some (n, d) => n ≤ d * s.fabric.pace
  | none => true

/-- The outcome of a self-test: as measured, but a CELLAR test's comes from the cellar, and a FABRIC test's from PACE, but in PARKED,
where PACE holds no measurement. -/
def testOutcome (s : State) (c : Cmd) (m : TestMeas) : TestMeas :=
  if cmdKind c = 11 then
    let bad := badRecords s.cellar
    if bad = 0 then { m with pass := true } else { m with pass := false, fault := 5, signature := bad }
  else if cmdKind c = 0 && par c 8 = 3 && modeNow s != 1 then { m with pass := paceSound s, fault := 6 }
  else m

/-- The object of a self-test is free again. -/
def endTest (c : Cmd) (s : State) : State :=
  match cmdKind c with
  | 1 => freeLane (cmdIdx c) s
  | 2 => leaveCal (cmdIdx c) s
  | _ => s

/-- SELFTEST_END (R208). -/
def execSelftestEnd (seq : Nat) (m : TestMeas) (s : State) : Host.Outcome State Fault Refusal :=
  match findCmd s seq with
  | some c =>
    if cmdOp c == 0x31 && !(c.phase == .waiting || c.phase == .abortWaiting) then
      let m := testOutcome s c m
      let a := s.cal
      let s := endTest c { s with cal := { a with
        testRuns := bump 2 a.testRuns 1, testFails := bump 2 a.testFails (flagNat !m.pass),
        lastTestFault := if m.pass then a.lastTestFault else m.fault % 256 } }
      let sig := leBytes m.signature 4
      .next (if m.pass then complete seq 0x00 ([lowByte (par c 8), lowByte m.units, 0, 0] ++ sig) s
        else complete seq 0x51 ([lowByte (par c 8), lowByte m.unit, lowByte m.index, lowByte m.fault] ++ sig) s)
    else .next s
  | none => .next s

/-! The temperature-triggered recalibration -/

/-- A recalibration of a path's synthesiser runs now (R202, R203). -/
def recalRuns (s : State) (p : Nat) : Bool :=
  let x := pathOf s p
  let st : Bool := match x.fe.state with
    | .run | .acquire | .range => true
    | _ => false
  ready s && s.cal.synAuto && x.synth.locked && st && x.job.isNone && tempMoved s s.cal.tempAvg x.cal.tRefSyn &&
    s.clocks.stage == .idle && !(p == 2 && packetOn s)

/-- SYN_RECAL: the band that holds the VCO frequency with the widest margin is taken; when none does the band in use stays, with CAL_EVENT
and a LAST_REASON that the spec does not single out (R203, R204). -/
def execSynRecal (path : Nat) (band : Option Nat) (s : State) : Host.Outcome State Fault Refusal :=
  if path < 3 && recalRuns s path then
    let s := touchLanes path 1 (modSynth s path takeTable)
    let s := modSynth s path fun x => { x with timedLock := false, badRun := 0 }
    let s := modCal s path fun x => { x with tRefSyn := s.cal.tempAvg, synRecals := bump 2 x.synRecals 1 }
    match band with
    | some b => .next (modSynth s path fun x => { x with band := b % 256 })
    | none =>
      let (r, s) := draw 5 s
      .next (raise .calEvent (modCal s path fun x => { x with calFails := bump 2 x.calFails 1, lastReason := r + 1 }))
  else .next s

end Sys2Proof.Machine
end

