-- ==== Sys2Proof/Machine/Cellar.lean ====
section
/-!
DEFINITION. The cellar commands 0x50 to 0x57 (Tables 19-8, 19-9) and the background reclaim.
-/
namespace Sys2Proof.Machine

/-- The object is the record area, 0xB000. -/
def needRecordArea (c : Cmd) : Option Reply := failUnless (cmdObj c == 0xB000) (0x11, [])

/-- The object is the shadow array, 0xB001. -/
def needShadowArray (c : Cmd) : Option Reply := failUnless (cmdObj c == 0xB001) (0x11, [])

/-- A host write of a key: reserved keys, then protect fractions, then locks (R438). -/
def needKeyWrite (s : State) (key : Nat) : Option Reply :=
  match keyClass key with
  | .host => firstFail [needAccess (protectedBelow false (fraction s.cellar 0) ≤ key) (refuse 0 1),
                        needAccess (!locked s.cellar 0 1) (refuse 0 2)]
  | .issuer => firstFail [needAccess (fraction s.cellar 2 != 3) (refuse 2 1), needAccess (!locked s.cellar 2 1) (refuse 2 2)]
  | _ => needAccess false (refuse 3 3)

/-! CELLAR_PUT -/

def checkCellarPut (s : State) (c : Cmd) : Option Reply :=
  let key := parN c 8 2
  let len := parN c 10 2
  let src := parN c 12 3
  let issuer := keyClass key == .issuer
  firstFail (needRecordArea c :: needHeader c ++
    [needField 8 (keyClass key != .none),
     needField 10 (1 ≤ len && len ≤ 1024 && (!issuer || len == 64)),
     needField 12 (inScratch src len && (!issuer || onP256 (memGets s src 64)))] ++ needZeros c 15 31 ++
    [needKeyWrite s key])

/-- CELLAR_PUT (R425, R426): the write is issued, and its first operation, or that of a reclaim, runs; FLASH_OPERATION_END carries it on. -/
def runCellarPut (s : State) (c : Cmd) : State := issueWrite s c.seq (parN c 8 2) false (memGets s (parN c 12 3) (parN c 10 2))

def execCellarPut (seq : Nat) (s : State) : Host.Outcome State Fault Refusal :=
  .next (startDue (startCmd s seq 0x50 checkCellarPut runCellarPut))

/-! CELLAR_GET -/

/-- A host read of a key (R425, R439). -/
def needKeyRead (s : State) (key : Nat) : Option Reply :=
  match keyClass key with
  | .host => needAccess (!locked s.cellar 0 0) (refuse 0 2)
  | .pairing | .issuer => needAccess (!locked s.cellar 2 0) (refuse 2 2)
  | .password => needAccess false (refuse 3 3)
  | _ => none

def checkCellarGet (s : State) (c : Cmd) : Option Reply :=
  let key := parN c 8 2
  firstFail (needRecordArea c :: needHeader c ++
    [needField 8 (keyClass key != .none), needField 10 (parN c 10 2 ≤ 1024),
     needField 12 (inScratch (parN c 12 3) (parN c 10 2))] ++ needZeros c 15 31 ++ [needKeyRead s key])

/-- CELLAR_GET (R428): content to DEST for a key that holds content, VERSION and LEN alone for a key of the key area. -/
def runCellarGet (s : State) (c : Cmd) : State :=
  let key := parN c 8 2
  match keyContent s.cellar key with
  | none => complete c.seq 0x01 [] s
  | some (version, content) =>
    let out := if keyClass key == .pairing || keyClass key == .issuer then [] else content.take (parN c 10 2)
    complete c.seq 0x00 (leBytes version 4 ++ leBytes content.length 2 ++ leBytes out.length 2) (devPuts s (parN c 12 3) out)

def execCellarGet (seq : Nat) (s : State) : Host.Outcome State Fault Refusal :=
  .next (startCmd s seq 0x51 checkCellarGet runCellarGet)

/-! CELLAR_ERASE_KEY -/

def checkCellarEraseKey (s : State) (c : Cmd) : Option Reply :=
  firstFail (needRecordArea c :: needHeader c ++ [needField 8 (keyClass (parN c 8 2) != .none)] ++ needZeros c 10 31 ++
    [needKeyWrite s (parN c 8 2)])

/-- CELLAR_ERASE_KEY (R427): ABSENT for an absent key, otherwise a tombstone is written. -/
def runCellarEraseKey (s : State) (c : Cmd) : State :=
  match keyContent s.cellar (parN c 8 2) with
  | none => complete c.seq 0x01 [] s
  | some _ => issueWrite s c.seq (parN c 8 2) true []

def execCellarEraseKey (seq : Nat) (s : State) : Host.Outcome State Fault Refusal :=
  .next (startDue (startCmd s seq 0x52 checkCellarEraseKey runCellarEraseKey))

/-! SHADOW_WRITE and SHADOW_READ -/

/-- The address of byte `i` of a transfer: inside the page of ADDR with WRAP, straight on with SPAN (R433). -/
def shadowAddr (span : Bool) (addr i : Nat) : Nat := if span then addr + i else addr / 64 * 64 + (addr + i) % 64

/-- The pages a transfer touches. -/
def shadowPages (span : Bool) (addr len : Nat) : Nat := if span then (addr + len - 1) / 64 + 1 - addr / 64 else 1

/-- ADDR, LEN and MODE of a transfer in an array part that ends at `top` (R433, R434). -/
def needShadowRange (c : Cmd) (top maxLen : Nat) : List (Option Reply) :=
  let addr := parN c 8 2
  let len := parN c 10 2
  let span := bit (par c 15) 0
  [needField 8 (addr < top), needField 10 (1 ≤ len && len ≤ maxLen && (if span then addr + len ≤ top else len ≤ 64)),
   needField 12 (inScratch (parN c 12 3) len), needField 15 (par c 15 < 2)] ++ needZeros c 16 31

/-- Some byte of a transfer lies below an address. -/
def shadowTouches (span : Bool) (addr len below : Nat) : Bool := (List.range len).any fun i => shadowAddr span addr i < below

def checkShadowWrite (s : State) (c : Cmd) : Option Reply :=
  let frac := protectedBelow true (fraction s.cellar 1)
  firstFail (needShadowArray c :: needHeader c ++ needShadowRange c 0x1400 5120 ++
    [needAccess (!shadowTouches (bit (par c 15) 0) (parN c 8 2) (parN c 10 2) frac) (refuse 1 1),
     needAccess (!locked s.cellar 1 1) (refuse 1 2)])

/-- The result bytes of a transfer: the address after its last byte, and the pages touched (R433). -/
def shadowResult (c : Cmd) : List Byte :=
  let span := bit (par c 15) 0
  leBytes (shadowAddr span (parN c 8 2) (parN c 10 2)) 2 ++ [lowByte (shadowPages span (parN c 8 2) (parN c 10 2))]

/-- SHADOW_WRITE (R433): every byte is written, the pages marked, DIRTY set. -/
def runShadowWrite (s : State) (c : Cmd) : State :=
  let addr := parN c 8 2
  let len := parN c 10 2
  let span := bit (par c 15) 0
  let x := s.cellar
  let bytes := memGets s (parN c 12 3) len
  let shadow := (List.range len).foldl (fun m i => cellPut m (shadowAddr span addr i) (bytes.getD i 0)) x.shadow
  let written := if span then markPages x.written addr len else markPages x.written addr 1
  complete c.seq 0x00 (shadowResult c) { s with cellar := { x with shadow := shadow, written := written, dirty := true } }

def execShadowWrite (seq : Nat) (s : State) : Host.Outcome State Fault Refusal :=
  .next (startDue (startCmd s seq 0x53 checkShadowWrite runShadowWrite))

def checkShadowRead (s : State) (c : Cmd) : Option Reply :=
  firstFail (needShadowArray c :: needHeader c ++ needShadowRange c 0x2000 8192 ++
    [needAccess (!(shadowTouches (bit (par c 15) 0) (parN c 8 2) (parN c 10 2) 0x1400 && locked s.cellar 1 0)) (refuse 1 2)])

/-- SHADOW_READ (R434): the bytes to DEST; ABSENT, with zeros, when no page it touches was ever written. -/
def runShadowRead (s : State) (c : Cmd) : State :=
  let addr := parN c 8 2
  let len := parN c 10 2
  let span := bit (par c 15) 0
  let pages := (List.range (shadowPages span addr len)).map fun i => addr / 64 + i
  let bytes := (List.range len).map fun i => cellGet s.cellar.shadow (shadowAddr span addr i)
  let s := devPuts s (parN c 12 3) bytes
  if pages.any fun p => s.cellar.written.getLsbD p then complete c.seq 0x00 (shadowResult c) s
  else complete c.seq 0x01 [] s

def execShadowRead (seq : Nat) (s : State) : Host.Outcome State Fault Refusal :=
  .next (startCmd s seq 0x54 checkShadowRead runShadowRead)

/-! SHADOW_STORE -/

def checkShadowStore (_s : State) (c : Cmd) : Option Reply :=
  firstFail (needShadowArray c :: needHeader c ++ needZeros c 8 31)

/-- SHADOW_STORE (R435): a clean array completes at once with the SEQ in force; a dirty one begins its store. -/
def runShadowStore (s : State) (c : Cmd) : State :=
  if s.cellar.dirty then { s with cellar := beginStore s.cellar (some c.seq) }
  else complete c.seq 0x00 (leBytes (newerSeq s.cellar) 4 ++ [0xFF, 0x01]) s

def execShadowStore (seq : Nat) (s : State) : Host.Outcome State Fault Refusal :=
  .next (startDue (startCmd s seq 0x55 checkShadowStore runShadowStore))

/-! PROTECT_SET -/

def checkProtectSet (s : State) (c : Cmd) : Option Reply :=
  let region := cmdIdx c
  let frac := par c 8
  firstFail (needObject [11] c :: needHeader c ++
    [needField 8 (frac < 4 && !(region == 2 && (frac == 1 || frac == 2))), needField 9 (par c 9 < 2)] ++ needZeros c 10 31 ++
    [needAccess (!locked s.cellar region 1) (refuse region 2)])

/-- PROTECT_SET (R441): the record of key 0x4001 with the region's FRACTION changed. -/
def runProtectSet (s : State) (c : Cmd) : State :=
  let region := cmdIdx c
  let f (r : Nat) : Nat := (if r = region then par c 8 else fraction s.cellar r) * 4 ^ r
  issueWrite s c.seq 0x4001 false [lowByte (f 0 + f 1 + f 2)]

def execProtectSet (seq : Nat) (s : State) : Host.Outcome State Fault Refusal :=
  .next (startDue (startCmd s seq 0x56 checkProtectSet runProtectSet))

/-! UNLOCK -/

def checkUnlock (_s : State) (c : Cmd) : Option Reply :=
  firstFail (needObject [11] c :: needHeader c ++ [needField 8 (par c 8 < 2)] ++ needZeros c 17 31)

/-- UNLOCK (R440): a match unlocks the access, a mismatch relocks both and counts. -/
def runUnlock (s : State) (c : Cmd) : State :=
  let region := cmdIdx c
  let access := par c 8
  match keyContent s.cellar (0x8200 + 2 * region + access) with
  | none => complete c.seq 0x00 [1] s
  | some (_, pw) =>
    if (c.desc.drop 9).take 8 == pw then
      let u := s.cellar.unlocked ||| (1#6 <<< (2 * region + access))
      complete c.seq 0x00 [0] { s with cellar := { s.cellar with unlocked := u } }
    else
      let a := 0x1C44 + 4 * region
      let n := bump 4 (shadowGet s.cellar a 4) 1
      complete c.seq 0x31 (leBytes n 4) { s with cellar := shadowSet (relock s.cellar region) a 4 n }

def execUnlock (seq : Nat) (s : State) : Host.Outcome State Fault Refusal :=
  .next (startCmd s seq 0x57 checkUnlock runUnlock)

/-! The background reclaim -/

/-- RECLAIM (R429): a reclaim of the oldest sector begins while the log has four free sectors or fewer, once no record write and no other
reclaim runs; FLASH_OPERATION_END carries it on. -/
def execReclaim (area : Nat) (s : State) : Host.Outcome State Fault Refusal :=
  let keyArea := area == 1
  if area < 2 && ready s && s.cellar.write.isNone && s.cellar.reclaim.isNone && freeSectors keyArea (logOf s.cellar keyArea) ≤ 4 then
    match beginReclaim keyArea false s.cellar with
    | some c => .next { s with cellar := c }
    | none => .next s
  else .next s

end Sys2Proof.Machine
end

