-- ==== Sys2Proof/Machine/Flash.lean ====
section
/-!
DEFINITION. The end of a flash program or erase operation (R426, R430, R435): the next step of the record write or shadow store under way,
and what the command it serves completes with.
-/
namespace Sys2Proof.Machine

/-- A record write is done: its command completes (R425 to R427, R441, R374, R199). -/
def writeServed (seq : Nat) (w : Write) (s : State) : State :=
  match findCmd s seq with
  | none => s
  | some c =>
    let free := leBytes (freeSectors w.keyArea (logOf s.cellar w.keyArea)) 2
    match cmdOp c with
    | 0x50 => complete c.seq 0x00 (leBytes w.rec_.version 4 ++ leBytes w.rec_.payload.length 2 ++ free) s
    | 0x52 => complete c.seq 0x00 (leBytes w.rec_.version 4) s
    | 0x56 =>
      let s := if bit (par c 9) 0 then { s with cellar := relock s.cellar (cmdIdx c) } else s
      complete c.seq 0x00 [lowByte (par c 8)] s
    | 0x40 => serve (complete c.seq 0x00 c.result (pairWritten c s))
    | _ => complete c.seq 0x00 (c.result ++ [1]) s

/-- A copy of a reclaim is done: the next part of the reclaim begins. -/
def copyDone (s : State) : State :=
  match s.cellar.reclaim with
  | some r => startDue { s with cellar := reclaimNext r s.cellar }
  | none => s

/-- A copy of a reclaim met its second mismatch: the reclaim ends with the original in place, and the write that began it with CELLAR_FAULT
(R430). -/
def copyFailed (sector : Nat) (s : State) : State :=
  let t := { s with cellar := { s.cellar with reclaim := none } }
  match s.cellar.reclaim, dueCmd [] s.rings.inflight with
  | some r, some (c, _) => startDue (if r.forWrite then complete c.seq 0x33 [lowByte sector] t else t)
  | _, _ => t

/-- The erase of a reclaim ends: the sector is free or retired, and a write that waits goes on (R429, R430). -/
def eraseStep (ok : Bool) (r : Reclaim) (s : State) : State :=
  if r.erasing then
    let c := setLog s.cellar r.keyArea (freeOldest ok (logOf s.cellar r.keyArea))
    startDue { s with cellar := { c with reclaim := none, reclaims := bump 4 c.reclaims 1 } }
  else copyDone s

/-- One operation of a record write ends. -/
def writeStep (ok : Bool) (w : Write) (s : State) : State :=
  let r := if ok then writeGood s.cellar w else writeBad s.cellar w
  let s := { s with cellar := r.1 }
  match r.2, w.seq with
  | .more, _ => s
  | .done w, some q => startDue (writeServed q w s)
  | .failed w, some q => startDue (complete q 0x33 [lowByte w.rec_.sector] s)
  | .done _, none => copyDone s
  | .failed w, none => copyFailed w.rec_.sector s

/-- A store has ended, complete or not: a decant's goes to the hold, a SHADOW_STORE completes (R435). -/
def storeServed (t : Store) (status : Nat) (result : List Byte) (s : State) : State :=
  let s := if s.power.phase == .decanting then endDecant false s else s
  match t.seq with
  | some q => startDue (complete q status result s)
  | none => s

/-- One operation of a shadow store ends. A mismatch ends the store with its bank invalid; the sector byte of the CELLAR_FAULT, which the
spec gives for records only, is a free value (DESIGN CHOICE, notes/assumptions/7.md). -/
def storeStep (ok : Bool) (t : Store) (s : State) : State :=
  if ok then
    if t.opsLeft ≤ 1 then
      storeServed t 0x00 (leBytes t.newSeq 4 ++ [lowByte (flagNat t.bankB), 0]) { s with cellar := endStore s.cellar t }
    else { s with cellar := { s.cellar with store := some { t with opsLeft := t.opsLeft - 1 } } }
  else
    let (b, s) := draw 256 s
    storeServed t 0x33 [lowByte b]
      { s with cellar := { s.cellar with store := none, cellarFaults := bump 2 s.cellar.cellarFaults 1 } }

/-- FLASH_OPERATION_END: `ok` says whether the read-back matches. The operation is the record write's, else the reclaim's erase, else the
store's. -/
def execFlashOperationEnd (ok : Bool) (s : State) : Host.Outcome State Fault Refusal :=
  match s.cellar.write, s.cellar.reclaim, s.cellar.store with
  | some w, _, _ => .next (writeStep ok w s)
  | none, some r, _ => .next (eraseStep ok r s)
  | none, none, some t => .next (storeStep ok t s)
  | none, none, none => .next s

end Sys2Proof.Machine
end

