-- ==== Sys2Proof/Machine/Slots.lean ====
section
/-!
DEFINITION. The slot commands (R317 to R319), the envelope that the security engine finishes (R328 to R331), and the writes of CONS and
of WAKE_PEND (R323, R326).
-/
namespace Sys2Proof.Machine

/-- Slots are opened and closed in LISTEN, FOLLOW, PLAY and SERVICE (R317). -/
def slotModes : List Nat := [3, 4, 5, 6]

/-- Two slots' rings share a byte. -/
def ringsMeet (base log2 : Nat) (x : Slot) : Bool := runsMeet base (2 ^ log2) x.ringBase (ringSize x)

/-- The checks of a SLOT_OPEN. KIND_MASK, which only RAW reads, has its reserved bits in bytes 14 and 15 (R6, Table 14-2). -/
def checkSlotOpen (s : State) (c : Cmd) : Option Reply :=
  let policy := par c 8 % 4
  let mask := parN c 12 4
  let base := parN c 24 3
  let log2 := par c 27
  let n := cmdIdx c
  let dab := [15, 16, 17, 18].any (bit mask)
  let overlaps := s.slots.slots.any fun e => e.1 != n && e.2.isOpen && ringsMeet base log2 e.2
  firstFail (needObject [5] c :: needHeader c ++
    [needField 8 (policy != 3 && par c 8 < 64 && !bit (par c 8) 3), needField 9 (par c 9 < 64),
     needField 10 (!(policy == 0 && dab && par c 10 == 0xFF)), needField 12 (policy != 0 || mask != 0),
     needField 14 (policy != 0 || par c 14 < 16), needField 15 (policy != 0 || par c 15 == 0), needField 19 (par c 19 == 0),
     needField 22 (policy == 0 || parN c 22 2 != 0),
     needField 24 (base % 2 ^ log2 == 0 && base + 2 ^ log2 ≤ 0x100000 && !overlaps),
     needField 27 (8 ≤ log2 && log2 ≤ 20), needField 31 (par c 31 == 0), needMode s slotModes, needState (!(slotOf s n).isOpen) 1])

/-- The descriptor a SLOT_OPEN writes; the slot's counters stand. -/
def openedSlot (s : State) (c : Cmd) (x : Slot) : Slot :=
  { x with
    isOpen := true, suspended := modeNow s == 6, policy := par c 8 % 4, timeRule := bit (par c 8) 2, wakeMode := bits (par c 8) 5 4,
    srcLane := par c 9, stream := par c 10, groupType := par c 11, kindMask := parN c 12 4, sub := parN c 16 2, ptype := par c 18,
    aid := parN c 20 2, issuerMask := parN c 22 2, ringBase := parN c 24 3, ringLog2 := par c 27, wakeFill := parN c 28 3,
    prod := 0, cons := 0, stagedCons := [], rseqNext := 0, gap := false,
    floors := (List.range 16).map fun i => (i, replayFloor s i - 1) }

/-- The DAB engine of a lane looks at its requests afresh (R289). -/
def admitOn (lane : Nat) (s : State) : State :=
  if (laneOf s lane).hold == .host && (laneOf s lane).cur.engKind == 3 then admitSubch (placeNow s lane) s else s

def runSlotOpen (s : State) (c : Cmd) : State :=
  let lane := par c 9
  let s := admitOn lane (modSlot s (cmdIdx c) (openedSlot s c))
  complete c.seq 0x00 [lowByte (holdCode (laneOf s lane).hold), lowByte (laneOf s lane).cur.engKind] s

def execSlotOpen (seq : Nat) (s : State) : Host.Outcome State Fault Refusal :=
  .next (startCmd s seq 0x20 checkSlotOpen runSlotOpen)

/-- The checks of a SLOT_CLOSE. No parameter table is printed for its bytes 8 to 31, which must be 0 (DESIGN CHOICE, notes/assumptions/96.md). -/
def checkSlotClose (s : State) (c : Cmd) : Option Reply :=
  firstFail (needObject [5] c :: needHeader c ++ needZeros c 8 31 ++ [needMode s slotModes])

/-- Envelopes that no open slot names any more are discarded. -/
def dropUnnamed (s : State) : State :=
  { s with slots := { s.slots with
      assembling := s.slots.assembling.filter fun a => wantsAid s a.lane a.aid,
      waiting := s.slots.waiting.filter fun e => !(namingSlots s e).isEmpty } }

/-- SLOT_CLOSE (R319): the slot closes, its envelopes are discarded; a closed slot changes nothing. -/
def runSlotClose (s : State) (c : Cmd) : State :=
  let x := slotOf s (cmdIdx c)
  let s := if x.isOpen then admitOn x.srcLane (dropUnnamed (modSlot s (cmdIdx c) fun x => { x with isOpen := false, suspended := false }))
    else s
  complete c.seq 0x00 (leBytes x.prod 4 ++ leBytes x.rseqNext 4) s

def execSlotClose (seq : Nat) (s : State) : Host.Outcome State Fault Refusal :=
  .next (startCmd s seq 0x21 checkSlotClose runSlotClose)

/-- SDE_VERIFY: the envelope that waited longest is judged for every slot that names its carrier (R328 to R331); none while its lane's
slots do not deliver. -/
def execSdeVerify (s : State) : Host.Outcome State Fault Refusal :=
  match s.slots.waiting with
  | [] => .next s
  | e :: rest =>
    if ready s && slotsDeliver s e.lane then
      .next (settleEnvelope e { s with slots := { s.slots with waiting := rest } })
    else .next s

/-- A write of byte 0x1B of an open slot's descriptor: the staged CONS is accepted, or counted as a fault (R323). -/
def writeCons (n : Nat) (v : Byte) (s : State) : State :=
  modSlot s n fun x =>
    let low := x.stagedCons ++ (leBytes x.cons 4).drop x.stagedCons.length
    let new := leNat (low.take 3 ++ [v])
    if (x.prod + 2 ^ 32 - new) % 2 ^ 32 ≤ ringWritten x && new % 8 == 0 then { x with cons := new, stagedCons := [] }
    else { x with consFaults := bump 2 x.consFaults 1, stagedCons := [] }

/-- A write of byte 0x18 to 0x1A stages that byte of CONS. -/
def stageCons (n i : Nat) (v : Byte) (s : State) : State :=
  modSlot s n fun x =>
    let base := if x.stagedCons.length = 3 then x.stagedCons else (leBytes x.cons 4).take 3
    { x with stagedCons := base.set i v }

end Sys2Proof.Machine
end

