-- ==== Sys2Proof/Machine/BlockWrites.lean ====
section
/-!
DEFINITION. What a host writes in the object blocks of the window (R450, Table 20-3). Each write names one byte; it answers none for a byte
with no host-writable bit. A clamped field of several bytes is clamped as each of its bytes is written.
-/
namespace Sys2Proof.Machine

/-- A number with byte `i` replaced. -/
def setByte (n i : Nat) (v : Byte) : Nat := n % 256 ^ i + v.toNat * 256 ^ i + n / 256 ^ (i + 1) * 256 ^ (i + 1)

/-- A signed number of `k` bytes with byte `i` replaced. -/
def setByteI (k : Nat) (n : Int) (i : Nat) (v : Byte) : Int := ofTwos k (setByte (twos k n) i v)

/-- A byte as a signed number. -/
def byteInt (v : Byte) : Int := ofTwos 1 v.toNat

/-! Paths (Tables 7-7, 8-9) -/

/-- Fields 0x001 to 0x006 of a synthesiser, clamped to their ranges (Table 7-7). -/
def synthWrite (o : Nat) (v : Byte) (x : Synth) : Option Synth :=
  match o with
  | 0x001 => some { x with timedMode := v.getLsbD 0 }
  | 0x002 => some { x with winExp := clampNat 8 16 v.toNat }
  | 0x003 => some { x with tol := clampNat 1 15 v.toNat }
  | 0x004 => some { x with run := clampNat 1 8 v.toNat }
  | 0x005 => some { x with limit := clampNat 8 255 v.toNat }
  | 0x006 => some { x with time := max 1 v.toNat }
  | _ => none

/-- A byte of a band-table entry (R155). -/
def bandWrite (i : Nat) (v : Byte) (e : BandEntry) : BandEntry :=
  match i with
  | 4 => { e with bandStart := v.toNat }
  | 5 => { e with bandEnd := v.toNat }
  | 6 => { e with khzPerBand := setByte e.khzPerBand 0 v }
  | 7 => { e with khzPerBand := setByte e.khzPerBand 1 v }
  | _ => { e with fStart := setByte e.fStart i v }

/-- The permitted k of an offset loop, least and largest (Table 8-7). -/
def dcRange : Nat → Nat × Nat
  | 0 => (6, 16)
  | 1 => (8, 19)
  | _ => (4, 14)

/-- The RW fields of a front end, clamped to their ranges (Table 8-9). A write of 3 to AGC_MODE is ignored. -/
def feWrite (p o : Nat) (v : Byte) (w : FeSet) : Option FeSet :=
  let dc := clampNat (dcRange p).1 (dcRange p).2 v.toNat
  match o with
  | 0xA03 => some (if v.toNat % 4 = 3 then w else { w with agcMode := v.toNat % 4 })
  | 0xA06 => some { w with manualRange := min v.toNat (rangeCount p - 1) }
  | 0xA07 => some { w with manualFine := min v.toNat (fineSpan p) }
  | 0xA08 => some { w with agcTarget := clampInt (-30) (-6) (byteInt v) }
  | 0xA09 => some { w with agcHyst := clampNat 1 24 v.toNat }
  | 0xA0A => some { w with rangeHold := min 2000 (setByte w.rangeHold 0 v) }
  | 0xA0B => some { w with rangeHold := min 2000 (setByte w.rangeHold 1 v) }
  | 0xA0C => some { w with clipLimit := max 1 v.toNat }
  | 0xA0D => some { w with startRange := min v.toNat (rangeCount p - 1) }
  | 0xA0E => some { w with dcKTrack := dc }
  | 0xA0F => some { w with dcKAcq := dc }
  | _ => none

def pathWrite (p o : Nat) (v : Byte) (s : State) : Option State :=
  if o < 0x100 then (synthWrite o v (pathOf s p).synth).map fun x => modSynth s p fun _ => x
  else if o < 0x200 then
    some (modSynth s p fun x => { x with table := tabMod {} x.table ((o - 0x100) / 8) (bandWrite (o % 8) v) })
  else (feWrite p o v (pathOf s p).fe.set).map fun w => modFe s p fun f => { f with set := w }

/-! Slots and LF descriptors (Tables 14-7, 14-9, 11-4) -/

/-- CONS of an open slot: bytes 0x18 to 0x1A are staged, byte 0x1B acts (R323). -/
def slotWrite (n o : Nat) (v : Byte) (s : State) : Option State :=
  if !(slotOf s n).isOpen then none
  else if o = 0x1B then some (writeCons n v s)
  else if 0x18 ≤ o && o < 0x1B then some (stageCons n (o - 0x18) v s)
  else none

/-- WAKE_PEND bits are cleared by writing 1 (R326). -/
def wakeWrite (k : Nat) (v : Byte) (s : State) : Option State :=
  let clear (e : Nat × Slot) : Nat × Slot := if e.1 / 8 == k && v.getLsbD (e.1 % 8) then (e.1, { e.2 with wake := false }) else e
  if k < 0x80 then some { s with slots := { s.slots with slots := s.slots.slots.map clear } } else none

/-- A byte of an LF format descriptor: the host writes slots 2 to 7. -/
def lfDescWrite (slot o : Nat) (v : Byte) (s : State) : Option State :=
  if 2 ≤ slot && o < 0xA0 then
    let d := tabGet [] s.lfDescs slot
    some { s with lfDescs := tabSet s.lfDescs slot ((d ++ List.replicate (0xA0 - d.length) 0).set o v) }
  else none

/-! Audio (Tables 18-6, 18-8) -/

/-- A byte of a port's configuration, CAP_CONS apart. SHARE_FS is SAP1's, AOUT_EN SAP0's. -/
def sapCfgWrite (port o : Nat) (v : Byte) (c : SapCfg) : Option SapCfg :=
  match o with
  | 0x000 => some { c with format := v.toNat % 4, fsWidth := v.getLsbD 2, fsPol := v.getLsbD 3, bclkPol := v.getLsbD 4,
                           shareFs := port == 1 && v.getLsbD 5 }
  | 0x001 => some { c with slots := v.toNat }
  | 0x002 => some { c with width := v.toNat % 4 }
  | 0x003 => some { c with offset := v.toNat }
  | 0x008 => some { c with sd1En := v.getLsbD 0, aoutEn := port == 0 && v.getLsbD 1 }
  | 0x009 => some { c with rampMs := v.toNat }
  | 0x016 => some { c with pack := v.getLsbD 0 }
  | 0x017 => some { c with wakeBlocks := v.toNat }
  | 0x01A => some { c with aoutSrcL := v.toNat }
  | 0x01B => some { c with aoutSrcR := v.toNat }
  | _ =>
    if 0x004 ≤ o && o < 0x008 then some { c with rateHz := setByte c.rateHz (o - 0x004) v }
    else if 0x00A ≤ o && o < 0x00C then some { c with playoutMs := setByte c.playoutMs (o - 0x00A) v }
    else if 0x00C ≤ o && o < 0x010 then some { c with capMask0 := setByte c.capMask0 (o - 0x00C) v }
    else if 0x010 ≤ o && o < 0x014 then some { c with capMask1 := setByte c.capMask1 (o - 0x010) v }
    else if 0x014 ≤ o && o < 0x016 then some { c with framesPerBlock := setByte c.framesPerBlock (o - 0x014) v }
    else if 0x020 ≤ o && o < 0x060 then some { c with map0 := tabMod 0 c.map0 ((o - 0x020) / 2) fun e => setByte e (o % 2) v }
    else if 0x060 ≤ o && o < 0x0A0 then some { c with map1 := tabMod 0 c.map1 ((o - 0x060) / 2) fun e => setByte e (o % 2) v }
    else none

/-- A byte of a SAP block: CAP_CONS acts with its high byte (R413). -/
def sapWrite (port o : Nat) (v : Byte) (s : State) : Option State :=
  if o = 0x018 then some (modSap s port fun x => { x with stagedCapCons := v })
  else if o = 0x019 then some (writeCapCons port v s)
  else (sapCfgWrite port o v (sapOf s port).cfg).map fun c => modSap s port fun x => { x with cfg := c }

def pdmWrite (o : Nat) (v : Byte) (p : Pdm) : Option Pdm :=
  match o with
  | 0x00 => some { p with rateA := v.toNat % 4, hpfA := v.getLsbD 4 }
  | 0x01 => some { p with rateB := v.toNat % 4, hpfB := v.getLsbD 4 }
  | 0x02 => some { p with micSettleMs := v.toNat }
  | _ => none

/-! The link (Tables 16-7, 16-8) -/

def linkWrite (o : Nat) (v : Byte) (l : Link) : Option Link :=
  match o with
  | 0x002 => some { l with detectDbm := clampInt (-120) (-40) (byteInt v) }
  | 0x003 => some { l with qualThresh := clampNat 64 255 v.toNat }
  | 0x004 => some { l with qualTimeout := clampNat 8 64 v.toNat }
  | 0x006 => some { l with sfdTimeout := clampNat 16 512 (setByte l.sfdTimeout 0 v) }
  | 0x007 => some { l with sfdTimeout := clampNat 16 512 (setByte l.sfdTimeout 1 v) }
  | 0x008 => some { l with rxTrim := setByteI 2 l.rxTrim 0 v }
  | 0x009 => some { l with rxTrim := setByteI 2 l.rxTrim 1 v }
  | 0x00A => some { l with lbtMode := v.getLsbD 0 }
  | 0x00B => some { l with lbtThresh := byteInt v }
  | 0x00C => some { l with lbtListenUs := setByte l.lbtListenUs 0 v }
  | 0x00D => some { l with lbtListenUs := setByte l.lbtListenUs 1 v }
  | 0x00E => some { l with lbtTries := clampNat 1 8 v.toNat }
  | 0x010 => some { l with afterDest := setByte l.afterDest 0 v }
  | 0x011 => some { l with afterDest := setByte l.afterDest 1 v }
  | 0x012 => some { l with afterDest := setByte l.afterDest 2 v }
  | 0x013 => some { l with afterSize := setByte l.afterSize 0 v }
  | 0x014 => some { l with afterSize := setByte l.afterSize 1 v }
  | _ => none

/-- The 32 bytes of a SHAPE or MASK with one replaced. -/
def runWrite (i : Nat) (v : Byte) (bs : List Byte) : List Byte := (bs ++ List.replicate (32 - bs.length) 0).set i v

/-- A byte of a profile. -/
def profileByte (o : Nat) (v : Byte) (p : Profile) : Option Profile :=
  match o with
  | 0x00 => some { p with flags := v.toNat % 32 }
  | 0x01 => some { p with fskRate := v.toNat }
  | 0x02 => some { p with option := v.toNat }
  | 0x03 => some { p with mcs := v.toNat }
  | 0x04 => some { p with modIndex := v.toNat }
  | 0x05 => some { p with preambleLen := v.toNat }
  | 0x06 => some { p with sfdSel := v.toNat % 2 }
  | 0x07 => some { p with power := byteInt v }
  | _ =>
    if 0x08 ≤ o && o < 0x0C then some { p with channelHz := setByte p.channelHz (o - 0x08) v }
    else if 0x10 ≤ o && o < 0x30 then some { p with shape := tabSet p.shape (o - 0x10) v }
    else if 0x30 ≤ o && o < 0x50 then some { p with mask := runWrite (o - 0x30) v p.mask }
    else none

/-- A write to a profile's bytes 0x00 to 0x4F leaves it UNCHECKED (R351). -/
def profileWrite (k o : Nat) (v : Byte) (s : State) : Option State :=
  (profileByte o v (profileOf s k)).map fun p =>
    { s with link := { s.link with profiles := tabSet s.link.profiles k { p with state := 0 } } }

/-! Sessions, calendar, and the blocks at 0x2A_0000 (Tables 17-9, 15-5, 5-7, 6-14, 9-8) -/

def sessionWrite (o : Nat) (v : Byte) (x : Sessions) : Option Sessions :=
  match o with
  | 0x04 => some { x with homeProfile := v.toNat % 4 }
  | 0x0C => some { x with rttLimit := clampNat 50 5000 (setByte x.rttLimit 0 v) }
  | 0x0D => some { x with rttLimit := clampNat 50 5000 (setByte x.rttLimit 1 v) }
  | 0x0E => some { x with rssiFloor := clampInt (-110) (-40) (byteInt v) }
  | _ => if 0x08 ≤ o && o < 0x0C then some { x with homeChannelHz := setByte x.homeChannelHz (o - 0x08) v } else none

def modeWrite (o : Nat) (v : Byte) (m : Modes) : Option Modes :=
  match o with
  | 0x01 => some { m with ktLane := v.toNat % 64 }
  | 0x02 => some { m with ktPeriod := max 1 v.toNat }
  | 0x03 => some { m with ktListen := max 10 v.toNat }
  | _ => none

def calWrite (o : Nat) (v : Byte) (c : Cal) : Option Cal :=
  match o with
  | 0x02 => some { c with tempDelta := clampNat 2 32 v.toNat }
  | 0x03 => some { c with synAuto := v.getLsbD 0 }
  | 0x04 => some { c with thermLimit := clampNat 60 125 v.toNat }
  | _ => none

/-! The map (Table 20-3) -/

/-- The state after a host write to a byte of an object block; none where the byte has no host-writable bit. -/
def blockWrite (s : State) (a : Nat) (v : Byte) : Option State :=
  if 0x210000 ≤ a && a < 0x213000 then pathWrite ((a - 0x210000) / 0x1000) (a % 0x1000) v s
  else if 0x240000 ≤ a && a < 0x250000 then slotWrite ((a - 0x240000) / 0x40) (a % 0x40) v s
  else if 0x260000 ≤ a && a < 0x260800 then sapWrite ((a - 0x260000) / 0x400) (a % 0x400) v s
  else if 0x260800 ≤ a && a < 0x260840 then (pdmWrite (a % 0x40) v s.pdm).map fun p => { s with pdm := p }
  else if 0x270000 ≤ a && a < 0x270100 then (linkWrite (a % 0x100) v s.link).map fun l => { s with link := l }
  else if 0x270100 ≤ a && a < 0x270300 then profileWrite ((a - 0x270100) / 0x80) (a % 0x80) v s
  else if 0x280000 ≤ a && a < 0x280040 then (sessionWrite (a % 0x40) v s.sessions).map fun x => { s with sessions := x }
  else if a = 0x290003 then some { s with time := { s.time with cause := s.time.cause &&& ~~~v } }
  else if a = 0x2A0001 then some { s with fabric := { s.fabric with vcoreCap := clampNat 15 35 v.toNat } }
  else if 0x2A0100 ≤ a && a < 0x2A0140 then (modeWrite (a % 0x40) v s.modes).map fun m => { s with modes := m }
  else if 0x2A0200 ≤ a && a < 0x2A0240 then (calWrite (a % 0x40) v s.cal).map fun c => { s with cal := c }
  else if 0x2A0400 ≤ a && a < 0x2A0500 then wakeWrite (a % 0x100) v s
  else if 0x2B0000 ≤ a && a < 0x2B0800 then lfDescWrite ((a - 0x2B0000) / 0x100) (a % 0x100) v s
  else none

end Sys2Proof.Machine
end

