-- ==== Sys2Proof/Machine/Window.lean ====
section
/-!
DEFINITION. The window (R62 to R68): what a WIN_DATA access at the pointer returns or writes (Table 3-5), and how the pointer moves.
-/
namespace Sys2Proof.Machine

/-! The pointer -/

/-- The last address of a region of Table 3-5, with 0x20_0000 to 0xFF_FFFF as one. -/
def regionLast (a : Nat) : Nat :=
  if a < 0x100000 then 0x0FFFFF
  else if a < 0x180000 then 0x17FFFF
  else if a < 0x1F0000 then 0x1EFFFF
  else if a < 0x1F8000 then 0x1F7FFF
  else if a < 0x1FC000 then 0x1FBFFF
  else if a < 0x1FE000 then 0x1FDFFF
  else if a < 0x200000 then 0x1FFFFF
  else 0xFFFFFF

/-- The first byte of the ring whose last byte an address is (R66). -/
def ringStart (s : State) (a : Nat) : Option Nat :=
  if a = 0x1FBFFF then some 0x1F8000
  else if a = 0x1FDFFF then some 0x1FC000
  else if a < 0x100000 then
    (s.slots.slots.find? fun e => e.2.isOpen && a + 1 == e.2.ringBase + ringSize e.2).map fun e => e.2.ringBase
  else none

/-- The increment after a WIN_DATA access (R63, R66, R67). -/
def movePointer (s : State) : State :=
  let p := s.port
  if !p.winInc then s
  else match if p.winRing then ringStart s p.ptr else none with
    | some a => { s with port := { p with ptr := a } }
    | none =>
      if p.ptr != regionLast p.ptr then { s with port := { p with ptr := p.ptr + 1 } }
      else if p.winEdge then flagHalted s
      else flagCrossed { s with port := { p with ptr := (p.ptr + 1) % 2 ^ 24 } }

/-- A write of WIN_ADDR_H loads the pointer and clears HALTED (R62, R67). -/
def loadPointer (v : Byte) (s : State) : State :=
  let p := s.port
  { s with port := { p with ptr := p.stagedPtrL.toNat + 256 * p.stagedPtrM.toNat + 65536 * v.toNat, wsHalted := false } }

/-- WIN_STATUS.SCRUB_WAIT: the pointer lies in an unscrubbed row that the host can read (R68). -/
def scrubWait (s : State) : Bool :=
  let a := s.port.ptr
  !(0x100000 ≤ a && a < 0x180000) && a < 0x1FE000 && !rowScrubbed s a

/-! Reads -/

/-- What a read of a block's byte does beside returning it: the statistics latch (R245), PROD's latch (R323), PACE_MIN and the FILL_HW bytes
(Table 5-7). -/
def afterBlockRead (a : Nat) (s : State) : State :=
  if 0x300000 ≤ a && a < 0x301000 && a % 0x40 = 0 then
    let n := (a - 0x300000) / 0x40
    { s with statLatch := { lane := some n, bytes := (List.range 0x30).map (fieldByte (statFields s n)) } }
  else if 0x240000 ≤ a && a < 0x250000 then
    let n := (a - 0x240000) / 0x40
    let o := a % 0x40
    if o = 0x14 then
      let prod := (slotOf s n).prod
      { s with slots := { s.slots with
        latch := some { slot := n, bytes := [(0x15, byteOf prod 1), (0x16, byteOf prod 2), (0x17, byteOf prod 3)] } } }
    else match s.slots.latch with
      | some l => if l.slot = n then { s with slots := { s.slots with latch := some { l with bytes := tabDel l.bytes o } } } else s
      | none => s
  else if a = 0x2A0003 then { s with fabric := { s.fabric with paceMin := 255 } }
  else if a = 0x2A0014 then { s with fabric := { s.fabric with fillHwL := 0 } }
  else if a = 0x2A0016 then { s with fabric := { s.fabric with fillHwV := 0 } }
  else s

/-- A WIN_DATA read at an address (Table 3-5, R68): the byte, and the state before the pointer moves. -/
def windowRead (s : State) (a : Nat) : Byte × State :=
  if 0x100000 ≤ a && a < 0x180000 then (0, flagPrivate s)
  else if a < 0x1FE000 then (memGet (touchRow s a) a, touchRow s a)
  else match blockRead s a with
    | some b => (b, afterBlockRead a s)
    | none => (0, flagUnmapped s)

/-- A read of WIN_DATA; while HALTED is 1 it returns 0x00 and moves nothing (R67). -/
def winDataRead (s : State) : Byte × State :=
  if s.port.wsHalted then (0, s)
  else
    let r := windowRead s s.port.ptr
    (r.1, movePointer r.2)

/-! Writes -/

/-- A WIN_DATA write at an address (Table 3-5, R68, R450). -/
def windowWrite (s : State) (a : Nat) (v : Byte) : State :=
  if a < 0x100000 then flagRoWrite s
  else if a < 0x180000 then flagPrivate s
  else if a < 0x1F0000 then flagRoWrite s
  else if a < 0x1FC000 then devPuts s a [v]
  else if a < 0x1FE000 then flagRoWrite s
  else match blockRead s a with
    | none => flagUnmapped s
    | some _ => match blockWrite s a v with
      | some t => t
      | none => flagRoWrite s

/-- A write of WIN_DATA; while HALTED is 1 it is refused and moves nothing. -/
def winDataWrite (s : State) (v : Byte) : State :=
  if s.port.wsHalted then s else movePointer (windowWrite s s.port.ptr v)

end Sys2Proof.Machine
end

