-- ==== Sys2Proof/Machine/Port.lean ====
section
/-!
DEFINITION. The Eosal Port (chapters 3 and 20): what a cycle finds in each state of the port (Table 3-6, R58, R451), the 48 registers
(Tables 20-4 to 20-8), and the end of a mode change (R122).
-/
namespace Sys2Proof.Machine

/-! Reads -/

/-- HP_STATUS (Table 20-4). -/
def hpStatus (s : State) : Byte :=
  lowByte (flagNat (ready s) + 2 * flagNat (s.scrub.next < 8064) + 4 * flagNat s.port.cellarRecovered + 8 * flagNat s.power.holdLow
    + 16 * flagNat s.power.pfPending + 32 * flagNat (s.power.phase == .decanting) + 64 * flagNat (winError s.port)
    + 128 * flagNat s.modes.target.isSome)

/-- WIN_STATUS (Table 20-5). -/
def winStatus (s : State) : Byte :=
  let p := s.port
  lowByte (flagNat p.wsPrivate + 2 * flagNat p.wsUnmapped + 4 * flagNat p.wsCrossed + 8 * flagNat p.wsHalted
    + 16 * flagNat p.wsRoWrite + 32 * flagNat (scrubWait s))

/-- The value that a register shows, without a read's side effects (Tables 20-4 to 20-8). -/
def regValue (s : State) (off : Nat) : Byte :=
  let p := s.port
  match off with
  | 0x00 => 0xD7
  | 0x01 => 0x72
  | 0x02 => 0xA1
  | 0x03 => hpStatus s
  | 0x04 => lowByte (2 * flagNat p.winEdge + flagNat p.irqPol)
  | 0x05 => lowByte s.modes.modeReq
  | 0x06 => lowByte (modeNow s)
  | 0x07 => lowByte p.resetCause
  | 0x08 => byteOf p.ptr 0
  | 0x09 => byteOf p.ptr 1
  | 0x0A => byteOf p.ptr 2
  | 0x0C => lowByte (4 * flagNat p.winRing + flagNat p.winInc)
  | 0x0D => winStatus s
  | 0x0E => byteOf s.rings.cqProd 0
  | 0x0F => byteOf s.rings.cqProd 1
  | 0x10 => byteOf s.rings.cqCons 0
  | 0x11 => byteOf s.rings.cqCons 1
  | 0x12 => byteOf s.rings.ccProd 0
  | 0x13 => byteOf s.rings.ccProd 1
  | 0x14 => byteOf s.rings.ccCons 0
  | 0x15 => byteOf s.rings.ccCons 1
  | 0x17 => byteOf p.snapCredit 0
  | 0x18 => byteOf p.snapCredit 1
  | 0x19 => byteOf p.snapFlight 0
  | 0x1A => byteOf p.snapFlight 1
  | 0x1B => byteOf p.snapUnread 0
  | 0x1C => byteOf p.snapUnread 1
  | 0x1D => p.irqStat0
  | 0x1E => p.irqStat1
  | 0x1F => p.irqStat2
  | 0x20 => p.irqEn0
  | 0x21 => p.irqEn1
  | 0x22 => p.irqEn2
  | 0x24 => byteOf p.scLatch 0
  | 0x25 => byteOf p.scLatch 1
  | 0x26 => byteOf p.scLatch 2
  | 0x27 => byteOf p.scLatch 3
  | 0x28 => byteOf p.scLatch 4
  | 0x29 => byteOf p.scLatch 5
  | 0x2A => byteOf p.scLatch 6
  | 0x2B => byteOf p.scLatch 7
  | 0x2C => byteOf (twos 2 s.cal.temp) 0
  | 0x2D => byteOf (twos 2 s.cal.temp) 1
  | 0x2E => lowByte s.fabric.pace
  | 0x2F => lowByte (2 * s.power.pfLevel + flagNat s.power.decantOnVin)
  | _ => 0

/-- A read of a register with its side effects: the byte and the state after it. A read of a pair's _L arms its holding byte, and the first
read of its _H after that returns and disarms it (R8). -/
def readReg (off : Nat) (s : State) : Byte × State :=
  let p := s.port
  let high (held : Option Byte) : Byte := held.getD (regValue s off)
  match off with
  | 0x0B => winDataRead s
  | 0x10 => (regValue s 0x10, { s with port := { p with holdCqCons := some (regValue s 0x11) } })
  | 0x11 => (high p.holdCqCons, { s with port := { p with holdCqCons := none } })
  | 0x12 => (regValue s 0x12, { s with port := { p with holdCcProd := some (regValue s 0x13) } })
  | 0x13 => (high p.holdCcProd, { s with port := { p with holdCcProd := none } })
  | 0x2C => (regValue s 0x2C, { s with port := { p with holdTemp := some (regValue s 0x2D) } })
  | 0x2D => (high p.holdTemp, { s with port := { p with holdTemp := none } })
  | _ => (regValue s off, s)

/-! Writes -/

/-- A write of BOOKS_SNAP latches the books at one instant (R93). -/
def snapBooks (s : State) : State :=
  { s with port := { s.port with snapCredit := s.rings.credits, snapFlight := s.rings.inflight.length, snapUnread := s.rings.unread } }

/-- A write of SC_LATCH latches the system counter and the calendar at one count (R336). -/
def latchCounter (s : State) : State := takeSnapshot { s with port := { s.port with scLatch := s.clocks.sc % 2 ^ 64 } }

/-- A write of HP_CTRL: WIN_EDGE and IRQ_POL, and then a soft reset when SOFT_RESET carries 0xA (R74, R452). -/
def writeHpCtrl (v : Byte) (s : State) : State :=
  let s := { s with port := { s.port with winEdge := v.getLsbD 1, irqPol := v.getLsbD 0 } }
  if v.toNat / 16 = 0xA then beginSoft s else s

/-- A write of MODE_REQ; codes 0 and 7 are ignored (R121). -/
def writeModeReq (v : Byte) (s : State) : State :=
  let m := v.toNat % 8
  if m = 0 || m = 7 then s else takeModeReq m s

/-- A write of WIN_CTRL; INC of 0b10 or 0b11 leaves INC as it stands (Table 3-10). -/
def writeWinCtrl (v : Byte) (s : State) : State :=
  { s with port := { s.port with winRing := v.getLsbD 2, winInc := if v.getLsbD 1 then s.port.winInc else v.getLsbD 0 } }

/-- A write of WIN_STATUS clears the flags it names (Table 3-11). -/
def writeWinStatus (v : Byte) (s : State) : State :=
  let p := s.port
  { s with port := { p with
    wsPrivate := p.wsPrivate && !v.getLsbD 0, wsUnmapped := p.wsUnmapped && !v.getLsbD 1, wsCrossed := p.wsCrossed && !v.getLsbD 2,
    wsHalted := p.wsHalted && !v.getLsbD 3, wsRoWrite := p.wsRoWrite && !v.getLsbD 4 } }

/-- A write that the port applies (Tables 20-4 to 20-8); one to any other register changes nothing (R3, R5). -/
def writeReg (off : Nat) (v : Byte) (s : State) : State :=
  let p := s.port
  match off with
  | 0x03 => { s with port := { p with cellarRecovered := p.cellarRecovered && !v.getLsbD 2 } }
  | 0x04 => writeHpCtrl v s
  | 0x05 => writeModeReq v s
  | 0x08 => { s with port := { p with stagedPtrL := v } }
  | 0x09 => { s with port := { p with stagedPtrM := v } }
  | 0x0A => loadPointer v s
  | 0x0B => winDataWrite s v
  | 0x0C => writeWinCtrl v s
  | 0x0D => writeWinStatus v s
  | 0x0E => { s with port := { p with stagedCqProdL := v } }
  | 0x0F => doorbellWrite s v
  | 0x14 => { s with port := { p with stagedCcConsL := v } }
  | 0x15 => freeWrite s v
  | 0x16 => snapBooks s
  | 0x1D => { s with port := { p with irqStat0 := p.irqStat0 &&& ~~~v } }
  | 0x1E => { s with port := { p with irqStat1 := p.irqStat1 &&& ~~~v } }
  | 0x1F => { s with port := { p with irqStat2 := p.irqStat2 &&& ~~~v } }
  | 0x20 => { s with port := { p with irqEn0 := v } }
  | 0x21 => { s with port := { p with irqEn1 := v &&& 0x3F } }
  | 0x22 => { s with port := { p with irqEn2 := v &&& 0x03 } }
  | 0x23 => latchCounter s
  | 0x2F => { s with power := { s.power with pfLevel := v.toNat / 2 % 4, decantOnVin := v.getLsbD 0 } }
  | _ => s

/-! Cycles -/

/-- What the port does with a cycle (Table 3-6): none, it is not live; quiet, it acknowledges and shows the six registers of R451; full. -/
inductive Answer where
  | none | quiet | full
  deriving DecidableEq, Repr

/-- The port's state (Table 3-6, R37, R46, R72). -/
def answer (s : State) : Answer :=
  if !s.power.vioValid then .none
  else match s.power.phase with
    | .ready => .full
    | .softBoot => .quiet
    | .decanting => if s.power.decantBus then .quiet else .none
    | .waiting | .pinHeld | .decantHold => .none

/-- The registers that show their values before READY and during a decant. -/
def quietValue (s : State) (off : Nat) : Byte :=
  if off ≤ 3 || off = 6 || off = 7 then regValue s off else 0

/-- The state with the outcome of a cycle: ACK, and the byte that a read put on D. -/
def acked (b : Bool) (s : State) : State := { s with port := { s.port with ack := b } }

/-- A read cycle (R55, R58, R59). -/
def readCycle (off : Nat) (s : State) : State :=
  match answer s with
  | .none => acked false s
  | .quiet => acked true { s with port := { s.port with data := quietValue s off } }
  | .full =>
    let r := readReg off s
    acked true { r.2 with port := { r.2.port with data := r.1 } }

/-- A write cycle (R54, R58, R59). -/
def writeCycle (off : Nat) (v : Byte) (s : State) : State :=
  match answer s with
  | .none => acked false s
  | .quiet => acked true s
  | .full => acked true (writeReg off v s)

/-- DOORBELL: a write of CQ_PROD_H (R78). -/
def execDoorbell (v : Byte) (s : State) : Host.Outcome State Fault Refusal := .next (writeCycle 0x0F v s)

/-- CC_CONS_H_WRITE (R90). -/
def execCcConsHWrite (v : Byte) (s : State) : Host.Outcome State Fault Refusal := .next (writeCycle 0x15 v s)

/-- BOOKS_SNAP (R93). -/
def execBooksSnap (v : Byte) (s : State) : Host.Outcome State Fault Refusal := .next (writeCycle 0x16 v s)

/-- SC_LATCH (R336). -/
def execScLatch (v : Byte) (s : State) : Host.Outcome State Fault Refusal := .next (writeCycle 0x23 v s)

/-- CQ_CONS_L_READ (R8). -/
def execCqConsLRead (s : State) : Host.Outcome State Fault Refusal := .next (readCycle 0x10 s)

/-- CQ_CONS_H_READ (R8). -/
def execCqConsHRead (s : State) : Host.Outcome State Fault Refusal := .next (readCycle 0x11 s)

/-- CC_PROD_L_READ (R8). -/
def execCcProdLRead (s : State) : Host.Outcome State Fault Refusal := .next (readCycle 0x12 s)

/-- CC_PROD_H_READ (R8). -/
def execCcProdHRead (s : State) : Host.Outcome State Fault Refusal := .next (readCycle 0x13 s)

/-- TEMP_L_READ (R8). -/
def execTempLRead (s : State) : Host.Outcome State Fault Refusal := .next (readCycle 0x2C s)

/-- TEMP_H_READ (R8). -/
def execTempHRead (s : State) : Host.Outcome State Fault Refusal := .next (readCycle 0x2D s)

/-- WIN_ADDR_H_WRITE (R62). -/
def execWinAddrHWrite (v : Byte) (s : State) : Host.Outcome State Fault Refusal := .next (writeCycle 0x0A v s)

/-- WIN_DATA_READ (R63). -/
def execWinDataRead (s : State) : Host.Outcome State Fault Refusal := .next (readCycle 0x0B s)

/-- WIN_DATA_WRITE (R64). -/
def execWinDataWrite (v : Byte) (s : State) : Host.Outcome State Fault Refusal := .next (writeCycle 0x0B v s)

/-- SLOT_CONS_WRITE: the WIN_DATA write while the pointer stands at byte 0x1B of a slot descriptor (R323). -/
def execSlotConsWrite (v : Byte) (s : State) : Host.Outcome State Fault Refusal := .next (writeCycle 0x0B v s)

/-- SLOT_PROD_READ: the WIN_DATA read while the pointer stands at byte 0x14 of a slot descriptor (R323). -/
def execSlotProdRead (s : State) : Host.Outcome State Fault Refusal := .next (readCycle 0x0B s)

/-- STATISTICS_READ: the WIN_DATA read while the pointer stands at byte 0x00 of a statistics block (R245). -/
def execStatisticsRead (s : State) : Host.Outcome State Fault Refusal := .next (readCycle 0x0B s)

/-- PACE_MIN_READ: the WIN_DATA read while the pointer stands at PACE_MIN (R120). -/
def execPaceMinRead (s : State) : Host.Outcome State Fault Refusal := .next (readCycle 0x0B s)

/-- FILL_HW_READ: the WIN_DATA read while the pointer stands at the low byte of FILL_HW_L or FILL_HW_V (R120). -/
def execFillHwRead (s : State) : Host.Outcome State Fault Refusal := .next (readCycle 0x0B s)

/-- CAP_CONS_WRITE: the WIN_DATA write while the pointer stands at CAP_CONS's high byte (R413). -/
def execCapConsWrite (v : Byte) (s : State) : Host.Outcome State Fault Refusal := .next (writeCycle 0x0B v s)

/-- PROFILE_WRITE: the WIN_DATA write while the pointer stands in a link profile (R351). -/
def execProfileWrite (v : Byte) (s : State) : Host.Outcome State Fault Refusal := .next (writeCycle 0x0B v s)

/-- IRQ_STAT_WRITE of IRQ_STATn (R69). -/
def execIrqStatWrite (n : Nat) (v : Byte) (s : State) : Host.Outcome State Fault Refusal :=
  .next (if n < 3 then writeCycle (0x1D + n) v s else s)

/-- IRQ_EN_WRITE of IRQ_ENn (R69). -/
def execIrqEnWrite (n : Nat) (v : Byte) (s : State) : Host.Outcome State Fault Refusal :=
  .next (if n < 3 then writeCycle (0x20 + n) v s else s)

/-- PF_CTRL_WRITE (R46). The supply's crossing of the new thresholds is the row PF_WARNING, PF_PENDING_CLEAR or POWER_FAIL. -/
def execPfCtrlWrite (v : Byte) (s : State) : Host.Outcome State Fault Refusal := .next (writeCycle 0x2F v s)

/-- MODE_REQ (R121 to R123). -/
def execModeReq (v : Byte) (s : State) : Host.Outcome State Fault Refusal := .next (writeCycle 0x05 v s)

/-- SOFT_RESET: a write of HP_CTRL (R74, R452). -/
def execSoftReset (v : Byte) (s : State) : Host.Outcome State Fault Refusal := .next (writeCycle 0x04 v s)

/-- REGISTER_WRITE: a write cycle at any of the 64 offsets; the port has no other (R5). -/
def execRegisterWrite (off : Nat) (v : Byte) (s : State) : Host.Outcome State Fault Refusal :=
  .next (if off < 64 then writeCycle off v s else s)

/-! The end of a mode change -/

/-- Steps 3 to 6 of Table 6-1 for a target: between PARKED and KEEPTIME and the modes above them the clocks move; a change that has stood
an oscillator stop goes on to LISTEN (R127). -/
def moveMode (m : Nat) (s : State) : State :=
  if m < 3 then
    let s := arrive m (enterLow m (stopLanes (fun _ => true) s))
    if s.modes.x32Ok then s else leaveLow s
  else if modeNow s < 3 then startClocks m { s with modes := { s.modes with ktEnd := none } }
  else arrive m s

/-- MODE_CHANGE_COMPLETE: a command that has started since the request is asked to stop too, and once step 2 waits no more the change goes
on (R96, R122). -/
def execModeChangeComplete (s : State) : Host.Outcome State Fault Refusal :=
  match s.modes.target with
  | some m =>
    if (3 ≤ m && cpllStarting s) || !ready s then .next s
    else
      let s := stopUnrun m s
      .next (if changeWaits m s then s else moveMode m s)
  | none => .next s

end Sys2Proof.Machine
end

