-- ==== Sys2Proof/Machine/Power.lean ====
section
/-!
DEFINITION. Supplies, presence and the resets as events (chapter 2, R129 to R132, R465), and the background scrub (R135).
-/
namespace Sys2Proof.Machine

/-- POWER_GOOD: VIN reaches power-good. Charging starts, after a decant only once it has ended (R40). Where VHOLD did not stay at its
retention minimum, whatever start was pending is a power-on (R50, R465). -/
def execPowerGood (kept : Bool) (s : State) : Host.Outcome State Fault Refusal :=
  let p := s.power
  let p := { p with vinGood := true, charging := p.phase != .decanting, holdLow := p.holdLow || !kept }
  if kept then .next { s with power := p }
  else match p.phase with
    | .waiting | .pinHeld => .next { s with power := { p with pendingKind := .powerOn } }
    | .decantHold => .next { s with power := { p with phase := .waiting, pendingKind := .powerOn } }
    | _ => .next { s with power := p }

/-- POWER_GOOD_FALL: charging stops, and before boot the count restarts (R40, R44). -/
def execPowerGoodFall (s : State) : Host.Outcome State Fault Refusal :=
  .next { s with power := { s.power with vinGood := false, charging := false } }

/-- PRES_N_MAKE: PRES_N asserts and the 10 ms count starts (R44). -/
def execPresNMake (s : State) : Host.Outcome State Fault Refusal := .next { s with power := { s.power with present := true } }

/-- REMOVAL: PRES_N breaks. From the start of a boot on it starts a decant; before one, or under a pin reset, the pending start is kept
(R45, R465); a decant under way goes on with the port silent (Table 3-6, R50). -/
def execRemoval (s : State) : Host.Outcome State Fault Refusal :=
  let s := { s with power := { s.power with present := false, decantBus := false } }
  match s.power.phase with
  | .ready | .softBoot => .next (beginDecant s)
  | .pinHeld => .next { s with power := { s.power with phase := .waiting } }
  | .waiting | .decanting | .decantHold => .next s

/-- A boot has started and no decant has. -/
def booted (s : State) : Bool := s.power.phase == .ready || s.power.phase == .softBoot

/-- POWER_FAIL: VIN below the power-fail threshold starts a decant while DECANT_ON_VIN is 1 (R46); where no boot has run it starts none
(R465). -/
def execPowerFail (s : State) : Host.Outcome State Fault Refusal :=
  .next (if s.power.decantOnVin && booted s then beginDecant s else s)

/-- PF_WARNING: PF_PENDING sets, with PF_WARN (R46). -/
def execPfWarning (s : State) : Host.Outcome State Fault Refusal :=
  .next (if s.power.pfPending then s else raise .pfWarn { s with power := { s.power with pfPending := true } })

/-- PF_PENDING_CLEAR (R46). -/
def execPfPendingClear (s : State) : Host.Outcome State Fault Refusal :=
  .next { s with power := { s.power with pfPending := false } }

/-- BROWN_OUT: VIN below the brown-out level. While DECANT_ON_VIN is 0 it resets (R47); while it is 1 it starts a decant, where the
power-fail threshold has not started one first (R130). Where no boot has run only VIN is away. -/
def execBrownOut (s : State) : Host.Outcome State Fault Refusal :=
  if booted s then
    .next (if s.power.decantOnVin then beginDecant { s with power := { s.power with vinGood := false } } else brownOutReset s)
  else .next { s with power := { s.power with vinGood := false, charging := false } }

/-- DECANT_EXHAUSTED: the decant is abandoned, the bank it was writing left invalid (R51, R466). -/
def execDecantExhausted (s : State) : Host.Outcome State Fault Refusal :=
  .next (if s.power.phase == .decanting then endDecant true { s with cellar := { s.cellar with store := none } } else s)

/-- DECANT_RETURN: after the decant, with VIN good and PRES_N asserted for 10 ms, a start is due: a decant return where VHOLD was kept, a
power-on otherwise (R50). -/
def execDecantReturn (kept : Bool) (s : State) : Host.Outcome State Fault Refusal :=
  .next (if s.power.phase == .decantHold && s.power.vinGood && s.power.present then
    { s with power := { s.power with
      phase := .waiting, pendingKind := if kept then .decantReturn else .powerOn, charging := true,
      holdLow := s.power.holdLow || !kept } } else s)

/-- PIN_RESET: RESET_N low for 10 µs or more; the flash operation and the open record are finished first (R98, R131). Where no boot has run
the pending kind, which keeps less, stands (R132, R465); during a decant it waits (R50). -/
def execPinReset (s : State) : Host.Outcome State Fault Refusal :=
  if booted s then
    let s := settleCellar (halt .pinHeld s)
    .next { s with power := { s.power with pendingKind := .pin } }
  else .next s

/-- VIO_LOSS: the port floats and the Rhatre keeps working (R37). -/
def execVioLoss (s : State) : Host.Outcome State Fault Refusal := .next { s with power := { s.power with vioValid := false } }

/-- VIO_RETURN (R37). -/
def execVioReturn (s : State) : Host.Outcome State Fault Refusal := .next { s with power := { s.power with vioValid := true } }

/-- HOLD_OK: VHOLD, being charged, reaches its clearing level: HOLD_LOW clears, with HOLD_OK (R40). -/
def execHoldOk (s : State) : Host.Outcome State Fault Refusal :=
  .next (if s.power.holdLow && s.power.charging then raise .holdOk { s with power := { s.power with holdLow := false } } else s)

/-! The scrub -/

/-- The first byte of the row at a place of the scrub's order: host scratch, then 0x00_0000 up (R135). -/
def scrubAddr (k : Nat) : Nat := if k < 128 then 0x1F0000 + 256 * k else 256 * (k - 128)

/-- SCRUB: the next row is zeroed, unless an access or a device write has scrubbed it already. -/
def execScrub (s : State) : Host.Outcome State Fault Refusal :=
  let k := s.scrub.next
  if ready s && k < 8064 then
    let s' := if s.scrub.early.contains k then s else memPuts s (scrubAddr k) (List.replicate 256 0)
    .next { s' with scrub := { next := k + 1, early := s.scrub.early.filter (· != k) } }
  else .next s

end Sys2Proof.Machine
end

