-- ==== Sys2Proof/Machine/Time.lean ====
section
/-!
DEFINITION. The calendar's commands and events: DATE_SET, TIME_VOTE_CFG, the age of votes, the leap second, the end of the range.
-/
namespace Sys2Proof.Machine

/-! DATE_SET (R348, Table 15-3) -/

/-- BAD_DATE (0x13) at a byte of the descriptor. -/
def needDate (off : Nat) (ok : Bool) : Option Reply := failUnless ok (0x13, [lowByte off])

/-- Second 60 stands only at 23:59 on the last day of a month. -/
def leapSecondOk (c : Cmd) : Bool :=
  par c 14 == 60 && par c 12 == 23 && par c 13 == 59 && par c 11 == monthDays (par c 10) (parN c 8 2)

def checkDateSet (_s : State) (c : Cmd) : Option Reply :=
  let y := parN c 8 2
  let m := par c 10
  firstFail (needObject [6] c :: needHeader c ++
    [needDate 8 (2000 ≤ y && y ≤ 2199), needDate 10 (1 ≤ m && m ≤ 12), needDate 11 (1 ≤ par c 11 && par c 11 ≤ monthDays m y),
     needDate 12 (par c 12 < 24), needDate 13 (par c 13 < 60), needDate 14 (par c 14 < 60 || leapSecondOk c),
     needField 18 (par c 18 < 2), needField 19 (par c 19 == 0)] ++ needZeros c 28 31)

/-- DATE_SET sets CAL_OFFSET so that the given time holds at AT, or now. Second 60 is the repeated 23:59:59. -/
def runDateSet (s : State) (c : Cmd) : State :=
  let mjd := mjdOf (parN c 8 2) (par c 10) (par c 11)
  let sixty := par c 14 == 60
  let sod := par c 12 * 3600 + par c 13 * 60 + min (par c 14) 59
  let frac := parN c 15 3
  let at_ := if bit (par c 18) 0 then parN c 20 8 else s.clocks.sc
  let offset := utcCounts mjd sod + (frac : Int) - (at_ : Int)
  let t := s.time
  let step := stepTo t offset
  let s := { s with time := { t with
    offset := offset, valid := true, source := 5, invalidCause := 0, lastStep := step, lastSetSc := s.clocks.sc,
    leapPending := false, calRange := false, leapHold := sixty, leapHoldEnd := at_ + (countsPerSecond - frac) } }
  complete c.seq 0x00 (leBytes mjd 3 ++ [0] ++ leBytes (twos 4 step) 4) (setCause 0 s)

def execDateSet (seq : Nat) (s : State) : Host.Outcome State Fault Refusal :=
  .next (startCmd s seq 0x28 checkDateSet runDateSet)

/-! TIME_VOTE_CFG (R342, Table 15-2) -/

def checkTimeVoteCfg (_s : State) (c : Cmd) : Option Reply :=
  let sel (k : Nat) : Bool := bit (par c 8) k
  firstFail (needObject [6] c :: needHeader c ++
    [needField 8 (par c 8 < 64), needField 9 (!sel 0 || (1 ≤ par c 9 && par c 9 ≤ 4)), needField 10 (!sel 1 || par c 10 < 2),
     needField 11 (!sel 2 || (10 ≤ parN c 11 2 && parN c 11 2 ≤ 10000)),
     needField 13 (!sel 3 || (60 ≤ parN c 13 4 && parN c 13 4 ≤ 86400)),
     needField 17 (!sel 4 || par c 17 ≤ 15), needField 18 (!sel 4 || par c 18 ≤ 15),
     needField 19 (!sel 4 || par c 19 ≤ 15), needField 20 (!sel 4 || par c 20 ≤ 15)] ++ needZeros c 21 31)

/-- The settings that a TIME_VOTE_CFG selects; a weight of 0 discards its kind's vote. -/
def applyVoteCfg (t : Time) (c : Cmd) : Time :=
  let sel (k : Nat) : Bool := bit (par c 8) k
  let t := if sel 0 then { t with quorum := par c 9 } else t
  let t := if sel 1 then { t with consensusEn := bit (par c 10) 0 } else t
  let t := if sel 2 then { t with agreeMs := parN c 11 2 } else t
  let t := if sel 3 then { t with voteLife := parN c 13 4 } else t
  let t := if sel 4 then
      let w := [(1, par c 17), (2, par c 18), (3, par c 19), (4, par c 20)]
      { t with weights := w, votes := t.votes.filter fun e => tabGet 0 w e.1 != 0 }
    else t
  if sel 5 then { t with votes := [] } else t

/-- The votes that are not current stop being so for good (R339). -/
def expireVotes (s : State) : State :=
  { s with time := { s.time with votes := s.time.votes.map fun e => (e.1, { e.2 with current := voteCurrent s e.2 }) } }

def runTimeVoteCfg (s : State) (c : Cmd) : State :=
  let s := expireVotes s
  let s := expireVotes { s with time := applyVoteCfg s.time c }
  let (s, set) := if s.time.consensusEn then evaluateVotes s else (s, false)
  complete c.seq 0x00 [lowByte (currentVotes s).length, lowByte (flagNat set)] s

def execTimeVoteCfg (seq : Nat) (s : State) : Host.Outcome State Fault Refusal :=
  .next (startCmd s seq 0x29 checkTimeVoteCfg runTimeVoteCfg)

/-! Events -/

/-- VOTE_LIFE (R339): a vote older than VOTE_LIFE stops being current; it is kept. -/
def execVoteLife (kind : Nat) (s : State) : Host.Outcome State Fault Refusal :=
  let votes := s.time.votes.map fun e => if e.1 == kind && !voteCurrent s e.2 then (e.1, { e.2 with current := false }) else e
  .next { s with time := { s.time with votes := votes } }

/-- The midnight after LEAP_TARGET, in calendar counts. -/
def leapMidnight (s : State) : Int := utcCounts (s.time.leapTarget + 1) 0

/-- LEAP_HOLD (R344): the calendar steps back a second at the midnight after LEAP_TARGET, and so does every vote stamped before. -/
def execLeapHold (s : State) : Host.Outcome State Fault Refusal :=
  let t := s.time
  if t.valid && t.leapPending && leapMidnight s ≤ calendarNow s then
    let instant := (leapMidnight s - t.offset).toNat
    let votes := t.votes.map fun e =>
      if e.2.stamp < instant then (e.1, { e.2 with offset := e.2.offset - (countsPerSecond : Nat) }) else e
    .next (setCause 3 { s with time := { t with
      offset := t.offset - (countsPerSecond : Nat), votes := votes, leapHold := true, leapHoldEnd := instant + countsPerSecond,
      leapPending := false, leaps := bump 2 t.leaps 1, leapAt := some instant } })
  else .next s

/-- CAL_RANGE (R346): the calendar has passed 31 December 2199. -/
def execCalRange (s : State) : Host.Outcome State Fault Refusal :=
  if s.time.valid && !s.time.calRange && 124592 < mjdAt (calendarNow s) then
    .next (setCause 2 { s with time := { s.time with calRange := true } })
  else .next s

end Sys2Proof.Machine
end

