-- ==== Sys2Proof/Machine/Dispatch.lean ====
section
/-!
DEFINITION. The dispatch: one arm per command of the table, each one call of that command's meaning.
-/
namespace Sys2Proof.Machine

def exec (i : Instr) (s : State) : Host.Outcome State Fault Refusal :=
  match i with
  | .barrier seq => Sys2Proof.Machine.execBarrier seq s
  | .abort seq => Sys2Proof.Machine.execAbort seq s
  | .tune seq => Sys2Proof.Machine.execTune seq s
  | .tuneCpll seq => Sys2Proof.Machine.execTuneCpll seq s
  | .laneBind seq => Sys2Proof.Machine.execLaneBind seq s
  | .laneSet seq => Sys2Proof.Machine.execLaneSet seq s
  | .laneSync seq stamp => Sys2Proof.Machine.execLaneSync seq stamp s
  | .engineAttach seq => Sys2Proof.Machine.execEngineAttach seq s
  | .tasteArm seq => Sys2Proof.Machine.execTasteArm seq s
  | .tasteView seq => Sys2Proof.Machine.execTasteView seq s
  | .slotOpen seq => Sys2Proof.Machine.execSlotOpen seq s
  | .slotClose seq => Sys2Proof.Machine.execSlotClose seq s
  | .dateSet seq => Sys2Proof.Machine.execDateSet seq s
  | .timeVoteCfg seq => Sys2Proof.Machine.execTimeVoteCfg seq s
  | .calRun seq => Sys2Proof.Machine.execCalRun seq s
  | .selftest seq => Sys2Proof.Machine.execSelftest seq s
  | .linkRx seq => Sys2Proof.Machine.execLinkRx seq s
  | .linkTx seq margin => Sys2Proof.Machine.execLinkTx seq margin s
  | .pair seq margin => Sys2Proof.Machine.execPair seq margin s
  | .sessionCfg seq margin => Sys2Proof.Machine.execSessionCfg seq margin s
  | .releaseStart seq => Sys2Proof.Machine.execReleaseStart seq s
  | .releaseStop seq margin => Sys2Proof.Machine.execReleaseStop seq margin s
  | .sapCfg seq => Sys2Proof.Machine.execSapCfg seq s
  | .sapStart seq edge => Sys2Proof.Machine.execSapStart seq edge s
  | .sapStop seq => Sys2Proof.Machine.execSapStop seq s
  | .cellarPut seq => Sys2Proof.Machine.execCellarPut seq s
  | .cellarGet seq => Sys2Proof.Machine.execCellarGet seq s
  | .cellarEraseKey seq => Sys2Proof.Machine.execCellarEraseKey seq s
  | .shadowWrite seq => Sys2Proof.Machine.execShadowWrite seq s
  | .shadowRead seq => Sys2Proof.Machine.execShadowRead seq s
  | .shadowStore seq => Sys2Proof.Machine.execShadowStore seq s
  | .protectSet seq => Sys2Proof.Machine.execProtectSet seq s
  | .unlock seq => Sys2Proof.Machine.execUnlock seq s
  | .doorbell value => Sys2Proof.Machine.execDoorbell value s
  | .ccConsHWrite value => Sys2Proof.Machine.execCcConsHWrite value s
  | .booksSnap value => Sys2Proof.Machine.execBooksSnap value s
  | .scLatch value => Sys2Proof.Machine.execScLatch value s
  | .cqConsLRead => Sys2Proof.Machine.execCqConsLRead s
  | .cqConsHRead => Sys2Proof.Machine.execCqConsHRead s
  | .ccProdLRead => Sys2Proof.Machine.execCcProdLRead s
  | .ccProdHRead => Sys2Proof.Machine.execCcProdHRead s
  | .tempLRead => Sys2Proof.Machine.execTempLRead s
  | .tempHRead => Sys2Proof.Machine.execTempHRead s
  | .winAddrHWrite value => Sys2Proof.Machine.execWinAddrHWrite value s
  | .winDataRead => Sys2Proof.Machine.execWinDataRead s
  | .winDataWrite value => Sys2Proof.Machine.execWinDataWrite value s
  | .slotConsWrite value => Sys2Proof.Machine.execSlotConsWrite value s
  | .slotProdRead => Sys2Proof.Machine.execSlotProdRead s
  | .statisticsRead => Sys2Proof.Machine.execStatisticsRead s
  | .paceMinRead => Sys2Proof.Machine.execPaceMinRead s
  | .fillHwRead => Sys2Proof.Machine.execFillHwRead s
  | .capConsWrite value => Sys2Proof.Machine.execCapConsWrite value s
  | .profileWrite value => Sys2Proof.Machine.execProfileWrite value s
  | .irqStatWrite n value => Sys2Proof.Machine.execIrqStatWrite n value s
  | .irqEnWrite n value => Sys2Proof.Machine.execIrqEnWrite n value s
  | .pfCtrlWrite value => Sys2Proof.Machine.execPfCtrlWrite value s
  | .modeReq value => Sys2Proof.Machine.execModeReq value s
  | .modeChangeComplete => Sys2Proof.Machine.execModeChangeComplete s
  | .softReset value => Sys2Proof.Machine.execSoftReset value s
  | .registerWrite off value => Sys2Proof.Machine.execRegisterWrite off value s
  | .powerGood kept => Sys2Proof.Machine.execPowerGood kept s
  | .powerGoodFall => Sys2Proof.Machine.execPowerGoodFall s
  | .presNMake => Sys2Proof.Machine.execPresNMake s
  | .boot meas => Sys2Proof.Machine.execBoot meas s
  | .removal => Sys2Proof.Machine.execRemoval s
  | .powerFail => Sys2Proof.Machine.execPowerFail s
  | .pfWarning => Sys2Proof.Machine.execPfWarning s
  | .pfPendingClear => Sys2Proof.Machine.execPfPendingClear s
  | .brownOut => Sys2Proof.Machine.execBrownOut s
  | .decantExhausted => Sys2Proof.Machine.execDecantExhausted s
  | .decantReturn kept => Sys2Proof.Machine.execDecantReturn kept s
  | .pinReset => Sys2Proof.Machine.execPinReset s
  | .vioLoss => Sys2Proof.Machine.execVioLoss s
  | .vioReturn => Sys2Proof.Machine.execVioReturn s
  | .holdOk => Sys2Proof.Machine.execHoldOk s
  | .blankInRise => Sys2Proof.Machine.execBlankInRise s
  | .blankInEnd => Sys2Proof.Machine.execBlankInEnd s
  | .lanesync stampL stampV => Sys2Proof.Machine.execLanesync stampL stampV s
  | .winOpen level => Sys2Proof.Machine.execWinOpen level s
  | .x32Stop => Sys2Proof.Machine.execX32Stop s
  | .refCheck ppm => Sys2Proof.Machine.execRefCheck ppm s
  | .paceWindow units temp => Sys2Proof.Machine.execPaceWindow units temp s
  | .governorTick fills => Sys2Proof.Machine.execGovernorTick fills s
  | .shedRaise path fill => Sys2Proof.Machine.execShedRaise path fill s
  | .shedLower path fill => Sys2Proof.Machine.execShedLower path fill s
  | .pathDrops path => Sys2Proof.Machine.execPathDrops path s
  | .synRecal path band => Sys2Proof.Machine.execSynRecal path band s
  | .lockWindow path count => Sys2Proof.Machine.execLockWindow path count s
  | .timedLock path => Sys2Proof.Machine.execTimedLock path s
  | .lockLost path => Sys2Proof.Machine.execLockLost path s
  | .offsetAcquire path count => Sys2Proof.Machine.execOffsetAcquire path count s
  | .agcPeriod path samples => Sys2Proof.Machine.execAgcPeriod path samples s
  | .laneBlock lane meas => Sys2Proof.Machine.execLaneBlock lane meas s
  | .gap lane => Sys2Proof.Machine.execGap lane s
  | .rdsGroup lane group => Sys2Proof.Machine.execRdsGroup lane group s
  | .lfSecond lane meas => Sys2Proof.Machine.execLfSecond lane meas s
  | .drmFrame lane frame => Sys2Proof.Machine.execDrmFrame lane frame s
  | .dabFrame lane frame => Sys2Proof.Machine.execDabFrame lane frame s
  | .voteLife kind => Sys2Proof.Machine.execVoteLife kind s
  | .leapHold => Sys2Proof.Machine.execLeapHold s
  | .counterHoldEnd micros => Sys2Proof.Machine.execCounterHoldEnd micros s
  | .counterMinute => Sys2Proof.Machine.execCounterMinute s
  | .keeptimeListen => Sys2Proof.Machine.execKeeptimeListen s
  | .ktListenEnd => Sys2Proof.Machine.execKtListenEnd s
  | .sdeVerify => Sys2Proof.Machine.execSdeVerify s
  | .tastingStart entry => Sys2Proof.Machine.execTastingStart entry s
  | .idTimeout lane => Sys2Proof.Machine.execIdTimeout lane s
  | .dwellMax lane => Sys2Proof.Machine.execDwellMax lane s
  | .switchOver lane stamp => Sys2Proof.Machine.execSwitchOver lane stamp s
  | .lbtBackoff => Sys2Proof.Machine.execLbtBackoff s
  | .atStart => Sys2Proof.Machine.execAtStart s
  | .transmissionEnd k => Sys2Proof.Machine.execTransmissionEnd k s
  | .rxAfter => Sys2Proof.Machine.execRxAfter s
  | .linkRxEnd => Sys2Proof.Machine.execLinkRxEnd s
  | .qualTimeout => Sys2Proof.Machine.execQualTimeout s
  | .sfdTimeout => Sys2Proof.Machine.execSfdTimeout s
  | .packet pkt => Sys2Proof.Machine.execPacket pkt s
  | .responseTimeout => Sys2Proof.Machine.execResponseTimeout s
  | .sessionCheck ep margin => Sys2Proof.Machine.execSessionCheck ep margin s
  | .sessionTimeout ep => Sys2Proof.Machine.execSessionTimeout ep s
  | .releaseDue target margin => Sys2Proof.Machine.execReleaseDue target margin s
  | .releaseRetry target => Sys2Proof.Machine.execReleaseRetry target s
  | .releaseSkip target => Sys2Proof.Machine.execReleaseSkip target s
  | .captureBlock port => Sys2Proof.Machine.execCaptureBlock port s
  | .underrun port => Sys2Proof.Machine.execUnderrun port s
  | .pdmOverrun pin runs => Sys2Proof.Machine.execPdmOverrun pin runs s
  | .micSettle group => Sys2Proof.Machine.execMicSettle group s
  | .sapStopRampEnd port => Sys2Proof.Machine.execSapStopRampEnd port s
  | .scrub => Sys2Proof.Machine.execScrub s
  | .reclaim area => Sys2Proof.Machine.execReclaim area s
  | .cpllLock ok => Sys2Proof.Machine.execCpllLock ok s
  | .x32Start => Sys2Proof.Machine.execX32Start s
  | .flashOperationEnd ok => Sys2Proof.Machine.execFlashOperationEnd ok s
  | .calItemEnd obj meas => Sys2Proof.Machine.execCalItemEnd obj meas s
  | .selftestEnd seq meas => Sys2Proof.Machine.execSelftestEnd seq meas s
  | .phaseStepsApplied ck steps => Sys2Proof.Machine.execPhaseStepsApplied ck steps s
  | .lbtListenEnd rssi => Sys2Proof.Machine.execLbtListenEnd rssi s
  | .counterSecond temp => Sys2Proof.Machine.execCounterSecond temp s
  | .calRange => Sys2Proof.Machine.execCalRange s

end Sys2Proof.Machine
end

