-- ==== Sys2Proof/Machine/Pins.lean ====
section
/-!
DEFINITION. What the output pins do, from unpowered to the decanted hold (Tables 2-1, 2-4, 3-6, 6-7; R34, R36, R37, R71, R72, R138, R421).
-/
namespace Sys2Proof.Machine

/-- What an output does: floats, is released to the board's pull resistor, stands at a level, or carries its signal. -/
inductive Drive where
  | highZ | released | low | high | signal
  deriving DecidableEq, Repr

/-- The VIO-domain outputs are driven: VIO is valid, the port has become live, and no removal, hold or pin reset floats them. A decant that began
with PRES_N asserted floats nothing (R46). -/
def outputsLive (s : State) : Bool :=
  s.power.vioValid && match s.power.phase with
    | .softBoot | .ready => true
    | .decanting => s.power.decantBus
    | _ => false

/-- A VIO-domain output with the level it has where outputs are driven. -/
def outputPin (s : State) (d : Drive) : Drive := if outputsLive s then d else .highZ

/-- IRQ_N (Table 3-6, R69, R71): asserted it is pulled low, or with IRQ_POL 1 driven high to VIO; a held RESET_N releases it (R131). -/
def irqPin (s : State) : Drive :=
  if !s.power.vioValid then .highZ
  else match s.power.phase with
    | .ready => if irqAsserted s then (if s.port.irqPol then .high else .low) else .released
    | .softBoot | .pinHeld => .released
    | .decanting => if s.power.decantBus then .released else .highZ
    | .waiting | .decantHold => .highZ

/-- BLANK_OUT: high for exactly the blanking interval of a transmission (R185). -/
def blankOutPin (s : State) : Drive := outputPin s (if s.link.txBlank then .high else .low)

/-! The pins of a port (R397 to R401) -/

/-- FS_WIDTH in force, half a frame or not, and the level of FS while it is active: those of the named formats, or the host's (Table 18-1). -/
def fsHalf (c : SapCfg) : Bool := if c.format = 0 then c.fsWidth else true

def fsActive (c : SapCfg) : Bool :=
  match c.format with
  | 0 => !c.fsPol
  | 1 => false
  | _ => true

/-- The bit clock under way at an instant, counted from the first FS edge: the last one that has begun. -/
def FrameClock.bitAt (c : FrameClock) (t : Int) : Nat :=
  let guess := ((t - c.start - c.shift (c.first + 2 ^ 64)) * (2 ^ 24 : Int) / (16 * c.ckDiv * c.div : Nat)).toNat
  match [guess + 2, guess + 1, guess, guess - 1, guess - 2].find? fun k => decide (c.bitEdge k ≤ t) with
  | some k => k
  | none => 0

/-- BCLK at an instant. A bit clock begins with the edge on which SD and FS change, the falling one with BCLK_POL 0, the rising one with 1. The high
phase is floor(P / 2) CK cycles of a period of P, the low phase the rest (R398, R399). -/
def bclkLevel (c : FrameClock) (pol : Bool) (t : Int) : Bool :=
  let k := c.bitAt t
  let cycles := (c.bitEdge (k + 1) - c.bitEdge k) / (16 * c.ckDiv : Nat)
  let high := cycles / 2 * (16 * c.ckDiv : Nat)
  let low := c.bitEdge (k + 1) - c.bitEdge k - high
  if pol then t - c.bitEdge k < high else low ≤ t - c.bitEdge k

/-- FS at a bit clock of a frame (R399). -/
def fsLevel (c : SapCfg) (bit : Nat) : Bool :=
  if bit < (if fsHalf c then frameBits c / 2 else 1) then fsActive c else !fsActive c

/-- Which bit a data line sends at a bit clock of a frame: the slot, its bit counted from the first one, and how many frames before this one it
belongs to. Bit i of slot k goes out at (OFFSET + k × WIDTH + i) mod FRAME_BITS (R399). -/
def bitPlace (c : SapCfg) (bit : Nat) : Nat × Nat × Nat :=
  let n := frameBits c
  let off := effOffset c
  let q := (bit + n - off % n) % n
  (q / slotBits c, q % slotBits c, (off + q) / n)

/-- Bit `i` of a slot's word, most significant first; the 8 bits after the sample in a 32-bit slot are 0 (R400). -/
def wordBit (c : SapCfg) (w : Int) (i : Nat) : Bool :=
  let n := min 24 (slotBits c)
  i < n && bit (twos 4 w) (n - 1 - i)

/-- A data line at a bit clock of the frame sent last: what passed the end of an earlier frame is sent at its start, and 0 there in the first frame
after a start (R399). -/
def sdLevel (x : Sap) (line bit : Nat) : Bool :=
  let (k, i, late) := bitPlace x.used bit
  match x.sent[late]? with
  | some f => wordBit x.used ((if line = 0 then f.words0 else f.words1).getD k 0) i
  | none => false

/-- A port's pins. -/
inductive SapPin where
  | bclk | fs | sd0 | sd1
  deriving DecidableEq, Repr

/-- The level of a running port's pin at the present instant. SD1 is 0 while SD1_EN is 0. -/
def sapLevel (s : State) (port : Nat) (pin : SapPin) : Bool :=
  let x := sapOf s port
  let c := frameClock s port
  let bit := c.bitAt (unitsNow s) - (x.nextOut - 1 - c.first) * c.bits
  match pin with
  | .bclk => bclkLevel c (sapOf s (timingPort s port)).used.bclkPol (unitsNow s)
  | .fs => fsLevel (sapOf s (timingPort s port)).used bit
  | .sd0 => sdLevel x 0 bit
  | .sd1 => x.used.sd1En && sdLevel x 1 bit

/-- BCLK, FS and the data pins of a port: low but for a port whose first frame has begun (R411, R421, Table 6-7). -/
def sapPin (s : State) (port : Nat) (pin : SapPin) : Drive :=
  outputPin s (if sapRuns (sapOf s port) && !(sapOf s port).sent.isEmpty && sapLevel s port pin then .high else .low)

/-! The other pins -/

/-- PDMCK_A and PDMCK_B (0 and 1). -/
def pdmClockPin (s : State) (group : Nat) : Drive :=
  outputPin s (if (if group = 0 then s.pdm.clkA else s.pdm.clkB) then .signal else .low)

/-- AOUT_L and AOUT_R, of the VIN_A domain (R419). -/
def aoutPin (s : State) : Drive :=
  match s.power.phase, s.pdm.aout with
  | .ready, .highZ => .highZ
  | .ready, _ => .signal
  | _, _ => .highZ

/-- RFIO_S: the transmitter drives the pin in the TX states alone (R184, Table 6-7). -/
def rfPin (s : State) : Drive :=
  match s.pathS.fe.state with
  | .txRampUp | .tx | .txRampDown => .signal
  | _ => .highZ

end Sys2Proof.Machine
end

