-- ==== Sys2Proof/Safety.lean ====
section
/-!
DEFINITION. What the model's invariants say of a state, and the conditions in whose terms the statements speak.
-/
namespace Sys2Proof.Machine

/-- The books balance (R92). -/
abbrev BooksBalance (s : State) : Prop := s.rings.credits + s.rings.inflight.length + s.rings.unread = 512

/-- The commands in flight stand in the order of their issue, each with a number of its own (R79). -/
abbrev IssueOrder (r : Rings) : Prop := (r.inflight.map (·.seq)).Pairwise (· < ·) ∧ ∀ c ∈ r.inflight, c.seq < r.nextSeq

/-- The working SRAM is in its canonical form. -/
abbrev MemoryOk (s : State) : Prop := Memory.wf s.mem = true

/-- The host can run bus cycles with their full effect: VIO is valid and READY is 1 (Table 3-6). -/
abbrev PortLive (s : State) : Prop := s.power.vioValid = true ∧ s.power.phase = .ready

/-- Where Table 20-2 puts a source: the IRQ_STAT register and the bit. -/
def irqPlace : Irq → Nat × Nat
  | .cmdDone => (0, 0)
  | .ringFault => (0, 1)
  | .modeEvent => (0, 2)
  | .pfWarn => (0, 3)
  | .paceShed => (0, 4)
  | .clockEvent => (0, 5)
  | .calEvent => (0, 6)
  | .thermWarn => (0, 7)
  | .slotEvent => (1, 0)
  | .tasteEvent => (1, 1)
  | .timeEvent => (1, 2)
  | .sessionEvent => (1, 3)
  | .releaseEvent => (1, 4)
  | .audioEvent => (1, 5)
  | .winFault => (2, 0)
  | .holdOk => (2, 1)

/-- A bus cycle at a register offset. -/
inductive Cycle where
  | read (off : Nat)
  | write (off : Nat) (v : Byte)
  deriving DecidableEq, Repr

/-- The bus cycle that a row of the table stands for, none for the rows that are none. -/
def cycleOf : Instr → Option Cycle
  | .doorbell v => some (.write 0x0F v)
  | .ccConsHWrite v => some (.write 0x15 v)
  | .booksSnap v => some (.write 0x16 v)
  | .scLatch v => some (.write 0x23 v)
  | .cqConsLRead => some (.read 0x10)
  | .cqConsHRead => some (.read 0x11)
  | .ccProdLRead => some (.read 0x12)
  | .ccProdHRead => some (.read 0x13)
  | .tempLRead => some (.read 0x2C)
  | .tempHRead => some (.read 0x2D)
  | .winAddrHWrite v => some (.write 0x0A v)
  | .winDataRead | .slotProdRead | .statisticsRead | .paceMinRead | .fillHwRead => some (.read 0x0B)
  | .winDataWrite v | .slotConsWrite v | .capConsWrite v | .profileWrite v => some (.write 0x0B v)
  | .irqStatWrite n v => if n < 3 then some (.write (0x1D + n) v) else none
  | .irqEnWrite n v => if n < 3 then some (.write (0x20 + n) v) else none
  | .pfCtrlWrite v => some (.write 0x2F v)
  | .modeReq v => some (.write 0x05 v)
  | .softReset v => some (.write 0x04 v)
  | .registerWrite off v => if off < 64 then some (.write off v) else none
  | _ => none

/-- A window access finds the port live, the pointer inside a region and the window not halted, with INC = 1 and RING = 0: its pointer
then moves on by one. -/
abbrev WindowAt (s : State) (a : Nat) : Prop :=
  PortLive s ∧ s.port.ptr = a ∧ s.port.wsHalted = false ∧ s.port.winInc = true ∧ s.port.winRing = false ∧ a ≠ regionLast a

/-- The state after a window access that only moves the pointer on and shows `d` on the bus. -/
def stepped (s : State) (d : Byte) : State := { s with port := { s.port with ack := true, data := d, ptr := s.port.ptr + 1 } }

/-- A descriptor's header passes R6 and R85: no reserved bit of FLAGS, no reserved ORDER, bytes 6 and 7 zero. -/
abbrev HeaderOk (c : Cmd) : Prop := cmdFlags c < 8 ∧ cmdOrder c ≠ 3 ∧ par c 6 = 0 ∧ par c 7 = 0

/-- The bytes from `lo` to `hi` of a descriptor are zero, as R6 asks of reserved ones. -/
abbrev ZeroBytes (c : Cmd) (lo hi : Nat) : Prop := ∀ i ∈ List.range (hi + 1), lo ≤ i → par c i = 0

/-- The object word names an object of this kind that exists (R81, Table 4-2). -/
abbrev Names (c : Cmd) (kind : Nat) : Prop := cmdKind c = kind ∧ cmdIdx c < objectCount kind

/-- The command with this sequence and opcode stands in flight and may start now (R84 to R87), with a sound header. -/
abbrev MayRun (s : State) (seq op : Nat) (c : Cmd) : Prop := startable s seq op = some c ∧ HeaderOk c

/-- Ring rows with their opcodes and an object word that the opcode accepts (Tables 4-2, 4-3). The two TUNE rows, whose start waits for more
than R84 to R87, stand apart. -/
def ringRows (seq : Nat) (m : Int) (e : Nat) : List (Instr × Nat × Nat) :=
  [(.barrier seq, 0x01, 0), (.abort seq, 0x02, 0), (.laneBind seq, 0x11, 0x1000), (.laneSet seq, 0x12, 0x1000),
   (.laneSync seq e, 0x13, 0x2000), (.engineAttach seq, 0x14, 0x1000), (.tasteArm seq, 0x18, 0x4000), (.tasteView seq, 0x19, 0x4000),
   (.slotOpen seq, 0x20, 0x5000), (.slotClose seq, 0x21, 0x5000), (.dateSet seq, 0x28, 0x6000), (.timeVoteCfg seq, 0x29, 0x6000),
   (.calRun seq, 0x30, 0x2000), (.selftest seq, 0x31, 0), (.linkRx seq, 0x38, 0x7000), (.linkTx seq m, 0x39, 0x7000)] ++
  [(.pair seq m, 0x40, 0x8000), (.sessionCfg seq m, 0x41, 0x8000), (.releaseStart seq, 0x42, 0x9000), (.releaseStop seq m, 0x43, 0x9000),
   (.sapCfg seq, 0x48, 0xA000), (.sapStart seq e, 0x49, 0xA000), (.sapStop seq, 0x4A, 0xA000), (.cellarPut seq, 0x50, 0xB000),
   (.cellarGet seq, 0x51, 0xB000), (.cellarEraseKey seq, 0x52, 0xB000), (.shadowWrite seq, 0x53, 0xB001), (.shadowRead seq, 0x54, 0xB001),
   (.shadowStore seq, 0x55, 0xB001), (.protectSet seq, 0x56, 0xB000), (.unlock seq, 0x57, 0xB000)]

/-- The rows that issue a cellar write at their start. -/
def issuesWrite : Instr → Bool
  | .cellarPut _ | .cellarEraseKey _ | .shadowWrite _ | .shadowStore _ | .protectSet _ => true
  | _ => false

/-- The end of a row: after one that issues a cellar write, the writes whose place in the order has come start (R87). -/
def rowEnd (i : Instr) (t : State) : State := if issuesWrite i then startDue t else t

/-- The state in which a command that passed its checks does its work: it is running. -/
def runs (s : State) (seq : Nat) : State := setPhase s seq .running

/-- No command waits for the cellar write that it has issued (R87). -/
abbrev NoneDue (s : State) : Prop := ∀ c ∈ s.rings.inflight, c.due = none

/-- Path S has nothing to send, to receive or to watch, no check waits, and it is OFF, and no cellar write waits: serving the link changes
nothing (R369). -/
abbrev LinkQuiet (s : State) : Prop :=
  NoneDue s ∧ s.link.txs = [] ∧ s.link.hostRx = none ∧ s.sessions.checks = [] ∧ watching s = false ∧ s.pathS.fe.state = .off

/-- A calibration holds path S and nothing else is sent, received or checked, and no cellar write waits: what the link is asked to send waits
in its queue (R369). -/
abbrev LinkHeld (s : State) : Prop :=
  NoneDue s ∧ s.link.txs = [] ∧ s.link.hostRx = none ∧ s.sessions.checks = [] ∧ watching s = false ∧ s.pathS.fe.state = .cal ∧ s.pathS.job ≠ none

/-- The cellar has room for a record of a key at the head of its log, with nothing to reclaim first and no reclaim under way (R429). -/
abbrev RoomFor (c : Cellar) (key len : Nat) : Prop :=
  c.reclaim = none ∧ cellarFull c (0x8000 ≤ key) key len = false ∧ headFits (logOf c (0x8000 ≤ key)) (recSize len) = true ∧
    2 ≤ freeSectors (0x8000 ≤ key) (logOf c (0x8000 ≤ key))

/-- The commands in flight stand in order and none waits for a cellar write that it has issued (R79, R87). -/
abbrev WritesClear (s : State) : Prop := IssueOrder s.rings ∧ NoneDue s

/-- `d` is `c` with a record write begun for a command: the header operation runs, no record of the log has changed (R426). -/
abbrev WriteBegun (c d : Cellar) (seq key : Nat) (tomb : Bool) (payload : List Byte) : Prop :=
  (∃ w, d.write = some w ∧ w.seq = some seq ∧ w.keyArea = decide (0x8000 ≤ key) ∧ w.retried = false ∧ w.rec_.key = key ∧ w.rec_.tomb = tomb ∧
    w.rec_.payload = payload ∧ w.rec_.stage = .torn ∧ w.rec_.version = nextVersion (logOf c (0x8000 ≤ key)) key) ∧
  d.recLog.recs = c.recLog.recs ∧ d.keyLog.recs = c.keyLog.recs ∧ d = { c with recLog := d.recLog, keyLog := d.keyLog, write := d.write }

/-- `t` is `s` apart from what posting completions writes: the rings, the working SRAM, the scrub's record and IRQ_STAT0. -/
abbrev RingFrame (s t : State) : Prop :=
  t = { s with rings := t.rings, mem := t.mem, scrub := t.scrub, port := { s.port with irqStat0 := t.port.irqStat0 } }

end Sys2Proof.Machine
end

