-- ==== Sys2Proof/Certificates/Slice0/Obligations.lean ====
section
/-!
DEFINITION. The statements about the Rhatre 7200. Each docstring names the rules of spec/ that it speaks of; a clause that rests on the model's
own choice names the log entry.
-/
open Sys2Proof Sys2Proof.Machine

/-! The queue -/

/-- A step takes the command at the front of the queue and runs it on the state with the queue's rest. -/
def Obligations.StepRunsTheFrontCommand : Prop :=
  ∀ (s : State) (c : Instr) (cs : List Instr), step { s with pending := c :: cs } = exec c { s with pending := cs }

/-! The port (chapters 3 and 20) -/

/-- R37, R59, Table 3-6: without VIO a bus cycle gets no ACK and has no effect at all, whichever row it is.
R72, R73, R451, Table 3-6: while READY is 0 after a soft reset, and during a decant through which PRES_N has stood asserted, every write is
ignored and acknowledged, and a read returns the six live registers' values and 0x00 elsewhere, and changes nothing; in a decant that PRES_N's
breaking began, and until a boot, a cycle gets no ACK and has no effect (R45, R50).
R3: offsets 0x30 to 0x3F read 0x00 and ignore writes, in a normal handshake without an error. -/
def Obligations.BusCyclesWithoutEffect : Prop :=
  (∀ (i : Instr) (y : Cycle) (s : State), cycleOf i = some y → s.power.vioValid = false →
      exec i s = .next { s with port := { s.port with ack := false } }) ∧
  (∀ (i : Instr) (s : State), s.power.vioValid = true →
      (s.power.phase = .softBoot ∨ (s.power.phase = .decanting ∧ s.power.decantBus = true)) →
      (∀ off v, cycleOf i = some (.write off v) → exec i s = .next { s with port := { s.port with ack := true } }) ∧
      (∀ off, cycleOf i = some (.read off) → exec i s = .next { s with port := { s.port with
        ack := true, data := if off = 0 ∨ off = 1 ∨ off = 2 ∨ off = 3 ∨ off = 6 ∨ off = 7 then regValue s off else 0 } })) ∧
  (∀ (i : Instr) (y : Cycle) (s : State), cycleOf i = some y →
      ((s.power.phase = .decanting ∧ s.power.decantBus = false) ∨ s.power.phase = .waiting ∨ s.power.phase = .pinHeld ∨
        s.power.phase = .decantHold) → exec i s = .next { s with port := { s.port with ack := false } }) ∧
  (∀ (s : State) (off : Nat) (v : Byte), PortLive s → 0x30 ≤ off → off ≤ 0x3F →
      readCycle off s = { s with port := { s.port with ack := true, data := 0 } } ∧
      exec (.registerWrite off v) s = .next { s with port := { s.port with ack := true } })

/-- R76: HP_STATUS.WIN_ERROR is 1 while any of WIN_STATUS bits [4:0] is 1, and 0 otherwise. -/
def Obligations.WinErrorSummarisesWinStatus : Prop :=
  ∀ s : State, (regValue s 0x03).getLsbD 6 = true ↔ ∃ k, k ≤ 4 ∧ (regValue s 0x0D).getLsbD k = true

/-- R8: a read of _L copies the live _H byte into its pair's holding byte and arms it; the first read of _H after it returns that byte and
disarms it; while it is not armed _H reads live. Each pair has a holding byte of its own, and nothing else of the state changes. -/
def Obligations.PairReadsArmAndDisarm : Prop :=
  ∀ s : State, PortLive s →
    (exec .cqConsLRead s = .next { s with port := { s.port with
        ack := true, data := byteOf s.rings.cqCons 0, holdCqCons := some (byteOf s.rings.cqCons 1) } } ∧
     exec .ccProdLRead s = .next { s with port := { s.port with
        ack := true, data := byteOf s.rings.ccProd 0, holdCcProd := some (byteOf s.rings.ccProd 1) } } ∧
     exec .tempLRead s = .next { s with port := { s.port with
        ack := true, data := byteOf (twos 2 s.cal.temp) 0, holdTemp := some (byteOf (twos 2 s.cal.temp) 1) } }) ∧
    (∀ h, s.port.holdCqCons = some h → exec .cqConsHRead s = .next { s with port := { s.port with ack := true, data := h, holdCqCons := none } }) ∧
    (∀ h, s.port.holdCcProd = some h → exec .ccProdHRead s = .next { s with port := { s.port with ack := true, data := h, holdCcProd := none } }) ∧
    (∀ h, s.port.holdTemp = some h → exec .tempHRead s = .next { s with port := { s.port with ack := true, data := h, holdTemp := none } }) ∧
    (s.port.holdCqCons = none → exec .cqConsHRead s = .next { s with port := { s.port with ack := true, data := byteOf s.rings.cqCons 1 } }) ∧
    (s.port.holdCcProd = none → exec .ccProdHRead s = .next { s with port := { s.port with ack := true, data := byteOf s.rings.ccProd 1 } }) ∧
    (s.port.holdTemp = none → exec .tempHRead s = .next { s with port := { s.port with ack := true, data := byteOf (twos 2 s.cal.temp) 1 } })

/-- R69, R71, Tables 20-2 and 20-7: a write of IRQ_STATn clears the bits it names with a 1 and leaves the others; IRQ_EN0 takes its byte, IRQ_EN1 six
bits and IRQ_EN2 two; of the state nothing else changes. IRQ_N is asserted just while some bit is 1 in an IRQ_STAT register and its IRQ_EN
register: it is then pulled low, or driven high with IRQ_POL 1, and released otherwise; without VIO it floats (R36).
R449: no interrupt status bit is set while READY is 0 or a decant runs; otherwise raising a source sets its own bit of Table 20-2 and
changes nothing else. -/
def Obligations.InterruptBitsAndEnables : Prop :=
  (∀ (s : State) (v : Byte), PortLive s →
      exec (.irqStatWrite 0 v) s = .next { s with port := { s.port with ack := true, irqStat0 := s.port.irqStat0 &&& ~~~v } } ∧
      exec (.irqStatWrite 1 v) s = .next { s with port := { s.port with ack := true, irqStat1 := s.port.irqStat1 &&& ~~~v } } ∧
      exec (.irqStatWrite 2 v) s = .next { s with port := { s.port with ack := true, irqStat2 := s.port.irqStat2 &&& ~~~v } } ∧
      exec (.irqEnWrite 0 v) s = .next { s with port := { s.port with ack := true, irqEn0 := v } } ∧
      exec (.irqEnWrite 1 v) s = .next { s with port := { s.port with ack := true, irqEn1 := v &&& 0x3F } } ∧
      exec (.irqEnWrite 2 v) s = .next { s with port := { s.port with ack := true, irqEn2 := v &&& 0x03 } } ∧
      (irqAsserted s = true ↔ ∃ k, k < 8 ∧
        ((s.port.irqStat0.getLsbD k = true ∧ s.port.irqEn0.getLsbD k = true) ∨ (s.port.irqStat1.getLsbD k = true ∧ s.port.irqEn1.getLsbD k = true) ∨
          (s.port.irqStat2.getLsbD k = true ∧ s.port.irqEn2.getLsbD k = true))) ∧
      irqPin s = (if irqAsserted s then (if s.port.irqPol then .high else .low) else .released)) ∧
  (∀ s : State, s.power.vioValid = false → irqPin s = .highZ) ∧
  (∀ (q : Irq) (s : State), (s.power.phase ≠ .ready → raise q s = s) ∧
      (s.power.phase = .ready →
        let at_ (k : Nat) : Byte := if (irqPlace q).1 = k then 1#8 <<< (irqPlace q).2 else 0
        raise q s = { s with port := { s.port with irqStat0 := s.port.irqStat0 ||| at_ 0, irqStat1 := s.port.irqStat1 ||| at_ 1,
                                                   irqStat2 := s.port.irqStat2 ||| at_ 2 } }))

/-- R62, R67: WIN_ADDR_L and WIN_ADDR_M are staged; the write of WIN_ADDR_H loads the pointer from them and clears HALTED. Reads of the three
return the live pointer's bytes. Nothing else of the state changes.
R66, R67: at the last byte of a region that RING does not turn back, the increment of a WIN_DATA access carries the pointer over and sets CROSSED
while WIN_EDGE is 0, and leaves the pointer and sets HALTED while it is 1; while HALTED is 1 an access returns 0x00 and moves nothing. With
RING = 1 the last byte of the command ring, of the completion ring and of an open slot's ring (shown with one slot) is followed by the ring's
first. -/
def Obligations.WindowPointerLoadsAndStops : Prop :=
  (∀ (s : State) (v : Byte), PortLive s →
      exec (.registerWrite 0x08 v) s = .next { s with port := { s.port with ack := true, stagedPtrL := v } } ∧
      exec (.registerWrite 0x09 v) s = .next { s with port := { s.port with ack := true, stagedPtrM := v } } ∧
      exec (.winAddrHWrite v) s = .next { s with port := { s.port with
        ack := true, wsHalted := false,
        ptr := s.port.stagedPtrL.toNat + 256 * s.port.stagedPtrM.toNat + 65536 * v.toNat } } ∧
      regValue s 0x08 = byteOf s.port.ptr 0 ∧ regValue s 0x09 = byteOf s.port.ptr 1 ∧ regValue s 0x0A = byteOf s.port.ptr 2) ∧
  (∀ (s : State) (i : Instr), PortLive s → s.port.winInc = true → s.port.ptr < 2 ^ 24 → (i = .winDataRead ∨ ∃ v, i = .winDataWrite v) →
      (s.port.wsHalted = false → s.port.ptr = regionLast s.port.ptr → (s.port.winRing = true → ringStart s s.port.ptr = none) → ∃ t,
        exec i s = .next t ∧ t = { s with mem := t.mem, scrub := t.scrub, port := t.port } ∧
        (s.port.winEdge = false → t.port.wsCrossed = true ∧ t.port.wsHalted = false ∧ t.port.ptr = (s.port.ptr + 1) % 2 ^ 24) ∧
        (s.port.winEdge = true → t.port.wsHalted = true ∧ t.port.ptr = s.port.ptr)) ∧
      (s.port.wsHalted = false → s.port.winRing = true →
        (s.port.ptr = 0x1FBFFF → ∃ t, exec i s = .next t ∧ t.port.ptr = 0x1F8000) ∧
        (s.port.ptr = 0x1FDFFF → ∃ t, exec i s = .next t ∧ t.port.ptr = 0x1FC000) ∧
        (∀ n x, s.slots.slots = [(n, x)] → x.isOpen = true → s.port.ptr < 0x100000 → s.port.ptr + 1 = x.ringBase + ringSize x → ∃ t,
          exec i s = .next t ∧ t.port.ptr = x.ringBase))) ∧
  (∀ (s : State) (v : Byte), PortLive s → s.port.wsHalted = true →
      exec .winDataRead s = .next { s with port := { s.port with ack := true, data := 0 } } ∧
      exec (.winDataWrite v) s = .next { s with port := { s.port with ack := true } })

/-- R63, R64, R68, Table 3-5: a WIN_DATA read of the ranges of working SRAM whose bytes the host sees returns the byte at the pointer, scrubs
an unscrubbed row first and moves the pointer on; of memory nothing changes. A read of engine work memory returns 0x00, sets PRIVATE and moves the
pointer on. -/
def Obligations.WindowReads : Prop :=
  ∀ (s : State) (a : Nat), WindowAt s a →
    (a < 0x1FE000 → ¬ (0x100000 ≤ a ∧ a < 0x180000) →
      exec .winDataRead s = .next (stepped (touchRow s a) (memGet s a)) ∧ (touchRow s a) = { s with scrub := (touchRow s a).scrub } ∧
      rowScrubbed (touchRow s a) a = true) ∧
    (0x100000 ≤ a → a < 0x180000 → s.port.wsPrivate = true → exec .winDataRead s = .next (stepped s 0)) ∧
    (0x100000 ≤ a → a < 0x180000 → s.port.wsPrivate = false →
      exec .winDataRead s = .next (stepped { s with port := { s.port with wsPrivate := true, irqStat2 := s.port.irqStat2 ||| 0x01 } } 0))

/-- R63, R64, R68, Table 3-5: a WIN_DATA write to host scratch or the command ring stores the byte at the pointer, and every other byte of the
working SRAM reads as before; a write to a read-only range is refused, sets RO_WRITE and changes no byte. Either way the pointer moves on. -/
def Obligations.WindowWrites : Prop :=
  ∀ (s : State) (a : Nat) (v : Byte), WindowAt s a →
    (0x1F0000 ≤ a → a < 0x1FC000 → MemoryOk s → ∃ t, exec (.winDataWrite v) s = .next t ∧ memGet t a = v ∧
      (∀ b, b ≠ a → memGet t b = memGet s b) ∧ rowScrubbed t a = true ∧
      t = { s with mem := t.mem, scrub := t.scrub, port := { s.port with ack := true, ptr := a + 1 } }) ∧
    (a < 0x100000 ∨ (0x180000 ≤ a ∧ a < 0x1F0000) ∨ (0x1FC000 ≤ a ∧ a < 0x1FE000) →
      ∃ t, exec (.winDataWrite v) s = .next t ∧ t.port.wsRoWrite = true ∧ t.port.ptr = a + 1 ∧
        (s.port.wsRoWrite = false → t.port.irqStat2 = s.port.irqStat2 ||| 0x01) ∧
        t = { s with port := { s.port with ack := true, ptr := a + 1, wsRoWrite := true, irqStat2 := t.port.irqStat2 } })

/-- R120, Table 5-7: a read of PACE_MIN returns it and sets it to 255; a read of the low byte of FILL_HW_L or FILL_HW_V returns it and clears the
field. Nothing else of the pace block changes.
R245: a read of byte 0x00 of a lane's statistics block latches bytes 0x00 to 0x2F of that block; those bytes then read from the latch until
byte 0x00 of a block is read again, whatever the lane does. -/
def Obligations.BlockReadsClearAndLatch : Prop :=
  (∀ s : State,
      (WindowAt s 0x2A0003 → exec .paceMinRead s = .next
        (stepped { s with fabric := { s.fabric with paceMin := 255 } } (lowByte s.fabric.paceMin))) ∧
      (WindowAt s 0x2A0014 → exec .fillHwRead s = .next
        (stepped { s with fabric := { s.fabric with fillHwL := 0 } } (byteOf s.fabric.fillHwL 0))) ∧
      (WindowAt s 0x2A0016 → exec .fillHwRead s = .next
        (stepped { s with fabric := { s.fabric with fillHwV := 0 } } (byteOf s.fabric.fillHwV 0)))) ∧
  (∀ (s : State) (n : Nat), n < 64 → WindowAt s (0x300000 + 0x40 * n) →
      ∃ t, exec .statisticsRead s = .next t ∧ t.statLatch.lane = some n ∧ t.port.data = lowByte (laneOf s n).last.gen ∧
        t = { s with statLatch := t.statLatch, port := { s.port with ack := true, data := t.port.data, ptr := s.port.ptr + 1 } } ∧
        ∀ (u : State) (o : Nat), 0 < o → o < 0x30 → u.statLatch = t.statLatch →
          blockRead u (0x300000 + 0x40 * n + o) = some (fieldByte (statFields s n) o))

/-- R323: a read of PROD's first byte returns it and latches the other three; a write of CONS's last byte accepts the staged value when it frees no
more than the ring holds and is a multiple of 8, and otherwise keeps CONS and counts in CONS_FAULTS.
R413: a write of CAP_CONS's high byte takes effect only when it frees no more blocks than are queued; otherwise CAP_CONS keeps its value and
CAP_FAULTS advances. -/
def Obligations.ConsumerPointersStayInTheirRings : Prop :=
  (∀ (s : State) (n : Nat), n < 1024 →
      (WindowAt s (0x240000 + 0x40 * n + 0x14) → ∃ t, exec .slotProdRead s = .next t ∧ t.port.data = byteOf (slotOf s n).prod 0 ∧
        t.slots.latch = some { slot := n, bytes := [(0x15, byteOf (slotOf s n).prod 1), (0x16, byteOf (slotOf s n).prod 2),
          (0x17, byteOf (slotOf s n).prod 3)] } ∧
        t = { s with slots := { s.slots with latch := t.slots.latch },
                     port := { s.port with ack := true, data := t.port.data, ptr := s.port.ptr + 1 } }) ∧
      (WindowAt s (0x240000 + 0x40 * n + 0x1B) → (slotOf s n).isOpen = true → (slotOf s n).stagedCons.length = 3 → ∀ v : Byte,
        let new := leNat ((slotOf s n).stagedCons ++ [v])
        let frees := ((slotOf s n).prod + 2 ^ 32 - new) % 2 ^ 32 ≤ ringWritten (slotOf s n) ∧ new % 8 = 0
        ∃ t, exec (.slotConsWrite v) s = .next t ∧ (frees → (slotOf t n).cons = new ∧ (slotOf t n).consFaults = (slotOf s n).consFaults) ∧
          (¬ frees → (slotOf t n).cons = (slotOf s n).cons ∧ (slotOf t n).consFaults = min 65535 ((slotOf s n).consFaults + 1)) ∧
          (∀ m, m ≠ n → slotOf t m = slotOf s m) ∧
          t = { s with slots := { s.slots with slots := t.slots.slots }, port := { s.port with ack := true, ptr := s.port.ptr + 1 } })) ∧
  (∀ (s : State) (p : Nat) (v : Byte), p < 2 → WindowAt s (0x260000 + 0x400 * p + 0x19) →
      let x := sapOf s p
      let new := x.stagedCapCons.toNat + 256 * v.toNat
      let freed := (new + 65536 - x.capCons) % 65536
      ∃ t, exec (.capConsWrite v) s = .next t ∧
        (freed ≤ capQueued x → (sapOf t p).capCons = new ∧ (sapOf t p).capFaults = x.capFaults) ∧
        (capQueued x < freed → (sapOf t p).capCons = x.capCons ∧ (sapOf t p).capFaults = min (2 ^ 32 - 1) (x.capFaults + 1)) ∧
        (∀ q, q ≠ p → sapOf t q = sapOf s q) ∧ t = { s with saps := t.saps, port := { s.port with ack := true, ptr := s.port.ptr + 1 } })

/-! The rings and the books (chapter 4) -/

/-- R78, R80, Table 4-5: a doorbell for no more commands than there are credits is accepted whole: CQ_PROD takes the index, the k credits become
k fetched commands with the next issue sequences, and CQ_CONS passes over them; one for more is refused whole with RING_FAULT and changes
nothing else. Of memory only the two rings can change, and outside the port, the rings and the scrub's record nothing does. -/
def Obligations.DoorbellIsAcceptedWhole : Prop :=
  ∀ (s : State) (v : Byte), PortLive s → s.rings.cqCons < 512 → s.rings.ccProd < 512 →
    let idx := v.toNat % 2 * 256 + s.port.stagedCqProdL.toNat
    let k := (idx + 512 - s.rings.cqProd) % 512
    (k ≤ s.rings.credits → ∃ t, exec (.doorbell v) s = .next t ∧ t.rings.cqProd = idx ∧ t.rings.credits = s.rings.credits - k ∧
      t.rings.cqCons = (s.rings.cqCons + k) % 512 ∧ t.rings.nextSeq = s.rings.nextSeq + k ∧ t.rings.ccCons = s.rings.ccCons ∧
      t.rings.inflight.length + t.rings.unread = s.rings.inflight.length + s.rings.unread + k ∧
      (∀ a, a < 0x1F8000 ∨ 0x1FE000 ≤ a → memGet t a = memGet s a) ∧
      t = { s with rings := t.rings, mem := t.mem, scrub := t.scrub, port := { s.port with ack := true, irqStat0 := t.port.irqStat0 } }) ∧
    (s.rings.credits < k → exec (.doorbell v) s = .next { s with port := { s.port with ack := true, irqStat0 := s.port.irqStat0 ||| 0x02 } })

/-- R90: CC_CONS_L is staged; the write of CC_CONS_H turns the m unread completions up to the new index into m credits in one step; when m exceeds
the unread count the write is ignored, CC_CONS keeps its index and RING_FAULT is set.
R93: a write of any value to BOOKS_SNAP latches the three counts at one instant; where the books balance the latched counts sum to 512. -/
def Obligations.FreedCompletionsBecomeCredits : Prop :=
  (∀ (s : State) (v : Byte), PortLive s →
      exec (.registerWrite 0x14 v) s = .next { s with port := { s.port with ack := true, stagedCcConsL := v } } ∧
      let idx := v.toNat % 2 * 256 + s.port.stagedCcConsL.toNat
      let m := (idx + 512 - s.rings.ccCons) % 512
      (m ≤ s.rings.unread → exec (.ccConsHWrite v) s = .next { s with
        rings := { s.rings with ccCons := idx, credits := s.rings.credits + m, unread := s.rings.unread - m },
        port := { s.port with ack := true } }) ∧
      (s.rings.unread < m → exec (.ccConsHWrite v) s = .next { s with
        port := { s.port with ack := true, irqStat0 := s.port.irqStat0 ||| 0x02 } })) ∧
  (∀ (s : State) (v : Byte), PortLive s → ∃ t, exec (.booksSnap v) s = .next t ∧
      t = { s with port := { s.port with ack := true, snapCredit := s.rings.credits, snapFlight := s.rings.inflight.length,
                                         snapUnread := s.rings.unread } } ∧
      (BooksBalance s → t.port.snapCredit + t.port.snapFlight + t.port.snapUnread = 512))

/-- R89, R91, Tables 4-5 and 4-10: completing a command in flight writes its 16-byte entry at CC_PROD, takes it out of flight, and sets CMD_DONE where
the descriptor asks to be notified or the status is 0x10 or above; credits stand, and each command that leaves flight is one more unread
completion. Memory outside the completion ring reads as before, and outside the port's IRQ_STAT0, the rings and the scrub's record nothing changes. -/
def Obligations.CompletionsArePosted : Prop :=
  ∀ (s : State) (c : Cmd) (status : Nat) (result : List Byte), findCmd s c.seq = some c → c.desc.length = 32 → MemoryOk s →
    s.rings.ccProd < 512 → s.rings.inflight.length ≤ 512 →
    ∃ t, complete c.seq status result s = t ∧ RingFrame s t ∧
      (∀ i, i < 16 → memGet t (0x1FC000 + 16 * s.rings.ccProd + i) = (entryBytes c status result).getD i 0) ∧
      (∀ a, a < 0x1FC000 ∨ 0x1FE000 ≤ a → memGet t a = memGet s a) ∧
      t.rings.credits = s.rings.credits ∧ s.rings.unread < t.rings.unread ∧
      t.rings.inflight.length + t.rings.unread = s.rings.inflight.length + s.rings.unread ∧
      ((cmdNotify c = true ∨ 0x10 ≤ status) → s.power.phase = .ready → t.port.irqStat0.getLsbD 0 = true)

/-- R81, R88, R6, for the ring commands but TUNE, at their first two checks: one that may start and names an object of a kind that no opcode accepts
completes with BAD_OBJECT, and one with a reserved bit of FLAGS with BAD_FIELD and the offset 3; but for a cellar write whose place in the order
has come (R87) nothing else changes. -/
def Obligations.FirstFailureIsReported : Prop :=
  ∀ (s : State) (seq : Nat) (c : Cmd) (m : Int) (e : Nat) (i : Instr) (obj : Nat), (i, cmdOp c, obj) ∈ ringRows seq m e →
    startable s seq (cmdOp c) = some c →
    (cmdKind c = 15 → exec i s = .next (rowEnd i (complete seq 0x11 [] s))) ∧
    (cmdObj c = obj → 8 ≤ cmdFlags c → exec i s = .next (rowEnd i (complete seq 0x12 [3] s)))

/-- R79, R84, R85, R86: a ring row whose command is not in flight, or may not start yet (an earlier command names its object, the ordering class
ALL has earlier commands, or a BARRIER with HOLD stands before it), changes nothing, but for a cellar write whose place in the order has come
(R87). -/
def Obligations.HeldCommandsDoNotStart : Prop :=
  ∀ (s : State) (seq : Nat) (m : Int) (e op obj : Nat) (i : Instr), (i, op, obj) ∈ ringRows seq m e →
    (findCmd s seq = none ∨ s.power.phase ≠ .ready ∨
      (op ≠ 0x02 ∧ ∃ c, findCmd s seq = some c ∧ cmdObj c ≠ 0 ∧ ∃ b, b ∈ earlier s.rings.inflight seq ∧ cmdObj b = cmdObj c) ∨
      (op ≠ 0x02 ∧ ∃ c, findCmd s seq = some c ∧ cmdOrder c = 2 ∧ earlier s.rings.inflight seq ≠ []) ∨
      (op ≠ 0x02 ∧ ∃ b, b ∈ earlier s.rings.inflight seq ∧ cmdOp b = 0x01 ∧ b.phase = .waiting ∧ bit (par b 8) 0 = true)) →
    exec i s = .next (rowEnd i s)

/-! Modes, supplies and resets (chapters 2 and 6) -/

/-- R121: a MODE_REQ write acts only while READY is 1; a write of 0 or 7 leaves MODE_REQ; a write of the code in MODE_NOW with no change under way
starts nothing and sets no interrupt.
R122, R123, R126, R127: a code written while a change is under way waits, the last one written; PARKED is refused with MODE_ERR 1 and
MODE_EVENT while the oscillator stands; a request for LISTEN, FOLLOW, PLAY or SERVICE is accepted, MODE_NOW standing. -/
def Obligations.ModeRequests : Prop :=
  (∀ (s : State) (v : Byte),
      (s.power.phase ≠ .ready → ∃ a, exec (.modeReq v) s = .next { s with port := { s.port with ack := a } }) ∧
      (PortLive s → (v.toNat % 8 = 0 ∨ v.toNat % 8 = 7) → exec (.modeReq v) s = .next { s with port := { s.port with ack := true } }) ∧
      (PortLive s → v.toNat % 8 ≠ 0 → v.toNat % 8 ≠ 7 → v.toNat % 8 = s.modes.modeNow → s.modes.target = none →
        exec (.modeReq v) s = .next { s with modes := { s.modes with modeReq := v.toNat % 8 }, port := { s.port with ack := true } })) ∧
  (∀ (s : State) (v : Byte) (m : Nat), PortLive s → v.toNat % 8 = m → 1 ≤ m → m ≤ 6 →
      (∀ x, s.modes.target = some x → exec (.modeReq v) s = .next
        { s with modes := { s.modes with modeReq := m, queued := some m }, port := { s.port with ack := true } }) ∧
      (s.modes.target = none → m = 1 → s.modes.modeNow ≠ 1 → s.modes.x32Ok = false → exec (.modeReq v) s = .next
        { s with modes := { s.modes with modeReq := 1, modeErr := 1 },
                 port := { s.port with ack := true, irqStat0 := s.port.irqStat0 ||| 0x04 } }) ∧
      (s.modes.target = none → 3 ≤ m → m ≠ s.modes.modeNow → ∃ t, exec (.modeReq v) s = .next t ∧
        t.modes = { s.modes with modeReq := m, target := some m, modeErr := 0 }))

/-- R96, R118, R122, Table 6-1: while the CPLL starts, a change stands. Otherwise the commands that the target does not run and that have started are
asked to stop; a change that step 2 then still holds (a command not at its stopping point, a port running outside PLAY) stands, and one between the
modes above KEEPTIME ends with MODE_NOW at the target, no change under way, both shed levels 0 and MODE_EVENT set. -/
def Obligations.ModeChangeArrives : Prop :=
  ∀ (s : State) (m : Nat), s.power.phase = .ready → s.modes.target = some m → 3 ≤ m → m ≤ 6 → 3 ≤ s.modes.modeNow → s.modes.queued = none →
    (cpllStarting s = true → exec .modeChangeComplete s = .next s) ∧
    (cpllStarting s = false → changeWaits m (stopUnrun m s) = true → exec .modeChangeComplete s = .next (stopUnrun m s)) ∧
    (cpllStarting s = false → changeWaits m (stopUnrun m s) = false → ∃ t, exec .modeChangeComplete s = .next t ∧ t.modes.modeNow = m ∧
      t.modes.target = none ∧ t.modes.modeReq = s.modes.modeReq ∧ t.fabric.shedLevelL = 0 ∧ t.fabric.shedLevelV = 0 ∧
      t.port.irqStat0.getLsbD 2 = true)

/-- R37, R40, R44, R46, R52, Tables 2-2 and 2-5: the supply and presence rows that only change their own bits: VIO, VIN, PRES_N, PF_CTRL, PF_PENDING with
PF_WARN, and HOLD_OK. Nothing else of the state changes. -/
def Obligations.SupplyEventsChangeTheirBits : Prop :=
  ∀ (s : State) (v : Byte),
    exec .vioLoss s = .next { s with power := { s.power with vioValid := false } } ∧
    exec .vioReturn s = .next { s with power := { s.power with vioValid := true } } ∧
    exec .presNMake s = .next { s with power := { s.power with present := true } } ∧
    exec .powerGoodFall s = .next { s with power := { s.power with vinGood := false, charging := false } } ∧
    (s.power.phase = .waiting → exec (.powerGood true) s = .next { s with power := { s.power with vinGood := true, charging := true } } ∧
      exec (.powerGood false) s = .next { s with power := { s.power with
        vinGood := true, charging := true, holdLow := true, pendingKind := .powerOn } }) ∧
    exec .pfPendingClear s = .next { s with power := { s.power with pfPending := false } } ∧
    (s.power.pfPending = true → exec .pfWarning s = .next s) ∧
    (s.power.pfPending = false → s.power.phase = .ready → exec .pfWarning s = .next
      { s with power := { s.power with pfPending := true }, port := { s.port with irqStat0 := s.port.irqStat0 ||| 0x08 } }) ∧
    (PortLive s → exec (.pfCtrlWrite v) s = .next { s with
      power := { s.power with decantOnVin := v.getLsbD 0, pfLevel := v.toNat / 2 % 4 }, port := { s.port with ack := true } }) ∧
    (s.power.holdLow = true → s.power.charging = true → s.power.phase = .ready → exec .holdOk s = .next
      { s with power := { s.power with holdLow := false }, port := { s.port with irqStat2 := s.port.irqStat2 ||| 0x02 } }) ∧
    (s.power.holdLow = false → exec .holdOk s = .next s)

/-- R45, R46, R97, R130, R437, Table 2-4: PRES_N breaking, or VIN failing or browning out while DECANT_ON_VIN is 1, starts a decant: the rings
empty without completions, the interrupt bits clear, MODE_NOW stands, and a dirty shadow array is being stored; a clean one with no store under way skips the step into the
decanted hold and counts in DECANT_SKIPS. With DECANT_ON_VIN at 0 the failing VIN starts none. -/
def Obligations.DecantStarts : Prop :=
  ∀ s : State, s.power.phase = .ready → s.cellar.write = none → s.cellar.store = none →
    let decants (t : State) : Prop := t.rings = {} ∧ t.port.irqStat0 = 0 ∧ t.port.irqStat1 = 0 ∧ t.port.irqStat2 = 0 ∧
      t.modes.modeNow = s.modes.modeNow ∧
      (s.cellar.dirty = true → t.power.phase = .decanting ∧ t.cellar.store.isSome = true ∧ t.fabric.vcore = 20) ∧
      (s.cellar.dirty = false → t.power.phase = .decantHold ∧ t.cellar.store = none ∧
        t.cellar.decantSkips = min 65535 (s.cellar.decantSkips + 1))
    (∃ t, exec .removal s = .next t ∧ decants t ∧ t.power.present = false) ∧
    (s.power.decantOnVin = true → (∃ t, exec .powerFail s = .next t ∧ decants t) ∧ ∃ t, exec .brownOut s = .next t ∧ decants t) ∧
    (s.power.decantOnVin = false → exec .powerFail s = .next s)

/-- R40, R47, R50, R51, R98, R131, R466: a brown-out while DECANT_ON_VIN is 0, a pin reset, an exhausted decant and the return after one: what
phase each leads to, which reset kind waits, and that the rings are empty after the two resets; that an exhausted decant leaves HOLD_LOW 1 is the
model's (log entry 80).
R452, R74, R97: a write of HP_CTRL applies WIN_EDGE and IRQ_POL; with 0xA in SOFT_RESET it then starts the soft reset, which keeps the two
bits, empties the rings with 512 credits, clears the interrupt registers and shows MODE_NOW 0 until READY; any other value applies the two
bits alone. -/
def Obligations.ResetsAndReturns : Prop :=
  (∀ (s : State) (kept : Bool),
      (s.power.phase = .ready → s.power.decantOnVin = false → ∃ t, exec .brownOut s = .next t ∧ t.power.phase = .waiting ∧
        t.power.pendingKind = .brownOut ∧ t.power.vinGood = false ∧ t.rings = {} ∧ t.cellar.store = none ∧ t.cellar.write = none) ∧
      (s.power.phase = .ready → ∃ t, exec .pinReset s = .next t ∧ t.power.phase = .pinHeld ∧ t.power.pendingKind = .pin ∧ t.rings = {} ∧
        t.mem = s.mem) ∧
      (s.power.phase = .decanting → exec .decantExhausted s = .next
        { s with cellar := { s.cellar with store := none }, fresh := s.fresh + 1,
                 power := { s.power with phase := .decantHold, decantBus := false, charging := s.power.vinGood, holdLow := true } }) ∧
      (s.power.phase = .decantHold → s.power.vinGood = true → s.power.present = true → exec (.decantReturn kept) s = .next
        { s with power := { s.power with phase := .waiting, pendingKind := if kept then .decantReturn else .powerOn, charging := true,
                                         holdLow := s.power.holdLow || !kept } })) ∧
  (∀ (s : State) (v : Byte), PortLive s →
      (v.toNat / 16 ≠ 0xA → exec (.softReset v) s = .next { s with port := { s.port with
        ack := true, winEdge := v.getLsbD 1, irqPol := v.getLsbD 0 } }) ∧
      (v.toNat / 16 = 0xA → ∃ t, exec (.softReset v) s = .next t ∧ t.power.phase = .softBoot ∧ t.port.winEdge = v.getLsbD 1 ∧
        t.port.irqPol = v.getLsbD 0 ∧ t.port.ack = true ∧ t.rings = {} ∧ t.port.irqStat0 = 0 ∧ t.port.irqStat1 = 0 ∧ t.port.irqStat2 = 0 ∧
        t.port.irqEn0 = 0 ∧ t.port.holdCqCons = none ∧ t.port.holdCcProd = none ∧ t.port.holdTemp = none ∧ t.modes.modeNow = 0 ∧
        t.power.savedMode = s.modes.modeNow ∧ t.power.pendingKind = .soft ∧ t.mem = s.mem))

/-- R97, R131 to R137, Table 6-4: with VIN good and PRES_N asserted a boot goes from waiting to READY with the cause of its kind, in LISTEN, with empty
rings and 512 credits; a soft reset's boot goes back to the mode it left, where that is LISTEN or above; without VIN none starts.
R135, R68: the scrub's next row reads 0x00 throughout and every byte of other rows stands; a row that an access scrubbed first keeps what was
written to it; after 8,064 rows SCRUBBING reads 0 and the row has no effect. -/
def Obligations.BootAndScrub : Prop :=
  (∀ (s : State) (m : BootMeas),
      (s.power.phase = .waiting → s.power.vinGood = true → s.power.present = true → s.power.pendingKind ≠ .soft →
        ∃ t, exec (.boot m) s = .next t ∧ t.power.phase = .ready ∧ t.port.resetCause = causeCode s.power.pendingKind ∧ t.modes.modeNow = 3 ∧
          t.rings = {} ∧ t.fabric.pace = paceUnits 20 m.temp m.pace ∧ t.fabric.vcore = 20 ∧ t.cellar.unlocked = 0) ∧
      (s.power.phase = .softBoot → 3 ≤ s.power.savedMode → ∃ t, exec (.boot m) s = .next t ∧ t.power.phase = .ready ∧ t.port.resetCause = 4 ∧
        t.modes.modeNow = s.power.savedMode ∧ t.rings = {} ∧ t.port.winEdge = s.port.winEdge ∧ t.port.irqPol = s.port.irqPol) ∧
      (s.power.phase = .waiting → s.power.vinGood = false → exec (.boot m) s = .next s)) ∧
  (∀ s : State, s.power.phase = .ready →
      (s.scrub.next < 8064 → s.scrub.early.contains s.scrub.next = false → MemoryOk s → ∃ t, exec .scrub s = .next t ∧
        t.scrub.next = s.scrub.next + 1 ∧ (∀ i, i < 256 → memGet t (scrubAddr s.scrub.next + i) = 0) ∧
        (∀ a, a < scrubAddr s.scrub.next ∨ scrubAddr s.scrub.next + 256 ≤ a → memGet t a = memGet s a) ∧
        t = { s with mem := t.mem, scrub := t.scrub }) ∧
      (s.scrub.next < 8064 → s.scrub.early.contains s.scrub.next = true → ∃ t, exec .scrub s = .next t ∧ t.scrub.next = s.scrub.next + 1 ∧
        t.mem = s.mem ∧ t = { s with scrub := t.scrub }) ∧
      (8064 ≤ s.scrub.next → exec .scrub s = .next s ∧ (hpStatus s).getLsbD 1 = false))

/-! The fabric (chapter 5) -/

/-- R103, R459, R467: outside PARKED, once 2^14 counts have passed since the last pace window's end, PACE takes the units completed, at most 255
and never fewer than the whole minimum of Table 22-5 at the window's lowest step code and its temperature, PACE_MIN the smaller of itself and PACE,
and the temperature is sampled; in PARKED the sample comes at each whole second of the counter. Nothing outside the fabric, the calibration block and
the interrupt bits changes, but for a draw that a mean between two units takes (log entry 5).
R205, R206: a sample that takes TEMP_AVG to THERM_LIMIT sets the thermal warning and THERM_WARN; path L, when its TEMP_AVG stands TEMP_DELTA from
T_CAL_PATH, has its CAL_DUE bit set with CAL_EVENT, and nearer than that keeps it 0. -/
def Obligations.TemperatureSamples : Prop :=
  (∀ (s : State) (units : Nat) (temp : Int), s.power.phase = .ready →
      (s.modes.modeNow ≠ 1 → s.fabric.windowStart + 2 ^ 14 ≤ s.clocks.sc → ∃ t, exec (.paceWindow units temp) s = .next t ∧
        t.fabric = { s.fabric with pace := t.fabric.pace, paceMin := min s.fabric.paceMin t.fabric.pace,
                                   windowStart := s.fabric.windowStart + 2 ^ 14, windowLow := s.fabric.vcore } ∧
        min 255 units ≤ t.fabric.pace ∧ t.fabric.pace ≤ 255 ∧
        (minPace s.fabric.windowLow temp = none → t.fabric.pace = min 255 units) ∧
        (∀ num den, minPace s.fabric.windowLow temp = some (num, den) → t.fabric.pace = min 255 (max units (num / den))) ∧
        t.cal.temp = satInt 2 temp ∧
        t = { s with fabric := t.fabric, cal := t.cal, fresh := t.fresh, port := { s.port with irqStat0 := t.port.irqStat0 } }) ∧
      (s.modes.modeNow = 1 ∨ s.clocks.sc < s.fabric.windowStart + 2 ^ 14 → exec (.paceWindow units temp) s = .next s) ∧
      (s.modes.modeNow = 1 → s.clocks.secondDone < s.clocks.sc / 2 ^ 24 → ∃ t, exec (.counterSecond temp) s = .next t ∧
        t.cal.temp = satInt 2 temp ∧ t.clocks.secondDone = s.clocks.sc / 2 ^ 24 ∧ t.fabric = s.fabric ∧
        t = { s with clocks := { s.clocks with secondDone := t.clocks.secondDone }, cal := t.cal, fresh := t.fresh,
                     port := { s.port with irqStat0 := t.port.irqStat0 } })) ∧
  (∀ (s : State) (units : Nat) (temp : Int), s.power.phase = .ready → s.modes.modeNow ≠ 1 → s.fabric.windowStart + 2 ^ 14 ≤ s.clocks.sc → ∃ t,
      exec (.paceWindow units temp) s = .next t ∧
      (s.cal.thermWarn = false → s.cal.thermSc = none → (8 * s.cal.thermLimit : Int) ≤ t.cal.tempAvg →
        t.cal.thermWarn = true ∧ t.port.irqStat0.getLsbD 7 = true) ∧
      (s.cal.calDue = 0 → 8 * s.cal.tempDelta ≤ (t.cal.tempAvg - s.pathL.cal.tCalPath).natAbs →
        bit t.cal.calDue 0 = true ∧ t.port.irqStat0.getLsbD 6 = true) ∧
      (s.cal.calDue = 0 → (t.cal.tempAvg - s.pathL.cal.tCalPath).natAbs < 8 * s.cal.tempDelta → bit t.cal.calDue 0 = false))

/-- R105, R106, R117: once 2^12 counts have passed since the last governor tick, one moves VCORE by the highest fills and PACE: down a step while it
stands above the ceiling in force, up four past half a FIFO, up one past a quarter or below the mode's pace floor, down one after 16 quiet ticks with
PACE eight above the floor, and not otherwise; no move passes the ceiling. CEIL_TICKS counts the ticks that end at the ceiling (log entry 34). While
the demand of what runs keeps the plan of R117 no fill passes half its FIFO. -/
def Obligations.GovernorMovesVcore : Prop :=
  ∀ (s : State) (fills : Fills), s.power.phase = .ready → 2 ≤ s.modes.modeNow → s.fabric.tickStart + 2 ^ 12 ≤ s.clocks.sc →
    let f := fillsOf s fills
    (planHolds s = true → fillOver f 4 = false) ∧ (planHolds s = false → f = fills) ∧ ∃ t, exec (.governorTick fills) s = .next t ∧
    (ceiling s < s.fabric.vcore → t.fabric.vcore = s.fabric.vcore - 1) ∧
    (s.fabric.vcore ≤ ceiling s → t.fabric.vcore ≤ ceiling s ∧
      (fillOver f 4 = true → t.fabric.vcore = min (ceiling s) (s.fabric.vcore + 4)) ∧
      (fillOver f 4 = false → (fillOver f 2 = true ∨ s.fabric.pace < paceFloor s.modes.modeNow) →
        t.fabric.vcore = min (ceiling s) (s.fabric.vcore + 1)) ∧
      (fillOver f 1 = false → 15 ≤ s.fabric.quietTicks → paceFloor s.modes.modeNow + 8 ≤ s.fabric.pace →
        t.fabric.vcore = s.fabric.vcore - 1) ∧
      (fillOver f 2 = false → paceFloor s.modes.modeNow ≤ s.fabric.pace →
        (fillOver f 1 = true ∨ s.fabric.quietTicks < 15 ∨ s.fabric.pace < paceFloor s.modes.modeNow + 8) →
        t.fabric.vcore = s.fabric.vcore)) ∧
    t.fabric.ceilTicks = min 65535 (s.fabric.ceilTicks + if t.fabric.vcore = ceiling s then 1 else 0) ∧
    t = { s with fabric := { s.fabric with vcore := t.fabric.vcore, ceilTicks := t.fabric.ceilTicks, quietTicks := t.fabric.quietTicks,
                                           windowLow := min s.fabric.windowLow t.fabric.vcore,
                                           tickStart := s.fabric.tickStart + 2 ^ 12,
                                           fillHwL := t.fabric.fillHwL, fillHwV := t.fabric.fillHwV } }

/-- R111, R112, R116, R117: at the ceiling, with path L's FIFO at three quarters and the plan of R117 broken, the first raise sheds the first lane
of the order and sets PACE_SHED; a lowering at a quarter resumes it. Below the threshold, and while the plan holds, a raise changes nothing.
R114, R116, R117, R120: a discarded run of a path that runs counts in PATH_DROPS, sets PACE_SHED, leaves FILL_HW at the FIFO's depth and touches the
block in progress of every running lane of the path with OVERRUN; other lanes stand. While the plan holds no FIFO is full. -/
def Obligations.SheddingAndDrops : Prop :=
  (∀ (s : State) (fill : Nat), s.power.phase = .ready →
      (planHolds s = true → exec (.shedRaise 0 fill) s = .next s) ∧
      (planHolds s = false → s.fabric.shedLevelL = 0 → 3 * 4096 ≤ 4 * fill → s.fabric.vcore = ceiling s → shedOrder s 0 ≠ [] → ∃ t,
        exec (.shedRaise 0 fill) s = .next t ∧ t.fabric.shedLevelL = 1 ∧ t.fabric.shedLevelV = s.fabric.shedLevelV ∧
        t.fabric.raiseWaitL = (shedOrder s 0).head? ∧ t.fabric.vcore = s.fabric.vcore ∧
        t.port.irqStat0 = s.port.irqStat0 ||| 0x10 ∧ t.lanes = s.lanes ∧
        t = { s with fabric := t.fabric, port := { s.port with irqStat0 := t.port.irqStat0 } }) ∧
      (4 * fill < 3 * 4096 → exec (.shedRaise 0 fill) s = .next s) ∧
      (s.fabric.shedLevelL = 1 → shedOrder s 0 ≠ [] → s.fabric.lowerWaitL = none → 4 * fill ≤ 4096 →
        exec (.shedLower 0 fill) s = .next { s with fabric := { s.fabric with shedLevelL := 0, lowerWaitL := (shedOrder s 0).head? } }) ∧
      (4096 < 4 * fill → exec (.shedLower 0 fill) s = .next s)) ∧
  (∀ (s : State) (p : Nat), s.power.phase = .ready → p < 2 → (pathOf s p).fe.state ≠ .off →
      (planHolds s = true → exec (.pathDrops p) s = .next s) ∧
      (planHolds s = false → ∃ t, exec (.pathDrops p) s = .next t ∧
        t.fabric = { s.fabric with pathDrops := min (2 ^ 32 - 1) (s.fabric.pathDrops + 1), fillHwL := t.fabric.fillHwL,
                                   fillHwV := t.fabric.fillHwV } ∧
        (p = 0 → t.fabric.fillHwL = min 65535 (max s.fabric.fillHwL 4096) ∧ t.fabric.fillHwV = s.fabric.fillHwV) ∧
        (p = 1 → t.fabric.fillHwV = min 65535 (max s.fabric.fillHwV 16384) ∧ t.fabric.fillHwL = s.fabric.fillHwL) ∧
        t.port.irqStat0 = s.port.irqStat0 ||| 0x10 ∧
        (∀ n, (laneOf s n).running = true → (laneOf s n).path = p → (laneOf t n).touched = (laneOf s n).touched ||| 8) ∧
        (∀ n, (laneOf s n).running = false ∨ (laneOf s n).path ≠ p → laneOf t n = laneOf s n) ∧
        t = { s with fabric := t.fabric, lanes := t.lanes, port := { s.port with irqStat0 := t.port.irqStat0 } }))

/-! Clocks, paths and calibration (chapters 7 to 9) -/

/-- R127, R144, R163, R164: the oscillator's start hands it the counter while CK7 stands and starts the check of a locked CPLL; its stop holds a
counter that it drove and, in PARKED or KEEPTIME, makes LISTEN the target with MODE_ERR 4 and MODE_REQ 3; the check ends with REF_MISMATCH and
CLOCK_EVENT above 1,000 ppm and without either at or below it.
R126: in KEEPTIME a due listen starts the CPLL, sets its end at KT_LISTEN seconds on and the next one at the first multiple of KT_PERIOD past now;
at its end the lane and its path stop and the CPLL goes off again, with MODE_NOW as it was. -/
def Obligations.OscillatorAndKeeptime : Prop :=
  (∀ (s : State) (ppm : Nat),
      (s.clocks.locked = true → s.modes.x32Ok = false → exec .x32Start s = .next
        { s with modes := { s.modes with x32Ok := true }, clocks := { s.clocks with refCheck := true } }) ∧
      (s.clocks.locked = false → exec .x32Start s = .next
        { s with modes := { s.modes with x32Ok := true }, clocks := { s.clocks with scOnX32 := true } }) ∧
      (3 ≤ s.modes.modeNow → s.clocks.scOnX32 = false → exec .x32Stop s = .next
        { s with modes := { s.modes with x32Ok := false }, clocks := { s.clocks with refCheck := false } }) ∧
      (s.power.phase = .ready → (s.modes.modeNow = 1 ∨ s.modes.modeNow = 2) → s.modes.target = none → s.clocks.locked = false →
        s.clocks.scOnX32 = true → s.clocks.stage = .idle → exec .x32Stop s = .next
          { s with modes := { s.modes with x32Ok := false, target := some 3, modeErr := 4, modeReq := 3, ktEnd := none },
                   clocks := { s.clocks with refCheck := false, scHeld := true, scOnX32 := false, stage := .locking none none } }) ∧
      (s.clocks.refCheck = true → ppm ≤ 1000 → exec (.refCheck ppm) s = .next
        { s with clocks := { s.clocks with refMismatch := false, refCheck := false } }) ∧
      (s.clocks.refCheck = true → 1000 < ppm → s.power.phase = .ready → exec (.refCheck ppm) s = .next
        { s with clocks := { s.clocks with refMismatch := true, refCheck := false },
                 port := { s.port with irqStat0 := s.port.irqStat0 ||| 0x20 } }) ∧
      (s.clocks.refCheck = false → exec (.refCheck ppm) s = .next s)) ∧
  (∀ (s : State) (t : Nat),
      (s.power.phase = .ready → s.modes.modeNow = 2 → s.modes.target = none → s.modes.ktNext = some t → t ≤ s.clocks.sc → s.modes.ktEnd = none →
        s.clocks.stage = .idle → 0 < s.modes.ktPeriodUsed → ∃ k, s.clocks.sc < t + k * ktPeriodCounts s ∧
          t + k * ktPeriodCounts s ≤ s.clocks.sc + ktPeriodCounts s ∧
          exec .keeptimeListen s = .next { s with
            modes := { s.modes with ktNext := some (t + k * ktPeriodCounts s),
                                    ktEnd := some (s.clocks.sc + s.modes.ktListenUsed * 2 ^ 24) },
            clocks := { s.clocks with stage := .locking none none } }) ∧
      (s.modes.ktEnd = some t → s.clocks.sc < t → exec .ktListenEnd s = .next s) ∧
      (s.modes.ktEnd = some t → t ≤ s.clocks.sc → s.modes.target = none → (laneOf s s.modes.ktLaneUsed).unbind = false → ∃ u,
        exec .ktListenEnd s = .next u ∧ u.modes = { s.modes with ktEnd := none } ∧
        u.clocks = { s.clocks with locked := false, refCheck := false, stage := .idle } ∧
        (laneOf u s.modes.ktLaneUsed).running = false ∧ (pathOf u (laneOf s s.modes.ktLaneUsed).path).fe.state = .off ∧
        (pathOf u (laneOf s s.modes.ktLaneUsed).path).synth.locked = false))

/-- R153, R154, R168 to R176, R181: a TUNE of path L or V that passes its checks brings a path from OFF to STARTING at the chosen side's LO,
CENTRE plus or minus half RASTER, with START_RANGE and half the fine span; its synthesiser starts the first try of a lock, the fractional divider being
the nearest to LO times 2^k over f_PD in steps of 2^-24. -/
def Obligations.TuneStartsAPath : Prop :=
  ∀ (s : State) (seq side : Nat) (c : Cmd), MayRun s seq 0x10 c → Names c 2 → cmdIdx c < 2 → ZeroBytes c 16 31 → 3 ≤ s.modes.modeNow →
    s.modes.modeNow ≤ 6 → s.clocks.stage = .idle → s.clocks.locked = true → s.clocks.fault = false →
    covered (cmdIdx c) (parN c 8 4) = true → rasterOk (cmdIdx c) (parN c 12 3) = true → par c 15 < 16 → par c 15 % 4 ≠ 3 →
    widthOk (cmdIdx c) (par c 15 / 4) = true → chooseSide s (cmdIdx c) (parN c 8 4) (parN c 12 3) (par c 15 % 4) = some side →
    (pathOf s (cmdIdx c)).fe.state = .off → tableFor (pathOf s (cmdIdx c)).synth ≠ none →
    ∃ t, exec (.tune seq) s = .next t ∧ (
      let f := (pathOf t (cmdIdx c)).fe
      let x := (pathOf t (cmdIdx c)).synth
      let n := x.nInt * 2 ^ 24 + x.nFrac
      f.state = .starting ∧ f.tuned = true ∧ f.centreHz = parN c 8 4 ∧ f.rasterHz = parN c 12 3 ∧ f.loSideUsed = side ∧
      f.width = par c 15 / 4 ∧ f.loHz = (if side = 0 then parN c 8 4 + parN c 12 3 / 2 else parN c 8 4 - parN c 12 3 / 2) ∧
      f.gainRange = min f.set.startRange (rangeCount (cmdIdx c) - 1) ∧ f.gainFine = fineSpan (cmdIdx c) / 2 ∧
      x.locking = true ∧ x.locked = false ∧ x.tryPlace = 0 ∧ x.windows = 0 ∧
      2 * (pdHz s.clocks.ref * n) ≤ 2 * (f.loHz * 2 ^ x.divLog2) * 2 ^ 24 + pdHz s.clocks.ref ∧
      2 * (f.loHz * 2 ^ x.divLog2) * 2 ^ 24 < 2 * (pdHz s.clocks.ref * n) + pdHz s.clocks.ref)

/-- R147 to R151, Table 7-4: a TUNE of the CPLL that names another arrangement hands the counter to the oscillator and locks; with the lock it completes
with OK and the counter back on CK7; without one the arrangement before it is locked again, and when that fails too FAULT is set and the TUNE
completes with NO_LOCK 3. One that only sets an output's divider, delay and enable completes at once; of one with phase steps PHASE_PEND counts those
still to apply, and with the last it completes. Shown with the paths OFF, so that no synthesiser relocks and no lane runs. -/
def Obligations.CpllIsTuned : Prop :=
  ∀ (s : State), LinkQuiet s → s.pathL.fe.state = .off → s.pathV.fe.state = .off → s.lanes = [] → s.pathL.fe.blankFrom = none →
    s.pathV.fe.blankFrom = none → s.pathS.fe.blankFrom = none →
    (∀ seq c, MayRun s seq 0x10 c → Names c 3 → ZeroBytes c 19 31 → 3 ≤ s.modes.modeNow → s.modes.modeNow ≤ 6 → s.clocks.stage = .idle →
      (par c 8 = 1 → par c 9 < 5 → par c 10 < 3 → par c 11 < 2 → refAsked c ≠ s.clocks.ref → s.modes.x32Ok = true → anySapRuns s = false →
        refBusy s = false → exec (.tuneCpll seq) s = .next { runs s seq with clocks := { s.clocks with
          scOnX32 := true, ref := refAsked c, locked := false, refCheck := false, stage := .locking (some seq) (some s.clocks.ref) } }) ∧
      (par c 8 = 2 → 4 ≤ par c 12 → par c 12 ≤ 6 → par c 13 < 2 → 40 ≤ parN c 14 2 → parN c 14 2 ≤ 1023 → par c 16 < 64 →
        ckInUse s (par c 12) = false → exec (.tuneCpll seq) s = .next (complete seq 0x00
          [lowByte s.clocks.ref.freq, lowByte s.clocks.ref.mult, 0, 0]
          (modCk (runs s seq) (par c 12) fun x => { x with div := parN c 14 2, delay := par c 16, en := bit (par c 13) 0 })))) ∧
    (∀ seq prev c, findCmd s seq = some c → bit (par c 8) 2 = false → s.clocks.stage = .locking (some seq) prev →
      s.pathL.synth.locking = false → s.pathV.synth.locking = false → s.pathS.synth.locking = false →
      exec (.cpllLock true) s = .next (complete seq 0x00 [lowByte s.clocks.ref.freq, lowByte s.clocks.ref.mult, 0, 0] { s with
        clocks := { s.clocks with
          fault := false, locked := true, refCheck := s.modes.x32Ok, scOnX32 := false, scRem := 0, stage := .idle } })) ∧
    (∀ seq r, s.clocks.stage = .locking (some seq) (some r) →
      exec (.cpllLock false) s = .next { s with clocks := { s.clocks with ref := r, stage := .restoring (some seq) } }) ∧
    (∀ seq, s.clocks.stage = .restoring (some seq) → anySapRuns s = false → s.power.phase = .ready →
      exec (.cpllLock false) s = .next (complete seq 0x52 [3] { s with
        clocks := { s.clocks with fault := true, locked := false, stage := .idle },
        port := { s.port with irqStat0 := s.port.irqStat0 ||| 0x20 } })) ∧
    (∀ ck k c, runningOf s 0x10 0x3000 = some c → par c 12 = ck → (ckOf s ck).pend ≠ 0 → 0 < k → stopCause s c.seq = none → ∃ t,
      t = { s with clocks := t.clocks, saps := t.saps } ∧ t.clocks.ref = s.clocks.ref ∧
      (ckOf t ck).pend.natAbs = (ckOf s ck).pend.natAbs - k ∧
      (ckOf t ck).applied + (ckOf t ck).pend = (ckOf s ck).applied + (ckOf s ck).pend ∧
      ((ckOf s ck).pend.natAbs ≤ k →
        exec (.phaseStepsApplied ck k) s = .next (complete c.seq 0x00 (cpllResult t (ckOf t ck).applied) t)) ∧
      (k < (ckOf s ck).pend.natAbs → exec (.phaseStepsApplied ck k) s = .next t))

/-- R159 to R161, Table 8-4: the first window of a try is not compared; LOCK_RUN good windows in a row declare lock, at LOCK_LIMIT windows the next
band of the order 0, +1, -1, +2, -2 is tried, after the fifth the path goes to NO_LOCK and NO_LOCK_COUNT advances; a timed lock is declared by
its time; a lock lost counts in LOCK_LOST, sets CLOCK_EVENT and relocks from the band in use in RETUNE. -/
def Obligations.LocksGoByWindows : Prop :=
  ∀ (s : State) (p count : Nat), p < 2 → s.clocks.stage = .idle →
    ((pathOf s p).synth.locking = true → (pathOf s p).synth.timedMode = false → 0 < (pathOf s p).synth.run →
      ((pathOf s p).synth.windows = 0 → 1 < (pathOf s p).synth.limit → exec (.lockWindow p count) s = .next
        (modSynth s p fun y => { y with windows := 1, goodRun := 0 })) ∧
      (0 < (pathOf s p).synth.windows → windowGood (pathOf s p).synth count = true → (pathOf s p).synth.goodRun + 1 < (pathOf s p).synth.run →
        (pathOf s p).synth.windows + 1 < (pathOf s p).synth.limit → exec (.lockWindow p count) s = .next
          (modSynth s p fun y => { y with windows := y.windows + 1, goodRun := y.goodRun + 1 })) ∧
      (0 < (pathOf s p).synth.windows → windowGood (pathOf s p).synth count = true → (pathOf s p).synth.goodRun + 1 = (pathOf s p).synth.run →
        (pathOf s p).fe.state = .starting → (pathOf s p).fe.selPend = false → ∃ t, exec (.lockWindow p count) s = .next t ∧ (pathOf t p).synth.locked = true ∧
          (pathOf t p).synth.locking = false ∧ (pathOf t p).synth.bandTries = (pathOf s p).synth.tryPlace ∧
          (pathOf t p).synth.band = (pathOf s p).synth.band ∧ (pathOf t p).fe.state = .acquire ∧ (pathOf t p).cal.tRefSyn = s.cal.tempAvg) ∧
      (windowGood (pathOf s p).synth count = false → (pathOf s p).synth.limit ≤ (pathOf s p).synth.windows + 1 →
        2 ≤ (pathOf s p).synth.baseBand → (pathOf s p).synth.baseBand ≤ 253 → (pathOf s p).synth.tryPlace < 4 →
        exec (.lockWindow p count) s = .next (modSynth s p fun y => startTry (y.tryPlace + 1)
          ([y.baseBand, y.baseBand + 1, y.baseBand - 1, y.baseBand + 2, y.baseBand - 2].getD (y.tryPlace + 1) 0) y)) ∧
      (windowGood (pathOf s p).synth count = false → (pathOf s p).synth.limit ≤ (pathOf s p).synth.windows + 1 →
        (pathOf s p).synth.tryPlace = 4 → ∃ t, exec (.lockWindow p count) s = .next t ∧ (pathOf t p).fe.state = .noLock ∧
          (pathOf t p).synth.locking = false ∧ (pathOf t p).synth.locked = false ∧
          (pathOf t p).synth.noLockCount = min 65535 ((pathOf s p).synth.noLockCount + 1))) ∧
    ((pathOf s p).synth.locking = true → (pathOf s p).synth.timedMode = true → (pathOf s p).fe.state = .starting →
      (pathOf s p).fe.selPend = false → ∃ t,
      exec (.timedLock p) s = .next t ∧ (pathOf t p).synth.locked = true ∧ (pathOf t p).synth.timedLock = true ∧
      (pathOf t p).fe.state = .acquire) ∧
    ((pathOf s p).synth.locked = true → (pathOf s p).synth.timedLock = false → 2 ≤ (pathOf s p).synth.badRun → (pathOf s p).fe.state ≠ .cal →
      s.clocks.fault = false → tableFor (pathOf s p).synth ≠ none → s.power.phase = .ready → ∃ t, exec (.lockLost p) s = .next t ∧
        (pathOf t p).synth.lockLost = min 65535 ((pathOf s p).synth.lockLost + 1) ∧ (pathOf t p).synth.locked = false ∧
        (pathOf t p).synth.locking = true ∧ (pathOf t p).synth.band = (pathOf s p).synth.band ∧ (pathOf t p).fe.state = .retune ∧
        t.port.irqStat0.getLsbD 5 = true)

/-- R175, R177 to R183, R188, Table 8-4, of paths L and V: at the end of an AGC period, of as many samples as Table 8-5 gives, of a path in RUN the
offset loop has run over the samples, ADC_RMS is their level (its rounding free, log entry 85), the written fields come into force and, on AUTO, the
gain stands within AGC_HYST, moves by a quarter of the error and at most 12 dB outside it (a tie upward, log entry 87), goes to the next range at the
end of the fine span, and a range down with CLIP_EVENTS where more samples reach full scale than CLIP_LIMIT. A path that is OFF, starting,
calibrating or without lock, and a blanked one, take no step. The offset acquire of a path in RANGE brings it to RUN once the switch settle and the
acquire have been counted, and not before. -/
def Obligations.GainFollowsTheLevel : Prop :=
  ∀ (s : State) (p : Nat) (xs : List (Int × Int)) (count : Nat), p < 2 →
    let f := (pathOf s p).fe
    let m := dbLevel 8 (energy xs) (xs.length * adcScale p ^ 2) (runLoop p xs s)
    let clipped := (xs.filter (atFullScale p)).length
    let err := 8 * f.set.agcTarget - m.1
    let move := max (-24) (min 24 ((err + 2) / 4))
    ((f.state = .off ∨ f.state = .starting ∨ f.state = .cal ∨ f.state = .noLock ∨ blanked s p = true ∨ xs.length ≠ periodSamples p) →
      exec (.agcPeriod p xs) s = .next s) ∧
    (f.state = .run → blanked s p = false → clocksRun s = true → xs.length = periodSamples p → f.set.agcMode = 0 →
      (clipped ≤ f.set.clipLimit → err.natAbs ≤ 4 * f.set.agcHyst → exec (.agcPeriod p xs) s = .next
        (modFe m.2 p fun g => { g with used := g.set, adcRms := satInt 2 m.1 })) ∧
      (clipped ≤ f.set.clipLimit → 4 * f.set.agcHyst < err.natAbs → 0 < f.gainFine → f.gainFine < fineSpan p → ∃ t,
        exec (.agcPeriod p xs) s = .next t ∧ (pathOf t p).fe.state = .run ∧ (pathOf t p).fe.gainRange = f.gainRange ∧
        ((pathOf t p).fe.gainFine : Int) = max 0 (min (fineSpan p : Int) (f.gainFine + move))) ∧
      (clipped ≤ f.set.clipLimit → 4 * f.set.agcHyst < err.natAbs → 0 < err → f.gainFine = fineSpan p → f.lastRangeSc = none →
        f.gainRange + 1 < rangeCount p → ∃ t, exec (.agcPeriod p xs) s = .next t ∧ (pathOf t p).fe.state = .range ∧
          (pathOf t p).fe.gainRange = f.gainRange + 1 ∧ (pathOf t p).fe.lastRangeSc = some s.clocks.sc) ∧
      (f.set.clipLimit < clipped → 0 < f.gainRange → ∃ t, exec (.agcPeriod p xs) s = .next t ∧
        (pathOf t p).fe.state = .range ∧ (pathOf t p).fe.gainRange = f.gainRange - 1 ∧
        (pathOf t p).fe.clipEvents = min (2 ^ 32 - 1) (f.clipEvents + 1))) ∧
    (f.state = .range → blanked s p = false → clocksRun s = true →
      (settleSamples p + 2 ^ (f.used.dcKAcq + 3) ≤ count → ∃ t, exec (.offsetAcquire p count) s = .next t ∧
        (pathOf t p).fe = { f with state := .run, stateSamples := 0, blankedSamples := blankedNow s p f, blankFrom := none }) ∧
      (count < settleSamples p + 2 ^ (f.used.dcKAcq + 3) → exec (.offsetAcquire p count) s = .next s)) ∧
    (blanked s p = true → exec (.offsetAcquire p count) s = .next s)

/-- R185, R186, R188, R225: BLANK_IN blanks paths L and V at once: an interval more, the running lanes of both touched with BLANK, and the run of
replaced samples of a path that is not OFF begins; at its end, when no transmission blanks them too, each path counts the ADC samples of the run, and
the blocks in progress are touched again. -/
def Obligations.BlankInCoversBothPaths : Prop :=
  ∀ s : State, s.link.txBlank = false → tuneOf s 0 = none → tuneOf s 1 = none →
    (s.power.phase = .ready → s.power.vioValid = true → s.link.pinBlank = false → s.pathL.fe.blankFrom = none → s.pathV.fe.blankFrom = none →
      ∃ t, exec .blankInRise s = .next t ∧
      t.link = { s.link with pinBlank := true } ∧
      (∀ p, p < 2 → (pathOf t p).fe = { (pathOf s p).fe with
        blankIntervals := min (2 ^ 32 - 1) ((pathOf s p).fe.blankIntervals + 1),
        blankFrom := if (pathOf s p).fe.state ≠ .off ∧ clocksRun s = true then some s.clocks.sc else none }) ∧
      (∀ n, (laneOf s n).running = true → (laneOf s n).path < 2 → (laneOf t n).touched = (laneOf s n).touched ||| 1) ∧
      (∀ n, (laneOf s n).running = false ∨ 2 ≤ (laneOf s n).path → laneOf t n = laneOf s n) ∧
      t = { s with link := t.link, lanes := t.lanes, pathL := { s.pathL with fe := t.pathL.fe }, pathV := { s.pathV with fe := t.pathV.fe } }) ∧
    (∀ b c, s.link.pinBlank = true → s.pathL.fe.blankFrom = some b → s.pathV.fe.blankFrom = some c → ∃ t,
      exec .blankInEnd s = .next t ∧ t.link = { s.link with pinBlank := false } ∧
      t.pathL.fe = { s.pathL.fe with
        blankFrom := none, blankedSamples := min (2 ^ 32 - 1) (s.pathL.fe.blankedSamples + (s.clocks.sc - b) * 3072000 / 2 ^ 24) } ∧
      t.pathV.fe = { s.pathV.fe with
        blankFrom := none, blankedSamples := min (2 ^ 32 - 1) (s.pathV.fe.blankedSamples + (s.clocks.sc - c) * 30720000 / 2 ^ 24) } ∧
      (∀ n, (laneOf s n).running = true → (laneOf s n).path < 2 → (laneOf t n).touched = (laneOf s n).touched ||| 1) ∧
      t = { s with link := t.link, lanes := t.lanes, pathL := { s.pathL with fe := t.pathL.fe }, pathV := { s.pathV with fe := t.pathV.fe } })

/-- R156, R190 to R200, R202, R203, R209, Tables 9-1 and 9-7: a CAL_RUN takes its object, a path going to CAL, once the object is free, and waits without an effect
before that; an item writes its fields with its CAL_VALID bit; the last one completes the command with TYPE, what was written and TEMP_AVG; an
item without convergence completes it with CAL_FAIL (its bit number free for the oscillator, log entry 37); a recalibration of a synthesiser takes
the band found and TEMP_AVG. -/
def Obligations.CalibrationsRun : Prop :=
  ∀ s : State, LinkQuiet s → s.taste.tastings = [] →
    (∀ seq c, MayRun s seq 0x30 c → 3 ≤ s.modes.modeNow → s.modes.modeNow ≤ 6 → par c 9 < 4 → ZeroBytes c 10 31 →
      (Names c 3 → par c 8 = 0x10 → exec (.calRun seq) s = .next { runs s seq with cal := { s.cal with
        x32Job := some { seq := seq, typ := 0x10, items := [(8, 0)], written := 0, store := bit (par c 9) 1 } } }) ∧
      (Names c 2 → 1 ≤ par c 8 → par c 8 ≤ 6 → pathWaits s (cmdIdx c) (bit (par c 9) 0) = true → exec (.calRun seq) s = .next s) ∧
      (Names c 2 → cmdIdx c < 2 → 1 ≤ par c 8 → par c 8 ≤ 6 → pathWaits s (cmdIdx c) (bit (par c 9) 0) = false → ∃ t,
        exec (.calRun seq) s = .next t ∧ (pathOf t (cmdIdx c)).fe.state = .cal ∧ (pathOf t (cmdIdx c)).cal.lastType = par c 8 ∧
        (pathOf t (cmdIdx c)).job = some { seq := seq, typ := par c 8, items := calItems (par c 8) (cmdIdx c), written := 0,
                                            store := bit (par c 9) 1 }) ∧
      (Names c 7 → par c 8 = 0x20 → linkWaits s = false → ∃ t, exec (.calRun seq) s = .next t ∧ t.pathS.cal.lastType = 0x20 ∧
        t.cal = { s.cal with linkJob := some { seq := seq, typ := 0x20, items := [(4, 0)], written := 0, store := bit (par c 9) 1 } })) ∧
    (∀ job m, s.cal.x32Job = some job → job.typ = 0x10 → job.items = [(8, 0)] → job.store = false →
      (m.converged = true → stopCause s job.seq = none → exec (.calItemEnd 3 m) s = .next (complete job.seq 0x00
        ([0x10, lowByte job.written] ++ tempBytes s ++ [0])
        { s with cal := { s.cal with x32Err := satInt 2 m.x, x32Temp := s.cal.tempAvg, x32Job := none } })) ∧
      (m.converged = false → ∃ b, exec (.calItemEnd 3 m) s = .next (complete job.seq 0x50
        ([0x10, b, 0, lowByte m.reason] ++ tempBytes s) { s with fresh := s.fresh + 1, cal := { s.cal with x32Job := none } }))) ∧
    (∀ p job i rest m, p < 2 → (pathOf s p).job = some job → job.items = (0, i) :: rest → rest ≠ [] → job.typ = 0x01 → m.converged = true →
      blanked s p = false → stopCause s job.seq = none → ∃ t, exec (.calItemEnd p m) s = .next t ∧
        tabGet (0, 0) (pathOf t p).cal.offsetTrim i = (satInt 2 m.x, satInt 2 m.y) ∧
        (pathOf t p).cal.valid = (pathOf s p).cal.valid ||| 1 ∧ (pathOf t p).cal.field = (pathOf s p).cal.field ||| 1 ∧
        (pathOf t p).job = some { job with items := rest, written := job.written ||| 1 } ∧ (pathOf t p).fe = (pathOf s p).fe) ∧
    (∀ p b, p < 3 → b < 256 → recalRuns s p = true → ∃ t, exec (.synRecal p (some b)) s = .next t ∧ (pathOf t p).synth.band = b ∧
      (pathOf t p).cal.tRefSyn = s.cal.tempAvg ∧ (pathOf t p).cal.synRecals = min 65535 ((pathOf s p).cal.synRecals + 1) ∧
      (pathOf t p).synth.btFallback = !tableValid (pathOf s p).synth.table ∧
      t = { s with pathL := t.pathL, pathV := t.pathV, pathS := t.pathS, lanes := t.lanes })

/-- R207, R208, R459, Table 9-5: a SELFTEST of the device or the cellar runs without a change, one of a FREE lane takes the lane, one of a bound lane is refused with
STATE; its end counts in TEST_RUNS, and a failure in TEST_FAILS with its fault, and completes it with the unit's bytes. A CELLAR test fails where a
record's CRC or a shadow bank is bad (what it counts: log entry 92), and outside PARKED a FABRIC test just where PACE is below the minimum of
Table 22-5 at VCORE and TEMP. -/
def Obligations.SelfTestsReport : Prop :=
  ∀ (s : State) (seq : Nat) (c : Cmd) (m : TestMeas),
    (MayRun s seq 0x31 c → 3 ≤ s.modes.modeNow → s.modes.modeNow ≤ 6 → par c 9 < 4 → ZeroBytes c 10 31 →
      (Names c 0 → 1 ≤ par c 8 → par c 8 ≤ 3 → exec (.selftest seq) s = .next (runs s seq)) ∧
      (Names c 11 → par c 8 = 0x30 → exec (.selftest seq) s = .next (runs s seq)) ∧
      (Names c 1 → par c 8 = 0x10 → (laneOf s (cmdIdx c)).hold = .free →
        exec (.selftest seq) s = .next (modLane (runs s seq) (cmdIdx c) fun x => { x with hold := .test })) ∧
      (Names c 1 → par c 8 = 0x10 → (laneOf s (cmdIdx c)).hold = .host → exec (.selftest seq) s = .next (complete seq 0x17 [1] s))) ∧
    (findCmd s seq = some c → cmdOp c = 0x31 → c.phase = .running →
      (cmdKind c = 0 → par c 8 ≠ 3 ∨ s.modes.modeNow = 1 → m.pass = true → exec (.selftestEnd seq m) s = .next (complete seq 0x00
        ([lowByte (par c 8), lowByte m.units, 0, 0] ++ leBytes m.signature 4)
        { s with cal := { s.cal with testRuns := min 65535 (s.cal.testRuns + 1), testFails := min 65535 s.cal.testFails } })) ∧
      (∀ num den, cmdKind c = 0 → par c 8 = 3 → s.modes.modeNow ≠ 1 → minPace s.fabric.vcore s.cal.temp = some (num, den) →
        (num ≤ den * s.fabric.pace → exec (.selftestEnd seq m) s = .next (complete seq 0x00
          ([3, lowByte m.units, 0, 0] ++ leBytes m.signature 4)
          { s with cal := { s.cal with testRuns := min 65535 (s.cal.testRuns + 1), testFails := min 65535 s.cal.testFails } })) ∧
        (den * s.fabric.pace < num → exec (.selftestEnd seq m) s = .next (complete seq 0x51
          ([3, lowByte m.unit, lowByte m.index, 6] ++ leBytes m.signature 4)
          { s with cal := { s.cal with testRuns := min 65535 (s.cal.testRuns + 1), testFails := min 65535 (s.cal.testFails + 1),
                                       lastTestFault := 6 } }))) ∧
      (cmdKind c = 0 → par c 8 ≠ 3 ∨ s.modes.modeNow = 1 → m.pass = false → exec (.selftestEnd seq m) s = .next (complete seq 0x51
        ([lowByte (par c 8), lowByte m.unit, lowByte m.index, lowByte m.fault] ++ leBytes m.signature 4)
        { s with cal := { s.cal with testRuns := min 65535 (s.cal.testRuns + 1), testFails := min 65535 (s.cal.testFails + 1),
                                     lastTestFault := m.fault % 256 } })) ∧
      (cmdKind c = 11 → badRecords s.cellar ≠ 0 → exec (.selftestEnd seq m) s = .next (complete seq 0x51
        ([lowByte (par c 8), lowByte m.unit, lowByte m.index, 5] ++ leBytes (badRecords s.cellar) 4)
        { s with cal := { s.cal with testRuns := min 65535 (s.cal.testRuns + 1), testFails := min 65535 (s.cal.testFails + 1),
                                     lastTestFault := 5 } })) ∧
      (cmdKind c = 1 → m.pass = true → ∃ t, exec (.selftestEnd seq m) s = .next t ∧ (laneOf t (cmdIdx c)).hold = .free))

/-! Lanes and engines (chapters 10 to 12) -/

/-- R83, R88, R213 to R216, R227 to R234, Tables 10-1, 10-8, 10-10, 10-11: LANE_BIND takes a FREE lane for the host with a pending generation
1 and answers it with the NCO word, ends the tasting of a lane that it takes from one, and refuses a bound one with STATE; for PATH 0xFF it frees a
lane, at its next block boundary while it delivers. LANE_SET and ENGINE_ATTACH put their fields into the pending set and answer its generation.
Other lanes stand, but one that an attach takes an engine from. (The NCO's phase at a bind and when its first block begins: log entry 95.) -/
def Obligations.LaneCommandsMakeTheNextGeneration : Prop :=
  ∀ (s : State) (seq : Nat) (c : Cmd), Names c 1 → 3 ≤ s.modes.modeNow → s.modes.modeNow ≤ 6 →
    let n := cmdIdx c
    let x := laneOf s n
    let g := if x.pending.isSome then x.genPending else nextGen (if x.synced.isSome then x.genPending else x.gen)
    let held := { s.modes with
      heldMask := s.modes.heldMask &&& ~~~(1#64 <<< n)
      listenHeld := if s.modes.heldMask.getLsbD n then s.modes.listenHeld - 1 else s.modes.listenHeld }
    (MayRun s seq 0x11 c → ZeroBytes c 14 31 → par c 13 < 8 →
      (par c 8 < 2 → freqOk s (par c 8) (parN c 9 4) = true → (laneRate (par c 8) (par c 13)).isSome = true →
        let word := ncoWordOf (par c 8) (parN c 9 4) (pathOf s (par c 8)).fe.loHz
        (s.taste.tastings = [] → x.hold = .free → (s.modes.modeNow = 3 → (runningHost s).length < 8) → ∃ phase wait fresh,
          exec (.laneBind seq) s = .next (complete seq 0x00 (leBytes 1 2 ++ leBytes word 4)
            { runs s seq with
              modes := held
              lanes := tabSet s.lanes n { keepStats x with
                hold := .host, path := par c 8, running := s.modes.modeNow != 6, genPending := 1,
                pending := some { freqHz := parN c 9 4, rate := par c 13 },
                ncoWord := word, chain := { phase := phase }, startAt := s.clocks.sc + wait }
              fresh := fresh })) ∧
        (∀ y, s.taste.tastings = [(n, y)] → x.hold = .tasting → s.modes.modeNow ≠ 3 → ∃ u,
          exec (.laneBind seq) s = .next (complete seq 0x00 (leBytes 1 2 ++ leBytes word 4) u) ∧ u.taste.tastings = [] ∧
          u.taste.leesTastings = min (2 ^ 32 - 1) (s.taste.leesTastings + 1) ∧ (laneOf u n).hold = .host ∧ (laneOf u n).genPending = 1 ∧
          (laneOf u n).pending = some { freqHz := parN c 9 4, rate := par c 13 } ∧ (∀ k, k ≠ n → laneOf u k = laneOf s k) ∧
          u = { runs s seq with lanes := u.lanes, taste := u.taste, slots := u.slots, analogue := u.analogue, lf := u.lf, drm := u.drm,
                                dab := u.dab, fabric := u.fabric, fresh := u.fresh, modes := held }) ∧
        (x.hold = .host → exec (.laneBind seq) s = .next (complete seq 0x17 [1] s))) ∧
      (par c 8 = 0xFF → x.hold = .free → exec (.laneBind seq) s = .next (complete seq 0x00 [] (runs s seq))) ∧
      (par c 8 = 0xFF → x.hold = .host →
        (delivering s n = true → x.idle = false →
          exec (.laneBind seq) s = .next (complete seq 0x00 [] (setLane (runs s seq) n { x with unbind := true }))) ∧
        ((delivering s n = false ∨ x.idle = true) → s.taste.follows = [] → ∃ u, exec (.laneBind seq) s = .next (complete seq 0x00 [] u) ∧
          (laneOf u n).hold = .free ∧ (laneOf u n).gen = 0 ∧ (laneOf u n).running = false ∧ (laneOf u n).blocks = x.blocks ∧
          (∀ k, k ≠ n → laneOf u k = laneOf s k) ∧
          u = { runs s seq with lanes := u.lanes, modes := held, fabric := u.fabric,
                                analogue := u.analogue, lf := u.lf, drm := u.drm, dab := u.dab, slots := u.slots }))) ∧
    (MayRun s seq 0x12 c → ZeroBytes c 25 31 → par c 9 < 2 → (setMask c 0 = true → freqOk s x.path (parN c 10 4) = true) →
      (setMask c 1 = true → (laneRate x.path (bits (par c 14) 2 0)).isSome = true) →
      (setMask c 1 = true ∨ setMask c 2 = true → bit (par c 14) 3 = false ∧ par c 14 < 64) →
      (setMask c 3 = true → bits (par c 15) 2 0 ≤ 4) →
      (setMask c 3 = true ∨ setMask c 4 = true ∨ setMask c 7 = true → bit (par c 15) 3 = false) → (setMask c 5 = true → par c 16 < 3) →
      (setMask c 6 = true → par c 18 % 16 ≤ 4 ∧ parI c 21 2 ≤ parI c 19 2) → x.hold = .host →
      settingAccepted x.path (setFields c (nextSet x)) = true → exec (.laneSet seq) s = .next (complete seq 0x00
        (leBytes g 2 ++ [if x.pending.isSome then 1 else 0])
        (setLane (runs s seq) n { x with pending := some (setFields c (nextSet x)), genPending := g }))) ∧
    (MayRun s seq 0x14 c → x.hold = .host → firstFail (checkParams s (some x.path) c) = none →
      settingAccepted x.path (withEngine c 0 (nextSet x)) = true →
      (par c 8 = 0 → exec (.engineAttach seq) s = .next (complete seq 0x00 ([0, 0, 0, 0] ++ leBytes g 2)
        (setLane (runs s seq) n { x with
          pending := some { nextSet x with engKind := 0, engIndex := 0, params := [] }, genPending := g, pendEngine := true }))) ∧
      (∀ i, 1 ≤ par c 8 → par c 8 ≤ 4 → pickEngine s (par c 8) (par c 9) = some i → i < engineCount (par c 8) →
        engineTaken s n (par c 8) i = false →
        let set := { nextSet x with engKind := par c 8, engIndex := i, params := c.desc.drop 10 }
        let u := setLane (runs s seq) n { x with pending := some set, genPending := g, pendEngine := true }
        ((∀ m y, engineHolder s (par c 8) i = some (m, y) → y.hold ≠ .tasting) → exec (.engineAttach seq) s = .next (complete seq 0x00
          ([lowByte (par c 8), lowByte i, 0, 0] ++ leBytes g 2)
          (if par c 8 = 4 then modLf u i fun d => { d with nextCopy := lfDesc s (par c 10) } else u))) ∧
        (∀ m y, par c 8 ≠ 4 → m ≠ n → engineHolder s (par c 8) i = some (m, y) → y.hold = .tasting →
          exec (.engineAttach seq) s = .next (complete seq 0x00 ([lowByte (par c 8), lowByte i, 1, 0] ++ leBytes g 2)
            (setLane (endTasting 4 m (runs s seq)) n { x with pending := some set, genPending := g, pendEngine := true })))))

/-- R235 to R237, Table 10-9: LANE_SYNC reaches the running host lanes of its path that its mask names, LANESYNC those of paths L and V with
SYNC_PIN_EN 1, each path at its own sample. The block in progress of each will end SHORT, and the set pending at that sample is the one that takes
effect there; a lane whose first block has not begun begins it with SYNC. Every other lane stands, and LANE_SYNC answers how many lanes it reached
and how many it passed by. While the part is not READY, or VIO is invalid, LANESYNC changes nothing. -/
def Obligations.SynchronisationReachesItsLanes : Prop :=
  ∀ s : State,
    let cut (stamp : Nat) (x : Lane) : Lane :=
      if x.shortNext then { x with syncStamp := stamp }
      else { x with shortNext := true, syncStamp := stamp, synced := x.pending.map fun p => (p, x.genPending, x.pendEngine),
                    pending := none, pendEngine := false }
    (∀ seq stamp c, MayRun s seq 0x13 c → Names c 2 → cmdIdx c < 2 → ZeroBytes c 16 31 → 3 ≤ s.modes.modeNow → s.modes.modeNow ≤ 5 →
      let reached (n : Nat) : Bool := bit (parN c 8 8) n && syncable s (cmdIdx c) n
      let answer : List Byte := [lowByte ((List.range 64).countP reached),
        lowByte ((List.range 64).countP fun n => bit (parN c 8 8) n && !syncable s (cmdIdx c) n)]
      ((∀ n, reached n = true → (laneOf s n).idle = false) → ∃ u, exec (.laneSync seq stamp) s = .next (complete seq 0x00 answer u) ∧
        u = { runs s seq with lanes := u.lanes } ∧
        ∀ n, n < 64 → laneOf u n = if reached n then cut stamp (laneOf s n) else laneOf s n) ∧
      (∀ n, n < 64 → parN c 8 8 = 2 ^ n → syncable s (cmdIdx c) n = true → (laneOf s n).idle = true → (laneOf s n).pending = none →
        (laneOf s n).shortNext = false → (laneOf s n).shed = false → (laneOf s n).cur.engKind < 2 → s.fabric.shedLevelL = 0 →
        s.fabric.shedLevelV = 0 → ∃ u, exec (.laneSync seq stamp) s = .next (complete seq 0x00 answer u) ∧
        u = { runs s seq with lanes := u.lanes, fabric := u.fabric } ∧
        laneOf u n = { laneOf s n with
          idle := false, touched := 0, causeEnd := [], syncNext := true, syncStamp := stamp, settling := settleCount (laneOf s n).cur,
          chain := { phase := BitVec.ofNat 32 ((laneOf s n).cur.ncoPhase0 * 2 ^ 16) } } ∧
        ∀ k, k ≠ n → laneOf u k = laneOf s k)) ∧
    (∀ stampL stampV, s.power.phase = .ready → s.power.vioValid = true →
      (∀ n p, p < 2 → syncable s p n = true → (laneOf s n).cur.syncPinEn = true → (laneOf s n).idle = false) → ∃ t,
      exec (.lanesync stampL stampV) s = .next t ∧ t = { s with lanes := t.lanes } ∧
      ∀ n, n < 64 → laneOf t n =
        (if syncable s 0 n && (laneOf s n).cur.syncPinEn then cut stampL (laneOf s n)
         else if syncable s 1 n && (laneOf s n).cur.syncPinEn then cut stampV (laneOf s n)
         else laneOf s n)) ∧
    (∀ stampL stampV, s.power.phase ≠ .ready ∨ s.power.vioValid = false → exec (.lanesync stampL stampV) s = .next s)

/-- R213, R215, R219 to R231, R237 to R240, Tables 10-7, 10-14: a block of a delivering lane, once the samples that make it have come, is what the
chain makes of them. It advances SEQ, BLOCKS and SETTLING and records its generation, flags, STAMP, length and levels; a blanked, calibrating or
untuned block carries its cause and is zero-filled, without levels but the envelope's. At the boundary a pending generation takes effect, a
synchronisation starts the next block, and an unbound lane becomes FREE. A lane that does not deliver completes no block. No other lane changes.
(Where a level or STAMP lies between two steps: log entries 85 and 94.) -/
def Obligations.BlocksAreRecorded : Prop :=
  ∀ (s : State) (n : Nat) (m : BlockMeas),
    let x := laneOf s n
    let coarse := x.cur.detSrc == 2 || (x.cur.detSrc == 0 && 0 < x.settling)
    let outs := (blockOutputs x m.samples).2
    let levels := outs.map fun o => if coarse then o.coarse else o.fine
    let delay := fineDelay2 x.path x.cur * 2 ^ 24
    let begun := beginFirst n s
    (laneTakes s n = false → exec (.laneBlock n m) s = .next s) ∧
    (x.idle = false → blockDue x m.samples.length = false → exec (.laneBlock n m) s = .next s) ∧
    (laneTakes s n = true → x.idle = true → laneTakes begun n = true → blockDue (laneOf begun n) m.samples.length = true →
      exec (.laneBlock n m) s = exec (.laneBlock n m) begun) ∧
    (laneTakes s n = true → x.hold = .host → x.idle = false → x.shed = false → blockDue x m.samples.length = true →
      s.fabric.shedLevelL = 0 → s.fabric.shedLevelV = 0 →
      x.cur.engKind = 0 → x.cur.thSrc = 0 → (∀ new, x.pending = some new → new.engKind = 0) → (∀ d, x.synced = some d → d.1.engKind = 0) →
      s.taste.tastings = [] → s.taste.follows = [] → ∃ t, exec (.laneBlock n m) s = .next t ∧ (∀ k, k ≠ n → laneOf t k = laneOf s k) ∧
      t = { s with lanes := t.lanes, fabric := t.fabric, slots := t.slots, fresh := t.fresh,
                   modes := { s.modes with heldMask := t.modes.heldMask, listenHeld := t.modes.listenHeld } } ∧
      (laneOf t n).last.gen = x.gen ∧ (laneOf t n).last.seq = x.seq ∧ (laneOf t n).last.len = outs.length ∧
      (∃ k, k ≤ 1 ∧ (delay % (2 * adcRate x.path) = 0 → k = 0) ∧
        (laneOf t n).last.stamp = ((m.firstSc + 2 ^ 64 - delay / (2 * adcRate x.path) % 2 ^ 64) % 2 ^ 64 + 2 ^ 64 - k) % 2 ^ 64) ∧
      (laneOf t n).blocks = min (2 ^ 32 - 1) (x.blocks + 1) ∧
      (x.touched = 0 → x.causeEnd = [] → s.link.txBlank = false → s.link.pinBlank = false → (pathOf s x.path).fe.state = .run →
        inWindow s x.path x.cur.freqHz = true →
        (laneOf t n).last.flags = 16 * flagNat (0 < x.settling) + 32 * flagNat coarse + 64 * flagNat x.shortNext + 128 * flagNat x.syncNext ∧
        (∃ w, (laneOf t n).last.peak = (peakOf levels w).1) ∧ (∃ w, (laneOf t n).last.rms = (rmsOf levels w).1) ∧
        (∃ w, (laneOf t n).last.env = (envOf (envRun x.cur x.chain.env levels) w).1) ∧
        (coarse = true → (laneOf t n).last.qual = -32768) ∧
        (coarse = false → ∃ w, (laneOf t n).last.qual = (qualOf x.cur.preset levels w).1)) ∧
      (s.link.txBlank = true ∨ s.link.pinBlank = true ∨ bit x.touched 0 = true → (laneOf t n).last.flags % 2 = 1) ∧
      ((pathOf s x.path).fe.state = .cal ∨ bit x.touched 1 = true → (laneOf t n).last.flags / 2 % 2 = 1) ∧
      (inWindow s x.path x.cur.freqHz = false ∨ bit x.touched 2 = true → (laneOf t n).last.flags / 4 % 2 = 1) ∧
      ((laneOf t n).last.flags % 16 ≠ 0 → (laneOf t n).last.peak = -32768 ∧ (laneOf t n).last.rms = -32768 ∧ (laneOf t n).last.qual = -32768) ∧
      (x.unbind = true → (laneOf t n).hold = .free ∧ (laneOf t n).gen = 0) ∧
      (x.unbind = false → (laneOf t n).hold = .host ∧ (laneOf t n).seq = (x.seq + 1) % 2 ^ 32) ∧
      (x.unbind = false → x.shortNext = true → (laneOf t n).syncNext = true ∧ (laneOf t n).shortNext = false ∧
        (laneOf t n).settling = settleCount (laneOf t n).cur ∧ (laneOf t n).pending = x.pending ∧
        ((laneOf t n).gen, (laneOf t n).cur) = match x.synced with
          | some d => (d.2.1, d.1)
          | none => (x.gen, x.cur)) ∧
      (x.unbind = false → x.pending = none → x.shortNext = false → (laneOf t n).settling = x.settling - 1 ∧ (laneOf t n).gen = x.gen ∧
        (laneOf t n).cur = x.cur) ∧
      (∀ new, x.unbind = false → x.shortNext = false → x.pending = some new →
        (laneOf t n).gen = x.genPending ∧ (laneOf t n).cur = new ∧ (laneOf t n).pending = none ∧
        (new.freqHz ≠ x.cur.freqHz → (laneOf t n).settling = settleCount new)))

/-- R250 to R254, R263 to R267: what the analogue units and LF decoders of a host lane take from their signals, with no slot open. An FM unit out of
block sync passes a group by until two neighbouring blocks without error give sync; a group of four such blocks in sync counts its blocks and itself,
and confirms a PI received twice. An LF decoder waits in IDLE, goes from SECONDS to MINUTE with its fifth edge in a row, collects symbols in FRAMES,
and at the closing mark counts a good frame, an erased one, or a minute lost by its length. No other unit or decoder changes. -/
def Obligations.NarrowEnginesTakeTheirSignals : Prop :=
  ∀ (s : State) (n : Nat), laneTakes s n = true → (laneOf s n).hold = .host → s.slots.slots = [] → s.taste.follows = [] →
    s.taste.tastings = [] →
    let x := (laneOf s n).cur
    let u := x.engIndex
    (∀ raw, x.engKind = 1 → (engPar x 10 = 3 ∨ engPar x 10 = 4) → bit (engPar x 12) 0 = true →
      let a := analogueOf s u
      let g := readGroup (laneOf s n) raw
      (a.rdsSync = false → rdsGainsSync a g = false → exec (.rdsGroup n raw) s =
        .next (modAnalogue s u fun a => { a with cleanEnd := if rdsClean g 3 then some g.endSc else none })) ∧
      ((laneOf s n).gaps = [] → raw.blocks.length = 4 → (∀ b ∈ raw.blocks, b.found = some b.raw) → raw.cPrime = false → raw.eBlocks = 0 →
        piExpect x = 0 → rdsBlock g 1 / 2048 ≠ 8 → a.piSeen = some (rdsBlock g 0) → ∃ t, exec (.rdsGroup n raw) s = .next t ∧
          (analogueOf t u).blocksGood = min (2 ^ 32 - 1) (a.blocksGood + 4) ∧
          (analogueOf t u).blocksBad = (if bit (engPar x 12) 1 then a.blocksBad else min (2 ^ 32 - 1) a.blocksBad) ∧
          (analogueOf t u).groupsOut = min (2 ^ 32 - 1) (a.groupsOut + 1) ∧ (analogueOf t u).pi = some (rdsBlock g 0) ∧
          (∀ k, k ≠ u → analogueOf t k = analogueOf s k) ∧ t = { s with analogue := t.analogue })) ∧
    (∀ m, x.engKind = 4 →
      let d := lfOf s u
      let second := lfSecondOf (laneOf s n) (engPar x 12) m d
      let sym := lfClass d.copy second
      let edge := (second.key.map (·.1)).getD second.start
      (d.state = 0 → exec (.lfSecond n m) s = .next s) ∧
      (∀ w e, d.state = 2 → d.edges = 4 → d.lastEdge = some e → (laneOf s n).gaps = [] → m.points ≠ [] →
        (lfKeyed d.copy (engPar x 12) (lfReference d) m).head? = some (e + 2 ^ 24, w) → ∃ t, exec (.lfSecond n m) s = .next t ∧
        t = { s with lf := t.lf, fresh := t.fresh } ∧ (∀ k, k ≠ u → lfOf t k = lfOf s k) ∧ (lfOf t u).state = 3 ∧ (lfOf t u).edges = 5 ∧
        (lfOf t u).lastEdge = some (e + 2 ^ 24) ∧ (lfOf t u).expected = e + 2 * 2 ^ 24 ∧ (lfOf t u).symbols = []) ∧
      (d.state = 4 → second.erased = false → lfIsMark d.copy d sym second.edgeErased = false → second.key.isSome = true ∨ d.empty < 9 →
        ∃ t, exec (.lfSecond n m) s = .next t ∧ t = { s with lf := t.lf, fresh := t.fresh } ∧ (∀ k, k ≠ u → lfOf t k = lfOf s k) ∧
        (lfOf t u).state = 4 ∧ (lfOf t u).symbols = (sym, false) :: d.symbols ∧ (lfOf t u).secondPos = min 255 d.symbols.length ∧
        (lfOf t u).framesOk = d.framesOk) ∧
      (d.state = 4 → second.erased = false → lfIsMark d.copy d sym second.edgeErased = true → ∃ t, exec (.lfSecond n m) s = .next t ∧
        (∀ k, k ≠ u → lfOf t k = lfOf s k) ∧ (lfOf t u).symbols = [(sym, false)] ∧ (lfOf t u).frameStart = edge ∧
        (∀ tm, d.symbols.length = 60 → lfRead s d.copy d.symbols.reverse = .ok tm → d.lastMinute = none → bit (engPar x 13) 0 = false →
          2 ≤ engPar x 11 → t = { s with lf := t.lf, fresh := t.fresh } ∧ (lfOf t u).framesOk = min (2 ^ 32 - 1) (d.framesOk + 1) ∧
          (lfOf t u).consec = 1 ∧ (lfOf t u).lastMinute = some (tm.minutes, if lfFlag d.copy 2 then d.frameStart else edge) ∧
          (lfOf t u).leapNext = tm.leap) ∧
        (d.symbols.length = 60 → lfRead s d.copy d.symbols.reverse = .error .erased → t = { s with lf := t.lf, fresh := t.fresh } ∧
          (lfOf t u).erasedFrames = min (2 ^ 32 - 1) (d.erasedFrames + 1) ∧ (lfOf t u).framesOk = d.framesOk ∧ (lfOf t u).consec = 0) ∧
        (d.symbols.length ≠ 60 → d.symbols.length ≠ 61 → t = { s with lf := t.lf, fresh := t.fresh } ∧
          (lfOf t u).minuteLosses = min 65535 (d.minuteLosses + 1) ∧ (lfOf t u).framesOk = d.framesOk ∧ (lfOf t u).consec = 0)))

/-- R275, R276, R280, R286, R287: what the DRM and DAB engines of a host lane take from their signals, with no slot open. A run of 2 s of erased blocks
returns an engine to its search once. A DRM frame with a good FAC takes the engine from FAC to SDC; frames without one end sync after SYNC_LOSS of them
in succession, but one with more than half its FAC cells erased counts neither way. A DAB frame with four good FIBs or more takes the engine from FIC
to RUN, and in RUN one without any is a failure. -/
def Obligations.WideEnginesTakeTheirSignals : Prop :=
  ∀ (s : State) (n : Nat), laneTakes s n = true → (laneOf s n).hold = .host → s.slots.slots = [] → s.taste.follows = [] →
    s.taste.tastings = [] →
    let x := (laneOf s n).cur
    let u := x.engIndex
    (x.engKind = 2 ∨ x.engKind = 3 →
      let e := engOf s x.engKind u
      (∀ t0, e.state ≠ 0 → e.erasedSince = some t0 → t0 + 2 * 2 ^ 24 ≤ s.clocks.sc → e.gapDone = false → ∃ t, exec (.gap n) s = .next t ∧
        (engOf t x.engKind u).state = 1 ∧ (engOf t x.engKind u).gapDone = true ∧ (engOf t x.engKind u).afcFrozen = false ∧
        (engOf t x.engKind u).gapResets = min (2 ^ 32 - 1) (e.gapResets + 1) ∧ t = { s with drm := t.drm, dab := t.dab, fresh := t.fresh }) ∧
      (e.erasedSince = none ∨ e.gapDone = true → exec (.gap n) s = .next s)) ∧
    (∀ fr, x.engKind = 2 → fr.sdc = none → fr.msc = [] → fr.residual = 0 → (drmOf s u).eng.residuals = [] →
      let d := drmOf s u
      (∀ f, (laneOf s n).gaps = [] → d.eng.state = 4 → d.nextStreams = none → fr.fac = some f → ∃ t, exec (.drmFrame n fr) s = .next t ∧
        t = { s with drm := t.drm } ∧ (∀ k, k ≠ u → drmOf t k = drmOf s k) ∧
        (drmOf t u).eng.state = 5 ∧ (drmOf t u).eng.afcFrozen = true ∧ (drmOf t u).eng.fails = 0 ∧ (drmOf t u).serviceCount = f.services ∧
        (drmOf t u).facOk = min (2 ^ 32 - 1) (d.facOk + 1) ∧ (drmOf t u).framesOk = min (2 ^ 32 - 1) (d.framesOk + 1)) ∧
      ((laneOf s n).gaps = [] → d.eng.state = 6 → fr.fac = none → d.eng.fails + 1 < syncLoss x → ∃ t, exec (.drmFrame n fr) s = .next t ∧
        t = { s with drm := t.drm } ∧ (drmOf t u).eng.state = 6 ∧ (drmOf t u).eng.fails = d.eng.fails + 1 ∧
        (drmOf t u).facBad = min (2 ^ 32 - 1) (d.facBad + 1) ∧ (drmOf t u).framesOk = d.framesOk) ∧
      ((laneOf s n).gaps = [] → d.eng.state = 6 → fr.fac = none → d.eng.fails + 1 = syncLoss x → ∃ t, exec (.drmFrame n fr) s = .next t ∧
        t = { s with drm := t.drm, fresh := t.fresh } ∧ (drmOf t u).eng.state = 1 ∧ (drmOf t u).eng.fails = 0 ∧
        (drmOf t u).eng.syncLosses = min (2 ^ 32 - 1) (d.eng.syncLosses + 1)) ∧
      (erasedIn (laneOf s n) fr.stamp (fr.stamp + frameCounts d.mode) = true → fr.facErased = true →
        d.eng.state = 6 → fr.fac = none → ∃ t, exec (.drmFrame n fr) s = .next t ∧ t = { s with drm := t.drm } ∧ (drmOf t u).eng.state = 6 ∧
        (drmOf t u).eng.fails = d.eng.fails ∧ (drmOf t u).facBad = d.facBad ∧ (drmOf t u).framesOk = d.framesOk)) ∧
    (∀ fr, x.engKind = 3 → fr.parts = [] → fr.residual = 0 → (dabOf s u).eng.residuals = [] → (laneOf s n).gaps = [] →
      let d := dabOf s u
      (∀ good, d.eng.state = 3 → d.change = 0 → 4 ≤ good → good ≤ 12 →
        fr.fibs = List.replicate good (true, []) ++ List.replicate (12 - good) (false, []) → ∃ t, exec (.dabFrame n fr) s = .next t ∧
        t = { s with dab := t.dab } ∧ (∀ k, k ≠ u → dabOf t k = dabOf s k) ∧
        (dabOf t u).eng.state = 4 ∧ (dabOf t u).eng.fails = 0 ∧ (dabOf t u).cif = (d.cif + 4) % 5000 ∧
        (dabOf t u).fibOk = min (2 ^ 32 - 1) (d.fibOk + good) ∧ (good = 12 → (dabOf t u).fibBad = d.fibBad)) ∧
      (d.eng.state = 4 → d.change = 0 → fr.fibs = List.replicate 12 (false, []) → d.eng.fails + 1 < syncLoss x → ∃ t,
        exec (.dabFrame n fr) s = .next t ∧ t = { s with dab := t.dab } ∧ (dabOf t u).eng.state = 4 ∧
        (dabOf t u).eng.fails = d.eng.fails + 1 ∧ (dabOf t u).fibBad = min (2 ^ 32 - 1) (d.fibBad + 12) ∧ (dabOf t u).fibOk = d.fibOk))

/-! Tasting and slots (chapters 13 and 14) -/

/-- R299, R312, R313, Tables 13-6, 13-9, in FOLLOW and PLAY: TASTE_ARM writes one entry for a lane that can be followed, clears one entry with the
tasting it has (shown with the one under way), and, shown with none under way, clears all entries or sets MAX_TASTE and MUST_CAP; TASTE_VIEW
with RELEASE releases every pin, and without it releases the earlier pins and describes and pins the must item of the one tasting asked for,
16 bytes an item at the address given. Each completes with its counts and changes nothing else. -/
def Obligations.TasteCommandsArmAndView : Prop :=
  ∀ (s : State) (seq : Nat) (c : Cmd), Names c 4 → s.modes.modeNow = 4 ∨ s.modes.modeNow = 5 →
    (MayRun s seq 0x18 c → ZeroBytes c 20 31 →
      (∀ e l, par c 8 = 0 → par c 9 = e → e < 8 → par c 14 = l → l < 64 → followable s l = true →
        (entryOf s l = none ∨ entryOf s l = some e) → ((laneOf s l).cur.engKind = 3 → parN c 10 4 ≠ 0) → 1 ≤ par c 15 →
        par c 16 ≤ 80 → 1 ≤ par c 17 → par c 17 ≤ 8 → 1 ≤ par c 18 → par c 18 ≤ 60 → 5 ≤ par c 19 → s.taste.tastings = [] →
        let f : Follow := { valid := true, lane := l, kind := (laneOf s l).cur.engKind, ident := parN c 10 4, goodRun := par c 15,
                            margin := par c 16, perFollow := par c 17, idTimeout := par c 18, dwellMax := par c 19 }
        exec (.tasteArm seq) s = .next (complete seq 0x00 [lowByte e, 0] { runs s seq with
          taste := { s.taste with follows := tabSet (tabDel s.taste.follows e) e f } })) ∧
      (∀ e, par c 8 = 1 → par c 9 = e → e < 8 → s.taste.tastings = [] →
        exec (.tasteArm seq) s = .next (complete seq 0x00 [lowByte e, 0] { runs s seq with
          taste := { s.taste with follows := tabDel s.taste.follows e } })) ∧
      (∀ e m y, par c 8 = 1 → par c 9 = e → e < 8 → s.taste.tastings = [(m, y)] → y.entry = e → ∃ u,
        exec (.tasteArm seq) s = .next (complete seq 0x00 [lowByte e, 1] u) ∧ u.taste.tastings = [] ∧ (laneOf u m).hold = .free ∧
        u.taste.leesTastings = min (2 ^ 32 - 1) (s.taste.leesTastings + 1) ∧ (followOf u e).valid = false ∧
        (∀ k, k ≠ m → laneOf u k = laneOf s k) ∧
        u = { runs s seq with taste := u.taste, lanes := u.lanes, slots := u.slots, analogue := u.analogue, lf := u.lf, drm := u.drm,
                              dab := u.dab, fabric := u.fabric }) ∧
      (par c 8 = 2 → s.taste.tastings = [] → ∃ u, exec (.tasteArm seq) s = .next (complete seq 0x00 [lowByte (par c 9), 0] u) ∧
        (∀ e, e < 8 → (followOf u e).valid = false) ∧ u = { runs s seq with taste := { s.taste with follows := u.taste.follows } }) ∧
      (par c 8 = 3 → 1 ≤ par c 10 → par c 10 ≤ 64 → 1 ≤ par c 11 → par c 11 ≤ 16 → s.taste.tastings = [] →
        exec (.tasteArm seq) s = .next (complete seq 0x00 [lowByte (par c 9), 0] { runs s seq with
          taste := { s.taste with maxTaste := par c 10, mustCap := par c 11 } }))) ∧
    (MayRun s seq 0x19 c → ZeroBytes c 15 31 → par c 8 < 64 ∨ par c 8 = 0xFF →
      (par c 9 = 1 → ∃ u, exec (.tasteView seq) s = .next (complete seq 0x00 [0, 0, 0, 0, 0, 0, lowByte s.taste.tastings.length] u) ∧
        u.taste.pinned = [] ∧ u.taste.tastings.length = s.taste.tastings.length ∧
        (∀ y ∈ u.taste.tastings, ∀ i ∈ y.2.items, i.pinned = false) ∧
        u = { runs s seq with taste := { s.taste with pinned := [], tastings := u.taste.tastings } }) ∧
      (par c 9 = 0 → 1 ≤ parN c 13 2 → parN c 13 2 ≤ 2048 → inScratch (parN c 10 3) (16 * parN c 13 2) = true →
        (s.taste.tastings = [] → exec (.tasteView seq) s = .next (complete seq 0x00 [0, 0, 0, 0, 0, 0, 0] { runs s seq with
          taste := { s.taste with pinned := [] } })) ∧
        (∀ m y i, s.taste.tastings = [(m, y)] → m < 64 → y.items = [i] → par c 8 = m ∨ par c 8 = 0xFF → ∃ u,
          exec (.tasteView seq) s = .next (complete seq 0x00 ([1, 0, 1, 0] ++ leBytes (((itemBytes i.item).length + 1023) / 1024) 2 ++ [1]) u) ∧
          u.mem = cellPuts s.mem (parN c 10 3) (leBytes i.addr 3 ++ [lowByte m] ++ leBytes (itemBytes i.item).length 2 ++ leBytes y.tgen 2 ++
            [1, lowByte i.item.kind, 0, 0] ++ leBytes i.item.iseq 4) ∧
          u = { runs s seq with mem := u.mem, scrub := u.scrub,
                                taste := { s.taste with pinned := [], tastings := [(m, { y with items := [{ i with pinned := true }] })] } })))

/-- R301, R303, Tables 13-2, 13-3: in FOLLOW and PLAY, for a valid entry of a lane that can be followed, with room for one more tasting and no
calibration on its path, a tasting starts on the lowest FREE lane with the lowest free engine of its kind, for the entry's next candidate, and
NEXT_CAND moves past it; without a candidate nothing starts, and nothing else changes. -/
def Obligations.TastingsStart : Prop :=
  ∀ s : State,
    (∀ e i hz m idx, s.power.phase = .ready → s.modes.modeNow = 4 ∨ s.modes.modeNow = 5 →
      let f := followOf s e
      f.valid = true → followable s f.lane = true → (laneOf s f.lane).cur.engKind = f.kind → tastingsOf s e < f.perFollow →
      s.taste.tastings.length < s.taste.maxTaste → (pathOf s (laneOf s f.lane).path).job = none →
      (nextCandidate s e = none → exec (.tastingStart e) s = .next s) ∧
      (nextCandidate s e = some (i, hz) → borrowable s f.kind = some (m, idx) → ∃ t, exec (.tastingStart e) s = .next t ∧
        (let y : Tasting := { state := 1, entry := e, kind := f.kind, engIndex := idx, tgen := s.taste.tgenNext, freqHz := hz, run := 0,
                              started := s.clocks.sc, matchedAt := 0, items := [], rolled := 0, afTaken := false }
         t.taste.tastings = s.taste.tastings ++ [(m, y)]) ∧
        t.taste.tgenNext = nextGen s.taste.tgenNext ∧ (followOf t e).nextCand = (i + 1) % (candidateList s f).length ∧
        (laneOf t m).hold = .tasting ∧ (laneOf t m).path = (laneOf s f.lane).path ∧ (laneOf t m).running = true ∧
        (laneOf t m).genPending = 1 ∧ (∃ set, (laneOf t m).pending = some set ∧ set.freqHz = hz ∧ set.engKind = f.kind ∧ set.engIndex = idx) ∧
        (∀ k, k ≠ m → laneOf t k = laneOf s k) ∧ t = { s with lanes := t.lanes, taste := t.taste, fresh := t.fresh }))

/-- R303, R307, R310, Tables 13-3, 13-4: ID_TIMEOUT ends a tasting that found no identity in time, and DWELL_MAX one that holds another candidate up, as
lees of their cause; before its time, or with no candidate waiting, nothing changes. SWITCH_OVER acts on a confirmed tasting alone (shown
with no other tasting, no must item, no open slot and no pending set): the followed lane takes the tasting's frequency in its next generation,
keeping its hold, rate and block sequence, the tasting lane is freed, and the switch is counted and raises TASTE_EVENT. -/
def Obligations.TastingsEndAndSwitch : Prop :=
  ∀ s : State,
    (∀ m y, tastingOf s m = some y →
      let lees (cause : Nat) (t : State) : Prop :=
        tastingOf t m = none ∧ (laneOf t m).hold = .free ∧ (∀ k, k ≠ m → laneOf t k = laneOf s k) ∧
        t.taste.leesTastings = min (2 ^ 32 - 1) (s.taste.leesTastings + 1) ∧
        t.taste.leesItems = min (2 ^ 32 - 1) (s.taste.leesItems + y.items.length) ∧
        tabGet 0 t.taste.leesBy cause = min 65535 (tabGet 0 s.taste.leesBy cause + 1) ∧
        (followOf t y.entry).lees = min (2 ^ 32 - 1) ((followOf s y.entry).lees + 1) ∧
        t = { s with taste := t.taste, lanes := t.lanes, slots := t.slots, analogue := t.analogue, lf := t.lf, drm := t.drm, dab := t.dab,
                     fabric := t.fabric }
      (y.state = 1 → y.started + (followOf s y.entry).idTimeout * 2 ^ 24 ≤ s.clocks.sc → ∃ t, exec (.idTimeout m) s = .next t ∧ lees 2 t) ∧
      (s.clocks.sc < y.started + (followOf s y.entry).idTimeout * 2 ^ 24 → exec (.idTimeout m) s = .next s) ∧
      (y.state = 2 → y.matchedAt + (followOf s y.entry).dwellMax * 2 ^ 24 ≤ s.clocks.sc → candidateWaits s y.entry = true →
        ∃ t, exec (.dwellMax m) s = .next t ∧ lees 3 t) ∧
      (candidateWaits s y.entry = false → exec (.dwellMax m) s = .next s)) ∧
    (∀ m y stamp, s.taste.tastings = [(m, y)] → y.items = [] → y.kind ≠ 3 → s.slots.slots = [] →
      let f := followOf s y.entry
      (y.state ≠ 3 → exec (.switchOver m stamp) s = .next s) ∧
      (y.state = 3 → m ≠ f.lane → (laneOf s f.lane).pending = none → (laneOf s f.lane).synced = none → ∃ t, exec (.switchOver m stamp) s = .next t ∧
        t.taste.tastings = [] ∧ (laneOf t m).hold = .free ∧ (laneOf t f.lane).hold = (laneOf s f.lane).hold ∧
        (laneOf t f.lane).gen = nextGen (laneOf s f.lane).gen ∧ (laneOf t f.lane).cur.freqHz = (laneOf s m).cur.freqHz ∧
        (laneOf t f.lane).cur.rate = (laneOf s f.lane).cur.rate ∧ (laneOf t f.lane).seq = (laneOf s f.lane).seq ∧
        (followOf t y.entry).left = some (laneOf s f.lane).cur.freqHz ∧
        (followOf t y.entry).switches = min (2 ^ 32 - 1) (f.switches + 1) ∧ t.taste.switches = min (2 ^ 32 - 1) (s.taste.switches + 1) ∧
        (s.power.phase = .ready → t.port.irqStat1.getLsbD 1 = true) ∧ (∀ k, k ≠ m → k ≠ f.lane → laneOf t k = laneOf s k) ∧
        t = { s with taste := t.taste, lanes := t.lanes, analogue := t.analogue, lf := t.lf, drm := t.drm, dab := t.dab, fresh := t.fresh,
                     saps := t.saps, port := { s.port with irqStat1 := t.port.irqStat1 } }))

/-- R317, R318, R319, Table 14-1, for a source lane whose engine is no DAB engine: SLOT_OPEN writes a closed slot's descriptor, sets its floors from
REPLAY_FLOOR less 1 and answers the source lane's state; an open slot is refused with STATE. SLOT_CLOSE closes an open slot, leaves the other
slots and answers PROD and the next RSEQ; for a closed one it changes nothing. -/
def Obligations.SlotCommandsOpenAndClose : Prop :=
  ∀ s : State,
    (∀ seq c n, Names c 5 → cmdIdx c = n → 3 ≤ s.modes.modeNow → s.modes.modeNow ≤ 6 →
      (MayRun s seq 0x20 c → par c 8 < 64 → bit (par c 8) 3 = false → par c 8 % 4 ≠ 3 → par c 9 < 64 → par c 19 = 0 → par c 31 = 0 →
        (par c 8 % 4 = 0 → parN c 12 4 ≠ 0 ∧ parN c 12 4 < 2 ^ 20 ∧
          (par c 10 = 0xFF → ∀ k, k ≤ 18 → 15 ≤ k → bit (parN c 12 4) k = false)) →
        (par c 8 % 4 ≠ 0 → parN c 22 2 ≠ 0) → 8 ≤ par c 27 → par c 27 ≤ 20 → parN c 24 3 % 2 ^ par c 27 = 0 →
        parN c 24 3 + 2 ^ par c 27 ≤ 0x100000 →
        (∀ e ∈ s.slots.slots, e.1 ≠ n → e.2.isOpen = true →
          parN c 24 3 + 2 ^ par c 27 ≤ e.2.ringBase ∨ e.2.ringBase + 2 ^ e.2.ringLog2 ≤ parN c 24 3) →
        ((slotOf s n).isOpen = true → exec (.slotOpen seq) s = .next (complete seq 0x17 [1] s)) ∧
        ((slotOf s n).isOpen = false → (laneOf s (par c 9)).cur.engKind ≠ 3 → exec (.slotOpen seq) s = .next (complete seq 0x00
          [lowByte (holdCode (laneOf s (par c 9)).hold), lowByte (laneOf s (par c 9)).cur.engKind]
          { runs s seq with slots := { s.slots with slots := tabSet s.slots.slots n { slotOf s n with
              isOpen := true, suspended := s.modes.modeNow == 6, policy := par c 8 % 4, timeRule := bit (par c 8) 2,
              wakeMode := par c 8 / 16 % 4, srcLane := par c 9, stream := par c 10, groupType := par c 11, kindMask := parN c 12 4,
              sub := parN c 16 2, ptype := par c 18, aid := parN c 20 2, issuerMask := parN c 22 2, ringBase := parN c 24 3,
              ringLog2 := par c 27, wakeFill := parN c 28 3, prod := 0, cons := 0, stagedCons := [], rseqNext := 0, gap := false,
              floors := (List.range 16).map fun i => (i, replayFloor s i - 1) } } }))) ∧
      (MayRun s seq 0x21 c → ZeroBytes c 8 31 → (laneOf s (slotOf s n).srcLane).cur.engKind ≠ 3 → ∃ u,
        exec (.slotClose seq) s = .next (complete seq 0x00 (leBytes (slotOf s n).prod 4 ++ leBytes (slotOf s n).rseqNext 4) u) ∧
        (slotOf u n).isOpen = false ∧ (∀ k, k ≠ n → slotOf u k = slotOf s k) ∧ u = { runs s seq with slots := u.slots } ∧
        ((slotOf s n).isOpen = false → u = runs s seq)))

/-- R328, R329, R330, Table 14-4, for an envelope that one slot names: the security engine takes the one that waited longest: a verified one makes a
record, where the ring has room, and raises the slot's floor of the issuer and its REPLAY_FLOOR to the envelope's sequence; one that fails a
check makes a record under policy 2 and is counted otherwise; one of another payload type or already delivered is only counted. -/
def Obligations.EnvelopesAreVerified : Prop :=
  ∀ s : State,
    (s.slots.waiting = [] → exec .sdeVerify s = .next s) ∧
    (∀ e rest n, s.slots.waiting = e :: rest → s.power.phase = .ready → slotsDeliver s e.lane = true → namingSlots s e = [n] →
      (slotOf s n).suspended = false →
      let x := slotOf s n
      let len := (recordBytes x 3 false (sdeBody e .verified)).length
      (judge s x e = .filtered → exec .sdeVerify s = .next { s with slots := { s.slots with
        waiting := rest, slots := tabSet s.slots.slots n { x with filtered := min (2 ^ 32 - 1) (x.filtered + 1) },
        verified := min (2 ^ 32 - 1) s.slots.verified, badSignatures := min (2 ^ 32 - 1) s.slots.badSignatures } }) ∧
      (judge s x e = .repeated → exec .sdeVerify s = .next { s with slots := { s.slots with
        waiting := rest, slots := tabSet s.slots.slots n { x with sdeRepeats := min 65535 (x.sdeRepeats + 1) },
        verified := min (2 ^ 32 - 1) s.slots.verified, badSignatures := min (2 ^ 32 - 1) s.slots.badSignatures } }) ∧
      (judge s x e ≠ .filtered → judge s x e ≠ .repeated → judge s x e ≠ .verified → x.policy ≠ 2 → exec .sdeVerify s = .next { s with
        slots := { s.slots with
          waiting := rest, slots := tabSet s.slots.slots n { x with sdeRejected := min 65535 (x.sdeRejected + 1) },
          verified := min (2 ^ 32 - 1) s.slots.verified,
          badSignatures := min (2 ^ 32 - 1) (s.slots.badSignatures + flagNat (judge s x e == .badSignature)) } }) ∧
      (judge s x e ≠ .filtered → judge s x e ≠ .repeated → (judge s x e ≠ .verified → x.policy = 2) → ringWritten x + len ≤ 2 ^ x.ringLog2 →
        ∃ t, exec .sdeVerify s = .next t ∧ t.slots.waiting = rest ∧
        tabGet 0 (slotOf t n).floors (envIssuer e) = (if judge s x e = .verified then envSeq e else tabGet 0 x.floors (envIssuer e)) ∧
        (slotOf t n).records = min (2 ^ 32 - 1) (x.records + 1) ∧
        (slotOf t n).prod = (x.prod + len) % 2 ^ 32 ∧ (slotOf t n).rseqNext = (x.rseqNext + 1) % 2 ^ 32 ∧ (slotOf t n).gap = false ∧
        t.slots.verified = min (2 ^ 32 - 1) (s.slots.verified + flagNat (judge s x e == .verified)) ∧
        t.slots.badSignatures = min (2 ^ 32 - 1) (s.slots.badSignatures + flagNat (judge s x e == .badSignature)) ∧
        (∀ k, k ≠ n → slotOf t k = slotOf s k) ∧
        (judge s x e ≠ .verified → t.cellar = s.cellar) ∧
        (judge s x e = .verified → Memory.wf s.cellar.shadow = true →
          replayFloor t (envIssuer e) = max (replayFloor s (envIssuer e)) (envSeq e)) ∧
        t = { s with slots := t.slots, mem := t.mem, scrub := t.scrub, port := { s.port with irqStat1 := t.port.irqStat1 },
                     cellar := { s.cellar with shadow := t.cellar.shadow, written := t.cellar.written, dirty := t.cellar.dirty } }))

/-! The calendar and the home link (chapters 15 and 16) -/

/-- R336, R342, R348, Tables 15-2, 15-3, 15-5: DATE_SET makes the calendar valid so that the given time holds at AT or now, with LAST_STEP, and refuses
a date that does not exist with BAD_DATE; TIME_VOTE_CFG sets the selected settings and leaves the others; SC_LATCH latches the counter and the
snapshot. -/
def Obligations.CalendarFollowsItsCommands : Prop :=
  ∀ s : State,
    (∀ seq c, MayRun s seq 0x28 c → Names c 6 → ZeroBytes c 28 31 → par c 18 < 2 → par c 19 = 0 →
      let y := parN c 8 2
      let at_ := if par c 18 = 1 then parN c 20 8 else s.clocks.sc
      let new := utcCounts (mjdOf y (par c 10) (par c 11)) (par c 12 * 3600 + par c 13 * 60 + min (par c 14) 59) + (parN c 15 3 : Int) - (at_ : Int)
      let step := if s.time.valid then satInt 4 (new - s.time.offset) else 0
      2000 ≤ y → y ≤ 2199 →
        (12 < par c 10 → exec (.dateSet seq) s = .next (complete seq 0x13 [10] s)) ∧
        (1 ≤ par c 10 → par c 10 ≤ 12 → 1 ≤ par c 11 → par c 11 ≤ monthDays (par c 10) y → par c 12 < 24 → par c 13 < 60 →
          (61 ≤ par c 14 → exec (.dateSet seq) s = .next (complete seq 0x13 [14] s)) ∧
          (par c 14 < 60 ∨ (par c 14 = 60 ∧ par c 12 = 23 ∧ par c 13 = 59 ∧ par c 11 = monthDays (par c 10) y) → ∃ u,
            exec (.dateSet seq) s = .next (complete seq 0x00
              (leBytes (mjdOf y (par c 10) (par c 11)) 3 ++ [0] ++ leBytes (twos 4 step) 4) u) ∧
            u.time.offset = new ∧ u.time.valid = true ∧ u.time.source = 5 ∧ u.time.lastStep = step ∧ u.time.lastSetSc = s.clocks.sc ∧
            u.time.leapPending = false ∧ u.time.calRange = false ∧ u.time.leapHold = (par c 14 == 60) ∧ u.time.cause = s.time.cause ||| 1 ∧
            u.time.votes = s.time.votes ∧
            u = { runs s seq with time := u.time, port := { s.port with irqStat1 := u.port.irqStat1 } }))) ∧
    (∀ seq c, MayRun s seq 0x29 c → Names c 6 → ZeroBytes c 21 31 → par c 8 < 64 → (bit (par c 8) 0 = true → 1 ≤ par c 9 ∧ par c 9 ≤ 4) →
      (bit (par c 8) 1 = true → par c 10 < 2) → (bit (par c 8) 2 = true → 10 ≤ parN c 11 2 ∧ parN c 11 2 ≤ 10000) →
      (bit (par c 8) 3 = true → 60 ≤ parN c 13 4 ∧ parN c 13 4 ≤ 86400) →
      (bit (par c 8) 4 = true → par c 17 ≤ 15 ∧ par c 18 ≤ 15 ∧ par c 19 ≤ 15 ∧ par c 20 ≤ 15) → ∃ u r,
      exec (.timeVoteCfg seq) s = .next (complete seq 0x00 r u) ∧ r.length = 2 ∧
      u.time.quorum = (if bit (par c 8) 0 then par c 9 else s.time.quorum) ∧
      u.time.consensusEn = (if bit (par c 8) 1 then bit (par c 10) 0 else s.time.consensusEn) ∧
      u.time.agreeMs = (if bit (par c 8) 2 then parN c 11 2 else s.time.agreeMs) ∧
      u.time.voteLife = (if bit (par c 8) 3 then parN c 13 4 else s.time.voteLife) ∧
      u.time.weights = (if bit (par c 8) 4 then [(1, par c 17), (2, par c 18), (3, par c 19), (4, par c 20)] else s.time.weights) ∧
      (bit (par c 8) 5 = true → u.time.votes = []) ∧
      u = { runs s seq with time := u.time, fresh := u.fresh, port := { s.port with irqStat1 := u.port.irqStat1 } }) ∧
    (∀ v, PortLive s → 51544 ≤ mjdAt (calendarNow s) → ∃ t, exec (.scLatch v) s = .next t ∧ t.port.scLatch = s.clocks.sc % 2 ^ 64 ∧
      (t.time.snapshot.take 4) = leBytes (mjdAt (calendarNow s)) 4 ∧ (t.time.snapshot.drop 4).take 3 = leBytes (sodAt (calendarNow s)) 3 ∧
      t.time.snapshot.length = 19 ∧
      t = { s with port := { s.port with ack := true, scLatch := t.port.scLatch }, time := { s.time with snapshot := t.time.snapshot } })

/-- R337, R339, R344, R346, R355, R468: a vote past VOTE_LIFE is current no more; at the midnight after LEAP_TARGET the calendar steps back a second;
past 31 December 2199 CAL_RANGE is set; with a source driving the counter again a hold shorter than 5 ms is counted, and one of 5 ms or more
makes the calendar invalid and drops the votes; a whole minute of the counter advances ON_MINUTES and leaves the tokens of sub-band 0. -/
def Obligations.CalendarFollowsTheCounter : Prop :=
  ∀ s : State,
    (∀ kind, ∃ t, exec (.voteLife kind) s = .next t ∧ t = { s with time := { s.time with votes := t.time.votes } } ∧
      (∀ k, k ≠ kind → voteOf t k = voteOf s k) ∧ voteOf t kind = { voteOf s kind with current := voteCurrent s (voteOf s kind) }) ∧
    (s.time.valid = true → s.time.leapPending = true →
      (utcCounts (s.time.leapTarget + 1) 0 ≤ calendarNow s → ∃ t, exec .leapHold s = .next t ∧ t.time.offset = s.time.offset - 2 ^ 24 ∧
        t.time.leapHold = true ∧ t.time.leapPending = false ∧ t.time.leaps = min 65535 (s.time.leaps + 1) ∧ t.time.valid = true ∧
        t.time.cause = s.time.cause ||| 8 ∧ t = { s with time := t.time, port := { s.port with irqStat1 := t.port.irqStat1 } }) ∧
      (calendarNow s < utcCounts (s.time.leapTarget + 1) 0 → exec .leapHold s = .next s)) ∧
    (s.time.valid = true → s.time.calRange = false →
      (mjdAt (calendarNow s) ≤ 124592 → exec .calRange s = .next s) ∧
      (124592 < mjdAt (calendarNow s) → ∃ t, exec .calRange s = .next t ∧ t.time = { s.time with calRange := true, cause := s.time.cause ||| 4 } ∧
        t = { s with time := t.time, port := { s.port with irqStat1 := t.port.irqStat1 } })) ∧
    (∀ us, (s.clocks.scHeld = false ∨ counterDriven s = false → exec (.counterHoldEnd us) s = .next s) ∧
      (s.clocks.scHeld = true → counterDriven s = true →
        (us < 5000 → exec (.counterHoldEnd us) s = .next { s with
          clocks := { s.clocks with scHeld := false }, time := { s.time with scHolds := min 65535 (s.time.scHolds + 1) } }) ∧
        (5000 ≤ us → ∃ t, exec (.counterHoldEnd us) s = .next t ∧
          t.time = { s.time with valid := false, invalidCause := 2, votes := [], cause := s.time.cause ||| 2 } ∧
          t = { s with clocks := { s.clocks with scHeld := false }, time := t.time,
                       port := { s.port with irqStat1 := t.port.irqStat1 } }))) ∧
    (s.power.phase = .ready → s.clocks.minuteDone < s.clocks.sc / (60 * 2 ^ 24) → Memory.wf s.cellar.shadow = true → ∃ t,
      exec .counterMinute s = .next t ∧ t.clocks.minuteDone = s.clocks.minuteDone + 1 ∧ t.link.minute = s.clocks.sc / (60 * 2 ^ 24) ∧
      shadowGet t.cellar 0x1C50 4 = min (2 ^ 32 - 1) (shadowGet s.cellar 0x1C50 4 + 1) ∧ tokensHeld t 0 = tokensHeld s 0 ∧
      t = { s with clocks := { s.clocks with minuteDone := t.clocks.minuteDone },
                   link := { s.link with duty := t.link.duty, minute := t.link.minute },
                   cellar := { s.cellar with shadow := t.cellar.shadow, written := t.cellar.written, dirty := t.cellar.dirty } })

/-- R351 to R356, R361, Tables 16-2 to 16-4, with path S free and OFF: LINK_TX, a PSDU or CW, completes with BAD_FIELD where its profile has a field out of
range, with STATE 0x06 where AT comes too soon, with REGULATORY where a check of Table 16-2 fails or the profile fails its mask check,
and with DUTY_DENIED for want of tokens, all but the first counted, with nothing sent; an UNCHECKED profile takes the mask check's outcome. One that
passes waits for its lock, with its profile, channel and PSDU copied, on path S starting at the LO for its channel. -/
def Obligations.LinkTxIsAcceptedOrDenied : Prop :=
  ∀ s : State, s.pathS.job = none → s.cal.linkJob = none → s.clocks.stage = .idle → tuneOf s 2 = none →
    (∀ seq c m f, LinkQuiet s → MayRun s seq 0x39 c → Names c 7 → par c 8 < 4 → par c 9 < 16 → ZeroBytes c 15 15 → ZeroBytes c 30 31 →
      (bit (par c 9) 2 = true → 1 ≤ parN c 28 2 ∧ parN c 28 2 ≤ 2000) → 1 ≤ parN c 13 2 →
      let p := profileOf s (par c 8)
      let cw := bit (par c 9) 3
      (cw = true → s.modes.modeNow = 6 ∧ parN c 13 2 ≤ 1000) →
      (cw = false → 4 ≤ s.modes.modeNow ∧ s.modes.modeNow ≤ 6 ∧ inScratch (parN c 10 3) (parN c 13 2) = true ∧
        parN c 13 2 ≤ (if bit (par c 9) 0 then 2047 - fcsLen p else 2047)) →
      f = (if parN c 16 4 = 0 then p.channelHz else parN c 16 4) →
      let bytes := memGets s (parN c 10 3) (parN c 13 2)
      let j := { newTx (.host seq) (some m) with
        profileNo := par c 8, profile := p, channel := f,
        psdu := if cw then [] else if bit (par c 9) 0 then bytes ++ fcsBytes p bytes else bytes,
        cwMs := if cw then some (parN c 13 2) else none, at_ := if bit (par c 9) 1 then some (parN c 20 8) else none,
        rxAfterMs := if bit (par c 9) 2 then some (parN c 28 2) else none }
      (∀ k, profileBad p f = some k → exec (.linkTx seq m) s = .next (complete seq 0x12 [lowByte (0x80 + k)] (runs s seq))) ∧
      (∀ a, profileBad p f = none → j.at_ = some a → a < s.clocks.sc + microsCounts 2000 → exec (.linkTx seq m) s = .next
        (complete seq 0x17 [6] { runs s seq with link := { s.link with atLate := min (2 ^ 32 - 1) (s.link.atLate + 1) } })) ∧
      (profileBad p f = none → (∀ a, j.at_ = some a → s.clocks.sc + microsCounts 2000 ≤ a) →
        let denied := min (2 ^ 32 - 1) (s.link.regDenials + 1)
        (∀ r, regulatoryCheck s p f = some r → exec (.linkTx seq m) s = .next
          (complete seq r.1 r.2 { runs s seq with link := { s.link with regDenials := denied } })) ∧
        (∀ b, regulatoryCheck s p f = none → (subBandOf s f).map (·.1) = some b →
          let margin := satInt 2 m
          let tested (st : Nat) : Link := { s.link with
            profiles := tabSet s.link.profiles (par c 8) { p with state := st, maskMargin := margin },
            maskChecks := min (2 ^ 32 - 1) (s.link.maskChecks + 1), maskFails := min (2 ^ 32 - 1) (s.link.maskFails + if st = 1 then 0 else 1) }
          (p.state = 2 → exec (.linkTx seq m) s = .next (complete seq 0x42 ([3, lowByte b] ++ leBytes (twos 2 p.maskMargin) 2)
            { runs s seq with link := { s.link with regDenials := denied } })) ∧
          (p.state = 0 → m < 0 → exec (.linkTx seq m) s = .next (complete seq 0x42 ([3, lowByte b] ++ leBytes (twos 2 margin) 2)
            { runs s seq with link := { tested 2 with regDenials := denied }, fresh := s.fresh + 1 })) ∧
          (p.state = 1 ∨ (p.state = 0 ∧ 0 ≤ m) →
            let l := if p.state = 1 then s.link else tested 1
            let fresh := if p.state = 1 then s.fresh else s.fresh + 1
            (costCovered s b (costOf j) = false → ∃ u, exec (.linkTx seq m) s = .next (complete seq 0x40
                (leBytes b 2 ++ leBytes (tokensHeld s b) 4) u) ∧
              u.link = { l with dutyDenials := min (2 ^ 32 - 1) (s.link.dutyDenials + 1), duty := u.link.duty } ∧
              tokensHeld u b = tokensHeld s b ∧ u = { runs s seq with link := u.link, fresh := fresh }) ∧
            (costCovered s b (costOf j) = true → s.clocks.fault = false → s.clocks.locked = true → tableFor s.pathS.synth ≠ none → ∃ t,
              exec (.linkTx seq m) s = .next t ∧ t.link = { l with txs := [{ j with band := b, cost := costOf j, stage := .tuning }] } ∧
              t.pathS.fe.state = .starting ∧ t.pathS.fe.loNow = linkLo f ∧ t.pathS.fe.loHz = s.pathS.fe.loHz ∧
              t.pathS.synth.locking = true ∧
              t = { runs s seq with link := t.link, pathS := t.pathS, lanes := t.lanes, fresh := fresh })))))

/-- R356, R358, R361, R362, R363, Tables 8-8 and 16-4, for a LINK_TX alone on the link: a busy listen backs off by up to BACKOFF_MAX while tries are
left, and the backoff ends in another listen; the last busy one completes with CHANNEL_BUSY, counted. A free one sends, or waits for AT; AT
starts a timed one, and one that it can no longer start in time completes with STATE 0x06. Going on air counts the frame in TX_PACKETS and its cost
in TX_TOKENS and begins the blanking of paths L and V. Path S ramps up, sends and ramps down; with the amplifier off the command completes, or its RX_AFTER window opens,
whose end completes it; one that was cut completes with NO_LOCK. The blanking ends with its own step. -/
def Obligations.TransmissionsGoStepByStep : Prop :=
  ∀ s : State, NoneDue s → s.pathS.job = none → s.cal.linkJob = none → s.clocks.stage = .idle → tuneOf s 0 = none → tuneOf s 1 = none →
    tuneOf s 2 = none →
    (∀ j q, s.link.txs = [j] → j.owner = .host q → s.link.hostRx = none → s.sessions.checks = [] → watching s = false →
      let onAir (a : Nat) (t : State) : Prop :=
        (∃ k, t.link.txs = [k] ∧ k.stage = .onAir ∧ k.psdu = j.psdu ∧ k.phrStamp = (if j.cwMs.isSome then 0 else a) ∧
          k.endStamp = a + bodyCount j) ∧
        t.link.txBlank = true ∧ t.link.txPackets = min (2 ^ 32 - 1) (s.link.txPackets + 1) ∧
        t.link.txTokens = min (2 ^ 32 - 1) (s.link.txTokens + j.cost) ∧
        t = { s with link := t.link, pathL := t.pathL, pathV := t.pathV, lanes := t.lanes }
      let done (c : Cmd) (status : Nat) (result : List Byte) (t : State) : Prop :=
        t.link.txs = [] ∧ t.pathS.fe.state = .off ∧ t.rings.inflight = [] ∧ t.rings.unread = s.rings.unread + 1 ∧
        t.mem = cellPuts s.mem (0x1FC000 + 16 * s.rings.ccProd) (entryBytes c status result)
      let sent := leBytes j.cost 2 ++ [lowByte j.tries, lowByte j.written] ++ leBytes (j.phrStamp / 2 ^ 16) 4
      (j.stage = .listen → s.pathS.fe.state = .run → stopCause s q = none → ∀ rssi : Int,
        let limit := 4 * min (bandAt s j.band).lbtThresh s.link.lbtThresh
        let tried := { j with tries := j.tries + 1, rssi := max j.rssi rssi }
        (s.clocks.sc < j.until_ → exec (.lbtListenEnd rssi) s = .next s) ∧
        (j.until_ ≤ s.clocks.sc →
          (limit ≤ rssi → j.at_ = none → j.tries + 1 < s.link.lbtTries → ∃ us, us ≤ (bandAt s j.band).backoffMax ∧
            exec (.lbtListenEnd rssi) s = .next { s with fresh := s.fresh + 1, link := { s.link with
              txs := [{ tried with stage := .backoff, until_ := s.clocks.sc + microsCounts us }] } }) ∧
          (∀ c, limit ≤ rssi → j.at_.isSome = true ∨ s.link.lbtTries ≤ j.tries + 1 → s.rings.inflight = [c] → c.seq = q → ∃ t,
            exec (.lbtListenEnd rssi) s = .next t ∧ done c 0x41 (lowByte (j.tries + 1) :: leBytes (twos 2 (max j.rssi rssi)) 2) t ∧
            t.link.busyDenials = min (2 ^ 32 - 1) (s.link.busyDenials + 1)) ∧
          (rssi < limit → costCovered s j.band j.cost = true →
            (j.at_.isSome = true → exec (.lbtListenEnd rssi) s = .next { s with link := { s.link with txs := [{ tried with stage := .timed }] } }) ∧
            (j.at_ = none → ∃ t, exec (.lbtListenEnd rssi) s = .next t ∧ onAir (earliestPhr s j) t)))) ∧
      (j.stage = .backoff → j.until_ ≤ s.clocks.sc → j.at_ = none → ∃ us, us ≤ (bandAt s j.band).listenRand ∧
        exec .lbtBackoff s = .next { s with fresh := s.fresh + 1, link := { s.link with txs := [{ j with
          stage := .listen, until_ := s.clocks.sc + microsCounts (max (bandAt s j.band).listenMin s.link.lbtListenUs + us) }] } }) ∧
      (j.stage ≠ .backoff ∨ s.clocks.sc < j.until_ → exec .lbtBackoff s = .next s) ∧
      (∀ a, j.at_ = some a → j.stage = .timed → s.pathS.fe.state = .run →
        (earliestPhr s j ≤ a → ∃ t, exec .atStart s = .next t ∧ onAir a t) ∧
        (∀ c, a < earliestPhr s j → s.rings.inflight = [c] → c.seq = q → ∃ t, exec .atStart s = .next t ∧ done c 0x17 [6] t ∧
          t.link.atLate = min (2 ^ 32 - 1) (s.link.atLate + 1))) ∧
      (j.at_ = none → exec .atStart s = .next s) ∧
      (j.stage = .onAir →
        let step (k : Nat) (old new : FeState) : Prop := s.pathS.fe.state = old → ∃ t, exec (.transmissionEnd k) s = .next t ∧
          t.pathS.fe.state = new ∧ t = { s with pathS := { s.pathS with fe := t.pathS.fe } }
        step 2 .run .txRampUp ∧ step 3 .txRampUp .tx ∧ step 4 .tx .txRampDown ∧
        (∀ c, s.pathS.fe.state = .txRampDown → s.pathS.synth.locked = true → s.rings.inflight = [c] → c.seq = q → stopCause s q = none →
          (j.cut = false → j.rxAfterMs = none → ∃ t, exec (.transmissionEnd 5) s = .next t ∧ done c 0 sent t ∧ t.link.txBlank = s.link.txBlank) ∧
          (j.cut = true → ∃ t, exec (.transmissionEnd 5) s = .next t ∧ done c 0x52 [2] t) ∧
          (∀ ms, j.cut = false → j.rxAfterMs = some ms → s.pathS.fe.loNow = linkLo j.channel → ∃ t, exec (.transmissionEnd 5) s = .next t ∧
            t.link = { s.link with txs := [{ j with stage := .after, until_ := j.endStamp + microsCounts (24 + 1000 * ms) }] } ∧
            t.pathS.fe.state = .run ∧ t = { s with link := t.link, pathS := { s.pathS with fe := t.pathS.fe } }))) ∧
      (j.stage = .after → s.pathS.fe.state = .run →
        (∀ c, j.until_ ≤ s.clocks.sc → s.rings.inflight = [c] → c.seq = q → ∃ t, exec .rxAfter s = .next t ∧ done c 0 sent t) ∧
        (s.clocks.sc < j.until_ → exec .rxAfter s = .next s))) ∧
    ((∀ j ∈ s.link.txs, j.stage ≠ .onAir) → s.pathS.fe.state ≠ .txRampUp → s.pathS.fe.state ≠ .tx → s.pathS.fe.state ≠ .txRampDown →
      (s.link.txBlank = false → exec (.transmissionEnd 6) s = .next s) ∧
      (s.link.txBlank = true → ∃ t, exec (.transmissionEnd 6) s = .next t ∧ t.link = { s.link with txBlank := false } ∧
        t = { s with link := t.link, pathL := t.pathL, pathV := t.pathV, lanes := t.lanes })) ∧
    (∀ k, k < 2 ∨ 6 < k → exec (.transmissionEnd k) s = .next s)

/-- R159, R351, R353, R368, Table 16-8, with path S free and OFF: LINK_RX completes with BAD_FIELD naming a field of its profile that is out of range or a
profile channel outside path S, with REGULATORY, counted, for a channel that no sub-band has, and with NO_LOCK while the CPLL is in FAULT;
otherwise it opens its window with a copy of the profile, and path S starts at the LO for its channel. -/
def Obligations.LinkRxOpensItsWindow : Prop :=
  ∀ s : State,
    (∀ seq c f, LinkQuiet s → s.pathS.job = none → s.cal.linkJob = none → s.clocks.stage = .idle → tuneOf s 2 = none → MayRun s seq 0x38 c →
      Names c 7 → 3 ≤ s.modes.modeNow → s.modes.modeNow ≤ 6 → par c 8 < 4 → par c 9 < 4 → ZeroBytes c 22 31 →
      inScratch (parN c 10 3) (parN c 13 2) = true → parN c 13 2 % 4 = 0 → 64 ≤ parN c 13 2 → parN c 13 2 ≤ 32768 →
      (parN c 16 4 ≠ 0 → covered 2 (parN c 16 4) = true) → 1 ≤ parN c 20 2 → parN c 20 2 ≤ 60000 →
      let p := profileOf s (par c 8)
      f = (if parN c 16 4 = 0 then p.channelHz else parN c 16 4) →
      (∀ k, profileBad p f = some k → exec (.linkRx seq) s = .next (complete seq 0x12 [lowByte (0x80 + k)] s)) ∧
      (profileBad p f = none → covered 2 f = false → exec (.linkRx seq) s = .next (complete seq 0x12 [0x88] s)) ∧
      (profileBad p f = none → covered 2 f = true →
        (channelPermitted s f = false → exec (.linkRx seq) s = .next (complete seq 0x42
          ([1, 0xFF] ++ leBytes (twos 2 (obwKhz p : Nat)) 2) { runs s seq with
            link := { s.link with regDenials := min (2 ^ 32 - 1) (s.link.regDenials + 1) } })) ∧
        (channelPermitted s f = true → s.clocks.fault = true → exec (.linkRx seq) s = .next (complete seq 0x52 [3] (runs s seq))) ∧
        (channelPermitted s f = true → s.clocks.fault = false → s.clocks.locked = true → tableFor s.pathS.synth ≠ none → ∃ t w,
          exec (.linkRx seq) s = .next t ∧ w.seq = seq ∧ w.profile = p ∧
          w.channel = f ∧ w.dest = parN c 10 3 ∧ w.size = parN c 13 2 ∧ w.until_ = s.clocks.sc + msCounts (parN c 20 2) ∧ w.records = 0 ∧
          t.pathS.fe.state = .starting ∧ t.pathS.fe.loNow = linkLo f ∧ t.pathS.synth.locking = true ∧
          t.link = { s.link with hostRx := some w } ∧ t = { runs s seq with link := t.link, pathS := t.pathS, lanes := t.lanes })))

/-- R351, R364, R365, R366, R368, Table 16-10: the window's duration ends it, with the packet in progress where there is one. For a host window that path
S serves at its LO, a detection without a good preamble and an SFD missed are counted; a packet that qualifies takes path S to RX_PACKET, and one
outside the pull-in changes nothing; a PHR that fails its tests is counted, and a packet with a good FCS makes a record in scratch
behind those before it, and only there. In any other state of path S nothing is received. PROFILE_WRITE changes its field, leaves the profile
UNCHECKED and moves the window pointer on. -/
def Obligations.WindowsReceivePackets : Prop :=
  ∀ s : State, NoneDue s → tuneOf s 2 = none →
    (∀ w, s.link.hostRx = some w → s.link.txs = [] → s.sessions.checks = [] → watching s = false →
      (s.clocks.sc < w.until_ ∨ s.pathS.fe.state = .rxPacket → exec .linkRxEnd s = .next s) ∧
      (∀ c, w.until_ ≤ s.clocks.sc → s.rings.inflight = [c] → c.seq = w.seq → s.pathS.fe.state = .run → s.pathS.job = none →
        s.cal.linkJob = none → ∃ t, exec .linkRxEnd s = .next t ∧ t.link.hostRx = none ∧ t.pathS.fe.state = .off ∧ t.rings.inflight = [] ∧
          t.rings.unread = s.rings.unread + 1) ∧
      (s.pathS.fe.state = .run →
        exec .qualTimeout s = .next { s with link := { s.link with qualFails := min (2 ^ 32 - 1) (s.link.qualFails + 1) } } ∧
        (∃ t, exec (.packet none) s = .next t ∧ t.pathS.fe.state = .rxPacket ∧ t = { s with pathS := { s.pathS with fe := t.pathS.fe } })) ∧
      (s.pathS.fe.state = .run ∨ (s.pathS.fe.state = .rxPacket ∧ s.clocks.sc < w.until_ ∧ stopCause s w.seq = none) →
        s.pathS.fe.loNow = linkLo w.channel → s.pathS.job = none → s.cal.linkJob = none → w.pausedAt = none →
        let heard (t : State) : Prop := t.pathS.fe.state = .run ∧ t.pathS.fe.loNow = s.pathS.fe.loNow ∧
          t = { s with link := t.link, mem := t.mem, scrub := t.scrub, pathS := { s.pathS with fe := t.pathS.fe } }
        let dropped := some { w with dropped := w.dropped + 1 }
        (∃ t, exec .sfdTimeout s = .next t ∧ heard t ∧ t.mem = s.mem ∧ t.scrub = s.scrub ∧
          t.link = { s.link with sfdMisses := min (2 ^ 32 - 1) (s.link.sfdMisses + 1), hostRx := dropped }) ∧
        (∀ k, pulledIn s w.profile k = false → exec (.packet (some k)) s = .next s) ∧
        (∀ k0, pulledIn s w.profile k0 = true →
          let k := asReceived w.profile k0
          (phrOk w.profile k = false → ∃ t, exec (.packet (some k0)) s = .next t ∧ heard t ∧ t.mem = s.mem ∧ t.scrub = s.scrub ∧
            t.link = { s.link with phrBad := min (2 ^ 32 - 1) (s.link.phrBad + 1), hostRx := dropped }) ∧
          (phrOk w.profile k = true → k.fcsOk = true → byteAt k.psdu 0 % 8 ≠ 4 → (w.maxPackets = 0 ∨ w.records + 1 < w.maxPackets) →
            let r := rxRecord w.profileNo w.channel false k
            w.bytes + r.length ≤ w.size → ∃ t, exec (.packet (some k0)) s = .next t ∧ heard t ∧
              t.link = { s.link with rxPackets := min (2 ^ 32 - 1) (s.link.rxPackets + 1),
                                     hostRx := some { w with records := w.records + 1, bytes := w.bytes + r.length } } ∧
              t.mem = cellPuts s.mem (w.dest + w.bytes) r ∧
              (∀ a, a < w.dest + w.bytes ∨ w.dest + w.bytes + r.length ≤ a → memGet t a = memGet s a))))) ∧
    (s.pathS.fe.state ≠ .run → exec .qualTimeout s = .next s ∧ exec (.packet none) s = .next s ∧
      (s.pathS.fe.state ≠ .rxPacket → exec .sfdTimeout s = .next s ∧ ∀ k, exec (.packet k) s = .next s)) ∧
    (∀ k v, k < 4 →
      (WindowAt s (0x270101 + 0x80 * k) → exec (.profileWrite v) s = .next { s with
        link := { s.link with profiles := tabSet s.link.profiles k { profileOf s k with fskRate := v.toNat, state := 0 } }
        port := { s.port with ack := true, ptr := s.port.ptr + 1 } }) ∧
      (∀ o p, o < 0x50 → profileByte o v (profileOf s k) = some p → WindowAt s (0x270100 + 0x80 * k + o) →
        exec (.profileWrite v) s = .next { s with
          link := { s.link with profiles := tabSet s.link.profiles k { p with state := 0 } }
          port := { s.port with ack := true, ptr := s.port.ptr + 1 } }))

/-! Sessions and release (chapter 17) -/

/-- R373, R374, R375, R378, R382, R383, R384, Tables 17-1, 17-5, with no release target armed. PAIR of a free record zeroes the key in scratch, clears
TX_LOW (at its start; log entry 118) and CNT_OUT and leaves RX_FLOOR; without CHECK it begins the pairing record's write, with it a presence
check for the record begins. An unpair of a record without a session begins the write of a tombstone. SESSION_CFG stores its fields (OP 0
and 3), ends a session (OP 1; in OP 3 where the pin that it names stands open, log entry 120), or begins a presence check (OP 0 and 2).
The writes are shown with no earlier cellar write incomplete, the checks with path S held by a calibration, where the CHALLENGE waits. -/
def Obligations.PairAndSessionCommands : Prop :=
  ∀ s : State, s.sessions.targets = [] →
    (∀ seq m c n, MayRun s seq 0x40 c → Names c 8 → cmdIdx c = n → 3 ≤ s.modes.modeNow → s.modes.modeNow ≤ 6 → par c 11 = 0 →
      ZeroBytes c 23 31 → c.desc.length = 32 → fraction s.cellar 2 ≠ 3 →
      let free := WritesClear s ∧ noEarlierWrite (earlier s.rings.inflight seq) = true
      let ringsStand (t : State) : Prop := t.rings = { s.rings with inflight := t.rings.inflight } ∧
        t.rings.inflight.map (·.seq) = s.rings.inflight.map (·.seq)
      (par c 8 = 0 → 1 ≤ par c 9 → par c 9 ≤ 3 → par c 10 < 2 → inScratch (parN c 20 3) 16 = true → (endpointOf s n).paired = false →
        euiTaken s n (parN c 12 8) = false → Memory.wf s.cellar.shadow = true →
        let keyTaken (t : State) : Prop := txLow t n = 0 ∧ rxFloor t n = rxFloor s n ∧
          t.mem = cellPuts s.mem (parN c 20 3) (List.replicate 16 0) ∧ endpointOf t n = { endpointOf s n with cntOut := false } ∧ ringsStand t
        (par c 10 = 0 → free → RoomFor s.cellar (0x8000 + n) 26 → ∃ t, exec (.pair seq m) s = .next t ∧ keyTaken t ∧
          WriteBegun { s.cellar with shadow := t.cellar.shadow, written := t.cellar.written, dirty := t.cellar.dirty } t.cellar seq (0x8000 + n)
            false ([lowByte (par c 9), 0] ++ (c.desc.drop 12).take 8 ++ memGets s (parN c 20 3) 16) ∧
          t = { s with rings := t.rings, mem := t.mem, scrub := t.scrub, cellar := t.cellar, fresh := t.fresh,
                       sessions := { s.sessions with endpoints := t.sessions.endpoints } }) ∧
        (par c 10 = 1 → LinkHeld s → ∃ t, exec (.pair seq m) s = .next t ∧ keyTaken t ∧ t.link.txs = [newTx (.check n) (some m)] ∧
          (t.sessions.checks.map fun k => (k.ep, k.purpose, k.eui, k.limit)) = [(n, .pair seq, parN c 12 8, (endpointOf s n).checkTries)] ∧
          t.sessions.checkCount = min 65535 (s.sessions.checkCount + 1) ∧
          t = { s with rings := t.rings, mem := t.mem, scrub := t.scrub, fresh := s.fresh + 1, link := { s.link with txs := t.link.txs },
                       cellar := { s.cellar with shadow := t.cellar.shadow, written := t.cellar.written, dirty := t.cellar.dirty },
                       sessions := { s.sessions with endpoints := t.sessions.endpoints, checks := t.sessions.checks,
                                                     checkCount := t.sessions.checkCount } })) ∧
      (par c 8 = 1 → par c 10 < 2 → (endpointOf s n).paired = true → (endpointOf s n).session = false → LinkQuiet s → free →
        RoomFor s.cellar (0x8000 + n) 0 → ∃ t, exec (.pair seq m) s = .next t ∧ WriteBegun s.cellar t.cellar seq (0x8000 + n) true [] ∧
          ringsStand t ∧ t = { s with rings := t.rings, cellar := t.cellar })) ∧
    (∀ seq m c n, MayRun s seq 0x41 c → Names c 8 → cmdIdx c = n → 3 ≤ s.modes.modeNow → s.modes.modeNow ≤ 6 → par c 9 < 32 →
      ZeroBytes c 18 31 → (endpointOf s n).paired = true →
      let e := endpointOf s n
      let period := if parN c 12 2 = 0 then 300 else parN c 12 2
      let timeout := if parN c 14 4 = 0 then 1800 else parN c 14 4
      let stored := { e with targetMask := par c 9 % 16, useWinPin := bit (par c 9) 4, windowEp := par c 10,
                             checkTries := if par c 11 = 0 then 3 else par c 11, checkPeriod := period, timeout := timeout }
      let challenge (t : State) : Prop := t.link.txs = [newTx (.check n) (some m)] ∧
        t.sessions.checkCount = min 65535 (s.sessions.checkCount + 1) ∧ t.fresh = s.fresh + 1 ∧
        t = { runs s seq with link := { s.link with txs := t.link.txs }, fresh := t.fresh,
                              sessions := { s.sessions with endpoints := t.sessions.endpoints, checks := t.sessions.checks,
                                                            checkCount := t.sessions.checkCount } }
      (par c 8 = 1 → e.session = true → LinkQuiet s → ∃ u, exec (.sessionCfg seq m) s = .next (complete seq 0x00 [] u) ∧
        endpointOf u n = { e with session := false, demand := false, endCause := 4 } ∧ u.port.irqStat1 = s.port.irqStat1 ||| 0x08 ∧
        u = { runs s seq with port := { s.port with irqStat1 := u.port.irqStat1 }
                              sessions := { s.sessions with endpoints := u.sessions.endpoints } }) ∧
      (par c 8 = 1 → e.session = false → LinkQuiet s → exec (.sessionCfg seq m) s = .next (complete seq 0x00 [] (runs s seq))) ∧
      (par c 8 = 2 → txLow s n < 0xFFFFFF → LinkHeld s → ∃ t, exec (.sessionCfg seq m) s = .next t ∧ challenge t ∧ endpointOf t n = e ∧
        (t.sessions.checks.map fun k => (k.ep, k.purpose, k.eui, k.limit)) = [(n, .now seq, e.eui, e.checkTries)]) ∧
      (par c 10 < 128 ∨ par c 10 = 0xFF → par c 11 ≤ 5 → 60 ≤ period → period ≤ 3600 → period < timeout → 120 ≤ timeout → timeout ≤ 86400 →
        e.role ≠ 3 →
        (par c 8 = 3 → LinkQuiet s →
          (e.session = false ∨ (par c 10 = 0xFF ∧ (bit (par c 9) 4 = false ∨ s.sessions.winPin = false)) →
            exec (.sessionCfg seq m) s = .next (complete seq 0x00 [] { runs s seq with
              sessions := { s.sessions with endpoints := tabSet s.sessions.endpoints n stored } })) ∧
          (e.session = true → bit (par c 9) 4 = true → s.sessions.winPin = true → ∃ u,
            exec (.sessionCfg seq m) s = .next (complete seq 0x00 [] u) ∧
            endpointOf u n = { stored with session := false, demand := false, endCause := 2 } ∧ u.port.irqStat1 = s.port.irqStat1 ||| 0x08 ∧
            u = { runs s seq with port := { s.port with irqStat1 := u.port.irqStat1 }
                                  sessions := { s.sessions with endpoints := u.sessions.endpoints } })) ∧
        (par c 8 = 0 → e.session = false → cfgWindowOpen s c = false → txLow s n < 0xFFFFFF → LinkHeld s → ∃ t, exec (.sessionCfg seq m) s = .next t ∧
          challenge t ∧ endpointOf t n = stored ∧
          (t.sessions.checks.map fun k => (k.ep, k.purpose, k.eui, k.limit)) = [(n, .start seq, e.eui, stored.checkTries)])))

/-- R37, R378, R380, R383, R384, R385, Table 17-6, with no release target armed: a periodic check begins when it is due and not before; the time-out,
once past, and the window input end a session with SESSION_EVENT; without VIO the input is not seen. A try without a RESPONSE by its
time is followed by another, and the last ends a periodic check with NO_RESPONSE, which leaves the session; each is counted in NO_RESP. -/
def Obligations.SessionsAndChecksEnd : Prop :=
  ∀ s : State, s.sessions.targets = [] →
    (∀ n m, (endpointOf s n).session = true →
      ((endpointOf s n).nextCheck ≤ s.clocks.sc / 2 ^ 24 → LinkHeld s → ∃ t, exec (.sessionCheck n m) s = .next t ∧
        t.link.txs = [newTx (.check n) (some m)] ∧
        endpointOf t n = { endpointOf s n with nextCheck := (endpointOf s n).nextCheck + (endpointOf s n).checkPeriod } ∧
        (t.sessions.checks.map fun k => (k.ep, k.purpose)) = [(n, .periodic)]) ∧
      (s.clocks.sc / 2 ^ 24 < (endpointOf s n).nextCheck → exec (.sessionCheck n m) s = .next s) ∧
      ((endpointOf s n).expires * 2 ^ 24 < s.clocks.sc → LinkQuiet s → ∃ t, exec (.sessionTimeout n) s = .next t ∧
        endpointOf t n = { endpointOf s n with session := false, demand := false, endCause := 1 } ∧
        (s.power.phase = .ready → t.port.irqStat1 = s.port.irqStat1 ||| 0x08) ∧
        t = { s with port := { s.port with irqStat1 := t.port.irqStat1 }
                     sessions := { s.sessions with endpoints := t.sessions.endpoints } }) ∧
      (s.clocks.sc ≤ (endpointOf s n).expires * 2 ^ 24 → exec (.sessionTimeout n) s = .next s)) ∧
    (∀ level, (s.power.vioValid = false → exec (.winOpen level) s = .next s) ∧
      (s.power.vioValid = true → level = false → exec (.winOpen level) s = .next { s with sessions := { s.sessions with winPin := false } }) ∧
      (∀ n e, s.power.vioValid = true → level = true → s.power.phase = .ready → LinkQuiet s → s.sessions.endpoints = [(n, e)] →
        e.session = true → ∃ t, exec (.winOpen level) s = .next t ∧ t.sessions.winPin = true ∧
          endpointOf t n = (if e.useWinPin then { e with session := false, demand := false, endCause := 2 } else e) ∧
          (e.useWinPin = true → t.port.irqStat1 = s.port.irqStat1 ||| 0x08) ∧
          t = { s with port := { s.port with irqStat1 := t.port.irqStat1 }
                       sessions := { s.sessions with winPin := true, endpoints := t.sessions.endpoints } })) ∧
    (∀ k, s.sessions.checks = [k] → s.link.txs = [] → s.link.hostRx = none → watching s = false → s.pathS.job ≠ none →
      s.pathS.fe.state = .cal → NoneDue s → Memory.wf s.cellar.shadow = true → k.ep < 128 →
      (k.windowOpen = false ∨ s.clocks.sc < k.until_ → exec .responseTimeout s = .next s) ∧
      (k.windowOpen = true → k.until_ ≤ s.clocks.sc → k.fail = 0 →
        (k.tries + 1 < k.limit → ∃ t, exec .responseTimeout s = .next t ∧ t.link.txs = [newTx (.check k.ep) k.margin] ∧
          (t.sessions.checks.map fun j => (j.ep, j.tries, j.windowOpen)) = [(k.ep, k.tries + 1, false)] ∧
          epGet t k.ep 10 2 = min 65535 (epGet s k.ep 10 2 + 1) ∧
          t = { s with link := { s.link with txs := t.link.txs }, sessions := { s.sessions with checks := t.sessions.checks }, fresh := s.fresh + 1,
                       cellar := { s.cellar with shadow := t.cellar.shadow, written := t.cellar.written, dirty := t.cellar.dirty } }) ∧
        (k.limit ≤ k.tries + 1 → k.purpose = .periodic → ∃ t, exec .responseTimeout s = .next t ∧ t.link.txs = [] ∧ t.sessions.checks = [] ∧
          (endpointOf t k.ep).lastResult = 0x60 ∧ (endpointOf t k.ep).session = (endpointOf s k.ep).session ∧
          epGet t k.ep 10 2 = min 65535 (epGet s k.ep 10 2 + 1) ∧ epGet t k.ep 8 2 = epGet s k.ep 8 2 ∧
          t = { s with sessions := { s.sessions with endpoints := t.sessions.endpoints, checks := [] }, fresh := t.fresh,
                       cellar := { s.cellar with shadow := t.cellar.shadow, written := t.cellar.written, dirty := t.cellar.dirty } })))

/-- R386, R387, R388, Tables 17-3, 17-10: RELEASE_START arms its target: with demand the schedule starts at a whole second at least 20 ms on, 250 ms later for each
target index, and without it the command completes with the target waiting; for an armed target it changes the fields. RELEASE_STOP disarms,
after a STOP frame where it is asked for. An attempt begins when it is due, and again after its retry delay; one not sent by half an interval after
its due time is skipped and counted. With path S held the frames wait. -/
def Obligations.ReleasesFollowTheirSchedule : Prop :=
  ∀ (s : State) (k : Nat), k < 4 →
    let x := targetOf s k
    (∀ seq c, MayRun s seq 0x42 c → Names c 9 → cmdIdx c = k → 3 ≤ s.modes.modeNow → s.modes.modeNow ≤ 6 → par c 8 < 128 → par c 9 < 2 →
      par c 10 ≤ 100 → par c 11 = 0 → (parN c 12 2 = 0 ∨ (60 ≤ parN c 12 2 ∧ parN c 12 2 ≤ 600)) → ZeroBytes c 14 31 →
      (endpointOf s (par c 8)).paired = true → (endpointOf s (par c 8)).role = 3 → s.modes.epochOk = true → txLow s (par c 8) < 0xFFFFFF →
      (∀ j, j < 4 → j ≠ k → armed (targetOf s j) = true → (targetOf s j).ep ≠ par c 8) →
      let y := { x with ep := par c 8, requireSession := par c 9 == 1, level := par c 10,
                        interval := if parN c 12 2 = 0 then 120 else parN c 12 2 }
      (armed x = false → par c 9 = 0 → ∃ due, exec (.releaseStart seq) s = .next (modTarget (runs s seq) k fun _ =>
          { y with state := .sending, nextDue := due, retry := false, denied := false }) ∧
        due % 2 ^ 24 = 2 ^ 22 * k ∧ 50 * s.clocks.sc + 2 ^ 24 ≤ 50 * (due - 2 ^ 22 * k) ∧
        50 * (due - 2 ^ 22 * k) < 50 * s.clocks.sc + 2 ^ 24 + 50 * 2 ^ 24) ∧
      (armed x = false → par c 9 = 1 → activeSessions s = [] → exec (.releaseStart seq) s = .next (complete seq 0x00 [1]
        (modTarget (runs s seq) k fun _ => { y with state := .waiting }))) ∧
      (x.state = .sending → par c 9 = 0 → s.sessions.targets = [(k, x)] → LinkQuiet s → exec (.releaseStart seq) s = .next (complete seq 0x00 [2]
        (modTarget (runs s seq) k fun _ => y)))) ∧
    (∀ seq m c, MayRun s seq 0x43 c → Names c 9 → cmdIdx c = k → 3 ≤ s.modes.modeNow → s.modes.modeNow ≤ 6 → ZeroBytes c 9 31 →
      (par c 8 = 0 ∨ (par c 8 = 1 ∧ armed x = false) → LinkQuiet s → exec (.releaseStop seq m) s = .next (complete seq 0x00 []
        (modTarget (runs s seq) k fun _ => { x with state := .idle, retry := false, denied := false }))) ∧
      (par c 8 = 1 → armed x = true → LinkHeld s → exec (.releaseStop seq m) s = .next { modTarget (runs s seq) k fun _ =>
        { x with state := .idle, retry := false, denied := false } with
        link := { s.link with txs := [newTx (.release k true) (some m)] } })) ∧
    (x.state = .sending →
      (∀ m, x.retry = false → x.denied = false → LinkHeld s →
        (x.nextDue ≤ s.clocks.sc + microsCounts 20000 → exec (.releaseDue k m) s = .next { s with
          link := { s.link with txs := [newTx (.release k false) (some m)] } }) ∧
        (s.clocks.sc + microsCounts 20000 < x.nextDue → exec (.releaseDue k m) s = .next s)) ∧
      (x.retry = true → x.retryAt ≤ s.clocks.sc → LinkHeld s → exec (.releaseRetry k) s = .next { modTarget s k fun _ =>
        { x with retry := false, busyRetries := min 65535 (x.busyRetries + 1) } with
        link := { s.link with txs := [newTx (.release k false) none] } }) ∧
      (x.retry = false ∨ s.clocks.sc < x.retryAt → exec (.releaseRetry k) s = .next s) ∧
      (s.clocks.sc < x.nextDue + x.interval * 2 ^ 24 / 2 → exec (.releaseSkip k) s = .next s) ∧
      (x.nextDue + x.interval * 2 ^ 24 / 2 ≤ s.clocks.sc → LinkQuiet s → ∃ t, exec (.releaseSkip k) s = .next t ∧
        (targetOf t k).missed = min 65535 (x.missed + 1) ∧ t.sessions.skips = min 65535 (s.sessions.skips + 1) ∧
        x.nextDue + x.interval * 2 ^ 24 ≤ (targetOf t k).nextDue ∧
        (0 < x.interval → (targetOf t k).nextDue < x.nextDue + x.interval * 2 ^ 24 + x.interval * 2 ^ 24 / 16) ∧
        (targetOf t k).state = .sending ∧ (targetOf t k).retry = false ∧ (targetOf t k).denied = false ∧
        (s.power.phase = .ready → t.port.irqStat1 = s.port.irqStat1 ||| 0x10) ∧ (∀ j, j ≠ k → targetOf t j = targetOf s j) ∧
        t = { s with sessions := { s.sessions with targets := t.sessions.targets, skips := t.sessions.skips }, fresh := t.fresh,
                     port := { s.port with irqStat1 := t.port.irqStat1 } })) ∧
    (x.state ≠ .sending → (∀ m, exec (.releaseDue k m) s = .next s) ∧ exec (.releaseRetry k) s = .next s ∧ exec (.releaseSkip k) s = .next s)

/-! Audio and the cellar (chapters 18 and 19) -/

/-- R395, R396, R397, R407, R411, R412, R418: SAP_CFG puts a stopped port's configuration in force with its divider, the nearest multiple of 2^-24, and its
pool; on a running port, where the maps alone may differ, the new maps come into force and the command goes on running. SAP_START gives
a configured port fresh counters, an empty pool and its first FS edge (at its count, not before now; sharing SAP0's clock, at SAP0's next
frame), starting until that edge, whose STAMP completes the command. SAP_STOP begins the fall of a running port, and of SAP1 with SAP0 where it
shares its clock, and completes at once for a stopped one; once the last frame of the fall has been sent whole the port stops and the command
completes with the next FRAME_SEQ. The other port stands where the rule does not name it. -/
def Obligations.PortCommandsConfigureRunAndStop : Prop :=
  ∀ (s : State) (p : Nat), p < 2 →
    let x := sapOf s p
    let shared := (sapOf s 1).used.shareFs
    (∀ seq edge c, Names c 10 → cmdIdx c = p → ZeroBytes c 8 31 → s.modes.modeNow = 5 →
      (MayRun s seq 0x48 c → firstFail (configFields x.cfg (cfgCkDiv s p x.cfg)) = none → firstFail (micFields s x.cfg) = none →
        ratesAgree s p x.cfg = true → (p = 0 ∨ x.cfg.shareFs = false ∨ sharedAgree s x.cfg = true) →
        let inForce (u : State) : Prop :=
          let y := sapOf u p
          let d := y.divInt * 2 ^ 24 + y.divFrac
          let den := cfgCkDiv s p x.cfg * x.cfg.rateHz * frameBits x.cfg
          y.used = x.cfg ∧ y.cfg = x.cfg ∧ y.configOk = true ∧ y.state = x.state ∧
          y.poolBlocks = min 255 (98304 / blockBytes x.cfg x.cfg.framesPerBlock) ∧
          (0 < den → 2 * 3932160000 * 2 ^ 24 < 2 * d * den + den ∧ 2 * d * den ≤ 2 * 3932160000 * 2 ^ 24 + den) ∧
          ∀ q, q ≠ p → sapOf u q = sapOf s q
        (sapRuns x = false → ∃ u, exec (.sapCfg seq) s = .next (complete seq 0x00 (leBytes (sapOf u p).divFrac 3 ++
            leBytes (sapOf u p).divInt 2 ++ leBytes (twos 2 (sapOf u p).fsErr) 2 ++ [lowByte (sapOf u p).poolBlocks]) u) ∧
          inForce u ∧ u = { runs s seq with saps := u.saps, pdm := u.pdm }) ∧
        (sapRuns x = true → withMaps x.used x.cfg = x.cfg → ∃ u, exec (.sapCfg seq) s = .next u ∧ inForce u ∧
          u = { runs s seq with saps := u.saps, pdm := u.pdm, fresh := u.fresh })) ∧
      (MayRun s seq 0x49 c → x.configOk = true → sapRuns x = false → (p = 0 ∨ x.used.shareFs = false ∨ sapRuns (sapOf s 0) = true) →
        playoutOk s x.used = true →
        let joins := p = 1 ∧ shared = true
        let stamp := if joins then ((frameClock s 0).edge (nextFrame s 0)).toNat / 3750 else max edge s.clocks.sc
        ∃ u, (sapOf u p).startStamp = stamp ∧ (sapOf u p).capProd = 0 ∧ (sapOf u p).capCons = 0 ∧
          (sapOf u p).underrunFrames = 0 ∧ (sapOf u p).blocksLost = 0 ∧ (sapOf u p).bseq = 0 ∧ (sapOf u p).startNext = true ∧
          (sapOf u p).used = x.used ∧ (sapOf u p).blockFrame = (if joins then nextFrame s 0 else 0) ∧
          (∀ q, q ≠ p → sapOf u q = sapOf s q) ∧ u = { runs s seq with saps := u.saps, pdm := u.pdm, fresh := u.fresh } ∧
          (s.clocks.sc < stamp → exec (.sapStart seq edge) s = .next u ∧ (sapOf u p).state = .starting) ∧
          (stamp ≤ s.clocks.sc → exec (.sapStart seq edge) s = .next (complete seq 0x00 (leBytes stamp 8) u) ∧
            (sapOf u p).state = .running)) ∧
      (MayRun s seq 0x4A c →
        (x.state = .starting ∨ x.state = .running → p = 1 ∨ shared = false → exec (.sapStop seq) s = .next
          (setSap (runs s seq) p { x with state := .stopping, fall := some (nextFrame s p) })) ∧
        (x.state = .starting ∨ x.state = .running → p = 0 → shared = true → (sapOf s 1).state = .starting ∨ (sapOf s 1).state = .running →
          exec (.sapStop seq) s = .next (setSap (setSap (runs s seq) 0 { x with state := .stopping, fall := some (nextFrame s 0) }) 1
            { sapOf s 1 with state := .stopping, fall := some (nextFrame s 1) })) ∧
        (x.state = .stopping → p = 1 ∨ shared = false → exec (.sapStop seq) s = .next (runs s seq)) ∧
        (sapRuns x = false → exec (.sapStop seq) s = .next (complete seq 0x00 (leBytes x.nextOut 4 ++ leBytes x.underrunFrames 4)
          (runs s seq))))) ∧
    (lastFrame s p = none → exec (.sapStopRampEnd p) s = .next s) ∧
    (∀ f, lastFrame s p = some f →
      ((unitsNow s : Int) < (frameClock s p).edge (f + 1) → exec (.sapStopRampEnd p) s = .next s) ∧
      (∀ c, (frameClock s p).edge (f + 1) ≤ (unitsNow s : Int) → p = 1 ∨ shared = false → runningOf s 0x4A (0xA000 + p) = some c → ∃ u,
        exec (.sapStopRampEnd p) s = .next (complete c.seq 0x00 (leBytes x.nextOut 4 ++ leBytes x.underrunFrames 4) u) ∧
        (sapOf u p).state = .stopped ∧ (sapOf u p).fall = none ∧ (sapOf u p).nextOut = x.nextOut ∧ (∀ q, q ≠ p → sapOf u q = sapOf s q) ∧
        (x.frames = [] → u.mem = s.mem) ∧
        u = { s with saps := u.saps, pdm := u.pdm, mem := u.mem, scrub := u.scrub, port := { s.port with irqStat1 := u.port.irqStat1 } }))

/-- R404, R412, R414, R415, R416, R417, Table 18-5: a full capture block goes to its pool slot and advances CAP_PROD, or is lost whole when no block is
free, counted, and leaves GAP for the next; with no block full nothing changes. An underrun makes the frame sent last zero, once, and counts. A
microphone overrun counts its lost frames and mutes the microphones of its pin at each running port that takes them, but does nothing while
the plan holds (R117). A group's settle time ends when it is due. The other port's state stands. -/
def Obligations.PortsCaptureAndCount : Prop :=
  ∀ (s : State) (p : Nat), p < 2 →
    let x := sapOf s p
    let n := x.used.framesPerBlock
    (sapRuns x = false ∨ x.frames.length ≤ n → exec (.captureBlock p) s = .next s) ∧
    (sapRuns x = true → n < x.frames.length →
      (capQueued x < x.poolBlocks → ∃ t, exec (.captureBlock p) s = .next t ∧
        t.mem = cellPuts s.mem (poolBase p + x.capProd % x.poolBlocks * blockBytes x.used n) (captureBytes s p (x.frames.take n)) ∧
        (sapOf t p).capProd = (x.capProd + 1) % 65536 ∧ (sapOf t p).bseq = (x.bseq + 1) % 2 ^ 32 ∧
        (sapOf t p).blockFrame = x.blockFrame + n ∧ (sapOf t p).frames = x.frames.drop n ∧ (sapOf t p).gapNext = false ∧
        (sapOf t p).startNext = false ∧ (sapOf t p).blocksLost = x.blocksLost ∧ (∀ q, q ≠ p → sapOf t q = sapOf s q) ∧
        t = { s with saps := t.saps, mem := t.mem, scrub := t.scrub, port := { s.port with irqStat1 := t.port.irqStat1 } }) ∧
      (x.poolBlocks ≤ capQueued x → ∃ t, exec (.captureBlock p) s = .next t ∧
        (sapOf t p).blocksLost = min (2 ^ 32 - 1) (x.blocksLost + 1) ∧ (sapOf t p).gapNext = true ∧ (sapOf t p).capProd = x.capProd ∧
        (sapOf t p).bseq = (x.bseq + 1) % 2 ^ 32 ∧ (sapOf t p).blockFrame = x.blockFrame + n ∧ (sapOf t p).frames = x.frames.drop n ∧
        (s.power.phase = .ready → t.port.irqStat1 = s.port.irqStat1 ||| 0x20) ∧ (∀ q, q ≠ p → sapOf t q = sapOf s q) ∧
        t = { s with saps := t.saps, port := { s.port with irqStat1 := t.port.irqStat1 } })) ∧
    (x.sent = [] → exec (.underrun p) s = .next s) ∧
    (∀ f fs, x.sent = f :: fs → (f.zero = true → exec (.underrun p) s = .next s) ∧
      (f.zero = false → ∃ t, exec (.underrun p) s = .next t ∧ (sapOf t p).underrunFrames = min (2 ^ 32 - 1) (x.underrunFrames + 1) ∧
        (sapOf t p).sent = zeroFrame f :: fs ∧ sapOf t p = { x with underrunFrames := (sapOf t p).underrunFrames, sent := zeroFrame f :: fs, frames := (sapOf t p).frames } ∧
        (∀ g gs, x.frames = gs ++ [g] → (sapOf t p).frames = gs ++ [zeroFrame g]) ∧
        (∀ q, q ≠ p → sapOf t q = sapOf s q) ∧ (s.power.phase = .ready → t.port.irqStat1 = s.port.irqStat1 ||| 0x20) ∧
        t = { s with saps := t.saps, port := { s.port with irqStat1 := t.port.irqStat1 } })) ∧
    (∀ pin k,
      let clocked := if pin / 2 = 0 then s.pdm.clkA else s.pdm.clkB
      let takes := sapRuns x && (takesSource x (512 + 2 * pin) || takesSource x (513 + 2 * pin))
      (4 ≤ pin ∨ k = 0 ∨ clocked = false ∨ planHolds s = true → exec (.pdmOverrun pin k) s = .next s) ∧
      (pin < 4 → 0 < k → clocked = true → planHolds s = false → ∃ t, exec (.pdmOverrun pin k) s = .next t ∧ t = { s with saps := t.saps } ∧
        (sapOf t p).micLostFrames = (if takes then min (2 ^ 32 - 1) (x.micLostFrames + k) else x.micLostFrames) ∧
        (sapOf t p).sent = x.sent ∧ (sapOf t p).frames = x.frames ∧
        ∀ m, m / 2 = pin → sapRuns x = true → takesSource x (512 + m) = true → ∃ w ∈ (sapOf t p).stretches,
          w.source = 512 + m ∧ w.cause = .lost ∧ w.stop = some ((s.clocks.sc * 3750 : Nat) : Int))) ∧
    (∀ u, s.pdm.settlingA = some u → u ≤ s.clocks.sc →
      exec (.micSettle 0) s = .next { s with pdm := { s.pdm with settlingA := none, settledA := s.clocks.sc } }) ∧
    (∀ u, s.pdm.settlingB = some u → u ≤ s.clocks.sc →
      exec (.micSettle 1) s = .next { s with pdm := { s.pdm with settlingB := none, settledB := s.clocks.sc } }) ∧
    (s.pdm.settlingA = none → exec (.micSettle 0) s = .next s) ∧ (s.pdm.settlingB = none → exec (.micSettle 1) s = .next s)

/-- R87, R425, R426, R427, R428, R429, R438, R439, Tables 19-8, 19-9, for a host key and with no cellar write waiting: CELLAR_PUT completes with
PROTECTED where the region's FRACTION or lock forbids it, with CELLAR_FULL where no room is left, and otherwise, with a head sector that
takes it, begins the record of its key; CELLAR_ERASE_KEY completes with PROTECTED likewise, with ABSENT for a key that holds nothing, and
otherwise begins a tombstone. CELLAR_GET completes with PROTECTED while reading is locked, and else delivers what the key holds, or ABSENT. -/
def Obligations.RecordCommandsReadAndWrite : Prop :=
  ∀ (s : State) (seq : Nat) (c : Cmd), WritesClear s →
    (cmdObj c = 0xB000 → ∀ key, parN c 8 2 = key → keyClass key = .host →
      let len := parN c 10 2
      let src := parN c 12 3
      (MayRun s seq 0x50 c → 1 ≤ len → len ≤ 1024 → inScratch src len = true → ZeroBytes c 15 31 →
        (key < protectedBelow false (fraction s.cellar 0) → exec (.cellarPut seq) s = .next (complete seq 0x30 [0, 1] s)) ∧
        (protectedBelow false (fraction s.cellar 0) ≤ key → locked s.cellar 0 1 = true →
          exec (.cellarPut seq) s = .next (complete seq 0x30 [0, 2] s)) ∧
        (protectedBelow false (fraction s.cellar 0) ≤ key → locked s.cellar 0 1 = false →
          (s.cellar.reclaim = none → cellarFull s.cellar false key len = true → exec (.cellarPut seq) s = .next (complete seq 0x32 [] (runs s seq))) ∧
          (RoomFor s.cellar key len → ∃ t, exec (.cellarPut seq) s = .next t ∧ t = { runs s seq with cellar := t.cellar } ∧
            WriteBegun s.cellar t.cellar seq key false (memGets s src len)))) ∧
      (MayRun s seq 0x51 c → len ≤ 1024 → inScratch src len = true → ZeroBytes c 15 31 →
        (locked s.cellar 0 0 = true → exec (.cellarGet seq) s = .next (complete seq 0x30 [0, 2] s)) ∧
        (locked s.cellar 0 0 = false → keyContent s.cellar key = none → exec (.cellarGet seq) s = .next (complete seq 0x01 [] (runs s seq))) ∧
        (∀ v b, locked s.cellar 0 0 = false → keyContent s.cellar key = some (v, b) → ∃ u,
          exec (.cellarGet seq) s = .next (complete seq 0x00 (leBytes v 4 ++ leBytes b.length 2 ++ leBytes (min len b.length) 2) u) ∧
          u.mem = cellPuts s.mem src (b.take len) ∧ u = { runs s seq with mem := u.mem, scrub := u.scrub })) ∧
      (MayRun s seq 0x52 c → ZeroBytes c 10 31 → key < protectedBelow false (fraction s.cellar 0) →
        exec (.cellarEraseKey seq) s = .next (complete seq 0x30 [0, 1] s)) ∧
      (MayRun s seq 0x52 c → ZeroBytes c 10 31 → protectedBelow false (fraction s.cellar 0) ≤ key → locked s.cellar 0 1 = true →
        exec (.cellarEraseKey seq) s = .next (complete seq 0x30 [0, 2] s)) ∧
      (MayRun s seq 0x52 c → ZeroBytes c 10 31 → protectedBelow false (fraction s.cellar 0) ≤ key → locked s.cellar 0 1 = false →
        (keyContent s.cellar key = none → exec (.cellarEraseKey seq) s = .next (complete seq 0x01 [] (runs s seq))) ∧
        (keyContent s.cellar key ≠ none → RoomFor s.cellar key 0 → ∃ t, exec (.cellarEraseKey seq) s = .next t ∧
          t = { runs s seq with cellar := t.cellar } ∧ WriteBegun s.cellar t.cellar seq key true [])))

/-- R433, R434, R435: with no cellar write waiting and the access neither protected nor locked, SHADOW_WRITE and SHADOW_READ move bytes inside one page
(WRAP) or straight on (SPAN) and answer the address after the last byte and the pages touched; a write sets DIRTY and changes no other byte;
a read of an array of which no page was ever written completes with ABSENT, its bytes delivered. SHADOW_STORE completes at once for a
clean array with the SEQ in force, and begins a store of a dirty one: on bank B where A is the newer valid one, on A where B is or neither is
valid, the chosen bank invalid from then on and the other as it was, with a SEQ one above the newer one's. -/
def Obligations.ShadowCommandsReadAndWrite : Prop :=
  ∀ (s : State) (seq : Nat) (c : Cmd), WritesClear s →
    (cmdObj c = 0xB001 →
      let addr := parN c 8 2
      let len := parN c 10 2
      let ptr := parN c 12 3
      let spot (i : Nat) : Nat := if par c 15 = 1 then addr + i else addr / 64 * 64 + (addr + i) % 64
      let pages := if par c 15 = 1 then (addr + len - 1) / 64 + 1 - addr / 64 else 1
      (par c 15 < 2 → ZeroBytes c 16 31 → inScratch ptr len = true → 1 ≤ len → (par c 15 = 0 → len ≤ 64) →
        (MayRun s seq 0x53 c → addr < 0x1400 → len ≤ 5120 → (par c 15 = 1 → addr + len ≤ 0x1400) →
          (∀ i, i < len → protectedBelow true (fraction s.cellar 1) ≤ spot i) → locked s.cellar 1 1 = false →
          Memory.wf s.cellar.shadow = true → ∃ u,
          exec (.shadowWrite seq) s = .next (complete seq 0x00 (leBytes (spot len) 2 ++ [lowByte pages]) u) ∧
          (∀ i, i < len → cellGet u.cellar.shadow (spot i) = memGet s (ptr + i)) ∧
          (∀ a, (∀ i, i < len → a ≠ spot i) → cellGet u.cellar.shadow a = cellGet s.cellar.shadow a) ∧ u.cellar.dirty = true ∧
          u = { runs s seq with cellar := { s.cellar with shadow := u.cellar.shadow, written := u.cellar.written, dirty := true } }) ∧
        (MayRun s seq 0x54 c → addr < 0x2000 → len ≤ 8192 → (par c 15 = 1 → addr + len ≤ 0x2000) → locked s.cellar 1 0 = false → ∃ u,
          u.mem = cellPuts s.mem ptr ((List.range len).map fun i => cellGet s.cellar.shadow (spot i)) ∧
          u = { runs s seq with mem := u.mem, scrub := u.scrub } ∧
          (s.cellar.written = 0 → exec (.shadowRead seq) s = .next (complete seq 0x01 [] u)) ∧
          (s.cellar.written.getLsbD (addr / 64) = true →
            exec (.shadowRead seq) s = .next (complete seq 0x00 (leBytes (spot len) 2 ++ [lowByte pages]) u)))) ∧
      (MayRun s seq 0x55 c → ZeroBytes c 8 31 →
        (s.cellar.dirty = false → exec (.shadowStore seq) s = .next (complete seq 0x00 (leBytes (newerSeq s.cellar) 4 ++ [0xFF, 0x01])
          (runs s seq))) ∧
        (s.cellar.dirty = true → ∃ t k, exec (.shadowStore seq) s = .next t ∧ t.cellar.store = some k ∧ k.seq = some seq ∧ k.opsLeft = 131 ∧
          k.data = t.cellar.shadow ∧ k.written = t.cellar.written ∧ t.cellar.dirty = false ∧
          k.bankB = (s.cellar.bankA.valid && (!s.cellar.bankB.valid || decide (s.cellar.bankB.seq ≤ s.cellar.bankA.seq))) ∧
          k.newSeq = max (if s.cellar.bankA.valid then s.cellar.bankA.seq else 0) (if s.cellar.bankB.valid then s.cellar.bankB.seq else 0) + 1 ∧
          (bankOf t.cellar k.bankB).valid = false ∧ bankOf t.cellar (!k.bankB) = bankOf s.cellar (!k.bankB) ∧
          t = { runs s seq with cellar := t.cellar })))

/-- R438, R440, R441, Table 19-9, with no cellar write waiting: PROTECT_SET begins the record of key 0x4001 with its region's FRACTION changed and the
others as they are, unless the region is locked for writing, which is PROTECTED; UNLOCK of an access with no password answers so, unlocks
the access by the right password and relocks both accesses by a wrong one, counted. -/
def Obligations.ProtectionCommandsLockAndUnlock : Prop :=
  ∀ (s : State) (seq : Nat) (c : Cmd), WritesClear s →
    (Names c 11 →
      let r := cmdIdx c
      (MayRun s seq 0x56 c → par c 8 < 4 → (r = 2 → par c 8 = 0 ∨ par c 8 = 3) → par c 9 < 2 → ZeroBytes c 10 31 →
        (locked s.cellar r 1 = true → exec (.protectSet seq) s = .next (complete seq 0x30 [lowByte r, 2] s)) ∧
        (locked s.cellar r 1 = false → RoomFor s.cellar 0x4001 1 → ∃ t, exec (.protectSet seq) s = .next t ∧
          t = { runs s seq with cellar := t.cellar } ∧ WriteBegun s.cellar t.cellar seq 0x4001 false
            [lowByte ((if r = 0 then par c 8 else fraction s.cellar 0) + 4 * (if r = 1 then par c 8 else fraction s.cellar 1) +
              16 * (if r = 2 then par c 8 else fraction s.cellar 2))])) ∧
      (MayRun s seq 0x57 c → par c 8 < 2 → ZeroBytes c 17 31 →
        (keyContent s.cellar (0x8200 + 2 * r + par c 8) = none → exec (.unlock seq) s = .next (complete seq 0x00 [1] (runs s seq))) ∧
        (∀ v pw, keyContent s.cellar (0x8200 + 2 * r + par c 8) = some (v, pw) →
          ((c.desc.drop 9).take 8 = pw → exec (.unlock seq) s = .next (complete seq 0x00 [0] { runs s seq with
            cellar := { s.cellar with unlocked := s.cellar.unlocked ||| (1#6 <<< (2 * r + par c 8)) } })) ∧
          ((c.desc.drop 9).take 8 ≠ pw → Memory.wf s.cellar.shadow = true → ∃ u,
            let n := min (2 ^ 32 - 1) (shadowGet s.cellar (0x1C44 + 4 * r) 4 + 1)
            exec (.unlock seq) s = .next (complete seq 0x31 (leBytes n 4) u) ∧ shadowGet u.cellar (0x1C44 + 4 * r) 4 = n ∧
            u.cellar.unlocked.getLsbD (2 * r) = false ∧ u.cellar.unlocked.getLsbD (2 * r + 1) = false ∧
            u = { runs s seq with cellar := u.cellar }))))

/-- R425, R426, R427, R429, R430, R435, with no cellar write waiting: the operations of a record write follow each other (header, payload, CRC,
COMMITTED, and SUPERSEDED where the key has a live record); the last makes the record the live one of its key, leaves every other key, and
completes a CELLAR_PUT with VERSION, LEN and the free sectors and a CELLAR_ERASE_KEY with VERSION; a second mismatch ends the write with
CELLAR_FAULT and closes its sector. A store's operations count down, and the last leaves its bank valid with the new SEQ and completes the
command. A reclaim begins while READY with the log down to four free sectors and no write or reclaim under way; where the oldest sector holds no
live record it goes straight to the erase, whose end takes the sector out of the ring, erased, or retired where the erase did not read back,
with every key's content as it was. -/
def Obligations.FlashOperationsFinishTheirWork : Prop :=
  ∀ s : State, NoneDue s →
    (∀ ok, s.cellar.write = none → s.cellar.reclaim = none → s.cellar.store = none → exec (.flashOperationEnd ok) s = .next s) ∧
    (∀ w, s.cellar.write = some w → w.keyArea = decide (0x8000 ≤ w.rec_.key) →
      let goes (st : RecStage) (left : Nat) : Prop := exec (.flashOperationEnd true) s = .next { s with
        cellar := { s.cellar with write := some { w with rec_ := { w.rec_ with stage := st }, opsLeft := left } } }
      let crc := crcOps w.rec_.off w.rec_.payload.length
      let live := liveRec (logOf s.cellar w.keyArea) w.rec_.key
      (w.rec_.stage = .torn → (0 < w.opsLeft → goes .opened w.opsLeft) ∧ (w.opsLeft = 0 → goes .payload crc)) ∧
      (w.rec_.stage = .opened → (1 < w.opsLeft → goes .opened (w.opsLeft - 1)) ∧ (w.opsLeft ≤ 1 → goes .payload crc)) ∧
      (w.rec_.stage = .payload → (1 < w.opsLeft → goes .payload (w.opsLeft - 1)) ∧ (w.opsLeft ≤ 1 → goes .crc 0)) ∧
      (w.rec_.stage = .crc → live ≠ none → goes .committed 0) ∧
      (∀ c q, w.rec_.stage = .committed ∨ (w.rec_.stage = .crc ∧ live = none) → w.rec_.superseded = false → w.rec_.key < 0xF000 →
        w.seq = some q → findCmd s q = some c → ∃ u,
        (cmdOp c = 0x50 → exec (.flashOperationEnd true) s = .next (complete q 0x00 (leBytes w.rec_.version 4 ++
          leBytes w.rec_.payload.length 2 ++ leBytes (freeSectors w.keyArea (logOf s.cellar w.keyArea)) 2) u)) ∧
        (cmdOp c = 0x52 → exec (.flashOperationEnd true) s = .next (complete q 0x00 (leBytes w.rec_.version 4) u)) ∧
        keyContent u.cellar w.rec_.key = (if w.rec_.tomb then none else some (w.rec_.version, w.rec_.payload)) ∧
        (∀ k, k ≠ w.rec_.key → keyContent u.cellar k = keyContent s.cellar k) ∧ u.cellar.write = none ∧ u = { s with cellar := u.cellar }) ∧
      (∀ q, w.retried = true → w.seq = some q → ∃ u, exec (.flashOperationEnd false) s = .next (complete q 0x33 [lowByte w.rec_.sector] u) ∧
        u.cellar.write = none ∧ u.cellar.cellarFaults = min 65535 (s.cellar.cellarFaults + 1) ∧
        (sectorOf (logOf u.cellar w.keyArea) w.rec_.sector).closed = true ∧ u = { s with cellar := u.cellar })) ∧
    (∀ k q, s.cellar.write = none → s.cellar.reclaim = none → s.cellar.store = some k → k.seq = some q → s.power.phase = .ready →
      (1 < k.opsLeft → exec (.flashOperationEnd true) s = .next { s with
        cellar := { s.cellar with store := some { k with opsLeft := k.opsLeft - 1 } } }) ∧
      (k.opsLeft ≤ 1 → ∃ u, exec (.flashOperationEnd true) s = .next (complete q 0x00 (leBytes k.newSeq 4 ++ [if k.bankB then 1 else 0, 0]) u) ∧
        bankOf u.cellar k.bankB = { valid := true, seq := k.newSeq, data := k.data, written := k.written, erases := k.erases } ∧
        bankOf u.cellar (!k.bankB) = bankOf s.cellar (!k.bankB) ∧ u.cellar.store = none ∧ u.cellar.lastBankB = k.bankB ∧
        u = { s with cellar := u.cellar })) ∧
    (∀ keyArea : Bool,
      let area := if keyArea then 1 else 0
      let l := logOf s.cellar keyArea
      (4 < freeSectors keyArea l ∨ l.ring.length < 2 ∨ s.cellar.write ≠ none ∨ s.cellar.reclaim ≠ none ∨ s.power.phase ≠ .ready →
        exec (.reclaim area) s = .next s) ∧
      (∀ o h rest, s.power.phase = .ready → s.cellar.write = none → s.cellar.reclaim = none → freeSectors keyArea l ≤ 4 → l.ring = o :: h :: rest →
        (∀ r ∈ l.recs, recLive r = true → r.sector ≠ o) → exec (.reclaim area) s = .next { s with
          cellar := { s.cellar with reclaim := some { keyArea := keyArea, sector := o, erasing := true, forWrite := false } } }) ∧
      (∀ o rest (ok : Bool) r, s.cellar.write = none → s.cellar.reclaim = some r → r.keyArea = keyArea → r.erasing = true → l.ring = o :: rest →
        (∀ x ∈ l.recs, recLive x = true → x.sector ≠ o) → ∃ t, exec (.flashOperationEnd ok) s = .next t ∧
          (logOf t.cellar keyArea).ring = rest ∧ (sectorOf (logOf t.cellar keyArea) o).erases = (sectorOf l o).erases + 1 ∧
          (sectorOf (logOf t.cellar keyArea) o).retired = !ok ∧ t.cellar.reclaim = none ∧
          t.cellar.reclaims = min (2 ^ 32 - 1) (s.cellar.reclaims + 1) ∧
          (∀ k, keyContent t.cellar k = keyContent s.cellar k) ∧ t = { s with cellar := t.cellar }))

/-! The ring's own commands and the invariants -/

/-- R86, R94, R95: a BARRIER completes once no command issued before it is incomplete, and until then changes nothing; an ABORT of a command that has
not started completes that command ABORTED with cause 0x01 and then itself, with how many it selected and how many of those were aborted. -/
def Obligations.BarriersAndAbortsComplete : Prop :=
  ∀ (s : State) (c : Cmd), Names c 0 →
    (MayRun s c.seq 0x01 c → par c 8 < 2 → ZeroBytes c 9 31 →
      (earlier s.rings.inflight c.seq = [] → exec (.barrier c.seq) s = .next (complete c.seq 0x00 [] s)) ∧
      (earlier s.rings.inflight c.seq ≠ [] → exec (.barrier c.seq) s = .next s)) ∧
    (MayRun s c.seq 0x02 c → par c 8 < 4 → par c 9 = 0 → ZeroBytes c 12 31 → LinkQuiet s → s.clocks.stage = .idle →
      (∀ b, s.rings.inflight = [b, c] → b.seq ≠ c.seq → b.phase = .waiting → cmdOp b ≠ 0x02 → selects c b = true → ∃ t,
        exec (.abort c.seq) s = .next t ∧ t.rings.inflight = [] ∧ t.rings.unread = s.rings.unread + 2 ∧
        t.mem = cellPuts (cellPuts s.mem (0x1FC000 + 16 * s.rings.ccProd) (entryBytes b 0x20 [1]))
          (0x1FC000 + 16 * ((s.rings.ccProd + 1) % 512)) (entryBytes c 0x00 [1, 0, 1, 0]) ∧ RingFrame s t) ∧
      (s.rings.inflight = [c] → ∃ t, exec (.abort c.seq) s = .next t ∧ t.rings.inflight = [] ∧ t.rings.unread = s.rings.unread + 1 ∧
        t.mem = cellPuts s.mem (0x1FC000 + 16 * s.rings.ccProd) (entryBytes c 0x00 [0, 0, 0, 0]) ∧ RingFrame s t))

/-- R92: the machine right after reset has 512 credits, nothing in flight and nothing unread, so that its books balance and its commands stand in
the order of their issue, and its working SRAM is in its canonical form. -/
def Obligations.InvariantAtReset : Prop :=
  State.reset.rings.credits = 512 ∧ State.reset.rings.inflight = [] ∧ State.reset.rings.unread = 0 ∧ BooksBalance State.reset ∧
    IssueOrder State.reset.rings ∧ MemoryOk State.reset

/-- R92: credits, commands in flight and unread completions sum to 512 at reset, and after every step of every state in which they did before
it, with the commands in flight in the order of their issue, each with a number of its own, and the working SRAM in its canonical form; so the
unread completions are never more than 512. The step keeps that order and that form too. -/
def Obligations.StepsKeepTheBooks : Prop :=
  BooksBalance State.reset ∧
  ∀ s t : State, BooksBalance s → IssueOrder s.rings → MemoryOk s → step s = .next t →
    BooksBalance t ∧ t.rings.unread ≤ 512 ∧ IssueOrder t.rings ∧ MemoryOk t
end

