-- ==== Sys2Proof/Laws/Rings.lean ====
section
/-!
SUPPORT. What a ring command's checks let through, what starting and completing one do, said once.
-/
namespace Sys2Proof.Machine

/-! Checks -/

@[simp] theorem failUnless_true (r : Reply) : failUnless true r = none := rfl
@[simp] theorem failUnless_false (r : Reply) : failUnless false r = some r := rfl
@[simp] theorem firstFail_nil : firstFail [] = none := rfl
@[simp] theorem firstFail_none (cs : List (Option Reply)) : firstFail (none :: cs) = firstFail cs := rfl
@[simp] theorem firstFail_some (r : Reply) (cs : List (Option Reply)) : firstFail (some r :: cs) = some r := rfl
@[simp] theorem needField_true (k : Nat) : needField k true = none := rfl
@[simp] theorem needIdle_true (k : Nat) : needIdle true k = none := rfl
@[simp] theorem needLimit_true (k : Nat) : needLimit true k = none := rfl
@[simp] theorem needState_true (k : Nat) : needState true k = none := rfl
@[simp] theorem needAccess_true (r : List Byte) : needAccess true r = none := rfl

/-- Checks that all pass in front of others. -/
theorem firstFail_append {xs : List (Option Reply)} (h : ∀ x ∈ xs, x = none) (ys : List (Option Reply)) :
    firstFail (xs ++ ys) = firstFail ys := by
  induction xs with
  | nil => rfl
  | cons x xs ih =>
    have hx : x = none := h x (by simp)
    subst hx
    simpa using ih fun x hx => h x (by simp [hx])

/-- Reserved bytes that are zero pass their checks. -/
theorem needZeros_none {c : Cmd} {lo hi : Nat} (h : ZeroBytes c lo hi) : ∀ x ∈ needZeros c lo hi, x = none := by
  intro x hx
  simp only [needZeros, List.mem_map, List.mem_range] at hx
  obtain ⟨i, hi', rfl⟩ := hx
  have := h (lo + i) (List.mem_range.mpr (by omega)) (by omega)
  simp [this]

theorem firstFail_needZeros {c : Cmd} {lo hi : Nat} (h : ZeroBytes c lo hi) (ys : List (Option Reply)) :
    firstFail (needZeros c lo hi ++ ys) = firstFail ys := firstFail_append (needZeros_none h) ys

/-- Reserved bytes at the end of the checks. -/
theorem firstFail_needZeros_end {c : Cmd} {lo hi : Nat} (h : ZeroBytes c lo hi) : firstFail (needZeros c lo hi) = none := by
  simpa using firstFail_needZeros h []

/-- A sound header passes its checks. -/
theorem firstFail_needHeader {c : Cmd} (h : HeaderOk c) (ys : List (Option Reply)) :
    firstFail (needHeader c ++ ys) = firstFail ys := by
  obtain ⟨h1, h2, h3, h4⟩ := h
  have hz : ZeroBytes c 6 7 := by
    intro i hi2 hi1
    have hi : i = 6 ∨ i = 7 := by
      have := List.mem_range.mp hi2
      omega
    rcases hi with rfl | rfl
    · exact h3
    · exact h4
  simp only [needHeader, List.cons_append]
  rw [show (decide (cmdFlags c < 8) && cmdOrder c != 3) = true by simp [h1, h2]]
  simpa using firstFail_needZeros hz ys

/-- An object of an accepted kind passes its check. -/
theorem needObject_none {c : Cmd} {k : Nat} {kinds : List Nat} (h : Names c k) (hk : kinds.contains k = true) :
    needObject kinds c = none := by
  obtain ⟨h1, h2⟩ := h
  subst h1
  simp only [needObject, objectOk, hk, Bool.true_and, decide_eq_true h2, failUnless_true]

/-- A mode in force that the command runs in passes its check. -/
theorem needMode_none {s : State} {modes : List Nat} (h : s.modes.modeNow ∈ modes) : needMode s modes = none := by
  simp [needMode, modeNow, h]

/-! Starting -/

theorem findCmd_seq {s : State} {seq : Nat} {c : Cmd} (h : findCmd s seq = some c) : c.seq = seq := by
  have := List.find?_some h
  simpa using this

theorem startable_spec {s : State} {seq op : Nat} {c : Cmd} (h : startable s seq op = some c) :
    findCmd s seq = some c ∧ ready s = true ∧ cmdOp c = op ∧ mayStart (earlier s.rings.inflight seq) c = true := by
  unfold startable at h
  split at h
  · rename_i d hd
    split at h
    · rename_i hc
      cases h
      simp only [Bool.and_eq_true, beq_iff_eq] at hc
      exact ⟨hd, hc.1.1, hc.1.2, hc.2⟩
    · cases h
  · cases h

theorem startable_seq {s : State} {seq op : Nat} {c : Cmd} (h : startable s seq op = some c) : c.seq = seq :=
  findCmd_seq (startable_spec h).1

/-- A command that passes its checks runs. -/
theorem startCmd_runs {s : State} {seq op : Nat} {c : Cmd} {check : State → Cmd → Option Reply} (run : State → Cmd → State)
    (h : startable s seq op = some c) (hc : check s c = none) : startCmd s seq op check run = run (runs s seq) c := by
  simp [startCmd, h, hc, runs]

/-- A command that fails a check completes with the failure. -/
theorem startCmd_fails {s : State} {seq op : Nat} {c : Cmd} {check : State → Cmd → Option Reply} (run : State → Cmd → State) {r : Reply}
    (h : startable s seq op = some c) (hc : check s c = some r) : startCmd s seq op check run = complete seq r.1 r.2 s := by
  simp [startCmd, h, hc]

/-- A command that may not start changes nothing. -/
theorem startCmd_waits {s : State} {seq op : Nat} {check : State → Cmd → Option Reply} (run : State → Cmd → State)
    (h : startable s seq op = none) : startCmd s seq op check run = s := by
  simp [startCmd, h]

/-! Completing: what posting leaves alone -/

theorem touchRow_frame (s : State) (a : Nat) : touchRow s a = { s with scrub := (touchRow s a).scrub } := by
  unfold touchRow
  split
  · split <;> rfl
  · rfl

theorem touchRows_frame (s : State) (a n : Nat) : touchRows s a n = { s with scrub := (touchRows s a n).scrub } := by
  unfold touchRows
  generalize List.range _ = l
  suffices h : ∀ t : State, t = { s with scrub := t.scrub } →
      l.foldl (fun t k => touchRow t (a + 256 * k)) t = { s with scrub := (l.foldl (fun t k => touchRow t (a + 256 * k)) t).scrub } by
    exact h s rfl
  induction l with
  | nil => intro t ht; exact ht
  | cons k l ih =>
    intro t ht
    simp only [List.foldl_cons]
    apply ih
    have := touchRow_frame t (a + 256 * k)
    rw [this]
    rw [ht]

theorem devPuts_frame (s : State) (a : Nat) (bs : List Byte) :
    devPuts s a bs = { s with mem := (devPuts s a bs).mem, scrub := (devPuts s a bs).scrub } := by
  unfold devPuts memPuts
  rw [touchRows_frame]

theorem raise_frame (q : Irq) (s : State) :
    raise q s = { s with port := { s.port with irqStat0 := (raise q s).port.irqStat0, irqStat1 := (raise q s).port.irqStat1,
                                               irqStat2 := (raise q s).port.irqStat2 } } := by
  unfold raise
  split
  · cases q <;> rfl
  · rfl

theorem RingFrame.refl (s : State) : RingFrame s s := rfl

theorem RingFrame.trans {s t u : State} (h : RingFrame s t) (k : RingFrame t u) : RingFrame s u := by
  unfold RingFrame at *
  rw [k, h]

theorem post_frame (s : State) (c : Cmd) (status : Nat) (result : List Byte) : RingFrame s (post s c status result) := by
  unfold RingFrame post raiseIf
  simp only []
  rw [devPuts_frame]
  split
  · unfold raise
    split <;> rfl
  · rfl

theorem sweepN_frame (n : Nat) : ∀ s : State, RingFrame s (sweepN n s) := by
  induction n with
  | zero => intro s; exact RingFrame.refl s
  | succ n ih =>
    intro s
    unfold sweepN
    split
    · exact (post_frame _ _ _ _).trans (ih _)
    · exact RingFrame.refl s

/-- Completing a command changes the rings, the working SRAM, the scrub's record and IRQ_STAT0, and nothing else. -/
theorem complete_frame (seq status : Nat) (result : List Byte) (s : State) : RingFrame s (complete seq status result s) := by
  unfold complete
  split
  · exact (post_frame _ _ _ _).trans (sweepN_frame _ _)
  · exact RingFrame.refl s

theorem runs_frame (s : State) (seq : Nat) : RingFrame s (runs s seq) := rfl

end Sys2Proof.Machine
end

