-- ==== Sys2Proof/Laws/State.lean ====
section
/-!
SUPPORT. What each named update of the state leaves as it was: one lemma per field and update, so that no proof unfolds a record update.
-/
namespace Sys2Proof.Machine

variable (s : State)

@[simp] theorem setLane_port (n : Nat) (x : Lane) : (setLane s n x).port = s.port := rfl
@[simp] theorem setLane_power (n : Nat) (x : Lane) : (setLane s n x).power = s.power := rfl
@[simp] theorem setLane_rings (n : Nat) (x : Lane) : (setLane s n x).rings = s.rings := rfl
@[simp] theorem setLane_fabric (n : Nat) (x : Lane) : (setLane s n x).fabric = s.fabric := rfl
@[simp] theorem setLane_modes (n : Nat) (x : Lane) : (setLane s n x).modes = s.modes := rfl
@[simp] theorem setLane_scrub (n : Nat) (x : Lane) : (setLane s n x).scrub = s.scrub := rfl
@[simp] theorem setLane_clocks (n : Nat) (x : Lane) : (setLane s n x).clocks = s.clocks := rfl
@[simp] theorem setLane_pathL (n : Nat) (x : Lane) : (setLane s n x).pathL = s.pathL := rfl
@[simp] theorem setLane_pathV (n : Nat) (x : Lane) : (setLane s n x).pathV = s.pathV := rfl
@[simp] theorem setLane_pathS (n : Nat) (x : Lane) : (setLane s n x).pathS = s.pathS := rfl
@[simp] theorem setLane_cal (n : Nat) (x : Lane) : (setLane s n x).cal = s.cal := rfl
@[simp] theorem setLane_statLatch (n : Nat) (x : Lane) : (setLane s n x).statLatch = s.statLatch := rfl
@[simp] theorem setLane_analogue (n : Nat) (x : Lane) : (setLane s n x).analogue = s.analogue := rfl
@[simp] theorem setLane_lf (n : Nat) (x : Lane) : (setLane s n x).lf = s.lf := rfl
@[simp] theorem setLane_drm (n : Nat) (x : Lane) : (setLane s n x).drm = s.drm := rfl
@[simp] theorem setLane_dab (n : Nat) (x : Lane) : (setLane s n x).dab = s.dab := rfl
@[simp] theorem setLane_lfDescs (n : Nat) (x : Lane) : (setLane s n x).lfDescs = s.lfDescs := rfl
@[simp] theorem setLane_taste (n : Nat) (x : Lane) : (setLane s n x).taste = s.taste := rfl
@[simp] theorem setLane_slots (n : Nat) (x : Lane) : (setLane s n x).slots = s.slots := rfl
@[simp] theorem setLane_time (n : Nat) (x : Lane) : (setLane s n x).time = s.time := rfl
@[simp] theorem setLane_link (n : Nat) (x : Lane) : (setLane s n x).link = s.link := rfl
@[simp] theorem setLane_sessions (n : Nat) (x : Lane) : (setLane s n x).sessions = s.sessions := rfl
@[simp] theorem setLane_saps (n : Nat) (x : Lane) : (setLane s n x).saps = s.saps := rfl
@[simp] theorem setLane_pdm (n : Nat) (x : Lane) : (setLane s n x).pdm = s.pdm := rfl
@[simp] theorem setLane_audio (n : Nat) (x : Lane) : (setLane s n x).audio = s.audio := rfl
@[simp] theorem setLane_cellar (n : Nat) (x : Lane) : (setLane s n x).cellar = s.cellar := rfl
@[simp] theorem setLane_mem (n : Nat) (x : Lane) : (setLane s n x).mem = s.mem := rfl
@[simp] theorem setLane_fresh (n : Nat) (x : Lane) : (setLane s n x).fresh = s.fresh := rfl
@[simp] theorem setLane_pending (n : Nat) (x : Lane) : (setLane s n x).pending = s.pending := rfl

@[simp] theorem modLane_port (n : Nat) (f : Lane → Lane) : (modLane s n f).port = s.port := rfl
@[simp] theorem modLane_power (n : Nat) (f : Lane → Lane) : (modLane s n f).power = s.power := rfl
@[simp] theorem modLane_rings (n : Nat) (f : Lane → Lane) : (modLane s n f).rings = s.rings := rfl
@[simp] theorem modLane_fabric (n : Nat) (f : Lane → Lane) : (modLane s n f).fabric = s.fabric := rfl
@[simp] theorem modLane_modes (n : Nat) (f : Lane → Lane) : (modLane s n f).modes = s.modes := rfl
@[simp] theorem modLane_scrub (n : Nat) (f : Lane → Lane) : (modLane s n f).scrub = s.scrub := rfl
@[simp] theorem modLane_clocks (n : Nat) (f : Lane → Lane) : (modLane s n f).clocks = s.clocks := rfl
@[simp] theorem modLane_pathL (n : Nat) (f : Lane → Lane) : (modLane s n f).pathL = s.pathL := rfl
@[simp] theorem modLane_pathV (n : Nat) (f : Lane → Lane) : (modLane s n f).pathV = s.pathV := rfl
@[simp] theorem modLane_pathS (n : Nat) (f : Lane → Lane) : (modLane s n f).pathS = s.pathS := rfl
@[simp] theorem modLane_cal (n : Nat) (f : Lane → Lane) : (modLane s n f).cal = s.cal := rfl
@[simp] theorem modLane_statLatch (n : Nat) (f : Lane → Lane) : (modLane s n f).statLatch = s.statLatch := rfl
@[simp] theorem modLane_analogue (n : Nat) (f : Lane → Lane) : (modLane s n f).analogue = s.analogue := rfl
@[simp] theorem modLane_lf (n : Nat) (f : Lane → Lane) : (modLane s n f).lf = s.lf := rfl
@[simp] theorem modLane_drm (n : Nat) (f : Lane → Lane) : (modLane s n f).drm = s.drm := rfl
@[simp] theorem modLane_dab (n : Nat) (f : Lane → Lane) : (modLane s n f).dab = s.dab := rfl
@[simp] theorem modLane_lfDescs (n : Nat) (f : Lane → Lane) : (modLane s n f).lfDescs = s.lfDescs := rfl
@[simp] theorem modLane_taste (n : Nat) (f : Lane → Lane) : (modLane s n f).taste = s.taste := rfl
@[simp] theorem modLane_slots (n : Nat) (f : Lane → Lane) : (modLane s n f).slots = s.slots := rfl
@[simp] theorem modLane_time (n : Nat) (f : Lane → Lane) : (modLane s n f).time = s.time := rfl
@[simp] theorem modLane_link (n : Nat) (f : Lane → Lane) : (modLane s n f).link = s.link := rfl
@[simp] theorem modLane_sessions (n : Nat) (f : Lane → Lane) : (modLane s n f).sessions = s.sessions := rfl
@[simp] theorem modLane_saps (n : Nat) (f : Lane → Lane) : (modLane s n f).saps = s.saps := rfl
@[simp] theorem modLane_pdm (n : Nat) (f : Lane → Lane) : (modLane s n f).pdm = s.pdm := rfl
@[simp] theorem modLane_audio (n : Nat) (f : Lane → Lane) : (modLane s n f).audio = s.audio := rfl
@[simp] theorem modLane_cellar (n : Nat) (f : Lane → Lane) : (modLane s n f).cellar = s.cellar := rfl
@[simp] theorem modLane_mem (n : Nat) (f : Lane → Lane) : (modLane s n f).mem = s.mem := rfl
@[simp] theorem modLane_fresh (n : Nat) (f : Lane → Lane) : (modLane s n f).fresh = s.fresh := rfl
@[simp] theorem modLane_pending (n : Nat) (f : Lane → Lane) : (modLane s n f).pending = s.pending := rfl

@[simp] theorem modAnalogue_port (n : Nat) (f : Analogue → Analogue) : (modAnalogue s n f).port = s.port := rfl
@[simp] theorem modAnalogue_power (n : Nat) (f : Analogue → Analogue) : (modAnalogue s n f).power = s.power := rfl
@[simp] theorem modAnalogue_rings (n : Nat) (f : Analogue → Analogue) : (modAnalogue s n f).rings = s.rings := rfl
@[simp] theorem modAnalogue_fabric (n : Nat) (f : Analogue → Analogue) : (modAnalogue s n f).fabric = s.fabric := rfl
@[simp] theorem modAnalogue_modes (n : Nat) (f : Analogue → Analogue) : (modAnalogue s n f).modes = s.modes := rfl
@[simp] theorem modAnalogue_scrub (n : Nat) (f : Analogue → Analogue) : (modAnalogue s n f).scrub = s.scrub := rfl
@[simp] theorem modAnalogue_clocks (n : Nat) (f : Analogue → Analogue) : (modAnalogue s n f).clocks = s.clocks := rfl
@[simp] theorem modAnalogue_pathL (n : Nat) (f : Analogue → Analogue) : (modAnalogue s n f).pathL = s.pathL := rfl
@[simp] theorem modAnalogue_pathV (n : Nat) (f : Analogue → Analogue) : (modAnalogue s n f).pathV = s.pathV := rfl
@[simp] theorem modAnalogue_pathS (n : Nat) (f : Analogue → Analogue) : (modAnalogue s n f).pathS = s.pathS := rfl
@[simp] theorem modAnalogue_cal (n : Nat) (f : Analogue → Analogue) : (modAnalogue s n f).cal = s.cal := rfl
@[simp] theorem modAnalogue_lanes (n : Nat) (f : Analogue → Analogue) : (modAnalogue s n f).lanes = s.lanes := rfl
@[simp] theorem modAnalogue_statLatch (n : Nat) (f : Analogue → Analogue) : (modAnalogue s n f).statLatch = s.statLatch := rfl
@[simp] theorem modAnalogue_lf (n : Nat) (f : Analogue → Analogue) : (modAnalogue s n f).lf = s.lf := rfl
@[simp] theorem modAnalogue_drm (n : Nat) (f : Analogue → Analogue) : (modAnalogue s n f).drm = s.drm := rfl
@[simp] theorem modAnalogue_dab (n : Nat) (f : Analogue → Analogue) : (modAnalogue s n f).dab = s.dab := rfl
@[simp] theorem modAnalogue_lfDescs (n : Nat) (f : Analogue → Analogue) : (modAnalogue s n f).lfDescs = s.lfDescs := rfl
@[simp] theorem modAnalogue_taste (n : Nat) (f : Analogue → Analogue) : (modAnalogue s n f).taste = s.taste := rfl
@[simp] theorem modAnalogue_slots (n : Nat) (f : Analogue → Analogue) : (modAnalogue s n f).slots = s.slots := rfl
@[simp] theorem modAnalogue_time (n : Nat) (f : Analogue → Analogue) : (modAnalogue s n f).time = s.time := rfl
@[simp] theorem modAnalogue_link (n : Nat) (f : Analogue → Analogue) : (modAnalogue s n f).link = s.link := rfl
@[simp] theorem modAnalogue_sessions (n : Nat) (f : Analogue → Analogue) : (modAnalogue s n f).sessions = s.sessions := rfl
@[simp] theorem modAnalogue_saps (n : Nat) (f : Analogue → Analogue) : (modAnalogue s n f).saps = s.saps := rfl
@[simp] theorem modAnalogue_pdm (n : Nat) (f : Analogue → Analogue) : (modAnalogue s n f).pdm = s.pdm := rfl
@[simp] theorem modAnalogue_audio (n : Nat) (f : Analogue → Analogue) : (modAnalogue s n f).audio = s.audio := rfl
@[simp] theorem modAnalogue_cellar (n : Nat) (f : Analogue → Analogue) : (modAnalogue s n f).cellar = s.cellar := rfl
@[simp] theorem modAnalogue_mem (n : Nat) (f : Analogue → Analogue) : (modAnalogue s n f).mem = s.mem := rfl
@[simp] theorem modAnalogue_fresh (n : Nat) (f : Analogue → Analogue) : (modAnalogue s n f).fresh = s.fresh := rfl
@[simp] theorem modAnalogue_pending (n : Nat) (f : Analogue → Analogue) : (modAnalogue s n f).pending = s.pending := rfl

@[simp] theorem modLf_port (n : Nat) (f : LfDec → LfDec) : (modLf s n f).port = s.port := rfl
@[simp] theorem modLf_power (n : Nat) (f : LfDec → LfDec) : (modLf s n f).power = s.power := rfl
@[simp] theorem modLf_rings (n : Nat) (f : LfDec → LfDec) : (modLf s n f).rings = s.rings := rfl
@[simp] theorem modLf_fabric (n : Nat) (f : LfDec → LfDec) : (modLf s n f).fabric = s.fabric := rfl
@[simp] theorem modLf_modes (n : Nat) (f : LfDec → LfDec) : (modLf s n f).modes = s.modes := rfl
@[simp] theorem modLf_scrub (n : Nat) (f : LfDec → LfDec) : (modLf s n f).scrub = s.scrub := rfl
@[simp] theorem modLf_clocks (n : Nat) (f : LfDec → LfDec) : (modLf s n f).clocks = s.clocks := rfl
@[simp] theorem modLf_pathL (n : Nat) (f : LfDec → LfDec) : (modLf s n f).pathL = s.pathL := rfl
@[simp] theorem modLf_pathV (n : Nat) (f : LfDec → LfDec) : (modLf s n f).pathV = s.pathV := rfl
@[simp] theorem modLf_pathS (n : Nat) (f : LfDec → LfDec) : (modLf s n f).pathS = s.pathS := rfl
@[simp] theorem modLf_cal (n : Nat) (f : LfDec → LfDec) : (modLf s n f).cal = s.cal := rfl
@[simp] theorem modLf_lanes (n : Nat) (f : LfDec → LfDec) : (modLf s n f).lanes = s.lanes := rfl
@[simp] theorem modLf_statLatch (n : Nat) (f : LfDec → LfDec) : (modLf s n f).statLatch = s.statLatch := rfl
@[simp] theorem modLf_analogue (n : Nat) (f : LfDec → LfDec) : (modLf s n f).analogue = s.analogue := rfl
@[simp] theorem modLf_drm (n : Nat) (f : LfDec → LfDec) : (modLf s n f).drm = s.drm := rfl
@[simp] theorem modLf_dab (n : Nat) (f : LfDec → LfDec) : (modLf s n f).dab = s.dab := rfl
@[simp] theorem modLf_lfDescs (n : Nat) (f : LfDec → LfDec) : (modLf s n f).lfDescs = s.lfDescs := rfl
@[simp] theorem modLf_taste (n : Nat) (f : LfDec → LfDec) : (modLf s n f).taste = s.taste := rfl
@[simp] theorem modLf_slots (n : Nat) (f : LfDec → LfDec) : (modLf s n f).slots = s.slots := rfl
@[simp] theorem modLf_time (n : Nat) (f : LfDec → LfDec) : (modLf s n f).time = s.time := rfl
@[simp] theorem modLf_link (n : Nat) (f : LfDec → LfDec) : (modLf s n f).link = s.link := rfl
@[simp] theorem modLf_sessions (n : Nat) (f : LfDec → LfDec) : (modLf s n f).sessions = s.sessions := rfl
@[simp] theorem modLf_saps (n : Nat) (f : LfDec → LfDec) : (modLf s n f).saps = s.saps := rfl
@[simp] theorem modLf_pdm (n : Nat) (f : LfDec → LfDec) : (modLf s n f).pdm = s.pdm := rfl
@[simp] theorem modLf_audio (n : Nat) (f : LfDec → LfDec) : (modLf s n f).audio = s.audio := rfl
@[simp] theorem modLf_cellar (n : Nat) (f : LfDec → LfDec) : (modLf s n f).cellar = s.cellar := rfl
@[simp] theorem modLf_mem (n : Nat) (f : LfDec → LfDec) : (modLf s n f).mem = s.mem := rfl
@[simp] theorem modLf_fresh (n : Nat) (f : LfDec → LfDec) : (modLf s n f).fresh = s.fresh := rfl
@[simp] theorem modLf_pending (n : Nat) (f : LfDec → LfDec) : (modLf s n f).pending = s.pending := rfl

@[simp] theorem modDrm_port (n : Nat) (f : Drm → Drm) : (modDrm s n f).port = s.port := rfl
@[simp] theorem modDrm_power (n : Nat) (f : Drm → Drm) : (modDrm s n f).power = s.power := rfl
@[simp] theorem modDrm_rings (n : Nat) (f : Drm → Drm) : (modDrm s n f).rings = s.rings := rfl
@[simp] theorem modDrm_fabric (n : Nat) (f : Drm → Drm) : (modDrm s n f).fabric = s.fabric := rfl
@[simp] theorem modDrm_modes (n : Nat) (f : Drm → Drm) : (modDrm s n f).modes = s.modes := rfl
@[simp] theorem modDrm_scrub (n : Nat) (f : Drm → Drm) : (modDrm s n f).scrub = s.scrub := rfl
@[simp] theorem modDrm_clocks (n : Nat) (f : Drm → Drm) : (modDrm s n f).clocks = s.clocks := rfl
@[simp] theorem modDrm_pathL (n : Nat) (f : Drm → Drm) : (modDrm s n f).pathL = s.pathL := rfl
@[simp] theorem modDrm_pathV (n : Nat) (f : Drm → Drm) : (modDrm s n f).pathV = s.pathV := rfl
@[simp] theorem modDrm_pathS (n : Nat) (f : Drm → Drm) : (modDrm s n f).pathS = s.pathS := rfl
@[simp] theorem modDrm_cal (n : Nat) (f : Drm → Drm) : (modDrm s n f).cal = s.cal := rfl
@[simp] theorem modDrm_lanes (n : Nat) (f : Drm → Drm) : (modDrm s n f).lanes = s.lanes := rfl
@[simp] theorem modDrm_statLatch (n : Nat) (f : Drm → Drm) : (modDrm s n f).statLatch = s.statLatch := rfl
@[simp] theorem modDrm_analogue (n : Nat) (f : Drm → Drm) : (modDrm s n f).analogue = s.analogue := rfl
@[simp] theorem modDrm_lf (n : Nat) (f : Drm → Drm) : (modDrm s n f).lf = s.lf := rfl
@[simp] theorem modDrm_dab (n : Nat) (f : Drm → Drm) : (modDrm s n f).dab = s.dab := rfl
@[simp] theorem modDrm_lfDescs (n : Nat) (f : Drm → Drm) : (modDrm s n f).lfDescs = s.lfDescs := rfl
@[simp] theorem modDrm_taste (n : Nat) (f : Drm → Drm) : (modDrm s n f).taste = s.taste := rfl
@[simp] theorem modDrm_slots (n : Nat) (f : Drm → Drm) : (modDrm s n f).slots = s.slots := rfl
@[simp] theorem modDrm_time (n : Nat) (f : Drm → Drm) : (modDrm s n f).time = s.time := rfl
@[simp] theorem modDrm_link (n : Nat) (f : Drm → Drm) : (modDrm s n f).link = s.link := rfl
@[simp] theorem modDrm_sessions (n : Nat) (f : Drm → Drm) : (modDrm s n f).sessions = s.sessions := rfl
@[simp] theorem modDrm_saps (n : Nat) (f : Drm → Drm) : (modDrm s n f).saps = s.saps := rfl
@[simp] theorem modDrm_pdm (n : Nat) (f : Drm → Drm) : (modDrm s n f).pdm = s.pdm := rfl
@[simp] theorem modDrm_audio (n : Nat) (f : Drm → Drm) : (modDrm s n f).audio = s.audio := rfl
@[simp] theorem modDrm_cellar (n : Nat) (f : Drm → Drm) : (modDrm s n f).cellar = s.cellar := rfl
@[simp] theorem modDrm_mem (n : Nat) (f : Drm → Drm) : (modDrm s n f).mem = s.mem := rfl
@[simp] theorem modDrm_fresh (n : Nat) (f : Drm → Drm) : (modDrm s n f).fresh = s.fresh := rfl
@[simp] theorem modDrm_pending (n : Nat) (f : Drm → Drm) : (modDrm s n f).pending = s.pending := rfl

@[simp] theorem modDab_port (n : Nat) (f : Dab → Dab) : (modDab s n f).port = s.port := rfl
@[simp] theorem modDab_power (n : Nat) (f : Dab → Dab) : (modDab s n f).power = s.power := rfl
@[simp] theorem modDab_rings (n : Nat) (f : Dab → Dab) : (modDab s n f).rings = s.rings := rfl
@[simp] theorem modDab_fabric (n : Nat) (f : Dab → Dab) : (modDab s n f).fabric = s.fabric := rfl
@[simp] theorem modDab_modes (n : Nat) (f : Dab → Dab) : (modDab s n f).modes = s.modes := rfl
@[simp] theorem modDab_scrub (n : Nat) (f : Dab → Dab) : (modDab s n f).scrub = s.scrub := rfl
@[simp] theorem modDab_clocks (n : Nat) (f : Dab → Dab) : (modDab s n f).clocks = s.clocks := rfl
@[simp] theorem modDab_pathL (n : Nat) (f : Dab → Dab) : (modDab s n f).pathL = s.pathL := rfl
@[simp] theorem modDab_pathV (n : Nat) (f : Dab → Dab) : (modDab s n f).pathV = s.pathV := rfl
@[simp] theorem modDab_pathS (n : Nat) (f : Dab → Dab) : (modDab s n f).pathS = s.pathS := rfl
@[simp] theorem modDab_cal (n : Nat) (f : Dab → Dab) : (modDab s n f).cal = s.cal := rfl
@[simp] theorem modDab_lanes (n : Nat) (f : Dab → Dab) : (modDab s n f).lanes = s.lanes := rfl
@[simp] theorem modDab_statLatch (n : Nat) (f : Dab → Dab) : (modDab s n f).statLatch = s.statLatch := rfl
@[simp] theorem modDab_analogue (n : Nat) (f : Dab → Dab) : (modDab s n f).analogue = s.analogue := rfl
@[simp] theorem modDab_lf (n : Nat) (f : Dab → Dab) : (modDab s n f).lf = s.lf := rfl
@[simp] theorem modDab_drm (n : Nat) (f : Dab → Dab) : (modDab s n f).drm = s.drm := rfl
@[simp] theorem modDab_lfDescs (n : Nat) (f : Dab → Dab) : (modDab s n f).lfDescs = s.lfDescs := rfl
@[simp] theorem modDab_taste (n : Nat) (f : Dab → Dab) : (modDab s n f).taste = s.taste := rfl
@[simp] theorem modDab_slots (n : Nat) (f : Dab → Dab) : (modDab s n f).slots = s.slots := rfl
@[simp] theorem modDab_time (n : Nat) (f : Dab → Dab) : (modDab s n f).time = s.time := rfl
@[simp] theorem modDab_link (n : Nat) (f : Dab → Dab) : (modDab s n f).link = s.link := rfl
@[simp] theorem modDab_sessions (n : Nat) (f : Dab → Dab) : (modDab s n f).sessions = s.sessions := rfl
@[simp] theorem modDab_saps (n : Nat) (f : Dab → Dab) : (modDab s n f).saps = s.saps := rfl
@[simp] theorem modDab_pdm (n : Nat) (f : Dab → Dab) : (modDab s n f).pdm = s.pdm := rfl
@[simp] theorem modDab_audio (n : Nat) (f : Dab → Dab) : (modDab s n f).audio = s.audio := rfl
@[simp] theorem modDab_cellar (n : Nat) (f : Dab → Dab) : (modDab s n f).cellar = s.cellar := rfl
@[simp] theorem modDab_mem (n : Nat) (f : Dab → Dab) : (modDab s n f).mem = s.mem := rfl
@[simp] theorem modDab_fresh (n : Nat) (f : Dab → Dab) : (modDab s n f).fresh = s.fresh := rfl
@[simp] theorem modDab_pending (n : Nat) (f : Dab → Dab) : (modDab s n f).pending = s.pending := rfl

@[simp] theorem modSlot_port (n : Nat) (f : Slot → Slot) : (modSlot s n f).port = s.port := rfl
@[simp] theorem modSlot_power (n : Nat) (f : Slot → Slot) : (modSlot s n f).power = s.power := rfl
@[simp] theorem modSlot_rings (n : Nat) (f : Slot → Slot) : (modSlot s n f).rings = s.rings := rfl
@[simp] theorem modSlot_fabric (n : Nat) (f : Slot → Slot) : (modSlot s n f).fabric = s.fabric := rfl
@[simp] theorem modSlot_modes (n : Nat) (f : Slot → Slot) : (modSlot s n f).modes = s.modes := rfl
@[simp] theorem modSlot_scrub (n : Nat) (f : Slot → Slot) : (modSlot s n f).scrub = s.scrub := rfl
@[simp] theorem modSlot_clocks (n : Nat) (f : Slot → Slot) : (modSlot s n f).clocks = s.clocks := rfl
@[simp] theorem modSlot_pathL (n : Nat) (f : Slot → Slot) : (modSlot s n f).pathL = s.pathL := rfl
@[simp] theorem modSlot_pathV (n : Nat) (f : Slot → Slot) : (modSlot s n f).pathV = s.pathV := rfl
@[simp] theorem modSlot_pathS (n : Nat) (f : Slot → Slot) : (modSlot s n f).pathS = s.pathS := rfl
@[simp] theorem modSlot_cal (n : Nat) (f : Slot → Slot) : (modSlot s n f).cal = s.cal := rfl
@[simp] theorem modSlot_lanes (n : Nat) (f : Slot → Slot) : (modSlot s n f).lanes = s.lanes := rfl
@[simp] theorem modSlot_statLatch (n : Nat) (f : Slot → Slot) : (modSlot s n f).statLatch = s.statLatch := rfl
@[simp] theorem modSlot_analogue (n : Nat) (f : Slot → Slot) : (modSlot s n f).analogue = s.analogue := rfl
@[simp] theorem modSlot_lf (n : Nat) (f : Slot → Slot) : (modSlot s n f).lf = s.lf := rfl
@[simp] theorem modSlot_drm (n : Nat) (f : Slot → Slot) : (modSlot s n f).drm = s.drm := rfl
@[simp] theorem modSlot_dab (n : Nat) (f : Slot → Slot) : (modSlot s n f).dab = s.dab := rfl
@[simp] theorem modSlot_lfDescs (n : Nat) (f : Slot → Slot) : (modSlot s n f).lfDescs = s.lfDescs := rfl
@[simp] theorem modSlot_taste (n : Nat) (f : Slot → Slot) : (modSlot s n f).taste = s.taste := rfl
@[simp] theorem modSlot_time (n : Nat) (f : Slot → Slot) : (modSlot s n f).time = s.time := rfl
@[simp] theorem modSlot_link (n : Nat) (f : Slot → Slot) : (modSlot s n f).link = s.link := rfl
@[simp] theorem modSlot_sessions (n : Nat) (f : Slot → Slot) : (modSlot s n f).sessions = s.sessions := rfl
@[simp] theorem modSlot_saps (n : Nat) (f : Slot → Slot) : (modSlot s n f).saps = s.saps := rfl
@[simp] theorem modSlot_pdm (n : Nat) (f : Slot → Slot) : (modSlot s n f).pdm = s.pdm := rfl
@[simp] theorem modSlot_audio (n : Nat) (f : Slot → Slot) : (modSlot s n f).audio = s.audio := rfl
@[simp] theorem modSlot_cellar (n : Nat) (f : Slot → Slot) : (modSlot s n f).cellar = s.cellar := rfl
@[simp] theorem modSlot_mem (n : Nat) (f : Slot → Slot) : (modSlot s n f).mem = s.mem := rfl
@[simp] theorem modSlot_fresh (n : Nat) (f : Slot → Slot) : (modSlot s n f).fresh = s.fresh := rfl
@[simp] theorem modSlot_pending (n : Nat) (f : Slot → Slot) : (modSlot s n f).pending = s.pending := rfl

@[simp] theorem modFollow_port (n : Nat) (f : Follow → Follow) : (modFollow s n f).port = s.port := rfl
@[simp] theorem modFollow_power (n : Nat) (f : Follow → Follow) : (modFollow s n f).power = s.power := rfl
@[simp] theorem modFollow_rings (n : Nat) (f : Follow → Follow) : (modFollow s n f).rings = s.rings := rfl
@[simp] theorem modFollow_fabric (n : Nat) (f : Follow → Follow) : (modFollow s n f).fabric = s.fabric := rfl
@[simp] theorem modFollow_modes (n : Nat) (f : Follow → Follow) : (modFollow s n f).modes = s.modes := rfl
@[simp] theorem modFollow_scrub (n : Nat) (f : Follow → Follow) : (modFollow s n f).scrub = s.scrub := rfl
@[simp] theorem modFollow_clocks (n : Nat) (f : Follow → Follow) : (modFollow s n f).clocks = s.clocks := rfl
@[simp] theorem modFollow_pathL (n : Nat) (f : Follow → Follow) : (modFollow s n f).pathL = s.pathL := rfl
@[simp] theorem modFollow_pathV (n : Nat) (f : Follow → Follow) : (modFollow s n f).pathV = s.pathV := rfl
@[simp] theorem modFollow_pathS (n : Nat) (f : Follow → Follow) : (modFollow s n f).pathS = s.pathS := rfl
@[simp] theorem modFollow_cal (n : Nat) (f : Follow → Follow) : (modFollow s n f).cal = s.cal := rfl
@[simp] theorem modFollow_lanes (n : Nat) (f : Follow → Follow) : (modFollow s n f).lanes = s.lanes := rfl
@[simp] theorem modFollow_statLatch (n : Nat) (f : Follow → Follow) : (modFollow s n f).statLatch = s.statLatch := rfl
@[simp] theorem modFollow_analogue (n : Nat) (f : Follow → Follow) : (modFollow s n f).analogue = s.analogue := rfl
@[simp] theorem modFollow_lf (n : Nat) (f : Follow → Follow) : (modFollow s n f).lf = s.lf := rfl
@[simp] theorem modFollow_drm (n : Nat) (f : Follow → Follow) : (modFollow s n f).drm = s.drm := rfl
@[simp] theorem modFollow_dab (n : Nat) (f : Follow → Follow) : (modFollow s n f).dab = s.dab := rfl
@[simp] theorem modFollow_lfDescs (n : Nat) (f : Follow → Follow) : (modFollow s n f).lfDescs = s.lfDescs := rfl
@[simp] theorem modFollow_slots (n : Nat) (f : Follow → Follow) : (modFollow s n f).slots = s.slots := rfl
@[simp] theorem modFollow_time (n : Nat) (f : Follow → Follow) : (modFollow s n f).time = s.time := rfl
@[simp] theorem modFollow_link (n : Nat) (f : Follow → Follow) : (modFollow s n f).link = s.link := rfl
@[simp] theorem modFollow_sessions (n : Nat) (f : Follow → Follow) : (modFollow s n f).sessions = s.sessions := rfl
@[simp] theorem modFollow_saps (n : Nat) (f : Follow → Follow) : (modFollow s n f).saps = s.saps := rfl
@[simp] theorem modFollow_pdm (n : Nat) (f : Follow → Follow) : (modFollow s n f).pdm = s.pdm := rfl
@[simp] theorem modFollow_audio (n : Nat) (f : Follow → Follow) : (modFollow s n f).audio = s.audio := rfl
@[simp] theorem modFollow_cellar (n : Nat) (f : Follow → Follow) : (modFollow s n f).cellar = s.cellar := rfl
@[simp] theorem modFollow_mem (n : Nat) (f : Follow → Follow) : (modFollow s n f).mem = s.mem := rfl
@[simp] theorem modFollow_fresh (n : Nat) (f : Follow → Follow) : (modFollow s n f).fresh = s.fresh := rfl
@[simp] theorem modFollow_pending (n : Nat) (f : Follow → Follow) : (modFollow s n f).pending = s.pending := rfl

@[simp] theorem modEndpoint_port (n : Nat) (f : Endpoint → Endpoint) : (modEndpoint s n f).port = s.port := rfl
@[simp] theorem modEndpoint_power (n : Nat) (f : Endpoint → Endpoint) : (modEndpoint s n f).power = s.power := rfl
@[simp] theorem modEndpoint_rings (n : Nat) (f : Endpoint → Endpoint) : (modEndpoint s n f).rings = s.rings := rfl
@[simp] theorem modEndpoint_fabric (n : Nat) (f : Endpoint → Endpoint) : (modEndpoint s n f).fabric = s.fabric := rfl
@[simp] theorem modEndpoint_modes (n : Nat) (f : Endpoint → Endpoint) : (modEndpoint s n f).modes = s.modes := rfl
@[simp] theorem modEndpoint_scrub (n : Nat) (f : Endpoint → Endpoint) : (modEndpoint s n f).scrub = s.scrub := rfl
@[simp] theorem modEndpoint_clocks (n : Nat) (f : Endpoint → Endpoint) : (modEndpoint s n f).clocks = s.clocks := rfl
@[simp] theorem modEndpoint_pathL (n : Nat) (f : Endpoint → Endpoint) : (modEndpoint s n f).pathL = s.pathL := rfl
@[simp] theorem modEndpoint_pathV (n : Nat) (f : Endpoint → Endpoint) : (modEndpoint s n f).pathV = s.pathV := rfl
@[simp] theorem modEndpoint_pathS (n : Nat) (f : Endpoint → Endpoint) : (modEndpoint s n f).pathS = s.pathS := rfl
@[simp] theorem modEndpoint_cal (n : Nat) (f : Endpoint → Endpoint) : (modEndpoint s n f).cal = s.cal := rfl
@[simp] theorem modEndpoint_lanes (n : Nat) (f : Endpoint → Endpoint) : (modEndpoint s n f).lanes = s.lanes := rfl
@[simp] theorem modEndpoint_statLatch (n : Nat) (f : Endpoint → Endpoint) : (modEndpoint s n f).statLatch = s.statLatch := rfl
@[simp] theorem modEndpoint_analogue (n : Nat) (f : Endpoint → Endpoint) : (modEndpoint s n f).analogue = s.analogue := rfl
@[simp] theorem modEndpoint_lf (n : Nat) (f : Endpoint → Endpoint) : (modEndpoint s n f).lf = s.lf := rfl
@[simp] theorem modEndpoint_drm (n : Nat) (f : Endpoint → Endpoint) : (modEndpoint s n f).drm = s.drm := rfl
@[simp] theorem modEndpoint_dab (n : Nat) (f : Endpoint → Endpoint) : (modEndpoint s n f).dab = s.dab := rfl
@[simp] theorem modEndpoint_lfDescs (n : Nat) (f : Endpoint → Endpoint) : (modEndpoint s n f).lfDescs = s.lfDescs := rfl
@[simp] theorem modEndpoint_taste (n : Nat) (f : Endpoint → Endpoint) : (modEndpoint s n f).taste = s.taste := rfl
@[simp] theorem modEndpoint_slots (n : Nat) (f : Endpoint → Endpoint) : (modEndpoint s n f).slots = s.slots := rfl
@[simp] theorem modEndpoint_time (n : Nat) (f : Endpoint → Endpoint) : (modEndpoint s n f).time = s.time := rfl
@[simp] theorem modEndpoint_link (n : Nat) (f : Endpoint → Endpoint) : (modEndpoint s n f).link = s.link := rfl
@[simp] theorem modEndpoint_saps (n : Nat) (f : Endpoint → Endpoint) : (modEndpoint s n f).saps = s.saps := rfl
@[simp] theorem modEndpoint_pdm (n : Nat) (f : Endpoint → Endpoint) : (modEndpoint s n f).pdm = s.pdm := rfl
@[simp] theorem modEndpoint_audio (n : Nat) (f : Endpoint → Endpoint) : (modEndpoint s n f).audio = s.audio := rfl
@[simp] theorem modEndpoint_cellar (n : Nat) (f : Endpoint → Endpoint) : (modEndpoint s n f).cellar = s.cellar := rfl
@[simp] theorem modEndpoint_mem (n : Nat) (f : Endpoint → Endpoint) : (modEndpoint s n f).mem = s.mem := rfl
@[simp] theorem modEndpoint_fresh (n : Nat) (f : Endpoint → Endpoint) : (modEndpoint s n f).fresh = s.fresh := rfl
@[simp] theorem modEndpoint_pending (n : Nat) (f : Endpoint → Endpoint) : (modEndpoint s n f).pending = s.pending := rfl

@[simp] theorem modTarget_port (n : Nat) (f : Target → Target) : (modTarget s n f).port = s.port := rfl
@[simp] theorem modTarget_power (n : Nat) (f : Target → Target) : (modTarget s n f).power = s.power := rfl
@[simp] theorem modTarget_rings (n : Nat) (f : Target → Target) : (modTarget s n f).rings = s.rings := rfl
@[simp] theorem modTarget_fabric (n : Nat) (f : Target → Target) : (modTarget s n f).fabric = s.fabric := rfl
@[simp] theorem modTarget_modes (n : Nat) (f : Target → Target) : (modTarget s n f).modes = s.modes := rfl
@[simp] theorem modTarget_scrub (n : Nat) (f : Target → Target) : (modTarget s n f).scrub = s.scrub := rfl
@[simp] theorem modTarget_clocks (n : Nat) (f : Target → Target) : (modTarget s n f).clocks = s.clocks := rfl
@[simp] theorem modTarget_pathL (n : Nat) (f : Target → Target) : (modTarget s n f).pathL = s.pathL := rfl
@[simp] theorem modTarget_pathV (n : Nat) (f : Target → Target) : (modTarget s n f).pathV = s.pathV := rfl
@[simp] theorem modTarget_pathS (n : Nat) (f : Target → Target) : (modTarget s n f).pathS = s.pathS := rfl
@[simp] theorem modTarget_cal (n : Nat) (f : Target → Target) : (modTarget s n f).cal = s.cal := rfl
@[simp] theorem modTarget_lanes (n : Nat) (f : Target → Target) : (modTarget s n f).lanes = s.lanes := rfl
@[simp] theorem modTarget_statLatch (n : Nat) (f : Target → Target) : (modTarget s n f).statLatch = s.statLatch := rfl
@[simp] theorem modTarget_analogue (n : Nat) (f : Target → Target) : (modTarget s n f).analogue = s.analogue := rfl
@[simp] theorem modTarget_lf (n : Nat) (f : Target → Target) : (modTarget s n f).lf = s.lf := rfl
@[simp] theorem modTarget_drm (n : Nat) (f : Target → Target) : (modTarget s n f).drm = s.drm := rfl
@[simp] theorem modTarget_dab (n : Nat) (f : Target → Target) : (modTarget s n f).dab = s.dab := rfl
@[simp] theorem modTarget_lfDescs (n : Nat) (f : Target → Target) : (modTarget s n f).lfDescs = s.lfDescs := rfl
@[simp] theorem modTarget_taste (n : Nat) (f : Target → Target) : (modTarget s n f).taste = s.taste := rfl
@[simp] theorem modTarget_slots (n : Nat) (f : Target → Target) : (modTarget s n f).slots = s.slots := rfl
@[simp] theorem modTarget_time (n : Nat) (f : Target → Target) : (modTarget s n f).time = s.time := rfl
@[simp] theorem modTarget_link (n : Nat) (f : Target → Target) : (modTarget s n f).link = s.link := rfl
@[simp] theorem modTarget_saps (n : Nat) (f : Target → Target) : (modTarget s n f).saps = s.saps := rfl
@[simp] theorem modTarget_pdm (n : Nat) (f : Target → Target) : (modTarget s n f).pdm = s.pdm := rfl
@[simp] theorem modTarget_audio (n : Nat) (f : Target → Target) : (modTarget s n f).audio = s.audio := rfl
@[simp] theorem modTarget_cellar (n : Nat) (f : Target → Target) : (modTarget s n f).cellar = s.cellar := rfl
@[simp] theorem modTarget_mem (n : Nat) (f : Target → Target) : (modTarget s n f).mem = s.mem := rfl
@[simp] theorem modTarget_fresh (n : Nat) (f : Target → Target) : (modTarget s n f).fresh = s.fresh := rfl
@[simp] theorem modTarget_pending (n : Nat) (f : Target → Target) : (modTarget s n f).pending = s.pending := rfl

@[simp] theorem modSap_port (n : Nat) (f : Sap → Sap) : (modSap s n f).port = s.port := rfl
@[simp] theorem modSap_power (n : Nat) (f : Sap → Sap) : (modSap s n f).power = s.power := rfl
@[simp] theorem modSap_rings (n : Nat) (f : Sap → Sap) : (modSap s n f).rings = s.rings := rfl
@[simp] theorem modSap_fabric (n : Nat) (f : Sap → Sap) : (modSap s n f).fabric = s.fabric := rfl
@[simp] theorem modSap_modes (n : Nat) (f : Sap → Sap) : (modSap s n f).modes = s.modes := rfl
@[simp] theorem modSap_scrub (n : Nat) (f : Sap → Sap) : (modSap s n f).scrub = s.scrub := rfl
@[simp] theorem modSap_clocks (n : Nat) (f : Sap → Sap) : (modSap s n f).clocks = s.clocks := rfl
@[simp] theorem modSap_pathL (n : Nat) (f : Sap → Sap) : (modSap s n f).pathL = s.pathL := rfl
@[simp] theorem modSap_pathV (n : Nat) (f : Sap → Sap) : (modSap s n f).pathV = s.pathV := rfl
@[simp] theorem modSap_pathS (n : Nat) (f : Sap → Sap) : (modSap s n f).pathS = s.pathS := rfl
@[simp] theorem modSap_cal (n : Nat) (f : Sap → Sap) : (modSap s n f).cal = s.cal := rfl
@[simp] theorem modSap_lanes (n : Nat) (f : Sap → Sap) : (modSap s n f).lanes = s.lanes := rfl
@[simp] theorem modSap_statLatch (n : Nat) (f : Sap → Sap) : (modSap s n f).statLatch = s.statLatch := rfl
@[simp] theorem modSap_analogue (n : Nat) (f : Sap → Sap) : (modSap s n f).analogue = s.analogue := rfl
@[simp] theorem modSap_lf (n : Nat) (f : Sap → Sap) : (modSap s n f).lf = s.lf := rfl
@[simp] theorem modSap_drm (n : Nat) (f : Sap → Sap) : (modSap s n f).drm = s.drm := rfl
@[simp] theorem modSap_dab (n : Nat) (f : Sap → Sap) : (modSap s n f).dab = s.dab := rfl
@[simp] theorem modSap_lfDescs (n : Nat) (f : Sap → Sap) : (modSap s n f).lfDescs = s.lfDescs := rfl
@[simp] theorem modSap_taste (n : Nat) (f : Sap → Sap) : (modSap s n f).taste = s.taste := rfl
@[simp] theorem modSap_slots (n : Nat) (f : Sap → Sap) : (modSap s n f).slots = s.slots := rfl
@[simp] theorem modSap_time (n : Nat) (f : Sap → Sap) : (modSap s n f).time = s.time := rfl
@[simp] theorem modSap_link (n : Nat) (f : Sap → Sap) : (modSap s n f).link = s.link := rfl
@[simp] theorem modSap_sessions (n : Nat) (f : Sap → Sap) : (modSap s n f).sessions = s.sessions := rfl
@[simp] theorem modSap_pdm (n : Nat) (f : Sap → Sap) : (modSap s n f).pdm = s.pdm := rfl
@[simp] theorem modSap_audio (n : Nat) (f : Sap → Sap) : (modSap s n f).audio = s.audio := rfl
@[simp] theorem modSap_cellar (n : Nat) (f : Sap → Sap) : (modSap s n f).cellar = s.cellar := rfl
@[simp] theorem modSap_mem (n : Nat) (f : Sap → Sap) : (modSap s n f).mem = s.mem := rfl
@[simp] theorem modSap_fresh (n : Nat) (f : Sap → Sap) : (modSap s n f).fresh = s.fresh := rfl
@[simp] theorem modSap_pending (n : Nat) (f : Sap → Sap) : (modSap s n f).pending = s.pending := rfl

@[simp] theorem memPuts_port (a : Nat) (bs : List Byte) : (memPuts s a bs).port = s.port := rfl
@[simp] theorem memPuts_power (a : Nat) (bs : List Byte) : (memPuts s a bs).power = s.power := rfl
@[simp] theorem memPuts_rings (a : Nat) (bs : List Byte) : (memPuts s a bs).rings = s.rings := rfl
@[simp] theorem memPuts_fabric (a : Nat) (bs : List Byte) : (memPuts s a bs).fabric = s.fabric := rfl
@[simp] theorem memPuts_modes (a : Nat) (bs : List Byte) : (memPuts s a bs).modes = s.modes := rfl
@[simp] theorem memPuts_scrub (a : Nat) (bs : List Byte) : (memPuts s a bs).scrub = s.scrub := rfl
@[simp] theorem memPuts_clocks (a : Nat) (bs : List Byte) : (memPuts s a bs).clocks = s.clocks := rfl
@[simp] theorem memPuts_pathL (a : Nat) (bs : List Byte) : (memPuts s a bs).pathL = s.pathL := rfl
@[simp] theorem memPuts_pathV (a : Nat) (bs : List Byte) : (memPuts s a bs).pathV = s.pathV := rfl
@[simp] theorem memPuts_pathS (a : Nat) (bs : List Byte) : (memPuts s a bs).pathS = s.pathS := rfl
@[simp] theorem memPuts_cal (a : Nat) (bs : List Byte) : (memPuts s a bs).cal = s.cal := rfl
@[simp] theorem memPuts_lanes (a : Nat) (bs : List Byte) : (memPuts s a bs).lanes = s.lanes := rfl
@[simp] theorem memPuts_statLatch (a : Nat) (bs : List Byte) : (memPuts s a bs).statLatch = s.statLatch := rfl
@[simp] theorem memPuts_analogue (a : Nat) (bs : List Byte) : (memPuts s a bs).analogue = s.analogue := rfl
@[simp] theorem memPuts_lf (a : Nat) (bs : List Byte) : (memPuts s a bs).lf = s.lf := rfl
@[simp] theorem memPuts_drm (a : Nat) (bs : List Byte) : (memPuts s a bs).drm = s.drm := rfl
@[simp] theorem memPuts_dab (a : Nat) (bs : List Byte) : (memPuts s a bs).dab = s.dab := rfl
@[simp] theorem memPuts_lfDescs (a : Nat) (bs : List Byte) : (memPuts s a bs).lfDescs = s.lfDescs := rfl
@[simp] theorem memPuts_taste (a : Nat) (bs : List Byte) : (memPuts s a bs).taste = s.taste := rfl
@[simp] theorem memPuts_slots (a : Nat) (bs : List Byte) : (memPuts s a bs).slots = s.slots := rfl
@[simp] theorem memPuts_time (a : Nat) (bs : List Byte) : (memPuts s a bs).time = s.time := rfl
@[simp] theorem memPuts_link (a : Nat) (bs : List Byte) : (memPuts s a bs).link = s.link := rfl
@[simp] theorem memPuts_sessions (a : Nat) (bs : List Byte) : (memPuts s a bs).sessions = s.sessions := rfl
@[simp] theorem memPuts_saps (a : Nat) (bs : List Byte) : (memPuts s a bs).saps = s.saps := rfl
@[simp] theorem memPuts_pdm (a : Nat) (bs : List Byte) : (memPuts s a bs).pdm = s.pdm := rfl
@[simp] theorem memPuts_audio (a : Nat) (bs : List Byte) : (memPuts s a bs).audio = s.audio := rfl
@[simp] theorem memPuts_cellar (a : Nat) (bs : List Byte) : (memPuts s a bs).cellar = s.cellar := rfl
@[simp] theorem memPuts_fresh (a : Nat) (bs : List Byte) : (memPuts s a bs).fresh = s.fresh := rfl
@[simp] theorem memPuts_pending (a : Nat) (bs : List Byte) : (memPuts s a bs).pending = s.pending := rfl

@[simp] theorem setPhase_port (q : Nat) (ph : CmdPhase) : (setPhase s q ph).port = s.port := rfl
@[simp] theorem setPhase_power (q : Nat) (ph : CmdPhase) : (setPhase s q ph).power = s.power := rfl
@[simp] theorem setPhase_fabric (q : Nat) (ph : CmdPhase) : (setPhase s q ph).fabric = s.fabric := rfl
@[simp] theorem setPhase_modes (q : Nat) (ph : CmdPhase) : (setPhase s q ph).modes = s.modes := rfl
@[simp] theorem setPhase_scrub (q : Nat) (ph : CmdPhase) : (setPhase s q ph).scrub = s.scrub := rfl
@[simp] theorem setPhase_clocks (q : Nat) (ph : CmdPhase) : (setPhase s q ph).clocks = s.clocks := rfl
@[simp] theorem setPhase_pathL (q : Nat) (ph : CmdPhase) : (setPhase s q ph).pathL = s.pathL := rfl
@[simp] theorem setPhase_pathV (q : Nat) (ph : CmdPhase) : (setPhase s q ph).pathV = s.pathV := rfl
@[simp] theorem setPhase_pathS (q : Nat) (ph : CmdPhase) : (setPhase s q ph).pathS = s.pathS := rfl
@[simp] theorem setPhase_cal (q : Nat) (ph : CmdPhase) : (setPhase s q ph).cal = s.cal := rfl
@[simp] theorem setPhase_lanes (q : Nat) (ph : CmdPhase) : (setPhase s q ph).lanes = s.lanes := rfl
@[simp] theorem setPhase_statLatch (q : Nat) (ph : CmdPhase) : (setPhase s q ph).statLatch = s.statLatch := rfl
@[simp] theorem setPhase_analogue (q : Nat) (ph : CmdPhase) : (setPhase s q ph).analogue = s.analogue := rfl
@[simp] theorem setPhase_lf (q : Nat) (ph : CmdPhase) : (setPhase s q ph).lf = s.lf := rfl
@[simp] theorem setPhase_drm (q : Nat) (ph : CmdPhase) : (setPhase s q ph).drm = s.drm := rfl
@[simp] theorem setPhase_dab (q : Nat) (ph : CmdPhase) : (setPhase s q ph).dab = s.dab := rfl
@[simp] theorem setPhase_lfDescs (q : Nat) (ph : CmdPhase) : (setPhase s q ph).lfDescs = s.lfDescs := rfl
@[simp] theorem setPhase_taste (q : Nat) (ph : CmdPhase) : (setPhase s q ph).taste = s.taste := rfl
@[simp] theorem setPhase_slots (q : Nat) (ph : CmdPhase) : (setPhase s q ph).slots = s.slots := rfl
@[simp] theorem setPhase_time (q : Nat) (ph : CmdPhase) : (setPhase s q ph).time = s.time := rfl
@[simp] theorem setPhase_link (q : Nat) (ph : CmdPhase) : (setPhase s q ph).link = s.link := rfl
@[simp] theorem setPhase_sessions (q : Nat) (ph : CmdPhase) : (setPhase s q ph).sessions = s.sessions := rfl
@[simp] theorem setPhase_saps (q : Nat) (ph : CmdPhase) : (setPhase s q ph).saps = s.saps := rfl
@[simp] theorem setPhase_pdm (q : Nat) (ph : CmdPhase) : (setPhase s q ph).pdm = s.pdm := rfl
@[simp] theorem setPhase_audio (q : Nat) (ph : CmdPhase) : (setPhase s q ph).audio = s.audio := rfl
@[simp] theorem setPhase_cellar (q : Nat) (ph : CmdPhase) : (setPhase s q ph).cellar = s.cellar := rfl
@[simp] theorem setPhase_mem (q : Nat) (ph : CmdPhase) : (setPhase s q ph).mem = s.mem := rfl
@[simp] theorem setPhase_fresh (q : Nat) (ph : CmdPhase) : (setPhase s q ph).fresh = s.fresh := rfl
@[simp] theorem setPhase_pending (q : Nat) (ph : CmdPhase) : (setPhase s q ph).pending = s.pending := rfl

@[simp] theorem setPath_port (p : Nat) (x : Path) : (setPath s p x).port = s.port := by unfold setPath; split <;> rfl
@[simp] theorem setPath_power (p : Nat) (x : Path) : (setPath s p x).power = s.power := by unfold setPath; split <;> rfl
@[simp] theorem setPath_rings (p : Nat) (x : Path) : (setPath s p x).rings = s.rings := by unfold setPath; split <;> rfl
@[simp] theorem setPath_fabric (p : Nat) (x : Path) : (setPath s p x).fabric = s.fabric := by unfold setPath; split <;> rfl
@[simp] theorem setPath_modes (p : Nat) (x : Path) : (setPath s p x).modes = s.modes := by unfold setPath; split <;> rfl
@[simp] theorem setPath_scrub (p : Nat) (x : Path) : (setPath s p x).scrub = s.scrub := by unfold setPath; split <;> rfl
@[simp] theorem setPath_clocks (p : Nat) (x : Path) : (setPath s p x).clocks = s.clocks := by unfold setPath; split <;> rfl
@[simp] theorem setPath_cal (p : Nat) (x : Path) : (setPath s p x).cal = s.cal := by unfold setPath; split <;> rfl
@[simp] theorem setPath_lanes (p : Nat) (x : Path) : (setPath s p x).lanes = s.lanes := by unfold setPath; split <;> rfl
@[simp] theorem setPath_statLatch (p : Nat) (x : Path) : (setPath s p x).statLatch = s.statLatch := by unfold setPath; split <;> rfl
@[simp] theorem setPath_analogue (p : Nat) (x : Path) : (setPath s p x).analogue = s.analogue := by unfold setPath; split <;> rfl
@[simp] theorem setPath_lf (p : Nat) (x : Path) : (setPath s p x).lf = s.lf := by unfold setPath; split <;> rfl
@[simp] theorem setPath_drm (p : Nat) (x : Path) : (setPath s p x).drm = s.drm := by unfold setPath; split <;> rfl
@[simp] theorem setPath_dab (p : Nat) (x : Path) : (setPath s p x).dab = s.dab := by unfold setPath; split <;> rfl
@[simp] theorem setPath_lfDescs (p : Nat) (x : Path) : (setPath s p x).lfDescs = s.lfDescs := by unfold setPath; split <;> rfl
@[simp] theorem setPath_taste (p : Nat) (x : Path) : (setPath s p x).taste = s.taste := by unfold setPath; split <;> rfl
@[simp] theorem setPath_slots (p : Nat) (x : Path) : (setPath s p x).slots = s.slots := by unfold setPath; split <;> rfl
@[simp] theorem setPath_time (p : Nat) (x : Path) : (setPath s p x).time = s.time := by unfold setPath; split <;> rfl
@[simp] theorem setPath_link (p : Nat) (x : Path) : (setPath s p x).link = s.link := by unfold setPath; split <;> rfl
@[simp] theorem setPath_sessions (p : Nat) (x : Path) : (setPath s p x).sessions = s.sessions := by unfold setPath; split <;> rfl
@[simp] theorem setPath_saps (p : Nat) (x : Path) : (setPath s p x).saps = s.saps := by unfold setPath; split <;> rfl
@[simp] theorem setPath_pdm (p : Nat) (x : Path) : (setPath s p x).pdm = s.pdm := by unfold setPath; split <;> rfl
@[simp] theorem setPath_audio (p : Nat) (x : Path) : (setPath s p x).audio = s.audio := by unfold setPath; split <;> rfl
@[simp] theorem setPath_cellar (p : Nat) (x : Path) : (setPath s p x).cellar = s.cellar := by unfold setPath; split <;> rfl
@[simp] theorem setPath_mem (p : Nat) (x : Path) : (setPath s p x).mem = s.mem := by unfold setPath; split <;> rfl
@[simp] theorem setPath_fresh (p : Nat) (x : Path) : (setPath s p x).fresh = s.fresh := by unfold setPath; split <;> rfl
@[simp] theorem setPath_pending (p : Nat) (x : Path) : (setPath s p x).pending = s.pending := by unfold setPath; split <;> rfl

@[simp] theorem modPath_port (p : Nat) (f : Path → Path) : (modPath s p f).port = s.port := setPath_port _ _ _
@[simp] theorem modPath_power (p : Nat) (f : Path → Path) : (modPath s p f).power = s.power := setPath_power _ _ _
@[simp] theorem modPath_rings (p : Nat) (f : Path → Path) : (modPath s p f).rings = s.rings := setPath_rings _ _ _
@[simp] theorem modPath_fabric (p : Nat) (f : Path → Path) : (modPath s p f).fabric = s.fabric := setPath_fabric _ _ _
@[simp] theorem modPath_modes (p : Nat) (f : Path → Path) : (modPath s p f).modes = s.modes := setPath_modes _ _ _
@[simp] theorem modPath_scrub (p : Nat) (f : Path → Path) : (modPath s p f).scrub = s.scrub := setPath_scrub _ _ _
@[simp] theorem modPath_clocks (p : Nat) (f : Path → Path) : (modPath s p f).clocks = s.clocks := setPath_clocks _ _ _
@[simp] theorem modPath_cal (p : Nat) (f : Path → Path) : (modPath s p f).cal = s.cal := setPath_cal _ _ _
@[simp] theorem modPath_lanes (p : Nat) (f : Path → Path) : (modPath s p f).lanes = s.lanes := setPath_lanes _ _ _
@[simp] theorem modPath_statLatch (p : Nat) (f : Path → Path) : (modPath s p f).statLatch = s.statLatch := setPath_statLatch _ _ _
@[simp] theorem modPath_analogue (p : Nat) (f : Path → Path) : (modPath s p f).analogue = s.analogue := setPath_analogue _ _ _
@[simp] theorem modPath_lf (p : Nat) (f : Path → Path) : (modPath s p f).lf = s.lf := setPath_lf _ _ _
@[simp] theorem modPath_drm (p : Nat) (f : Path → Path) : (modPath s p f).drm = s.drm := setPath_drm _ _ _
@[simp] theorem modPath_dab (p : Nat) (f : Path → Path) : (modPath s p f).dab = s.dab := setPath_dab _ _ _
@[simp] theorem modPath_lfDescs (p : Nat) (f : Path → Path) : (modPath s p f).lfDescs = s.lfDescs := setPath_lfDescs _ _ _
@[simp] theorem modPath_taste (p : Nat) (f : Path → Path) : (modPath s p f).taste = s.taste := setPath_taste _ _ _
@[simp] theorem modPath_slots (p : Nat) (f : Path → Path) : (modPath s p f).slots = s.slots := setPath_slots _ _ _
@[simp] theorem modPath_time (p : Nat) (f : Path → Path) : (modPath s p f).time = s.time := setPath_time _ _ _
@[simp] theorem modPath_link (p : Nat) (f : Path → Path) : (modPath s p f).link = s.link := setPath_link _ _ _
@[simp] theorem modPath_sessions (p : Nat) (f : Path → Path) : (modPath s p f).sessions = s.sessions := setPath_sessions _ _ _
@[simp] theorem modPath_saps (p : Nat) (f : Path → Path) : (modPath s p f).saps = s.saps := setPath_saps _ _ _
@[simp] theorem modPath_pdm (p : Nat) (f : Path → Path) : (modPath s p f).pdm = s.pdm := setPath_pdm _ _ _
@[simp] theorem modPath_audio (p : Nat) (f : Path → Path) : (modPath s p f).audio = s.audio := setPath_audio _ _ _
@[simp] theorem modPath_cellar (p : Nat) (f : Path → Path) : (modPath s p f).cellar = s.cellar := setPath_cellar _ _ _
@[simp] theorem modPath_mem (p : Nat) (f : Path → Path) : (modPath s p f).mem = s.mem := setPath_mem _ _ _
@[simp] theorem modPath_fresh (p : Nat) (f : Path → Path) : (modPath s p f).fresh = s.fresh := setPath_fresh _ _ _
@[simp] theorem modPath_pending (p : Nat) (f : Path → Path) : (modPath s p f).pending = s.pending := setPath_pending _ _ _

@[simp] theorem modSynth_port (p : Nat) (f : Synth → Synth) : (modSynth s p f).port = s.port := setPath_port _ _ _
@[simp] theorem modSynth_power (p : Nat) (f : Synth → Synth) : (modSynth s p f).power = s.power := setPath_power _ _ _
@[simp] theorem modSynth_rings (p : Nat) (f : Synth → Synth) : (modSynth s p f).rings = s.rings := setPath_rings _ _ _
@[simp] theorem modSynth_fabric (p : Nat) (f : Synth → Synth) : (modSynth s p f).fabric = s.fabric := setPath_fabric _ _ _
@[simp] theorem modSynth_modes (p : Nat) (f : Synth → Synth) : (modSynth s p f).modes = s.modes := setPath_modes _ _ _
@[simp] theorem modSynth_scrub (p : Nat) (f : Synth → Synth) : (modSynth s p f).scrub = s.scrub := setPath_scrub _ _ _
@[simp] theorem modSynth_clocks (p : Nat) (f : Synth → Synth) : (modSynth s p f).clocks = s.clocks := setPath_clocks _ _ _
@[simp] theorem modSynth_cal (p : Nat) (f : Synth → Synth) : (modSynth s p f).cal = s.cal := setPath_cal _ _ _
@[simp] theorem modSynth_lanes (p : Nat) (f : Synth → Synth) : (modSynth s p f).lanes = s.lanes := setPath_lanes _ _ _
@[simp] theorem modSynth_statLatch (p : Nat) (f : Synth → Synth) : (modSynth s p f).statLatch = s.statLatch := setPath_statLatch _ _ _
@[simp] theorem modSynth_analogue (p : Nat) (f : Synth → Synth) : (modSynth s p f).analogue = s.analogue := setPath_analogue _ _ _
@[simp] theorem modSynth_lf (p : Nat) (f : Synth → Synth) : (modSynth s p f).lf = s.lf := setPath_lf _ _ _
@[simp] theorem modSynth_drm (p : Nat) (f : Synth → Synth) : (modSynth s p f).drm = s.drm := setPath_drm _ _ _
@[simp] theorem modSynth_dab (p : Nat) (f : Synth → Synth) : (modSynth s p f).dab = s.dab := setPath_dab _ _ _
@[simp] theorem modSynth_lfDescs (p : Nat) (f : Synth → Synth) : (modSynth s p f).lfDescs = s.lfDescs := setPath_lfDescs _ _ _
@[simp] theorem modSynth_taste (p : Nat) (f : Synth → Synth) : (modSynth s p f).taste = s.taste := setPath_taste _ _ _
@[simp] theorem modSynth_slots (p : Nat) (f : Synth → Synth) : (modSynth s p f).slots = s.slots := setPath_slots _ _ _
@[simp] theorem modSynth_time (p : Nat) (f : Synth → Synth) : (modSynth s p f).time = s.time := setPath_time _ _ _
@[simp] theorem modSynth_link (p : Nat) (f : Synth → Synth) : (modSynth s p f).link = s.link := setPath_link _ _ _
@[simp] theorem modSynth_sessions (p : Nat) (f : Synth → Synth) : (modSynth s p f).sessions = s.sessions := setPath_sessions _ _ _
@[simp] theorem modSynth_saps (p : Nat) (f : Synth → Synth) : (modSynth s p f).saps = s.saps := setPath_saps _ _ _
@[simp] theorem modSynth_pdm (p : Nat) (f : Synth → Synth) : (modSynth s p f).pdm = s.pdm := setPath_pdm _ _ _
@[simp] theorem modSynth_audio (p : Nat) (f : Synth → Synth) : (modSynth s p f).audio = s.audio := setPath_audio _ _ _
@[simp] theorem modSynth_cellar (p : Nat) (f : Synth → Synth) : (modSynth s p f).cellar = s.cellar := setPath_cellar _ _ _
@[simp] theorem modSynth_mem (p : Nat) (f : Synth → Synth) : (modSynth s p f).mem = s.mem := setPath_mem _ _ _
@[simp] theorem modSynth_fresh (p : Nat) (f : Synth → Synth) : (modSynth s p f).fresh = s.fresh := setPath_fresh _ _ _
@[simp] theorem modSynth_pending (p : Nat) (f : Synth → Synth) : (modSynth s p f).pending = s.pending := setPath_pending _ _ _

@[simp] theorem modFe_port (p : Nat) (f : FrontEnd → FrontEnd) : (modFe s p f).port = s.port := setPath_port _ _ _
@[simp] theorem modFe_power (p : Nat) (f : FrontEnd → FrontEnd) : (modFe s p f).power = s.power := setPath_power _ _ _
@[simp] theorem modFe_rings (p : Nat) (f : FrontEnd → FrontEnd) : (modFe s p f).rings = s.rings := setPath_rings _ _ _
@[simp] theorem modFe_fabric (p : Nat) (f : FrontEnd → FrontEnd) : (modFe s p f).fabric = s.fabric := setPath_fabric _ _ _
@[simp] theorem modFe_modes (p : Nat) (f : FrontEnd → FrontEnd) : (modFe s p f).modes = s.modes := setPath_modes _ _ _
@[simp] theorem modFe_scrub (p : Nat) (f : FrontEnd → FrontEnd) : (modFe s p f).scrub = s.scrub := setPath_scrub _ _ _
@[simp] theorem modFe_clocks (p : Nat) (f : FrontEnd → FrontEnd) : (modFe s p f).clocks = s.clocks := setPath_clocks _ _ _
@[simp] theorem modFe_cal (p : Nat) (f : FrontEnd → FrontEnd) : (modFe s p f).cal = s.cal := setPath_cal _ _ _
@[simp] theorem modFe_lanes (p : Nat) (f : FrontEnd → FrontEnd) : (modFe s p f).lanes = s.lanes := setPath_lanes _ _ _
@[simp] theorem modFe_statLatch (p : Nat) (f : FrontEnd → FrontEnd) : (modFe s p f).statLatch = s.statLatch := setPath_statLatch _ _ _
@[simp] theorem modFe_analogue (p : Nat) (f : FrontEnd → FrontEnd) : (modFe s p f).analogue = s.analogue := setPath_analogue _ _ _
@[simp] theorem modFe_lf (p : Nat) (f : FrontEnd → FrontEnd) : (modFe s p f).lf = s.lf := setPath_lf _ _ _
@[simp] theorem modFe_drm (p : Nat) (f : FrontEnd → FrontEnd) : (modFe s p f).drm = s.drm := setPath_drm _ _ _
@[simp] theorem modFe_dab (p : Nat) (f : FrontEnd → FrontEnd) : (modFe s p f).dab = s.dab := setPath_dab _ _ _
@[simp] theorem modFe_lfDescs (p : Nat) (f : FrontEnd → FrontEnd) : (modFe s p f).lfDescs = s.lfDescs := setPath_lfDescs _ _ _
@[simp] theorem modFe_taste (p : Nat) (f : FrontEnd → FrontEnd) : (modFe s p f).taste = s.taste := setPath_taste _ _ _
@[simp] theorem modFe_slots (p : Nat) (f : FrontEnd → FrontEnd) : (modFe s p f).slots = s.slots := setPath_slots _ _ _
@[simp] theorem modFe_time (p : Nat) (f : FrontEnd → FrontEnd) : (modFe s p f).time = s.time := setPath_time _ _ _
@[simp] theorem modFe_link (p : Nat) (f : FrontEnd → FrontEnd) : (modFe s p f).link = s.link := setPath_link _ _ _
@[simp] theorem modFe_sessions (p : Nat) (f : FrontEnd → FrontEnd) : (modFe s p f).sessions = s.sessions := setPath_sessions _ _ _
@[simp] theorem modFe_saps (p : Nat) (f : FrontEnd → FrontEnd) : (modFe s p f).saps = s.saps := setPath_saps _ _ _
@[simp] theorem modFe_pdm (p : Nat) (f : FrontEnd → FrontEnd) : (modFe s p f).pdm = s.pdm := setPath_pdm _ _ _
@[simp] theorem modFe_audio (p : Nat) (f : FrontEnd → FrontEnd) : (modFe s p f).audio = s.audio := setPath_audio _ _ _
@[simp] theorem modFe_cellar (p : Nat) (f : FrontEnd → FrontEnd) : (modFe s p f).cellar = s.cellar := setPath_cellar _ _ _
@[simp] theorem modFe_mem (p : Nat) (f : FrontEnd → FrontEnd) : (modFe s p f).mem = s.mem := setPath_mem _ _ _
@[simp] theorem modFe_fresh (p : Nat) (f : FrontEnd → FrontEnd) : (modFe s p f).fresh = s.fresh := setPath_fresh _ _ _
@[simp] theorem modFe_pending (p : Nat) (f : FrontEnd → FrontEnd) : (modFe s p f).pending = s.pending := setPath_pending _ _ _

@[simp] theorem modCal_port (p : Nat) (f : CalPart → CalPart) : (modCal s p f).port = s.port := setPath_port _ _ _
@[simp] theorem modCal_power (p : Nat) (f : CalPart → CalPart) : (modCal s p f).power = s.power := setPath_power _ _ _
@[simp] theorem modCal_rings (p : Nat) (f : CalPart → CalPart) : (modCal s p f).rings = s.rings := setPath_rings _ _ _
@[simp] theorem modCal_fabric (p : Nat) (f : CalPart → CalPart) : (modCal s p f).fabric = s.fabric := setPath_fabric _ _ _
@[simp] theorem modCal_modes (p : Nat) (f : CalPart → CalPart) : (modCal s p f).modes = s.modes := setPath_modes _ _ _
@[simp] theorem modCal_scrub (p : Nat) (f : CalPart → CalPart) : (modCal s p f).scrub = s.scrub := setPath_scrub _ _ _
@[simp] theorem modCal_clocks (p : Nat) (f : CalPart → CalPart) : (modCal s p f).clocks = s.clocks := setPath_clocks _ _ _
@[simp] theorem modCal_cal (p : Nat) (f : CalPart → CalPart) : (modCal s p f).cal = s.cal := setPath_cal _ _ _
@[simp] theorem modCal_lanes (p : Nat) (f : CalPart → CalPart) : (modCal s p f).lanes = s.lanes := setPath_lanes _ _ _
@[simp] theorem modCal_statLatch (p : Nat) (f : CalPart → CalPart) : (modCal s p f).statLatch = s.statLatch := setPath_statLatch _ _ _
@[simp] theorem modCal_analogue (p : Nat) (f : CalPart → CalPart) : (modCal s p f).analogue = s.analogue := setPath_analogue _ _ _
@[simp] theorem modCal_lf (p : Nat) (f : CalPart → CalPart) : (modCal s p f).lf = s.lf := setPath_lf _ _ _
@[simp] theorem modCal_drm (p : Nat) (f : CalPart → CalPart) : (modCal s p f).drm = s.drm := setPath_drm _ _ _
@[simp] theorem modCal_dab (p : Nat) (f : CalPart → CalPart) : (modCal s p f).dab = s.dab := setPath_dab _ _ _
@[simp] theorem modCal_lfDescs (p : Nat) (f : CalPart → CalPart) : (modCal s p f).lfDescs = s.lfDescs := setPath_lfDescs _ _ _
@[simp] theorem modCal_taste (p : Nat) (f : CalPart → CalPart) : (modCal s p f).taste = s.taste := setPath_taste _ _ _
@[simp] theorem modCal_slots (p : Nat) (f : CalPart → CalPart) : (modCal s p f).slots = s.slots := setPath_slots _ _ _
@[simp] theorem modCal_time (p : Nat) (f : CalPart → CalPart) : (modCal s p f).time = s.time := setPath_time _ _ _
@[simp] theorem modCal_link (p : Nat) (f : CalPart → CalPart) : (modCal s p f).link = s.link := setPath_link _ _ _
@[simp] theorem modCal_sessions (p : Nat) (f : CalPart → CalPart) : (modCal s p f).sessions = s.sessions := setPath_sessions _ _ _
@[simp] theorem modCal_saps (p : Nat) (f : CalPart → CalPart) : (modCal s p f).saps = s.saps := setPath_saps _ _ _
@[simp] theorem modCal_pdm (p : Nat) (f : CalPart → CalPart) : (modCal s p f).pdm = s.pdm := setPath_pdm _ _ _
@[simp] theorem modCal_audio (p : Nat) (f : CalPart → CalPart) : (modCal s p f).audio = s.audio := setPath_audio _ _ _
@[simp] theorem modCal_cellar (p : Nat) (f : CalPart → CalPart) : (modCal s p f).cellar = s.cellar := setPath_cellar _ _ _
@[simp] theorem modCal_mem (p : Nat) (f : CalPart → CalPart) : (modCal s p f).mem = s.mem := setPath_mem _ _ _
@[simp] theorem modCal_fresh (p : Nat) (f : CalPart → CalPart) : (modCal s p f).fresh = s.fresh := setPath_fresh _ _ _
@[simp] theorem modCal_pending (p : Nat) (f : CalPart → CalPart) : (modCal s p f).pending = s.pending := setPath_pending _ _ _

end Sys2Proof.Machine
end

