-- ==== Sys2Proof/Laws/Tables.lean ====
section
/-!
SUPPORT. Reading a table, a numbered object or a byte of memory after a write of one.
-/
namespace Sys2Proof.Machine

/-! Tables -/

@[simp] theorem tabGet_tabSet_same {α : Type} (d : α) (t : Tab α) (i : Nat) (x : α) : tabGet d (tabSet t i x) i = x := by
  induction t with
  | nil => simp [tabSet, tabGet]
  | cons e t ih =>
    obtain ⟨k, v⟩ := e
    simp only [tabSet]
    split
    · simp [tabGet]
    · split
      · simp [tabGet]
      · have : ¬ k = i := by omega
        simp [tabGet, this, ih]

theorem tabGet_tabSet_ne {α : Type} (d : α) (t : Tab α) {i j : Nat} (x : α) (h : j ≠ i) : tabGet d (tabSet t i x) j = tabGet d t j := by
  have h' : ¬ i = j := fun e => h e.symm
  induction t with
  | nil => simp [tabSet, tabGet, h']
  | cons e t ih =>
    obtain ⟨k, v⟩ := e
    simp only [tabSet]
    split
    · simp [tabGet, h']
    · split
      · rename_i _ hk
        subst hk
        simp [tabGet, h']
      · simp only [tabGet, ih]

/-- A change of every entry that leaves the numbers is read as a change of the entry, where the unlisted value stands. -/
theorem tabGet_map {α : Type} (d : α) (f : α → α) (hd : f d = d) (t : Tab α) (i : Nat) :
    tabGet d (t.map fun e => (e.1, f e.2)) i = f (tabGet d t i) := by
  induction t with
  | nil => simp [tabGet, hd]
  | cons e t ih =>
    obtain ⟨k, v⟩ := e
    simp only [List.map_cons, tabGet]
    split
    · rfl
    · exact ih

/-! Numbered objects -/

@[simp] theorem pathOf_setPath_same (s : State) (p : Nat) (x : Path) : pathOf (setPath s p x) p = x :=
  match p with
  | 0 => rfl
  | 1 => rfl
  | _ + 2 => rfl

@[simp] theorem pathOf_modPath_same (s : State) (p : Nat) (f : Path → Path) : pathOf (modPath s p f) p = f (pathOf s p) :=
  pathOf_setPath_same _ _ _

@[simp] theorem pathOf_modSynth_same (s : State) (p : Nat) (f : Synth → Synth) :
    pathOf (modSynth s p f) p = { pathOf s p with synth := f (pathOf s p).synth } := pathOf_setPath_same _ _ _

@[simp] theorem pathOf_modFe_same (s : State) (p : Nat) (f : FrontEnd → FrontEnd) :
    pathOf (modFe s p f) p = { pathOf s p with fe := f (pathOf s p).fe } := pathOf_setPath_same _ _ _

@[simp] theorem pathOf_modCal_same (s : State) (p : Nat) (f : CalPart → CalPart) :
    pathOf (modCal s p f) p = { pathOf s p with cal := f (pathOf s p).cal } := pathOf_setPath_same _ _ _

@[simp] theorem laneOf_setLane_same (s : State) (n : Nat) (x : Lane) : laneOf (setLane s n x) n = x := tabGet_tabSet_same _ _ _ _

theorem laneOf_setLane_ne (s : State) {n m : Nat} (x : Lane) (h : m ≠ n) : laneOf (setLane s n x) m = laneOf s m :=
  tabGet_tabSet_ne _ _ _ h

@[simp] theorem laneOf_modLane_same (s : State) (n : Nat) (f : Lane → Lane) : laneOf (modLane s n f) n = f (laneOf s n) :=
  tabGet_tabSet_same _ _ _ _

theorem laneOf_modLane_ne (s : State) {n m : Nat} (f : Lane → Lane) (h : m ≠ n) : laneOf (modLane s n f) m = laneOf s m :=
  tabGet_tabSet_ne _ _ _ h

@[simp] theorem slotOf_modSlot_same (s : State) (n : Nat) (f : Slot → Slot) : slotOf (modSlot s n f) n = f (slotOf s n) :=
  tabGet_tabSet_same _ _ _ _

theorem slotOf_modSlot_ne (s : State) {n m : Nat} (f : Slot → Slot) (h : m ≠ n) : slotOf (modSlot s n f) m = slotOf s m :=
  tabGet_tabSet_ne _ _ _ h

@[simp] theorem sapOf_modSap_same (s : State) (n : Nat) (f : Sap → Sap) : sapOf (modSap s n f) n = f (sapOf s n) :=
  tabGet_tabSet_same _ _ _ _

theorem sapOf_modSap_ne (s : State) {n m : Nat} (f : Sap → Sap) (h : m ≠ n) : sapOf (modSap s n f) m = sapOf s m :=
  tabGet_tabSet_ne _ _ _ h

@[simp] theorem followOf_modFollow_same (s : State) (n : Nat) (f : Follow → Follow) : followOf (modFollow s n f) n = f (followOf s n) :=
  tabGet_tabSet_same _ _ _ _

@[simp] theorem endpointOf_modEndpoint_same (s : State) (n : Nat) (f : Endpoint → Endpoint) :
    endpointOf (modEndpoint s n f) n = f (endpointOf s n) := tabGet_tabSet_same _ _ _ _

@[simp] theorem targetOf_modTarget_same (s : State) (n : Nat) (f : Target → Target) :
    targetOf (modTarget s n f) n = f (targetOf s n) := tabGet_tabSet_same _ _ _ _

theorem targetOf_modTarget_ne (s : State) {n m : Nat} (f : Target → Target) (h : m ≠ n) :
    targetOf (modTarget s n f) m = targetOf s m := tabGet_tabSet_ne _ _ _ h

/-! Byte memories -/

/-- A byte written is read back, in a memory in canonical form above an address that is no higher. -/
theorem cellGet_above {m : List Host.Cell} : ∀ {lo a : Nat}, cellsAbove lo m = true → a < lo → cellGet m a = 0 := by
  induction m with
  | nil => intros; rfl
  | cons e m ih =>
    obtain ⟨k, v⟩ := e
    intro lo a h ha
    simp only [cellsAbove, Bool.and_eq_true, decide_eq_true_eq] at h
    have : ¬ k = a := by omega
    simp only [cellGet, this, if_false]
    exact ih h.2 (by omega)

theorem cellsAbove_mono {m : List Host.Cell} {lo lo' : Nat} (h : cellsAbove lo m = true) (hl : lo' ≤ lo) : cellsAbove lo' m = true := by
  cases m with
  | nil => rfl
  | cons e m =>
    obtain ⟨k, v⟩ := e
    simp only [cellsAbove, Bool.and_eq_true, decide_eq_true_eq] at *
    exact ⟨⟨by omega, h.1.2⟩, h.2⟩

/-- A write keeps the canonical form. -/
theorem cellsAbove_cellPut {m : List Host.Cell} : ∀ {lo : Nat} (a : Nat) (b : Byte), cellsAbove lo m = true → lo ≤ a →
    cellsAbove lo (cellPut m a b) = true := by
  induction m with
  | nil =>
    intro lo a b _ ha
    simp only [cellPut]
    split
    · rfl
    · simp_all [cellsAbove]
  | cons e m ih =>
    obtain ⟨k, v⟩ := e
    intro lo a b h ha
    have h0 := h
    simp only [cellsAbove, Bool.and_eq_true, decide_eq_true_eq] at h
    simp only [cellPut]
    split
    · rename_i hak
      split
      · exact h0
      · rename_i hb
        simp only [cellsAbove, Bool.and_eq_true, decide_eq_true_eq, bne_iff_ne]
        exact ⟨⟨ha, hb⟩, ⟨by omega, by simpa using h.1.2⟩, h.2⟩
    · split
      · rename_i hak
        split
        · exact cellsAbove_mono h.2 (by omega)
        · rename_i hb
          subst hak
          simp only [cellsAbove, Bool.and_eq_true, decide_eq_true_eq, bne_iff_ne]
          exact ⟨⟨ha, hb⟩, h.2⟩
      · simp only [cellsAbove, Bool.and_eq_true, decide_eq_true_eq]
        exact ⟨⟨h.1.1, h.1.2⟩, ih a b h.2 (by omega)⟩

theorem Memory.wf_cellPut {m : List Host.Cell} (h : Memory.wf m = true) (a : Nat) (b : Byte) : Memory.wf (cellPut m a b) = true :=
  cellsAbove_cellPut a b h (Nat.zero_le a)

theorem Memory.wf_cellPuts {m : List Host.Cell} (h : Memory.wf m = true) (a : Nat) (bs : List Byte) :
    Memory.wf (cellPuts m a bs) = true := by
  induction bs generalizing m a with
  | nil => exact h
  | cons b bs ih => exact ih (Memory.wf_cellPut h a b) (a + 1)

/-- The byte written is read back. -/
theorem cellGet_cellPut_same {m : List Host.Cell} : ∀ {lo : Nat} (a : Nat) (b : Byte), cellsAbove lo m = true →
    cellGet (cellPut m a b) a = b := by
  induction m with
  | nil =>
    intro lo a b _
    simp only [cellPut]
    split
    · simp_all [cellGet]
    · simp [cellGet]
  | cons e m ih =>
    obtain ⟨k, v⟩ := e
    intro lo a b h
    simp only [cellsAbove, Bool.and_eq_true, decide_eq_true_eq] at h
    simp only [cellPut]
    split
    · rename_i hak
      split
      · rename_i hb
        have : ¬ k = a := by omega
        simp only [cellGet, this, if_false]
        rw [hb]
        exact cellGet_above h.2 (by omega)
      · simp [cellGet]
    · split
      · rename_i hak
        subst hak
        split
        · rename_i hb
          rw [hb]
          exact cellGet_above h.2 (by omega)
        · simp [cellGet]
      · rename_i h1 h2
        have : ¬ k = a := by omega
        simp only [cellGet, this, if_false]
        exact ih a b h.2

/-- Every other byte stands. -/
theorem cellGet_cellPut_ne (m : List Host.Cell) {a c : Nat} (b : Byte) (h : c ≠ a) : cellGet (cellPut m a b) c = cellGet m c := by
  have h' : ¬ a = c := fun e => h e.symm
  induction m with
  | nil =>
    simp only [cellPut]
    split
    · rfl
    · simp [cellGet, h']
  | cons e m ih =>
    obtain ⟨k, v⟩ := e
    simp only [cellPut]
    split
    · split
      · rfl
      · simp [cellGet, h']
    · split
      · rename_i _ hk
        subst hk
        split
        · simp [cellGet, h']
        · simp [cellGet, h']
      · simp only [cellGet, ih]

/-- Bytes below a run that was written, and above it, stand. -/
theorem cellGet_cellPuts_out (bs : List Byte) : ∀ (m : List Host.Cell) (a c : Nat), c < a ∨ a + bs.length ≤ c →
    cellGet (cellPuts m a bs) c = cellGet m c := by
  induction bs with
  | nil => intros; rfl
  | cons b bs ih =>
    intro m a c h
    simp only [List.length_cons] at h
    simp only [cellPuts]
    rw [ih _ _ _ (by omega), cellGet_cellPut_ne _ _ (by omega)]

/-- A run that was written is read back byte by byte. -/
theorem cellGet_cellPuts_in (bs : List Byte) : ∀ (m : List Host.Cell) (a i : Nat), Memory.wf m = true → i < bs.length →
    cellGet (cellPuts m a bs) (a + i) = bs.getD i 0 := by
  induction bs with
  | nil => intro m a i _ h; simp at h
  | cons b bs ih =>
    intro m a i hm h
    simp only [cellPuts]
    cases i with
    | zero =>
      rw [cellGet_cellPuts_out _ _ _ _ (by omega)]
      simpa using cellGet_cellPut_same a b hm
    | succ i =>
      have := ih (cellPut m a b) (a + 1) i (Memory.wf_cellPut hm a b) (by simpa using h)
      rw [show a + (i + 1) = a + 1 + i by omega, this]
      simp

@[simp] theorem memGet_memPuts_out (s : State) {a c : Nat} {bs : List Byte} (h : c < a ∨ a + bs.length ≤ c) :
    memGet (memPuts s a bs) c = memGet s c := cellGet_cellPuts_out bs s.mem a c h

end Sys2Proof.Machine
end

