-- ==== Sys2Proof/Laws/Books.lean ====
section
/-! SUPPORT. `Kept`: the ring books balance (R92), the commands in flight stand in order (R79) and the memory is canonical; the ring and
memory operations keep it. -/

namespace Sys2Proof.Machine

/-- The books balance, the commands in flight stand in order and the memory is canonical: what every step keeps, said of the two fields it
speaks of. -/
def Sound (r : Rings) (m : List Host.Cell) : Prop :=
  r.credits + r.inflight.length + r.unread = 512 ∧ Memory.wf m = true ∧ IssueOrder r

/-- The state's books and memory are sound. -/
def Kept (s : State) : Prop := Sound s.rings s.mem

/-- What is said of a state built field by field is said of its rings and its memory. -/
theorem kept_mk (port : Port) (power : Power) (rings : Rings) (fabric : Fabric) (modes : Modes) (scrub : Scrub)
    (clocks : Clocks) (pathL : Path) (pathV : Path) (pathS : Path) (cal : Cal) (lanes : Tab Lane) (statLatch :
    StatLatch) (analogue : Tab Analogue) (lf : Tab LfDec) (drm : Tab Drm) (dab : Tab Dab) (lfDescs : Tab (List Byte))
    (taste : Taste) (slots : Slots) (time : Time) (link : Link) (sessions : Sessions) (saps : Tab Sap) (pdm : Pdm)
    (audio : Tab (List AudioBlock)) (cellar : Cellar) (mem : List Host.Cell) (fresh : Nat) (pending : List Instr) :
    Kept ⟨port, power, rings, fabric, modes, scrub, clocks, pathL, pathV, pathS, cal, lanes, statLatch, analogue, lf,
    drm, dab, lfDescs, taste, slots, time, link, sessions, saps, pdm, audio, cellar, mem, fresh, pending⟩ = Sound
    rings mem := rfl

theorem Kept.sound {s : State} (h : Kept s) : Sound s.rings s.mem := h

theorem kept_iff (s : State) : Kept s ↔ BooksBalance s ∧ MemoryOk s ∧ IssueOrder s.rings := Iff.rfl

/-- Commands that keep their numbers keep their order. -/
theorem issueOrder_map {r : Rings} (f : Cmd → Cmd) (hf : ∀ c, (f c).seq = c.seq) (h : IssueOrder r) :
    IssueOrder { r with inflight := r.inflight.map f } := by
  refine ⟨?_, ?_⟩
  · have e : ((fun c : Cmd => c.seq) ∘ f) = fun c => c.seq := funext hf
    simpa [List.map_map, e] using h.1
  · intro c hc
    obtain ⟨d, hd, rfl⟩ := List.mem_map.mp hc
    rw [hf]
    exact h.2 d hd

/-- Fewer commands are still in order. -/
theorem issueOrder_eraseP {r : Rings} (p : Cmd → Bool) (h : IssueOrder r) : IssueOrder { r with inflight := r.inflight.eraseP p } :=
  ⟨h.1.sublist (List.Sublist.map _ List.eraseP_sublist), fun c hc => h.2 c (List.eraseP_sublist.subset hc)⟩

theorem memPuts_kept (s : State) (a : Nat) (bs : List Byte) (h : Kept s) : Kept (memPuts s a bs) :=
  ⟨h.1, Memory.wf_cellPuts h.2.1 a bs, h.2.2⟩

theorem touchRow_kept (s : State) (a : Nat) (h : Kept s) : Kept (touchRow s a) := by
  rw [touchRow_frame]; exact h

theorem touchRows_kept (s : State) (a n : Nat) (h : Kept s) : Kept (touchRows s a n) := by
  rw [touchRows_frame]; exact h

theorem devPuts_kept (s : State) (a : Nat) (bs : List Byte) (h : Kept s) : Kept (devPuts s a bs) :=
  memPuts_kept _ _ _ (touchRows_kept _ _ _ h)

theorem raise_kept (q : Irq) (s : State) (h : Kept s) : Kept (raise q s) := by
  rw [raise_frame]; exact h

/-- A fold of sound operations is sound. -/
theorem forAll_kept {α : Type} (xs : List α) (f : State → α → State) (s : State)
    (hf : ∀ t x, Kept t → Kept (f t x)) (h : Kept s) :
    Kept (forAll xs f s) := by
  unfold forAll
  induction xs generalizing s with
  | nil => exact h
  | cons x xs ih => exact ih _ (hf _ _ h)

theorem modCmd_kept (s : State) (seq : Nat) (f : Cmd → Cmd) (h : Kept s) : Kept (modCmd s seq f) := by
  refine ⟨?_, h.2.1, issueOrder_map _ ?_ h.2.2⟩
  · have := h.1
    simp only [modCmd, List.length_map]
    exact this
  · intro c
    split
    · rename_i e
      exact e.symm
    · rfl

theorem setPhase_kept (s : State) (seq : Nat) (ph : CmdPhase) (h : Kept s) : Kept (setPhase s seq ph) := modCmd_kept s seq _ h

/-- Posting moves one command from those in flight to the unread completions. -/
theorem post_kept (s : State) (c : Cmd) (status : Nat) (result : List Byte) (hc : c ∈ s.rings.inflight) (h : Kept s) :
    Kept (post s c status result) := by
  have hd := devPuts_kept s (0x1FC000 + 16 * s.rings.ccProd) (entryBytes c status result) h
  have hr : (devPuts s (0x1FC000 + 16 * s.rings.ccProd) (entryBytes c status result)).rings = s.rings := by rw [devPuts_frame]
  have hp : 0 < s.rings.inflight.length := List.length_pos_of_mem hc
  have hl : (s.rings.inflight.eraseP fun d => d.seq == c.seq).length = s.rings.inflight.length - 1 :=
    List.length_eraseP_of_mem hc (by simp)
  have h1 := h.1
  unfold post
  generalize devPuts s (0x1FC000 + 16 * s.rings.ccProd) (entryBytes c status result) = t at hd hr
  dsimp only
  unfold raiseIf
  have key : Kept { t with rings := { t.rings with
      ccProd := (t.rings.ccProd + 1) % 512
      unread := t.rings.unread + 1
      inflight := (t.rings.inflight.eraseP fun d => d.seq == c.seq).map (tellAborts c.seq (status == 0x20)) } } := by
    refine ⟨?_, hd.2.1, ?_⟩
    · rw [hr]
      simp only [List.length_map, hl]
      omega
    · rw [hr]
      refine issueOrder_map _ ?_ (issueOrder_eraseP _ h.2.2)
      intro d
      unfold tellAborts
      split <;> rfl
  split
  · exact raise_kept _ _ key
  · exact key

theorem nextRingReply_mem : ∀ (before cs : List Cmd) (c : Cmd) (r : Reply), nextRingReply before cs = some (c, r) → c ∈ cs := by
  intro before cs
  induction cs generalizing before with
  | nil => intro c r h; cases h
  | cons d cs ih =>
    intro c r h
    unfold nextRingReply at h
    split at h
    · cases h; exact List.mem_cons_self
    · exact List.mem_cons_of_mem _ (ih _ _ _ h)

theorem sweepN_kept (n : Nat) : ∀ s : State, Kept s → Kept (sweepN n s) := by
  induction n with
  | zero => intro s h; exact h
  | succ n ih =>
    intro s h
    unfold sweepN
    split
    · rename_i c r he
      exact ih _ (post_kept _ _ _ _ (nextRingReply_mem _ _ _ _ he) h)
    · exact h

theorem sweep_kept (s : State) (h : Kept s) : Kept (sweep s) := sweepN_kept _ _ h

theorem complete_kept (seq status : Nat) (result : List Byte) (s : State) (h : Kept s) :
    Kept (complete seq status result s) := by
  unfold complete
  split
  · rename_i c hc
    exact sweep_kept _ (post_kept _ _ _ _ (List.mem_of_find?_eq_some hc) h)
  · exact h

/-- A ring command's row is sound when what it runs is. -/
theorem startCmd_kept (s : State) (seq op : Nat) (check : State → Cmd → Option Reply) (run : State → Cmd → State)
    (hr : ∀ t c, Kept t → Kept (run t c)) (h : Kept s) :
    Kept (startCmd s seq op check run) := by
  unfold startCmd
  split
  · exact h
  · split
    · exact complete_kept _ _ _ _ h
    · exact hr _ _ (setPhase_kept _ _ _ h)

/-- The command fetched next comes after those before it. -/
theorem issueOrder_append {r : Rings} (c : Cmd) (cons : Nat) (hc : c.seq = r.nextSeq) (h : IssueOrder r) :
    IssueOrder { r with cqCons := cons, nextSeq := r.nextSeq + 1, inflight := r.inflight ++ [c] } := by
  refine ⟨?_, ?_⟩
  · simp only [List.map_append, List.map_cons, List.map_nil]
    rw [List.pairwise_append]
    refine ⟨h.1, by simp, ?_⟩
    intro a ha b hb
    obtain ⟨d, hd, rfl⟩ := List.mem_map.mp ha
    simp only [List.mem_singleton] at hb
    rw [hb, hc]
    exact h.2 d hd
  · intro d hd
    rcases List.mem_append.mp hd with hd | hd
    · exact Nat.lt_succ_of_lt (h.2 d hd)
    · simp only [List.mem_singleton] at hd
      rw [hd, hc]
      exact Nat.lt_succ_self _

theorem fetch_kept (k : Nat) : ∀ s : State, s.rings.credits + k + s.rings.inflight.length + s.rings.unread = 512 → Memory.wf s.mem = true →
    IssueOrder s.rings → Kept (fetch k s) := by
  induction k with
  | zero => intro s h hm ho; exact ⟨by simpa [fetch] using h, hm, ho⟩
  | succ k ih =>
    intro s h hm ho
    unfold fetch
    dsimp only
    split
    · apply ih
      · rw [devPuts_frame]
        simp only [List.length_append, List.length_singleton]
        omega
      · unfold devPuts memPuts
        rw [touchRows_frame]
        exact Memory.wf_cellPuts hm _ _
      · rw [devPuts_frame]
        exact issueOrder_append _ _ rfl ho
    · apply ih
      · simp only [List.length_append, List.length_singleton]
        omega
      · exact hm
      · exact issueOrder_append _ _ rfl ho

theorem doorbellWrite_kept (s : State) (v : Byte) (h : Kept s) : Kept (doorbellWrite s v) := by
  have h1 := h.1
  unfold doorbellWrite
  dsimp only
  split
  · refine sweep_kept _ (fetch_kept _ _ ?_ h.2.1 h.2.2)
    dsimp only
    omega
  · exact raise_kept _ _ h

theorem freeWrite_kept (s : State) (v : Byte) (h : Kept s) : Kept (freeWrite s v) := by
  have h1 := h.1
  unfold freeWrite
  dsimp only
  split
  · refine ⟨?_, h.2⟩
    dsimp only
    omega
  · exact raise_kept _ _ h

theorem ringsReset_kept (s : State) (h : Kept s) : Kept (ringsReset s) := ⟨rfl, h.2.1, List.Pairwise.nil, fun _ hc => nomatch hc⟩

/-- Commands whose phases or results change keep the books. -/
theorem inflightMap_kept (s : State) (f : Cmd → Cmd) (hf : ∀ c, (f c).seq = c.seq) (h : Kept s) :
    Kept { s with rings := { s.rings with inflight := s.rings.inflight.map f } } :=
  ⟨by simpa using h.1, h.2.1, issueOrder_map f hf h.2.2⟩

/-- Updates of the other fields keep the books. -/
theorem fields_kept {port' : Port} {power' : Power} {fabric' : Fabric} {modes' : Modes} {scrub' : Scrub} {clocks' : Clocks} {pathL' : Path} {pathV' : Path} {pathS' : Path} {cal' : Cal} {lanes' : Tab Lane} {audio' : Tab (List AudioBlock)} {statLatch' : StatLatch} {analogue' : Tab Analogue} {lf' : Tab LfDec} {drm' : Tab Drm} {dab' : Tab Dab} {lfDescs' : Tab (List Byte)} {taste' : Taste} {slots' : Slots} {time' : Time} {link' : Link} {sessions' : Sessions} {saps' : Tab Sap} {pdm' : Pdm} {cellar' : Cellar} {fresh' : Nat} {pending' : List Instr} {u : State} (h : Kept u) :
    Kept { u with port := port', power := power', fabric := fabric', modes := modes', scrub := scrub', clocks := clocks', pathL := pathL', pathV := pathV', pathS := pathS', cal := cal', lanes := lanes', audio := audio', statLatch := statLatch', analogue := analogue', lf := lf', drm := drm', dab := dab', lfDescs := lfDescs', taste := taste', slots := slots', time := time', link := link', sessions := sessions', saps := saps', pdm := pdm', cellar := cellar', fresh := fresh', pending := pending' } := h

/-- A left fold of sound operations is sound. -/
theorem foldl_kept {α : Type} (xs : List α) (f : State → α → State) (s : State)
    (hf : ∀ t x, Kept t → Kept (f t x)) (h : Kept s) :
    Kept (xs.foldl f s) := forAll_kept xs f s hf h

/-- A left fold over a state and something beside it. -/
theorem foldl_fst_kept {α β : Type} (xs : List α) (f : State × β → α → State × β) (p : State × β)
    (hf : ∀ q x, Kept q.1 → Kept (f q x).1) (h : Kept p.1) :
    Kept (xs.foldl f p).1 := by
  induction xs generalizing p with
  | nil => exact h
  | cons x xs ih => exact ih _ (hf _ _ h)

/-- Either of two sound states beside a result is sound. -/
theorem ite_fst_kept {c : Prop} [Decidable c] {β : Type} (a b : State) (x y : β) (ha : Kept a) (hb : Kept b) :
    Kept (if c then (a, x) else (b, y)).1 := by
  split
  · exact ha
  · exact hb

/-- Either of two sound states after a result is sound. -/
theorem ite_snd_kept {c : Prop} [Decidable c] {β : Type} (x y : β) (a b : State) (ha : Kept a) (hb : Kept b) :
    Kept (if c then (x, a) else (y, b)).2 := by
  split
  · exact ha
  · exact hb

/-- Either of two sound states is sound. -/
theorem ite_kept {c : Prop} [Decidable c] (a b : State) (ha : Kept a) (hb : Kept b) :
    Kept (if c then a else b) := by
  split
  · exact ha
  · exact hb

/-- The state a pair holds second. -/
theorem snd_kept {α : Type} {p : α × State} {a : α} {s : State} (e : p = (a, s)) (h : Kept p.2) : Kept s := by
  rw [e] at h; exact h

/-- The state a pair holds first. -/
theorem fst_kept {α : Type} {p : State × α} {a : α} {s : State} (e : p = (s, a)) (h : Kept p.1) : Kept s := by
  rw [e] at h; exact h

/-- A choice between two writes answers what one of them answers. -/
theorem some_of_ite {c : Prop} [Decidable c] {x y : Option State} {t : State} (e : (if c then x else y) = some t) :
    x = some t ∨ y = some t := by
  split at e
  · exact .inl e
  · exact .inr e

end Sys2Proof.Machine
end

