-- ==== Sys2Proof/Laws/BooksOps.lean ====
section
/-! SUPPORT. Every operation on the state that a command is made of keeps the books and the memory: one lemma each, cited by the next,
so that a proof about a command need not unfold what it calls. -/

namespace Sys2Proof.Machine

set_option Elab.async false

theorem modSlot_kept (s : State) (n : Nat) (f : Slot → Slot) (h : Kept s) : Kept (modSlot s n f) := by
  unfold modSlot
  repeat' first | with_reducible assumption | with_reducible apply ite_kept | split | dsimp only [kept_mk] | intro _
                | with_reducible refine Kept.sound ?_

theorem wakeSlot_kept (s : State) (n : Nat) (h : Kept s) : Kept (wakeSlot s n) := by
  unfold wakeSlot
  repeat' first | with_reducible assumption | with_reducible apply raise_kept | with_reducible apply modSlot_kept
                | with_reducible apply ite_kept | split | dsimp only [kept_mk] | intro _
                | with_reducible refine Kept.sound ?_

theorem loseRecord_kept (s : State) (n : Nat) (bytes : List Byte) (h : Kept s) : Kept (loseRecord s n bytes) := by
  unfold loseRecord
  repeat' first | with_reducible assumption | with_reducible apply modSlot_kept | with_reducible apply wakeSlot_kept
                | with_reducible apply ite_kept | split | dsimp only [kept_mk] | intro _
                | with_reducible refine Kept.sound ?_

theorem ringPut_kept (s : State) (x : Slot) (bs : List Byte) (h : Kept s) : Kept (ringPut s x bs) := by
  unfold ringPut
  repeat' first | with_reducible assumption | with_reducible apply devPuts_kept | with_reducible apply ite_kept
                | split | dsimp only [kept_mk] | intro _ | with_reducible refine Kept.sound ?_

theorem writeRecord_kept (s : State) (n : Nat) (rtype : Nat) (kind : Nat) (bytes : List Byte) (h : Kept s) : Kept
    (writeRecord s n rtype kind bytes) := by
  unfold writeRecord
  repeat' first | with_reducible assumption | with_reducible apply ringPut_kept | with_reducible apply modSlot_kept
                | with_reducible apply wakeSlot_kept | with_reducible apply ite_kept | split | dsimp only [kept_mk]
                | intro _ | with_reducible refine Kept.sound ?_

theorem putRecord_kept (s : State) (n : Nat) (rtype : Nat) (kind : Nat) (noTime : Bool) (body : List Byte) (h : Kept s) : Kept
    (putRecord s n rtype kind noTime body).1 := by
  have e : putRecord s n rtype kind noTime body =
      if recordFits (slotOf s n) (recordBytes (slotOf s n) rtype noTime body).length then
        (writeRecord s n rtype kind (recordBytes (slotOf s n) rtype noTime body), true)
      else (loseRecord s n (recordBytes (slotOf s n) rtype noTime body), false) := rfl
  rw [e]
  exact ite_fst_kept _ _ _ _ (writeRecord_kept _ _ _ _ _ h) (loseRecord_kept _ _ _ h)

theorem deliverRaw_kept (it : Item) (s : State) (h : Kept s) : Kept (deliverRaw it s) := by
  unfold deliverRaw
  exact ite_kept _ _ (forAll_kept _ _ _ (fun _ _ => putRecord_kept _ _ _ _ _ _) h) h

theorem countAbandoned_kept (k : Nat) (s : State) (h : Kept s) : Kept (countAbandoned k s) := by
  unfold countAbandoned
  repeat' first | with_reducible assumption | with_reducible apply ite_kept | split | dsimp only [kept_mk] | intro _
                | with_reducible refine Kept.sound ?_

theorem dropAssembly_kept (lane : Nat) (aid : Nat) (s : State) (h : Kept s) : Kept (dropAssembly lane aid s) := by
  unfold dropAssembly
  repeat' first | with_reducible assumption | with_reducible apply ite_kept | split | dsimp only [kept_mk] | intro _
                | with_reducible refine Kept.sound ?_

theorem dropEnvelope_kept (s : State) (x1 : SdeEnv) (h : Kept s) : Kept (dropEnvelope s x1) := by
  unfold dropEnvelope
  repeat' first | with_reducible assumption | with_reducible apply modSlot_kept | with_reducible apply forAll_kept
                | with_reducible apply ite_kept | split | dsimp only [kept_mk] | intro _
                | with_reducible refine Kept.sound ?_

theorem queueEnvelope_kept (x0 : SdeEnv) (s : State) (h : Kept s) : Kept (queueEnvelope x0 s) := by
  unfold queueEnvelope
  repeat' first | with_reducible assumption | with_reducible apply dropEnvelope_kept | with_reducible apply ite_kept
                | split | dsimp only [kept_mk] | intro _ | with_reducible refine Kept.sound ?_

theorem stepAssembly_kept (a : SdeAsm) (stamp : Nat) (iseq : Nat) (s : State) (h : Kept s) : Kept (stepAssembly a
    stamp iseq s) := by
  unfold stepAssembly
  repeat' first | with_reducible assumption | with_reducible apply dropAssembly_kept
                | with_reducible apply countAbandoned_kept | with_reducible apply queueEnvelope_kept
                | with_reducible apply ite_kept | split | dsimp only [kept_mk] | intro _
                | with_reducible refine Kept.sound ?_

theorem takeFragment_kept (it : Item) (s : State) (h : Kept s) : Kept (takeFragment it s) := by
  unfold takeFragment
  repeat' first | with_reducible assumption | with_reducible apply dropAssembly_kept
                | with_reducible apply stepAssembly_kept | with_reducible apply countAbandoned_kept
                | with_reducible apply ite_kept | split | dsimp only [kept_mk] | intro _
                | with_reducible refine Kept.sound ?_

theorem takeWhole_kept (carrier : Nat) (lane : Nat) (stream : Nat) (sub : Nat) (stamp : Nat) (iseq : Nat) (bytes :
    List Byte) (s : State) (h : Kept s) : Kept (takeWhole carrier lane stream sub stamp iseq bytes s) := by
  unfold takeWhole
  repeat' first | with_reducible assumption | with_reducible apply countAbandoned_kept
                | with_reducible apply queueEnvelope_kept | with_reducible apply ite_kept | split
                | dsimp only [kept_mk] | intro _ | with_reducible refine Kept.sound ?_

theorem deliverItem_kept (it : Item) (field : Option (Nat × Nat)) (s : State) (h : Kept s) : Kept (deliverItem it
    field s) := by
  unfold deliverItem
  repeat' first | with_reducible assumption | with_reducible apply deliverRaw_kept
                | with_reducible apply takeFragment_kept | with_reducible apply takeWhole_kept
                | with_reducible apply ite_kept | split | dsimp only [kept_mk] | intro _
                | with_reducible refine Kept.sound ?_

theorem ktTaken_kept (lane : Nat) (s : State) (h : Kept s) : Kept (ktTaken lane s) := by
  unfold ktTaken
  repeat' first | with_reducible assumption | with_reducible apply ite_kept | split | dsimp only [kept_mk] | intro _
                | with_reducible refine Kept.sound ?_

theorem refuseVote_kept (s : State) (h : Kept s) : Kept (refuseVote s) := by
  unfold refuseVote
  repeat' first | with_reducible assumption | with_reducible apply ite_kept | split | dsimp only [kept_mk] | intro _
                | with_reducible refine Kept.sound ?_

theorem raiseIf_kept (c : Bool) (q : Irq) (s : State) (h : Kept s) : Kept (raiseIf c q s) := by
  unfold raiseIf
  repeat' first | with_reducible assumption | with_reducible apply raise_kept | with_reducible apply ite_kept | split
                | dsimp only [kept_mk] | intro _ | with_reducible refine Kept.sound ?_

theorem setCause_kept (k : Nat) (s : State) (h : Kept s) : Kept (setCause k s) := by
  unfold setCause
  repeat' first | with_reducible assumption | with_reducible apply raiseIf_kept | with_reducible apply ite_kept
                | split | dsimp only [kept_mk] | intro _ | with_reducible refine Kept.sound ?_

theorem setCauseIf_kept (c : Bool) (k : Nat) (s : State) (h : Kept s) : Kept (setCauseIf c k s) := by
  unfold setCauseIf
  repeat' first | with_reducible assumption | with_reducible apply setCause_kept | with_reducible apply ite_kept
                | split | dsimp only [kept_mk] | intro _ | with_reducible refine Kept.sound ?_

theorem applyBest_kept (s : State) (kind : Nat) (best : Vote) (g : List (Nat × Vote)) (dissent : Bool) (announce :
    Bool) (known : Bool) (h : Kept s) : Kept (applyBest s kind best g dissent announce known) := by
  unfold applyBest
  repeat' first | with_reducible assumption | with_reducible apply setCauseIf_kept
                | with_reducible apply setCause_kept | with_reducible apply ite_kept | split | dsimp only [kept_mk]
                | intro _ | with_reducible refine Kept.sound ?_

theorem draw_kept (m : Nat) (s : State) (h : Kept s) : Kept (draw m s).2 := by
  unfold draw
  repeat' first | with_reducible assumption | with_reducible apply ite_kept | split | dsimp only [kept_mk] | intro _
                | with_reducible refine Kept.sound ?_

theorem pickOne_kept {α : Type} (xs : List α) (s : State) (h : Kept s) : Kept (pickOne xs s).2 := by
  unfold pickOne
  repeat' first | with_reducible assumption | with_reducible apply draw_kept | with_reducible apply ite_kept | split
                | dsimp only [kept_mk] | intro _ | with_reducible refine snd_kept (by with_reducible assumption) ?_
                | with_reducible refine Kept.sound ?_

theorem evaluateVotes_kept (s : State) (h : Kept s) : Kept (evaluateVotes s).1 := by
  unfold evaluateVotes
  repeat' first | with_reducible assumption | with_reducible apply pickOne_kept | with_reducible apply applyBest_kept
                | with_reducible apply ite_kept | split | dsimp only [kept_mk] | intro _
                | with_reducible refine snd_kept (by with_reducible assumption) ?_
                | with_reducible refine Kept.sound ?_

theorem takeVote_kept (kind : Nat) (lane : Nat) (utc : Int) (stamp : Nat) (uncMs : Nat) (leap : Nat) (s : State) (h :
    Kept s) : Kept (takeVote kind lane utc stamp uncMs leap s) := by
  unfold takeVote
  repeat' first | with_reducible assumption | with_reducible apply evaluateVotes_kept
                | with_reducible apply refuseVote_kept | with_reducible apply ite_kept | split | dsimp only [kept_mk]
                | intro _ | with_reducible refine fst_kept (by with_reducible assumption) ?_
                | with_reducible refine Kept.sound ?_

theorem handTime_kept (it : Item) (s : State) (h : Kept s) : Kept (handTime it s) := by
  unfold handTime
  repeat' first | with_reducible assumption | with_reducible apply refuseVote_kept | with_reducible apply ktTaken_kept
                | with_reducible apply takeVote_kept | with_reducible apply ite_kept | split | dsimp only [kept_mk]
                | intro _ | with_reducible refine Kept.sound ?_

theorem modFollow_kept (s : State) (x1 : Nat) (f : Follow → Follow) (h : Kept s) : Kept (modFollow s x1 f) := by
  unfold modFollow
  repeat' first | with_reducible assumption | with_reducible apply ite_kept | split | dsimp only [kept_mk] | intro _
                | with_reducible refine Kept.sound ?_

theorem noteDelivery_kept (s : State) (it : Item) (h : Kept s) : Kept (noteDelivery s it) := by
  unfold noteDelivery
  repeat' first | with_reducible assumption | with_reducible apply modFollow_kept | with_reducible apply ite_kept
                | split | dsimp only [kept_mk] | intro _ | with_reducible refine Kept.sound ?_

theorem deliverGated_kept (it : Item) (field : Option (Nat × Nat)) (s : State) (h : Kept s) : Kept (deliverGated it
    field s) := by
  unfold deliverGated
  repeat' first | with_reducible assumption | with_reducible apply handTime_kept
                | with_reducible apply noteDelivery_kept | with_reducible apply deliverItem_kept
                | with_reducible apply ite_kept | split | dsimp only [kept_mk] | intro _
                | with_reducible refine Kept.sound ?_

theorem setTasting_kept (s : State) (lane : Nat) (x2 : Tasting) (h : Kept s) : Kept (setTasting s lane x2) := by
  unfold setTasting
  repeat' first | with_reducible assumption | with_reducible apply ite_kept | split | dsimp only [kept_mk] | intro _
                | with_reducible refine Kept.sound ?_

theorem storeMust_kept (lane : Nat) (it : Item) (field : Option (Nat × Nat)) (x3 : Nat) (x4 : State) (h : Kept x4) : Kept
    (storeMust lane it field x3 x4) := by
  induction x3 generalizing x4 with
  | zero => exact h
  | succ k ih =>
    unfold storeMust
    split
    · exact h
    · dsimp only
      split
      · split
        · exact ih _ (fields_kept (setTasting_kept _ _ _ h))
        · exact h
      · exact setTasting_kept _ _ _ (devPuts_kept _ _ _ (draw_kept _ _ h))

theorem emit_kept (it : Item) (field : Option (Nat × Nat)) (s : State) (h : Kept s) : Kept (emit it field s) := by
  unfold emit
  repeat' first | with_reducible assumption | with_reducible apply deliverGated_kept
                | with_reducible apply storeMust_kept | with_reducible apply ite_kept | split | dsimp only [kept_mk]
                | intro _ | with_reducible refine Kept.sound ?_

theorem abandonLane_kept (lane : Nat) (s : State) (h : Kept s) : Kept (abandonLane lane s) := by
  unfold abandonLane
  repeat' first | with_reducible assumption | with_reducible apply countAbandoned_kept | with_reducible apply ite_kept
                | split | dsimp only [kept_mk] | intro _ | with_reducible refine Kept.sound ?_

theorem capShed_kept (s : State) (h : Kept s) : Kept (capShed s) := by
  unfold capShed
  repeat' first | with_reducible assumption | with_reducible apply ite_kept | split | dsimp only [kept_mk] | intro _
                | with_reducible refine Kept.sound ?_

theorem modAnalogue_kept (s : State) (u : Nat) (f : Analogue → Analogue) (h : Kept s) : Kept (modAnalogue s u f) := by
  unfold modAnalogue
  repeat' first | with_reducible assumption | with_reducible apply ite_kept | split | dsimp only [kept_mk] | intro _
                | with_reducible refine Kept.sound ?_

theorem modDab_kept (s : State) (x1 : Nat) (f : Dab → Dab) (h : Kept s) : Kept (modDab s x1 f) := by
  unfold modDab
  repeat' first | with_reducible assumption | with_reducible apply ite_kept | split | dsimp only [kept_mk] | intro _
                | with_reducible refine Kept.sound ?_

theorem modDrm_kept (s : State) (x1 : Nat) (f : Drm → Drm) (h : Kept s) : Kept (modDrm s x1 f) := by
  unfold modDrm
  repeat' first | with_reducible assumption | with_reducible apply ite_kept | split | dsimp only [kept_mk] | intro _
                | with_reducible refine Kept.sound ?_

theorem modLf_kept (s : State) (d : Nat) (f : LfDec → LfDec) (h : Kept s) : Kept (modLf s d f) := by
  unfold modLf
  repeat' first | with_reducible assumption | with_reducible apply ite_kept | split | dsimp only [kept_mk] | intro _
                | with_reducible refine Kept.sound ?_

theorem releaseEngine_kept (kind : Nat) (idx : Nat) (s : State) (h : Kept s) : Kept (releaseEngine kind idx s) := by
  unfold releaseEngine
  repeat' first | with_reducible assumption | with_reducible apply modLf_kept | with_reducible apply modDrm_kept
                | with_reducible apply modAnalogue_kept | with_reducible apply modDab_kept
                | with_reducible apply ite_kept | split | dsimp only [kept_mk] | intro _
                | with_reducible refine Kept.sound ?_

theorem setLane_kept (s : State) (n : Nat) (x : Lane) (h : Kept s) : Kept (setLane s n x) := by
  unfold setLane
  repeat' first | with_reducible assumption | with_reducible apply ite_kept | split | dsimp only [kept_mk] | intro _
                | with_reducible refine Kept.sound ?_

theorem freeLane_kept (n : Nat) (s : State) (h : Kept s) : Kept (freeLane n s) := by
  unfold freeLane
  repeat' first | with_reducible assumption | with_reducible apply setLane_kept
                | with_reducible apply releaseEngine_kept | with_reducible apply abandonLane_kept
                | with_reducible apply capShed_kept | with_reducible apply ite_kept | split | dsimp only [kept_mk]
                | intro _ | with_reducible refine Kept.sound ?_

theorem endTasting_kept (cause : Nat) (lane : Nat) (s : State) (h : Kept s) : Kept (endTasting cause lane s) := by
  unfold endTasting
  repeat' first | with_reducible assumption | with_reducible apply modFollow_kept | with_reducible apply freeLane_kept
                | with_reducible apply ite_kept | split | dsimp only [kept_mk] | intro _
                | with_reducible refine Kept.sound ?_

theorem endTastings_kept (cause : Nat) (p : Nat → Tasting → Bool) (s : State) (h : Kept s) : Kept (endTastings cause p
    s) := by
  unfold endTastings
  repeat' first | with_reducible assumption | with_reducible apply endTasting_kept | with_reducible apply forAll_kept
                | with_reducible apply ite_kept | split | dsimp only [kept_mk] | intro _
                | with_reducible refine Kept.sound ?_

theorem listChanged_kept (lane : Nat) (s : State) (h : Kept s) : Kept (listChanged lane s) := by
  unfold listChanged
  repeat' first | with_reducible assumption | with_reducible apply endTastings_kept
                | with_reducible apply modFollow_kept | with_reducible apply ite_kept | split | dsimp only [kept_mk]
                | intro _ | with_reducible refine Kept.sound ?_

theorem modTasting_kept (s : State) (lane : Nat) (f : Tasting → Tasting) (h : Kept s) : Kept (modTasting s lane f) :=
    by
  unfold modTasting
  repeat' first | with_reducible assumption | with_reducible apply setTasting_kept | with_reducible apply ite_kept
                | split | dsimp only [kept_mk] | intro _ | with_reducible refine Kept.sound ?_

theorem decodeGroup_kept (n : Nat) (u : Nat) (g : Group) (s : State) (h : Kept s) : Kept (decodeGroup n u g s) := by
  unfold decodeGroup
  repeat' first | with_reducible assumption | with_reducible apply emit_kept | with_reducible apply modAnalogue_kept
                | with_reducible apply listChanged_kept | with_reducible apply modTasting_kept
                | with_reducible apply ite_kept | split | dsimp only [kept_mk] | intro _
                | with_reducible refine Kept.sound ?_

theorem reportIdentity_kept (lane : Nat) (r : Identity) (s : State) (h : Kept s) : Kept (reportIdentity lane r s) :=
    by
  unfold reportIdentity
  repeat' first | with_reducible assumption | with_reducible apply endTasting_kept
                | with_reducible apply setTasting_kept | with_reducible apply ite_kept | split | dsimp only [kept_mk]
                | intro _ | with_reducible refine Kept.sound ?_

theorem tastePis_kept (n : Nat) (pis : List Nat) (s : State) (h : Kept s) : Kept (tastePis n pis s) := by
  unfold tastePis
  repeat' first | with_reducible assumption | with_reducible apply reportIdentity_kept
                | with_reducible apply forAll_kept | with_reducible apply ite_kept | split | dsimp only [kept_mk]
                | intro _ | with_reducible refine Kept.sound ?_

theorem unitEnd_kept (lane : Nat) (good : Bool) (erased : Bool) (s : State) (h : Kept s) : Kept (unitEnd lane good
    erased s) := by
  unfold unitEnd
  repeat' first | with_reducible assumption | with_reducible apply setTasting_kept | with_reducible apply ite_kept
                | split | dsimp only [kept_mk] | intro _ | with_reducible refine Kept.sound ?_

theorem takeGroup_kept (n : Nat) (u : Nat) (g : Group) (s : State) (h : Kept s) : Kept (takeGroup n u g s) := by
  unfold takeGroup
  repeat' first | with_reducible assumption | with_reducible apply tastePis_kept | with_reducible apply emit_kept
                | with_reducible apply decodeGroup_kept | with_reducible apply modAnalogue_kept
                | with_reducible apply listChanged_kept | with_reducible apply unitEnd_kept
                | with_reducible apply ite_kept | split | dsimp only [kept_mk] | intro _
                | with_reducible refine Kept.sound ?_

theorem aoutRise_kept (s : State) (h : Kept s) : Kept (aoutRise s) := by
  unfold aoutRise
  repeat' first | with_reducible assumption | with_reducible apply ite_kept | split | dsimp only [kept_mk] | intro _
                | with_reducible refine Kept.sound ?_

theorem modSap_kept (s : State) (p : Nat) (f : Sap → Sap) (h : Kept s) : Kept (modSap s p f) := by
  unfold modSap
  repeat' first | with_reducible assumption | with_reducible apply ite_kept | split | dsimp only [kept_mk] | intro _
                | with_reducible refine Kept.sound ?_

theorem writeBlock_kept (port : Nat) (n : Nat) (s : State) (h : Kept s) : Kept (writeBlock port n s) := by
  unfold writeBlock
  repeat' first | with_reducible assumption | with_reducible apply raise_kept | with_reducible apply devPuts_kept
                | with_reducible apply modSap_kept | with_reducible apply raiseIf_kept | with_reducible apply ite_kept
                | split | dsimp only [kept_mk] | intro _ | with_reducible refine Kept.sound ?_

theorem closeBlocks_kept (port : Nat) (a : Nat) (s : State) (h : Kept s) : Kept (closeBlocks port a s) := by
  induction a generalizing s with
  | zero => exact h
  | succ k ih =>
    unfold closeBlocks
    exact ite_kept _ _ h (ih _ (writeBlock_kept _ _ _ h))

theorem stopPdm_kept (s : State) (h : Kept s) : Kept (stopPdm s) := by
  unfold stopPdm
  repeat' first | with_reducible assumption | with_reducible apply ite_kept | split | dsimp only [kept_mk] | intro _
                | with_reducible refine Kept.sound ?_

theorem stopPort_kept (port : Nat) (s : State) (h : Kept s) : Kept (stopPort port s) := by
  unfold stopPort
  repeat' first | with_reducible assumption | with_reducible apply modSap_kept | with_reducible apply stopPdm_kept
                | with_reducible apply ite_kept | split | dsimp only [kept_mk] | intro _
                | with_reducible refine Kept.sound ?_

theorem closePort_kept (s : State) (port : Nat) (h : Kept s) : Kept (closePort s port) := by
  unfold closePort
  repeat' first | with_reducible assumption | with_reducible apply stopPort_kept
                | with_reducible apply closeBlocks_kept | with_reducible apply ite_kept | split | dsimp only [kept_mk]
                | intro _ | with_reducible refine Kept.sound ?_

theorem configure_kept (port : Nat) (s : State) (h : Kept s) : Kept (configure port s) := by
  unfold configure
  repeat' first | with_reducible assumption | with_reducible apply modSap_kept | with_reducible apply ite_kept | split
                | dsimp only [kept_mk] | intro _ | with_reducible refine Kept.sound ?_

theorem setSap_kept (s : State) (p : Nat) (x : Sap) (h : Kept s) : Kept (setSap s p x) := by
  unfold setSap
  repeat' first | with_reducible assumption | with_reducible apply ite_kept | split | dsimp only [kept_mk] | intro _
                | with_reducible refine Kept.sound ?_

theorem firstEdgeDone_kept (port : Nat) (s : State) (h : Kept s) : Kept (firstEdgeDone port s) := by
  unfold firstEdgeDone
  repeat' first | with_reducible assumption | with_reducible apply complete_kept | with_reducible apply setSap_kept
                | with_reducible apply ite_kept | split | dsimp only [kept_mk] | intro _
                | with_reducible refine Kept.sound ?_

theorem finishSap_kept (s : State) (port : Nat) (h : Kept s) : Kept (finishSap s port) := by
  unfold finishSap
  repeat' first | with_reducible assumption | with_reducible apply complete_kept | with_reducible apply draw_kept
                | with_reducible apply firstEdgeDone_kept | with_reducible apply ite_kept | split
                | dsimp only [kept_mk] | intro _ | with_reducible refine snd_kept (by with_reducible assumption) ?_
                | with_reducible refine Kept.sound ?_

theorem aoutOff_kept (s : State) (h : Kept s) : Kept (aoutOff s) := by
  unfold aoutOff
  repeat' first | with_reducible assumption | with_reducible apply ite_kept | split | dsimp only [kept_mk] | intro _
                | with_reducible refine Kept.sound ?_

theorem moveAout_kept (s : State) (h : Kept s) : Kept (moveAout s) := by
  unfold moveAout
  repeat' first | with_reducible assumption | with_reducible apply aoutOff_kept | with_reducible apply ite_kept
                | split | dsimp only [kept_mk] | intro _ | with_reducible refine Kept.sound ?_

theorem addStretch_kept (src : Nat) (cause : MuteCause) (start : Int) (stop : Option Int) (s : State) (port : Nat) (h
    : Kept s) : Kept (addStretch src cause start stop s port) := by
  unfold addStretch
  repeat' first | with_reducible assumption | with_reducible apply modSap_kept | with_reducible apply ite_kept | split
                | dsimp only [kept_mk] | intro _ | with_reducible refine Kept.sound ?_

theorem noteAbsent_kept (s : State) (h : Kept s) : Kept (noteAbsent s) := by
  unfold noteAbsent
  exact forAll_kept _ _ _ (fun _ _ k => ite_kept _ _ (forAll_kept _ _ _ (fun _ _ k => addStretch_kept _ _ _ _ _ _ k) k) k) h

theorem sendFrame_kept (port : Nat) (s : State) (f : Nat) (h : Kept s) : Kept (sendFrame port s f) := by
  unfold sendFrame
  repeat' first | with_reducible assumption | with_reducible apply modSap_kept | with_reducible apply ite_kept | split
                | dsimp only [kept_mk] | intro _ | with_reducible refine Kept.sound ?_

theorem sendFrames_kept (s : State) (port : Nat) (h : Kept s) : Kept (sendFrames s port) := by
  unfold sendFrames
  repeat' first | with_reducible assumption | with_reducible apply sendFrame_kept | with_reducible apply forAll_kept
                | with_reducible apply ite_kept | split | dsimp only [kept_mk] | intro _
                | with_reducible refine Kept.sound ?_

theorem takeMics_kept (s : State) (h : Kept s) : Kept (takeMics s) := by
  unfold takeMics
  repeat' first | with_reducible assumption | with_reducible apply forAll_kept | with_reducible apply ite_kept | split
                | dsimp only [kept_mk] | intro _ | with_reducible refine Kept.sound ?_

theorem passAudio_kept (s : State) (h : Kept s) : Kept (passAudio s) := by
  unfold passAudio
  exact moveAout_kept _ (forAll_kept _ _ _ (fun _ _ k => finishSap_kept _ _ k) (forAll_kept _ _ _
    (fun _ _ k => sendFrames_kept _ _ k) (noteAbsent_kept _ (takeMics_kept _ h))))

theorem startPdm_kept (s : State) (h : Kept s) : Kept (startPdm s) := by
  unfold startPdm
  repeat' first | with_reducible assumption | with_reducible apply draw_kept | with_reducible apply ite_kept | split
                | dsimp only [kept_mk] | intro _ | with_reducible refine snd_kept (by with_reducible assumption) ?_
                | with_reducible refine Kept.sound ?_

theorem swapSlots_kept (port : Nat) (old : SapCfg) (s : State) (h : Kept s) : Kept (swapSlots port old s) := by
  unfold swapSlots
  repeat' first | with_reducible assumption | with_reducible apply modSap_kept | with_reducible apply ite_kept | split
                | dsimp only [kept_mk] | intro _ | with_reducible refine Kept.sound ?_

theorem takeUp_kept (port : Nat) (ns : List Nat) (s : State) (h : Kept s) : Kept (takeUp port ns s) := by
  unfold takeUp
  repeat' first | with_reducible assumption | with_reducible apply addStretch_kept | with_reducible apply forAll_kept
                | with_reducible apply ite_kept | split | dsimp only [kept_mk] | intro _
                | with_reducible refine Kept.sound ?_

theorem runSapCfg_kept (s : State) (c : Cmd) (h : Kept s) : Kept (runSapCfg s c) := by
  unfold runSapCfg
  repeat' first | with_reducible assumption | with_reducible apply configure_kept | with_reducible apply startPdm_kept
                | with_reducible apply complete_kept | with_reducible apply takeUp_kept
                | with_reducible apply stopPdm_kept | with_reducible apply swapSlots_kept
                | with_reducible apply ite_kept | split | dsimp only [kept_mk] | intro _
                | with_reducible refine Kept.sound ?_

theorem runSapStart_kept (edge : Nat) (s : State) (c : Cmd) (h : Kept s) : Kept (runSapStart edge s c) := by
  unfold runSapStart
  repeat' first | with_reducible assumption | with_reducible apply startPdm_kept | with_reducible apply draw_kept
                | with_reducible apply modSap_kept | with_reducible apply takeUp_kept
                | with_reducible apply firstEdgeDone_kept | with_reducible apply aoutRise_kept
                | with_reducible apply ite_kept | split | dsimp only [kept_mk] | intro _
                | with_reducible refine snd_kept (by with_reducible assumption) ?_
                | with_reducible refine Kept.sound ?_

theorem rampDown_kept (port : Nat) (s : State) (h : Kept s) : Kept (rampDown port s) := by
  unfold rampDown
  repeat' first | with_reducible assumption | with_reducible apply setSap_kept | with_reducible apply ite_kept | split
                | dsimp only [kept_mk] | intro _ | with_reducible refine Kept.sound ?_

theorem runSapStop_kept (s : State) (c : Cmd) (h : Kept s) : Kept (runSapStop s c) := by
  unfold runSapStop
  repeat' first | with_reducible assumption | with_reducible apply complete_kept | with_reducible apply rampDown_kept
                | with_reducible apply ite_kept | split | dsimp only [kept_mk] | intro _
                | with_reducible refine Kept.sound ?_

theorem writeCapCons_kept (port : Nat) (v : Byte) (s : State) (h : Kept s) : Kept (writeCapCons port v s) := by
  unfold writeCapCons
  repeat' first | with_reducible assumption | with_reducible apply modSap_kept | with_reducible apply ite_kept | split
                | dsimp only [kept_mk] | intro _ | with_reducible refine Kept.sound ?_

theorem aoutFall_kept (s : State) (h : Kept s) : Kept (aoutFall s) := by
  unfold aoutFall
  repeat' first | with_reducible assumption | with_reducible apply ite_kept | split | dsimp only [kept_mk] | intro _
                | with_reducible refine Kept.sound ?_

theorem portsClockFault_kept (s : State) (h : Kept s) : Kept (portsClockFault s) := by
  unfold portsClockFault
  exact forAll_kept _ _ _ (fun _ _ k => ite_kept _ _ (raise_kept _ _ (modSap_kept _ _ _ (stopPort_kept _ _ k))) k) h

theorem stopPorts_kept (s : State) (h : Kept s) : Kept (stopPorts s) := by
  unfold stopPorts
  repeat' first | with_reducible assumption | with_reducible apply stopPort_kept | with_reducible apply ite_kept
                | split | dsimp only [kept_mk] | intro _ | with_reducible refine Kept.sound ?_

theorem lfDescWrite_kept (slot : Nat) (o : Nat) (v : Byte) (s : State) (t : State) (e : (lfDescWrite slot o v s) = some t)
    (h : Kept s) : Kept t := by
  unfold lfDescWrite at e
  dsimp only at e
  repeat' split at e
  all_goals cases e
  all_goals first | exact h | exact writeCons_kept _ _ _ h | exact stageCons_kept _ _ _ _ h

theorem setPath_kept (s : State) (p : Nat) (x : Path) (h : Kept s) : Kept (setPath s p x) := by
  unfold setPath
  repeat' first | with_reducible assumption | with_reducible apply ite_kept | split | dsimp only [kept_mk] | intro _
                | with_reducible refine Kept.sound ?_

theorem modPath_kept (s : State) (p : Nat) (f : Path → Path) (h : Kept s) : Kept (modPath s p f) := by
  unfold modPath
  repeat' first | with_reducible assumption | with_reducible apply setPath_kept | with_reducible apply ite_kept
                | split | dsimp only [kept_mk] | intro _ | with_reducible refine Kept.sound ?_

theorem modFe_kept (s : State) (p : Nat) (f : FrontEnd → FrontEnd) (h : Kept s) : Kept (modFe s p f) := by
  unfold modFe
  repeat' first | with_reducible assumption | with_reducible apply modPath_kept | with_reducible apply ite_kept
                | split | dsimp only [kept_mk] | intro _ | with_reducible refine Kept.sound ?_

theorem modSynth_kept (s : State) (p : Nat) (f : Synth → Synth) (h : Kept s) : Kept (modSynth s p f) := by
  unfold modSynth
  repeat' first | with_reducible assumption | with_reducible apply modPath_kept | with_reducible apply ite_kept
                | split | dsimp only [kept_mk] | intro _ | with_reducible refine Kept.sound ?_

theorem pathWrite_kept (p : Nat) (o : Nat) (v : Byte) (s : State) (t : State) (e : (pathWrite p o v s) = some t)
    (h : Kept s) : Kept t := by
  unfold pathWrite at e
  split at e
  · obtain ⟨p, -, rfl⟩ := Option.map_eq_some_iff.mp e
    exact modSynth_kept _ _ _ h
  · split at e
    · cases e
      exact modSynth_kept _ _ _ h
    · obtain ⟨p, -, rfl⟩ := Option.map_eq_some_iff.mp e
      exact modFe_kept _ _ _ h

theorem profileWrite_kept (k : Nat) (o : Nat) (v : Byte) (s : State) (t : State) (e : (profileWrite k o v s) = some t)
    (h : Kept s) : Kept t := by
  unfold profileWrite at e
  obtain ⟨p, -, rfl⟩ := Option.map_eq_some_iff.mp e
  exact h

theorem sapWrite_kept (port : Nat) (o : Nat) (v : Byte) (s : State) (t : State) (e : (sapWrite port o v s) = some t)
    (h : Kept s) : Kept t := by
  unfold sapWrite at e
  split at e
  · cases e
    exact modSap_kept _ _ _ h
  · split at e
    · cases e
      exact writeCapCons_kept _ _ _ h
    · obtain ⟨p, -, rfl⟩ := Option.map_eq_some_iff.mp e
      exact modSap_kept _ _ _ h

theorem stageCons_kept (n : Nat) (i : Nat) (v : Byte) (s : State) (h : Kept s) : Kept (stageCons n i v s) := by
  unfold stageCons
  repeat' first | with_reducible assumption | with_reducible apply modSlot_kept | with_reducible apply ite_kept
                | split | dsimp only [kept_mk] | intro _ | with_reducible refine Kept.sound ?_

theorem writeCons_kept (n : Nat) (v : Byte) (s : State) (h : Kept s) : Kept (writeCons n v s) := by
  unfold writeCons
  repeat' first | with_reducible assumption | with_reducible apply modSlot_kept | with_reducible apply ite_kept
                | split | dsimp only [kept_mk] | intro _ | with_reducible refine Kept.sound ?_

theorem slotWrite_kept (n : Nat) (o : Nat) (v : Byte) (s : State) (t : State) (e : (slotWrite n o v s) = some t)
    (h : Kept s) : Kept t := by
  unfold slotWrite at e
  repeat' split at e
  all_goals cases e
  all_goals first | exact h | exact writeCons_kept _ _ _ h | exact stageCons_kept _ _ _ _ h

theorem wakeWrite_kept (k : Nat) (v : Byte) (s : State) (t : State) (e : (wakeWrite k v s) = some t) (h : Kept s) : Kept t := by
  unfold wakeWrite at e
  dsimp only at e
  repeat' split at e
  all_goals cases e
  all_goals first | exact h | exact writeCons_kept _ _ _ h | exact stageCons_kept _ _ _ _ h

theorem blockWrite_kept (s : State) (a : Nat) (v : Byte) (t : State) (e : (blockWrite s a v) = some t) (h : Kept s) : Kept t := by
  unfold blockWrite at e
  rcases some_of_ite e with e | e
  · exact pathWrite_kept _ _ _ _ _ e h
  rcases some_of_ite e with e | e
  · exact slotWrite_kept _ _ _ _ _ e h
  rcases some_of_ite e with e | e
  · exact sapWrite_kept _ _ _ _ _ e h
  rcases some_of_ite e with e | e
  · obtain ⟨p, -, rfl⟩ := Option.map_eq_some_iff.mp e
    exact h
  rcases some_of_ite e with e | e
  · obtain ⟨p, -, rfl⟩ := Option.map_eq_some_iff.mp e
    exact h
  rcases some_of_ite e with e | e
  · exact profileWrite_kept _ _ _ _ _ e h
  rcases some_of_ite e with e | e
  · obtain ⟨p, -, rfl⟩ := Option.map_eq_some_iff.mp e
    exact h
  rcases some_of_ite e with e | e
  · cases e
    exact h
  rcases some_of_ite e with e | e
  · cases e
    exact h
  rcases some_of_ite e with e | e
  · obtain ⟨p, -, rfl⟩ := Option.map_eq_some_iff.mp e
    exact h
  rcases some_of_ite e with e | e
  · obtain ⟨p, -, rfl⟩ := Option.map_eq_some_iff.mp e
    exact h
  rcases some_of_ite e with e | e
  · exact wakeWrite_kept _ _ _ _ e h
  rcases some_of_ite e with e | e
  · exact lfDescWrite_kept _ _ _ _ _ e h
  cases e

theorem checkCalDue_kept (s : State) (p : Nat) (h : Kept s) : Kept (checkCalDue s p) := by
  unfold checkCalDue
  repeat' first | with_reducible assumption | with_reducible apply raise_kept | with_reducible apply ite_kept | split
                | dsimp only [kept_mk] | intro _ | with_reducible refine Kept.sound ?_

theorem checkTherm_kept (s : State) (h : Kept s) : Kept (checkTherm s) := by
  unfold checkTherm
  repeat' first | with_reducible assumption | with_reducible apply raise_kept | with_reducible apply ite_kept | split
                | dsimp only [kept_mk] | intro _ | with_reducible refine Kept.sound ?_

theorem takeSample_kept (temp : Int) (s : State) (h : Kept s) : Kept (takeSample temp s) := by
  unfold takeSample
  repeat' first | with_reducible assumption | with_reducible apply checkCalDue_kept | with_reducible apply draw_kept
                | with_reducible apply checkTherm_kept | with_reducible apply forAll_kept
                | with_reducible apply ite_kept | split | dsimp only [kept_mk] | intro _
                | with_reducible refine snd_kept (by with_reducible assumption) ?_
                | with_reducible refine Kept.sound ?_

theorem bootFabric_kept (m : BootMeas) (s : State) (h : Kept s) : Kept (bootFabric m s) := by
  unfold bootFabric
  repeat' first | with_reducible assumption | with_reducible apply takeSample_kept | with_reducible apply ite_kept
                | split | dsimp only [kept_mk] | intro _ | with_reducible refine Kept.sound ?_

theorem bootDefaults_kept (k : ResetKind) (s : State) (h : Kept s) : Kept (bootDefaults k s) := by
  refine ⟨rfl, ?_, List.Pairwise.nil, fun _ hc => nomatch hc⟩
  show Memory.wf (if scrubKind k then [] else s.mem) = true
  split
  · rfl
  · exact h.2.1

theorem modEndpoint_kept (s : State) (k : Nat) (f : Endpoint → Endpoint) (h : Kept s) : Kept (modEndpoint s k f) := by
  unfold modEndpoint
  repeat' first | with_reducible assumption | with_reducible apply ite_kept | split | dsimp only [kept_mk] | intro _
                | with_reducible refine Kept.sound ?_

theorem loadEndpoint_kept (s : State) (n : Nat) (h : Kept s) : Kept (loadEndpoint s n) := by
  unfold loadEndpoint
  repeat' first | with_reducible assumption | with_reducible apply modEndpoint_kept | with_reducible apply ite_kept
                | split | dsimp only [kept_mk] | intro _ | with_reducible refine Kept.sound ?_

theorem loadRecords_kept (s : State) (h : Kept s) : Kept (loadRecords s) := by
  unfold loadRecords
  repeat' first | with_reducible assumption | with_reducible apply loadEndpoint_kept
                | with_reducible apply forAll_kept | with_reducible apply ite_kept | split | dsimp only [kept_mk]
                | intro _ | with_reducible refine Kept.sound ?_

theorem loadBoard_kept (s : State) (h : Kept s) : Kept (loadBoard s) := by
  unfold loadBoard
  repeat' first | with_reducible assumption | with_reducible apply ite_kept | split | dsimp only [kept_mk] | intro _
                | with_reducible refine Kept.sound ?_

theorem modCal_kept (s : State) (p : Nat) (f : CalPart → CalPart) (h : Kept s) : Kept (modCal s p f) := by
  unfold modCal
  repeat' first | with_reducible assumption | with_reducible apply modPath_kept | with_reducible apply ite_kept
                | split | dsimp only [kept_mk] | intro _ | with_reducible refine Kept.sound ?_

theorem loadPath_kept (s : State) (p : Nat) (h : Kept s) : Kept (loadPath s p) := by
  unfold loadPath
  repeat' first | with_reducible assumption | with_reducible apply modCal_kept | with_reducible apply modSynth_kept
                | with_reducible apply ite_kept | split | dsimp only [kept_mk] | intro _
                | with_reducible refine Kept.sound ?_

theorem loadResults_kept (s : State) (h : Kept s) : Kept (loadResults s) := by
  unfold loadResults
  repeat' first | with_reducible assumption | with_reducible apply loadPath_kept | with_reducible apply loadBoard_kept
                | with_reducible apply forAll_kept | with_reducible apply ite_kept | split | dsimp only [kept_mk]
                | intro _ | with_reducible refine Kept.sound ?_

theorem bootLoad_kept (k : ResetKind) (m : BootMeas) (s : State) (h : Kept s) : Kept (bootLoad k m s) := by
  unfold bootLoad
  repeat' first | with_reducible assumption | with_reducible apply loadRecords_kept | with_reducible apply modCal_kept
                | with_reducible apply ringsReset_kept | with_reducible apply bootDefaults_kept
                | with_reducible apply loadResults_kept | with_reducible apply forAll_kept
                | with_reducible apply ite_kept | split | dsimp only [kept_mk] | intro _
                | with_reducible refine Kept.sound ?_

theorem counterBack_kept (s : State) (h : Kept s) : Kept (counterBack s) := by
  unfold counterBack
  repeat' first | with_reducible assumption | with_reducible apply ite_kept | split | dsimp only [kept_mk] | intro _
                | with_reducible refine Kept.sound ?_

theorem counterOff_kept (s : State) (h : Kept s) : Kept (counterOff s) := by
  unfold counterOff
  repeat' first | with_reducible assumption | with_reducible apply ite_kept | split | dsimp only [kept_mk] | intro _
                | with_reducible refine Kept.sound ?_

theorem touchLanes_kept (p : Nat) (k : Nat) (s : State) (h : Kept s) : Kept (touchLanes p k s) := by
  unfold touchLanes
  repeat' first | with_reducible assumption | with_reducible apply ite_kept | split | dsimp only [kept_mk] | intro _
                | with_reducible refine Kept.sound ?_

theorem touchState_kept (p : Nat) (st : FeState) (s : State) (h : Kept s) : Kept (touchState p st s) := by
  unfold touchState
  repeat' first | with_reducible assumption | with_reducible apply touchLanes_kept | with_reducible apply ite_kept
                | split | dsimp only [kept_mk] | intro _ | with_reducible refine Kept.sound ?_

theorem trackZeros_kept (p : Nat) (s : State) (h : Kept s) : Kept (trackZeros p s) := by
  unfold trackZeros
  repeat' first | with_reducible assumption | with_reducible apply modFe_kept | with_reducible apply ite_kept | split
                | dsimp only [kept_mk] | intro _ | with_reducible refine Kept.sound ?_

theorem tuneBoundary_kept (p : Nat) (s : State) (h : Kept s) : Kept (tuneBoundary p s) := by
  unfold tuneBoundary
  repeat' first | with_reducible assumption | with_reducible apply complete_kept | with_reducible apply ite_kept
                | split | dsimp only [kept_mk] | intro _ | with_reducible refine Kept.sound ?_

theorem setFe_kept (p : Nat) (st : FeState) (s : State) (h : Kept s) : Kept (setFe p st s) := by
  unfold setFe
  repeat' first | with_reducible assumption | with_reducible apply touchState_kept
                | with_reducible apply tuneBoundary_kept | with_reducible apply trackZeros_kept
                | with_reducible apply modFe_kept | with_reducible apply ite_kept | split | dsimp only [kept_mk]
                | intro _ | with_reducible refine Kept.sound ?_

theorem tuneDone_kept (p : Nat) (status : Nat) (result : List Byte) (s : State) (h : Kept s) : Kept (tuneDone p status
    result s) := by
  unfold tuneDone
  repeat' first | with_reducible assumption | with_reducible apply complete_kept | with_reducible apply ite_kept
                | split | dsimp only [kept_mk] | intro _ | with_reducible refine Kept.sound ?_

theorem noLock_kept (p : Nat) (code : Nat) (s : State) (h : Kept s) : Kept (noLock p code s) := by
  unfold noLock
  repeat' first | with_reducible assumption | with_reducible apply setFe_kept | with_reducible apply tuneDone_kept
                | with_reducible apply modSynth_kept | with_reducible apply ite_kept | split | dsimp only [kept_mk]
                | intro _ | with_reducible refine Kept.sound ?_

theorem cpllFault_kept (s : State) (h : Kept s) : Kept (cpllFault s) := by
  unfold cpllFault
  repeat' first | with_reducible assumption | with_reducible apply portsClockFault_kept
                | with_reducible apply raise_kept | with_reducible apply noLock_kept
                | with_reducible apply forAll_kept | with_reducible apply ite_kept | split | dsimp only [kept_mk]
                | intro _ | with_reducible refine Kept.sound ?_

theorem cpllLocked_kept (s : State) (h : Kept s) : Kept (cpllLocked s) := by
  unfold cpllLocked
  repeat' first | with_reducible assumption | with_reducible apply ite_kept | split | dsimp only [kept_mk] | intro _
                | with_reducible refine Kept.sound ?_

theorem leaveRest_kept (m : Nat) (s : State) (h : Kept s) : Kept (leaveRest m s) := by
  unfold leaveRest
  repeat' first | with_reducible assumption | with_reducible apply ite_kept | split | dsimp only [kept_mk] | intro _
                | with_reducible refine Kept.sound ?_

theorem setMode_kept (m : Nat) (s : State) (h : Kept s) : Kept (setMode m s) := by
  unfold setMode
  repeat' first | with_reducible assumption | with_reducible apply leaveRest_kept | with_reducible apply ite_kept
                | split | dsimp only [kept_mk] | intro _ | with_reducible refine Kept.sound ?_

theorem clearShed_kept (s : State) (h : Kept s) : Kept (clearShed s) := by
  unfold clearShed
  repeat' first | with_reducible assumption | with_reducible apply ite_kept | split | dsimp only [kept_mk] | intro _
                | with_reducible refine Kept.sound ?_

theorem clearEntry_kept (x0 : Nat) (s : State) (h : Kept s) : Kept (clearEntry x0 s) := by
  unfold clearEntry
  repeat' first | with_reducible assumption | with_reducible apply endTastings_kept | with_reducible apply ite_kept
                | split | dsimp only [kept_mk] | intro _ | with_reducible refine Kept.sound ?_

theorem dropEntries_kept (s : State) (h : Kept s) : Kept (dropEntries s) := by
  unfold dropEntries
  repeat' first | with_reducible assumption | with_reducible apply clearEntry_kept | with_reducible apply forAll_kept
                | with_reducible apply ite_kept | split | dsimp only [kept_mk] | intro _
                | with_reducible refine Kept.sound ?_

theorem holdLanes_kept (s : State) (h : Kept s) : Kept (holdLanes s) := by
  unfold holdLanes
  repeat' first | with_reducible assumption | with_reducible apply ite_kept | split | dsimp only [kept_mk] | intro _
                | with_reducible refine Kept.sound ?_

theorem startLanes_kept (s : State) (h : Kept s) : Kept (startLanes s) := by
  unfold startLanes
  repeat' first | with_reducible assumption | with_reducible apply ite_kept | split | dsimp only [kept_mk] | intro _
                | with_reducible refine Kept.sound ?_

theorem beginLock_kept (p : Nat) (s : State) (h : Kept s) : Kept (beginLock p s) := by
  unfold beginLock
  repeat' first | with_reducible assumption | with_reducible apply noLock_kept | with_reducible apply modSynth_kept
                | with_reducible apply ite_kept | split | dsimp only [kept_mk] | intro _
                | with_reducible refine Kept.sound ?_

theorem startPath_kept (p : Nat) (s : State) (h : Kept s) : Kept (startPath p s) := by
  unfold startPath
  repeat' first | with_reducible assumption | with_reducible apply beginLock_kept | with_reducible apply modFe_kept
                | with_reducible apply setFe_kept | with_reducible apply ite_kept | split | dsimp only [kept_mk]
                | intro _ | with_reducible refine Kept.sound ?_

theorem startPaths_kept (s : State) (h : Kept s) : Kept (startPaths s) := by
  unfold startPaths
  exact forAll_kept _ _ _ (fun _ _ k => ite_kept _ _ (startPath_kept _ _ k) k) h

theorem modLane_kept (s : State) (n : Nat) (f : Lane → Lane) (h : Kept s) : Kept (modLane s n f) := by
  unfold modLane
  repeat' first | with_reducible assumption | with_reducible apply setLane_kept | with_reducible apply ite_kept
                | split | dsimp only [kept_mk] | intro _ | with_reducible refine Kept.sound ?_

theorem followBroken_kept (lane : Nat) (s : State) (h : Kept s) : Kept (followBroken lane s) := by
  unfold followBroken
  repeat' first | with_reducible assumption | with_reducible apply endTastings_kept | with_reducible apply ite_kept
                | split | dsimp only [kept_mk] | intro _ | with_reducible refine Kept.sound ?_

theorem releaseHeld_kept (n : Nat) (s : State) (h : Kept s) : Kept (releaseHeld n s) := by
  unfold releaseHeld
  repeat' first | with_reducible assumption | with_reducible apply ite_kept | split | dsimp only [kept_mk] | intro _
                | with_reducible refine Kept.sound ?_

theorem unbindNow_kept (n : Nat) (s : State) (h : Kept s) : Kept (unbindNow n s) := by
  unfold unbindNow
  repeat' first | with_reducible assumption | with_reducible apply releaseHeld_kept
                | with_reducible apply followBroken_kept | with_reducible apply freeLane_kept
                | with_reducible apply ite_kept | split | dsimp only [kept_mk] | intro _
                | with_reducible refine Kept.sound ?_

theorem stopLane_kept (n : Nat) (s : State) (h : Kept s) : Kept (stopLane n s) := by
  unfold stopLane
  repeat' first | with_reducible assumption | with_reducible apply modLane_kept | with_reducible apply modLf_kept
                | with_reducible apply unbindNow_kept | with_reducible apply capShed_kept
                | with_reducible apply ite_kept | split | dsimp only [kept_mk] | intro _
                | with_reducible refine Kept.sound ?_

theorem stopLanes_kept (p : Nat → Bool) (s : State) (h : Kept s) : Kept (stopLanes p s) := by
  unfold stopLanes
  repeat' first | with_reducible assumption | with_reducible apply stopLane_kept | with_reducible apply forAll_kept
                | with_reducible apply ite_kept | split | dsimp only [kept_mk] | intro _
                | with_reducible refine Kept.sound ?_

theorem suspendSlots_kept (s : State) (h : Kept s) : Kept (suspendSlots s) := by
  unfold suspendSlots
  repeat' first | with_reducible assumption | with_reducible apply ite_kept | split | dsimp only [kept_mk] | intro _
                | with_reducible refine Kept.sound ?_

theorem startMode_kept (m : Nat) (s : State) (h : Kept s) : Kept (startMode m s) := by
  unfold startMode
  repeat' first | with_reducible assumption | with_reducible apply startLanes_kept
                | with_reducible apply suspendSlots_kept | with_reducible apply holdLanes_kept
                | with_reducible apply startPaths_kept | with_reducible apply aoutFall_kept
                | with_reducible apply stopLanes_kept | with_reducible apply clearShed_kept
                | with_reducible apply dropEntries_kept | with_reducible apply ite_kept | split | dsimp only [kept_mk]
                | intro _ | with_reducible refine Kept.sound ?_

theorem bootMode_kept (mode : Nat) (lock : Bool) (s : State) (h : Kept s) : Kept (bootMode mode lock s) := by
  unfold bootMode
  repeat' first | with_reducible assumption | with_reducible apply counterOff_kept | with_reducible apply setMode_kept
                | with_reducible apply cpllLocked_kept | with_reducible apply startMode_kept
                | with_reducible apply counterBack_kept | with_reducible apply cpllFault_kept
                | with_reducible apply ite_kept | split | dsimp only [kept_mk] | intro _
                | with_reducible refine Kept.sound ?_

theorem pushTx_kept (j : TxJob) (s : State) (h : Kept s) : Kept (pushTx j s) := by
  unfold pushTx
  repeat' first | with_reducible assumption | with_reducible apply ite_kept | split | dsimp only [kept_mk] | intro _
                | with_reducible refine Kept.sound ?_

theorem trng_kept (s : State) (h : Kept s) : Kept (trng s).2 := by
  unfold trng
  repeat' first | with_reducible assumption | with_reducible apply ite_kept | split | dsimp only [kept_mk] | intro _
                | with_reducible refine Kept.sound ?_

theorem kickCheck_kept (s : State) (h : Kept s) : Kept (kickCheck s) := by
  unfold kickCheck
  repeat' first | with_reducible assumption | with_reducible apply pushTx_kept | with_reducible apply trng_kept
                | with_reducible apply ite_kept | split | dsimp only [kept_mk] | intro _
                | with_reducible refine snd_kept (by with_reducible assumption) ?_
                | with_reducible refine Kept.sound ?_

theorem maskCheck_kept (k : Nat) (j : TxJob) (s : State) (h : Kept s) : Kept (maskCheck k j s).1 := by
  unfold maskCheck
  repeat' first | with_reducible assumption | with_reducible apply draw_kept | with_reducible apply ite_kept | split
                | dsimp only [kept_mk] | intro _ | with_reducible refine snd_kept (by with_reducible assumption) ?_
                | with_reducible refine Kept.sound ?_

theorem retunePath_kept (p : Nat) (s : State) (h : Kept s) : Kept (retunePath p s) := by
  unfold retunePath
  repeat' first | with_reducible assumption | with_reducible apply startPath_kept
                | with_reducible apply beginLock_kept | with_reducible apply setFe_kept
                | with_reducible apply ite_kept | split | dsimp only [kept_mk] | intro _
                | with_reducible refine Kept.sound ?_

theorem placeS_kept (f : Nat) (s : State) (h : Kept s) : Kept (placeS f s) := by
  unfold placeS
  repeat' first | with_reducible assumption | with_reducible apply startPath_kept | with_reducible apply modFe_kept
                | with_reducible apply retunePath_kept | with_reducible apply ite_kept | split | dsimp only [kept_mk]
                | intro _ | with_reducible refine Kept.sound ?_

theorem dropTx_kept (p : TxJob → Bool) (s : State) (h : Kept s) : Kept (dropTx p s) := by
  unfold dropTx
  repeat' first | with_reducible assumption | with_reducible apply ite_kept | split | dsimp only [kept_mk] | intro _
                | with_reducible refine Kept.sound ?_

theorem recordCheck_kept (n : Nat) (status : Nat) (m : Option CheckMeas) (s : State) (h : Kept s) : Kept (recordCheck
    n status m s) := by
  unfold recordCheck
  repeat' first | with_reducible assumption | with_reducible apply modEndpoint_kept | with_reducible apply draw_kept
                | with_reducible apply ite_kept | split | dsimp only [kept_mk] | intro _
                | with_reducible refine snd_kept (by with_reducible assumption) ?_
                | with_reducible refine Kept.sound ?_

theorem abortCheck_kept (seq : Nat) (cause : Nat) (s : State) (h : Kept s) : Kept (abortCheck seq cause s) := by
  unfold abortCheck
  repeat' first | with_reducible assumption | with_reducible apply recordCheck_kept
                | with_reducible apply complete_kept | with_reducible apply kickCheck_kept
                | with_reducible apply dropTx_kept | with_reducible apply ite_kept | split | dsimp only [kept_mk]
                | intro _ | with_reducible refine Kept.sound ?_

theorem releaseReply_kept (op : Nat) (k : Nat) (status : Nat) (result : List Byte) (s : State) (h : Kept s) : Kept
    (releaseReply op k status result s) := by
  unfold releaseReply
  repeat' first | with_reducible assumption | with_reducible apply complete_kept | with_reducible apply ite_kept
                | split | dsimp only [kept_mk] | intro _ | with_reducible refine Kept.sound ?_

theorem stopTx_kept (j : TxJob) (cause : Nat) (s : State) (h : Kept s) : Kept (stopTx j cause s) := by
  unfold stopTx
  repeat' first | with_reducible assumption | with_reducible apply abortCheck_kept
                | with_reducible apply complete_kept | with_reducible apply releaseReply_kept
                | with_reducible apply ite_kept | split | dsimp only [kept_mk] | intro _
                | with_reducible refine Kept.sound ?_

theorem modTarget_kept (s : State) (n : Nat) (f : Target → Target) (h : Kept s) : Kept (modTarget s n f) := by
  unfold modTarget
  repeat' first | with_reducible assumption | with_reducible apply ite_kept | split | dsimp only [kept_mk] | intro _
                | with_reducible refine Kept.sound ?_

theorem jitter_kept (x0 : Target) (s : State) (h : Kept s) : Kept (jitter x0 s).2 := by
  unfold jitter
  repeat' first | with_reducible assumption | with_reducible apply trng_kept | with_reducible apply ite_kept | split
                | dsimp only [kept_mk] | intro _ | with_reducible refine snd_kept (by with_reducible assumption) ?_
                | with_reducible refine Kept.sound ?_

theorem nextDueTime_kept (k : Nat) (s : State) (h : Kept s) : Kept (nextDueTime k s) := by
  unfold nextDueTime
  repeat' first | with_reducible assumption | with_reducible apply modTarget_kept | with_reducible apply jitter_kept
                | with_reducible apply ite_kept | split | dsimp only [kept_mk] | intro _
                | with_reducible refine snd_kept (by with_reducible assumption) ?_
                | with_reducible refine Kept.sound ?_

theorem retryDelay_kept (s : State) (h : Kept s) : Kept (retryDelay s).2 := by
  unfold retryDelay
  repeat' first | with_reducible assumption | with_reducible apply trng_kept | with_reducible apply ite_kept | split
                | dsimp only [kept_mk] | intro _ | with_reducible refine snd_kept (by with_reducible assumption) ?_
                | with_reducible refine Kept.sound ?_

theorem targetFault_kept (k : Nat) (reason : Nat) (s : State) (h : Kept s) : Kept (targetFault k reason s) := by
  unfold targetFault
  repeat' first | with_reducible assumption | with_reducible apply raise_kept | with_reducible apply modTarget_kept
                | with_reducible apply dropTx_kept | with_reducible apply ite_kept | split | dsimp only [kept_mk]
                | intro _ | with_reducible refine Kept.sound ?_

theorem attemptEnds_kept (k : Nat) (stop : Bool) (byCommand : Bool) (status : Nat) (result : List Byte) (phr : Nat)
    (cost : Nat) (s : State) (h : Kept s) : Kept (attemptEnds k stop byCommand status result phr cost s) := by
  unfold attemptEnds
  repeat' first | with_reducible assumption | with_reducible apply targetFault_kept
                | with_reducible apply modTarget_kept | with_reducible apply releaseReply_kept
                | with_reducible apply nextDueTime_kept | with_reducible apply retryDelay_kept
                | with_reducible apply ite_kept | split | dsimp only [kept_mk] | intro _
                | with_reducible refine snd_kept (by with_reducible assumption) ?_
                | with_reducible refine Kept.sound ?_

theorem countRefusal_kept (band : Nat) (status : Nat) (s : State) (h : Kept s) : Kept (countRefusal band status s) :=
    by
  unfold countRefusal
  repeat' first | with_reducible assumption | with_reducible apply ite_kept | split | dsimp only [kept_mk] | intro _
                | with_reducible refine Kept.sound ?_

theorem popCheck_kept (s : State) (h : Kept s) : Kept (popCheck s) := by
  unfold popCheck
  repeat' first | with_reducible assumption | with_reducible apply kickCheck_kept | with_reducible apply dropTx_kept
                | with_reducible apply ite_kept | split | dsimp only [kept_mk] | intro _
                | with_reducible refine Kept.sound ?_

theorem startSchedule_kept (k : Nat) (s : State) (h : Kept s) : Kept (startSchedule k s) := by
  unfold startSchedule
  repeat' first | with_reducible assumption | with_reducible apply modTarget_kept | with_reducible apply ite_kept
                | split | dsimp only [kept_mk] | intro _ | with_reducible refine Kept.sound ?_

theorem refreshTarget_kept (k : Nat) (s : State) (h : Kept s) : Kept (refreshTarget k s) := by
  unfold refreshTarget
  repeat' first | with_reducible assumption | with_reducible apply pushTx_kept
                | with_reducible apply startSchedule_kept | with_reducible apply modTarget_kept
                | with_reducible apply complete_kept | with_reducible apply dropTx_kept
                | with_reducible apply ite_kept | split | dsimp only [kept_mk] | intro _
                | with_reducible refine Kept.sound ?_

theorem refreshDemand_kept (s : State) (h : Kept s) : Kept (refreshDemand s) := by
  unfold refreshDemand
  repeat' first | with_reducible assumption | with_reducible apply refreshTarget_kept
                | with_reducible apply forAll_kept | with_reducible apply ite_kept | split | dsimp only [kept_mk]
                | intro _ | with_reducible refine Kept.sound ?_

theorem takeResponse_kept (n : Nat) (m : CheckMeas) (s : State) (h : Kept s) : Kept (takeResponse n m s) := by
  unfold takeResponse
  repeat' first | with_reducible assumption | with_reducible apply modEndpoint_kept | with_reducible apply ite_kept
                | split | dsimp only [kept_mk] | intro _ | with_reducible refine Kept.sound ?_

theorem beginSession_kept (n : Nat) (m : CheckMeas) (s : State) (h : Kept s) : Kept (beginSession n m s) := by
  unfold beginSession
  repeat' first | with_reducible assumption | with_reducible apply refreshDemand_kept
                | with_reducible apply modEndpoint_kept | with_reducible apply takeResponse_kept
                | with_reducible apply ite_kept | split | dsimp only [kept_mk] | intro _
                | with_reducible refine Kept.sound ?_

theorem issueWrite_kept (s : State) (seq : Nat) (key : Nat) (tomb : Bool) (payload : List Byte) (h : Kept s) : Kept
    (issueWrite s seq key tomb payload) := by
  unfold issueWrite
  repeat' first | with_reducible assumption | with_reducible apply modCmd_kept | with_reducible apply ite_kept | split
                | dsimp only [kept_mk] | intro _ | with_reducible refine Kept.sound ?_

theorem startWrite_kept (s : State) (seq : Nat) (w : DueWrite) (h : Kept s) : Kept (startWrite s seq w) := by
  unfold startWrite
  repeat' first | with_reducible assumption | with_reducible apply modCmd_kept | with_reducible apply complete_kept
                | with_reducible apply ite_kept | split | dsimp only [kept_mk] | intro _
                | with_reducible refine Kept.sound ?_

theorem startDueN_kept (k : Nat) (s : State) (h : Kept s) : Kept (startDueN k s) := by
  induction k generalizing s with
  | zero => exact h
  | succ n ih =>
    unfold startDueN
    split
    · exact ih _ (startWrite_kept _ _ _ h)
    · exact h

theorem startDue_kept (s : State) (h : Kept s) : Kept (startDue s) := by
  unfold startDue
  repeat' first | with_reducible assumption | with_reducible apply startDueN_kept | with_reducible apply ite_kept
                | split | dsimp only [kept_mk] | intro _ | with_reducible refine Kept.sound ?_

theorem writePairing_kept (c : Cmd) (tries : Nat) (rtt : Int) (rssi : Int) (key : List Byte) (s : State) (h : Kept s)
    : Kept (writePairing c tries rtt rssi key s) := by
  unfold writePairing
  repeat' first | with_reducible assumption | with_reducible apply issueWrite_kept | with_reducible apply modCmd_kept
                | with_reducible apply complete_kept | with_reducible apply startDue_kept
                | with_reducible apply ite_kept | split | dsimp only [kept_mk] | intro _
                | with_reducible refine Kept.sound ?_

theorem serveCheck_kept (c : Check) (status : Nat) (result : List Byte) (m : Option CheckMeas) (s : State) (h : Kept
    s) : Kept (serveCheck c status result m s) := by
  unfold serveCheck
  repeat' first | with_reducible assumption | with_reducible apply refreshDemand_kept
                | with_reducible apply complete_kept | with_reducible apply takeResponse_kept
                | with_reducible apply writePairing_kept | with_reducible apply beginSession_kept
                | with_reducible apply ite_kept | split | dsimp only [kept_mk] | intro _
                | with_reducible refine Kept.sound ?_

theorem finishCheck_kept (status : Nat) (result : List Byte) (m : Option CheckMeas) (s : State) (h : Kept s) : Kept
    (finishCheck status result m s) := by
  unfold finishCheck
  repeat' first | with_reducible assumption | with_reducible apply recordCheck_kept
                | with_reducible apply serveCheck_kept | with_reducible apply popCheck_kept
                | with_reducible apply ite_kept | split | dsimp only [kept_mk] | intro _
                | with_reducible refine Kept.sound ?_

theorem txEnds_kept (j : TxJob) (status : Nat) (result : List Byte) (s : State) (h : Kept s) : Kept (txEnds j status
    result s) := by
  unfold txEnds
  repeat' first | with_reducible assumption | with_reducible apply complete_kept
                | with_reducible apply finishCheck_kept | with_reducible apply countRefusal_kept
                | with_reducible apply attemptEnds_kept | with_reducible apply ite_kept | split | dsimp only [kept_mk]
                | intro _ | with_reducible refine Kept.sound ?_

theorem beginTx_kept (j : TxJob) (s : State) (h : Kept s) : Kept (beginTx j s) := by
  unfold beginTx
  repeat' first | with_reducible assumption | with_reducible apply txEnds_kept | with_reducible apply pushTx_kept
                | with_reducible apply maskCheck_kept | with_reducible apply stopTx_kept
                | with_reducible apply placeS_kept | with_reducible apply ite_kept | split | dsimp only [kept_mk]
                | intro _ | with_reducible refine fst_kept (by with_reducible assumption) ?_
                | with_reducible refine Kept.sound ?_

theorem removeActive_kept (s : State) (h : Kept s) : Kept (removeActive s) := by
  unfold removeActive
  repeat' first | with_reducible assumption | with_reducible apply ite_kept | split | dsimp only [kept_mk] | intro _
                | with_reducible refine Kept.sound ?_

theorem endActive_kept (status : Nat) (result : List Byte) (s : State) (h : Kept s) : Kept (endActive status result s)
    := by
  unfold endActive
  repeat' first | with_reducible assumption | with_reducible apply txEnds_kept
                | with_reducible apply removeActive_kept | with_reducible apply ite_kept | split
                | dsimp only [kept_mk] | intro _ | with_reducible refine Kept.sound ?_

theorem beginBlank_kept (tx : Bool) (s : State) (h : Kept s) : Kept (beginBlank tx s) := by
  unfold beginBlank
  repeat' first | with_reducible assumption | with_reducible apply touchLanes_kept
                | with_reducible apply tuneBoundary_kept | with_reducible apply trackZeros_kept
                | with_reducible apply modFe_kept | with_reducible apply forAll_kept | with_reducible apply ite_kept
                | split | dsimp only [kept_mk] | intro _ | with_reducible refine Kept.sound ?_

theorem ageBins_kept (s : State) (h : Kept s) : Kept (ageBins s) := by
  unfold ageBins
  repeat' first | with_reducible assumption | with_reducible apply ite_kept | split | dsimp only [kept_mk] | intro _
                | with_reducible refine Kept.sound ?_

theorem charge_kept (b : Nat) (cost : Nat) (s : State) (h : Kept s) : Kept (charge b cost s) := by
  unfold charge
  repeat' first | with_reducible assumption | with_reducible apply ageBins_kept | with_reducible apply ite_kept
                | split | dsimp only [kept_mk] | intro _ | with_reducible refine Kept.sound ?_

theorem epSet_kept (n : Nat) (off : Nat) (k : Nat) (v : Nat) (s : State) (h : Kept s) : Kept (epSet n off k v s) := by
  unfold epSet
  repeat' first | with_reducible assumption | with_reducible apply ite_kept | split | dsimp only [kept_mk] | intro _
                | with_reducible refine Kept.sound ?_

theorem countFrame_kept (j : TxJob) (s : State) (h : Kept s) : Kept (countFrame j s) := by
  unfold countFrame
  repeat' first | with_reducible assumption | with_reducible apply epSet_kept | with_reducible apply ite_kept | split
                | dsimp only [kept_mk] | intro _ | with_reducible refine Kept.sound ?_

theorem countOfdm_kept (j : TxJob) (s : State) (h : Kept s) : Kept (countOfdm j s) := by
  unfold countOfdm
  repeat' first | with_reducible assumption | with_reducible apply ite_kept | split | dsimp only [kept_mk] | intro _
                | with_reducible refine Kept.sound ?_

theorem endSession_kept (n : Nat) (cause : Nat) (s : State) (h : Kept s) : Kept (endSession n cause s) := by
  unfold endSession
  repeat' first | with_reducible assumption | with_reducible apply refreshDemand_kept
                | with_reducible apply modEndpoint_kept | with_reducible apply raise_kept
                | with_reducible apply ite_kept | split | dsimp only [kept_mk] | intro _
                | with_reducible refine Kept.sound ?_

theorem exhaustCounter_kept (n : Nat) (s : State) (h : Kept s) : Kept (exhaustCounter n s) := by
  unfold exhaustCounter
  exact forAll_kept _ _ _ (fun _ _ k => ite_kept _ _ (ite_kept _ _ (targetFault_kept _ _ _ k)
    (releaseReply_kept _ _ _ _ _ (targetFault_kept _ _ _ k))) k) (endSession_kept _ _ _ (modEndpoint_kept _ _ _ h))

theorem counterEnds_kept (j : TxJob) (s : State) (h : Kept s) : Kept (counterEnds j s) := by
  unfold counterEnds
  repeat' first | with_reducible assumption | with_reducible apply exhaustCounter_kept | with_reducible apply ite_kept
                | split | dsimp only [kept_mk] | intro _ | with_reducible refine Kept.sound ?_

theorem setActive_kept (f : TxJob → TxJob) (s : State) (h : Kept s) : Kept (setActive f s) := by
  unfold setActive
  repeat' first | with_reducible assumption | with_reducible apply ite_kept | split | dsimp only [kept_mk] | intro _
                | with_reducible refine Kept.sound ?_

theorem goOnAir_kept (phr : Option Nat) (s : State) (h : Kept s) : Kept (goOnAir phr s) := by
  unfold goOnAir
  repeat' first | with_reducible assumption | with_reducible apply setActive_kept | with_reducible apply charge_kept
                | with_reducible apply counterEnds_kept | with_reducible apply countOfdm_kept
                | with_reducible apply beginBlank_kept | with_reducible apply countFrame_kept
                | with_reducible apply ite_kept | split | dsimp only [kept_mk] | intro _
                | with_reducible refine Kept.sound ?_

theorem linkStep_kept (s : State) (t : State) (e : (linkStep s) = some t) (h : Kept s) : Kept t := by
  unfold linkStep at e
  dsimp only at e
  split at e
  · split at e
    · cases e
    split at e
    · cases e
      exact endActive_kept _ _ _ h
    split at e
    · cases e
      exact setActive_kept _ _ (modSynth_kept _ _ _ h)
    split at e
    · cases e
      exact goOnAir_kept _ _ h
    split at e
    · cases e
      exact modSynth_kept _ _ _ (setActive_kept _ _ h)
    · cases e
  · split at e
    · split at e
      · cases e
      split at e
      · split at e
        · cases e
          exact h
        · cases e
      · cases e
        exact ite_kept _ _ (placeS_kept _ _ (pushTx_kept _ _ (fields_kept h))) (beginTx_kept _ _ (fields_kept h))
    · split at e
      · cases e
      · cases e
        exact ite_kept _ _ (placeS_kept _ _ (pushTx_kept _ _ (fields_kept h))) (beginTx_kept _ _ (fields_kept h))
    · cases e

theorem linkSteps_kept (x0 : Nat) (x1 : State) (h : Kept x1) : Kept (linkSteps x0 x1) := by
  induction x0 generalizing x1 with
  | zero => exact h
  | succ n ih =>
    unfold linkSteps
    split
    · rename_i e
      exact ih _ (linkStep_kept _ _ e h)
    · exact h

theorem pathOff_kept (p : Nat) (s : State) (h : Kept s) : Kept (pathOff p s) := by
  unfold pathOff
  repeat' first | with_reducible assumption | with_reducible apply tuneBoundary_kept | with_reducible apply modFe_kept
                | with_reducible apply setFe_kept | with_reducible apply tuneDone_kept
                | with_reducible apply modSynth_kept | with_reducible apply ite_kept | split | dsimp only [kept_mk]
                | intro _ | with_reducible refine Kept.sound ?_

theorem serveWindows_kept (s : State) (h : Kept s) : Kept (serveWindows s) := by
  unfold serveWindows
  repeat' first | with_reducible assumption | with_reducible apply pathOff_kept | with_reducible apply placeS_kept
                | with_reducible apply ite_kept | split | dsimp only [kept_mk] | intro _
                | with_reducible refine Kept.sound ?_

theorem trackPause_kept (s : State) (h : Kept s) : Kept (trackPause s) := by
  unfold trackPause
  repeat' first | with_reducible assumption | with_reducible apply ite_kept | split | dsimp only [kept_mk] | intro _
                | with_reducible refine Kept.sound ?_

theorem countFail_kept (n : Nat) (s : State) (h : Kept s) : Kept (countFail n s) := by
  unfold countFail
  repeat' first | with_reducible assumption | with_reducible apply epSet_kept | with_reducible apply ite_kept | split
                | dsimp only [kept_mk] | intro _ | with_reducible refine Kept.sound ?_

theorem countNoResp_kept (n : Nat) (s : State) (h : Kept s) : Kept (countNoResp n s) := by
  unfold countNoResp
  repeat' first | with_reducible assumption | with_reducible apply epSet_kept | with_reducible apply ite_kept | split
                | dsimp only [kept_mk] | intro _ | with_reducible refine Kept.sound ?_

theorem tryEnds_kept (status : Nat) (why : Nat) (m : Option CheckMeas) (s : State) (h : Kept s) : Kept (tryEnds status
    why m s) := by
  unfold tryEnds
  repeat' first | with_reducible assumption | with_reducible apply kickCheck_kept
                | with_reducible apply finishCheck_kept | with_reducible apply countFail_kept
                | with_reducible apply countNoResp_kept | with_reducible apply ite_kept | split | dsimp only [kept_mk]
                | intro _ | with_reducible refine Kept.sound ?_

theorem windowEnds_kept (s : State) (h : Kept s) : Kept (windowEnds s) := by
  unfold windowEnds
  repeat' first | with_reducible assumption | with_reducible apply tryEnds_kept | with_reducible apply ite_kept
                | split | dsimp only [kept_mk] | intro _ | with_reducible refine Kept.sound ?_

theorem windowNoLock_kept (s : State) (h : Kept s) : Kept (windowNoLock s) := by
  unfold windowNoLock
  repeat' first | with_reducible assumption | with_reducible apply windowEnds_kept
                | with_reducible apply complete_kept | with_reducible apply ite_kept | split | dsimp only [kept_mk]
                | intro _ | with_reducible refine Kept.sound ?_

theorem serve_kept (s : State) (h : Kept s) : Kept (serve s) := by
  unfold serve
  repeat' first | with_reducible assumption | with_reducible apply linkSteps_kept
                | with_reducible apply serveWindows_kept | with_reducible apply kickCheck_kept
                | with_reducible apply trackPause_kept | with_reducible apply windowNoLock_kept
                | with_reducible apply startDue_kept | with_reducible apply ite_kept | split | dsimp only [kept_mk]
                | intro _ | with_reducible refine Kept.sound ?_

theorem disarm_kept (k : Nat) (s : State) (h : Kept s) : Kept (disarm k s) := by
  unfold disarm
  repeat' first | with_reducible assumption | with_reducible apply modTarget_kept | with_reducible apply dropTx_kept
                | with_reducible apply ite_kept | split | dsimp only [kept_mk] | intro _
                | with_reducible refine Kept.sound ?_

theorem endSessions_kept (cause : Nat) (p : Nat × Endpoint → Bool) (s : State) (h : Kept s) : Kept (endSessions cause
    p s) := by
  unfold endSessions
  repeat' first | with_reducible assumption | with_reducible apply endSession_kept | with_reducible apply forAll_kept
                | with_reducible apply ite_kept | split | dsimp only [kept_mk] | intro _
                | with_reducible refine Kept.sound ?_

theorem releaseAtRest_kept (s : State) (h : Kept s) : Kept (releaseAtRest s) := by
  unfold releaseAtRest
  repeat' first | with_reducible assumption | with_reducible apply ite_kept | split | dsimp only [kept_mk] | intro _
                | with_reducible refine Kept.sound ?_

theorem endRelease_kept (s : State) (h : Kept s) : Kept (endRelease s) := by
  unfold endRelease
  repeat' first | with_reducible assumption | with_reducible apply releaseAtRest_kept
                | with_reducible apply endSessions_kept | with_reducible apply dropTx_kept
                | with_reducible apply disarm_kept | with_reducible apply forAll_kept | with_reducible apply ite_kept
                | split | dsimp only [kept_mk] | intro _ | with_reducible refine Kept.sound ?_

theorem releasePins_kept (s : State) (h : Kept s) : Kept (releasePins s) := by
  unfold releasePins
  repeat' first | with_reducible assumption | with_reducible apply ite_kept | split | dsimp only [kept_mk] | intro _
                | with_reducible refine Kept.sound ?_

theorem abortNow_kept (seq : Nat) (cause : Nat) (s : State) (h : Kept s) : Kept (abortNow seq cause s) := by
  unfold abortNow
  repeat' first | with_reducible assumption | with_reducible apply complete_kept | with_reducible apply ite_kept
                | split | dsimp only [kept_mk] | intro _ | with_reducible refine Kept.sound ?_

theorem stopDue_kept (cause : Nat) (c : Cmd) (s : State) (h : Kept s) : Kept (stopDue cause c s) := by
  unfold stopDue
  repeat' first | with_reducible assumption | with_reducible apply abortNow_kept | with_reducible apply startDue_kept
                | with_reducible apply ite_kept | split | dsimp only [kept_mk] | intro _
                | with_reducible refine Kept.sound ?_

theorem stopCheck_kept (cause : Nat) (c : Cmd) (s : State) (h : Kept s) : Kept (stopCheck cause c s) := by
  unfold stopCheck
  repeat' first | with_reducible assumption | with_reducible apply abortCheck_kept
                | with_reducible apply setPhase_kept | with_reducible apply stopDue_kept
                | with_reducible apply startDue_kept | with_reducible apply ite_kept | split | dsimp only [kept_mk]
                | intro _ | with_reducible refine Kept.sound ?_

theorem stopLinkRx_kept (cause : Nat) (c : Cmd) (s : State) (h : Kept s) : Kept (stopLinkRx cause c s) := by
  unfold stopLinkRx
  repeat' first | with_reducible assumption | with_reducible apply setPhase_kept | with_reducible apply abortNow_kept
                | with_reducible apply ite_kept | split | dsimp only [kept_mk] | intro _
                | with_reducible refine Kept.sound ?_

theorem stopLinkTx_kept (cause : Nat) (c : Cmd) (s : State) (h : Kept s) : Kept (stopLinkTx cause c s) := by
  unfold stopLinkTx
  repeat' first | with_reducible assumption | with_reducible apply setPhase_kept | with_reducible apply stopTx_kept
                | with_reducible apply ite_kept | split | dsimp only [kept_mk] | intro _
                | with_reducible refine Kept.sound ?_

theorem stopRelease_kept (cause : Nat) (c : Cmd) (s : State) (h : Kept s) : Kept (stopRelease cause c s) := by
  unfold stopRelease
  repeat' first | with_reducible assumption | with_reducible apply abortNow_kept | with_reducible apply dropTx_kept
                | with_reducible apply ite_kept | split | dsimp only [kept_mk] | intro _
                | with_reducible refine Kept.sound ?_

theorem stopSteps_kept (cause : Nat) (c : Cmd) (s : State) (h : Kept s) : Kept (stopSteps cause c s) := by
  unfold stopSteps
  repeat' first | with_reducible assumption | with_reducible apply setPhase_kept | with_reducible apply ite_kept
                | split | dsimp only [kept_mk] | intro _ | with_reducible refine Kept.sound ?_

theorem stopCmd_kept (cause : Nat) (s : State) (c : Cmd) (h : Kept s) : Kept (stopCmd cause s c) := by
  unfold stopCmd
  repeat' first | with_reducible assumption | with_reducible apply stopCheck_kept
                | with_reducible apply tuneBoundary_kept | with_reducible apply stopRelease_kept
                | with_reducible apply setPhase_kept | with_reducible apply stopSteps_kept
                | with_reducible apply stopLinkTx_kept | with_reducible apply abortNow_kept
                | with_reducible apply stopDue_kept | with_reducible apply stopLinkRx_kept
                | with_reducible apply ite_kept | split | dsimp only [kept_mk] | intro _
                | with_reducible refine Kept.sound ?_

theorem stopAll_kept (cause : Nat) (p : Cmd → Bool) (s : State) (h : Kept s) : Kept (stopAll cause p s) := by
  unfold stopAll
  repeat' first | with_reducible assumption | with_reducible apply stopCmd_kept | with_reducible apply forAll_kept
                | with_reducible apply ite_kept | split | dsimp only [kept_mk] | intro _
                | with_reducible refine Kept.sound ?_

theorem stopUnrun_kept (m : Nat) (s : State) (h : Kept s) : Kept (stopUnrun m s) := by
  unfold stopUnrun
  repeat' first | with_reducible assumption | with_reducible apply stopAll_kept | with_reducible apply ite_kept
                | split | dsimp only [kept_mk] | intro _ | with_reducible refine Kept.sound ?_

theorem leaveMode_kept (m : Nat) (s : State) (h : Kept s) : Kept (leaveMode m s) := by
  unfold leaveMode
  repeat' first | with_reducible assumption | with_reducible apply endTastings_kept
                | with_reducible apply endRelease_kept | with_reducible apply stopUnrun_kept
                | with_reducible apply serve_kept | with_reducible apply releasePins_kept
                | with_reducible apply rampDown_kept | with_reducible apply ite_kept | split | dsimp only [kept_mk]
                | intro _ | with_reducible refine Kept.sound ?_

theorem refuseMode_kept (code : Nat) (s : State) (h : Kept s) : Kept (refuseMode code s) := by
  unfold refuseMode
  repeat' first | with_reducible assumption | with_reducible apply raise_kept | with_reducible apply ite_kept | split
                | dsimp only [kept_mk] | intro _ | with_reducible refine Kept.sound ?_

theorem requestMode_kept (m : Nat) (s : State) (h : Kept s) : Kept (requestMode m s) := by
  unfold requestMode
  repeat' first | with_reducible assumption | with_reducible apply refuseMode_kept
                | with_reducible apply leaveMode_kept | with_reducible apply ite_kept | split | dsimp only [kept_mk]
                | intro _ | with_reducible refine Kept.sound ?_

theorem takeModeReq_kept (m : Nat) (s : State) (h : Kept s) : Kept (takeModeReq m s) := by
  unfold takeModeReq
  repeat' first | with_reducible assumption | with_reducible apply requestMode_kept | with_reducible apply ite_kept
                | split | dsimp only [kept_mk] | intro _ | with_reducible refine Kept.sound ?_

theorem arrive_kept (m : Nat) (s : State) (h : Kept s) : Kept (arrive m s) := by
  unfold arrive
  repeat' first | with_reducible assumption | with_reducible apply takeModeReq_kept | with_reducible apply raise_kept
                | with_reducible apply serve_kept | with_reducible apply setMode_kept
                | with_reducible apply startMode_kept | with_reducible apply ite_kept | split | dsimp only [kept_mk]
                | intro _ | with_reducible refine Kept.sound ?_

theorem startClocks_kept (m : Nat) (s : State) (h : Kept s) : Kept (startClocks m s) := by
  unfold startClocks
  repeat' first | with_reducible assumption | with_reducible apply arrive_kept | with_reducible apply counterBack_kept
                | with_reducible apply ite_kept | split | dsimp only [kept_mk] | intro _
                | with_reducible refine Kept.sound ?_

theorem leaveLow_kept (s : State) (h : Kept s) : Kept (leaveLow s) := by
  unfold leaveLow
  repeat' first | with_reducible assumption | with_reducible apply startClocks_kept | with_reducible apply ite_kept
                | split | dsimp only [kept_mk] | intro _ | with_reducible refine Kept.sound ?_

theorem boot_kept (k : ResetKind) (m : BootMeas) (s : State) (h : Kept s) : Kept (boot k m s) := by
  unfold boot
  repeat' first | with_reducible assumption | with_reducible apply bootLoad_kept | with_reducible apply bootMode_kept
                | with_reducible apply bootFabric_kept | with_reducible apply leaveLow_kept
                | with_reducible apply ite_kept | split | dsimp only [kept_mk] | intro _
                | with_reducible refine Kept.sound ?_

theorem enterAcquire_kept (p : Nat) (s : State) (h : Kept s) : Kept (enterAcquire p s) := by
  unfold enterAcquire
  repeat' first | with_reducible assumption | with_reducible apply modFe_kept | with_reducible apply setFe_kept
                | with_reducible apply ite_kept | split | dsimp only [kept_mk] | intro _
                | with_reducible refine Kept.sound ?_

theorem relockBand_kept (p : Nat) (s : State) (h : Kept s) : Kept (relockBand p s) := by
  unfold relockBand
  repeat' first | with_reducible assumption | with_reducible apply noLock_kept | with_reducible apply modSynth_kept
                | with_reducible apply ite_kept | split | dsimp only [kept_mk] | intro _
                | with_reducible refine Kept.sound ?_

theorem leaveCal_kept (p : Nat) (s : State) (h : Kept s) : Kept (leaveCal p s) := by
  unfold leaveCal
  repeat' first | with_reducible assumption | with_reducible apply enterAcquire_kept | with_reducible apply serve_kept
                | with_reducible apply pathOff_kept | with_reducible apply relockBand_kept
                | with_reducible apply beginLock_kept | with_reducible apply setFe_kept
                | with_reducible apply modPath_kept | with_reducible apply ite_kept | split | dsimp only [kept_mk]
                | intro _ | with_reducible refine Kept.sound ?_

theorem endTest_kept (c : Cmd) (s : State) (h : Kept s) : Kept (endTest c s) := by
  unfold endTest
  repeat' first | with_reducible assumption | with_reducible apply leaveCal_kept | with_reducible apply freeLane_kept
                | with_reducible apply ite_kept | split | dsimp only [kept_mk] | intro _
                | with_reducible refine Kept.sound ?_

theorem holdActive_kept (s : State) (h : Kept s) : Kept (holdActive s) := by
  unfold holdActive
  repeat' first | with_reducible assumption | with_reducible apply setActive_kept | with_reducible apply modSynth_kept
                | with_reducible apply ite_kept | split | dsimp only [kept_mk] | intro _
                | with_reducible refine Kept.sound ?_

theorem takePath_kept (p : Nat) (job : CalJob) (s : State) (h : Kept s) : Kept (takePath p job s) := by
  unfold takePath
  repeat' first | with_reducible assumption | with_reducible apply endTastings_kept | with_reducible apply serve_kept
                | with_reducible apply holdActive_kept | with_reducible apply setFe_kept
                | with_reducible apply modPath_kept | with_reducible apply modSynth_kept
                | with_reducible apply ite_kept | split | dsimp only [kept_mk] | intro _
                | with_reducible refine Kept.sound ?_

theorem startTest_kept (c : Cmd) (s : State) (h : Kept s) : Kept (startTest c s) := by
  unfold startTest
  repeat' first | with_reducible assumption | with_reducible apply modLane_kept | with_reducible apply takePath_kept
                | with_reducible apply ite_kept | split | dsimp only [kept_mk] | intro _
                | with_reducible refine Kept.sound ?_

theorem endSynthCal_kept (obj : Nat) (typ : Nat) (s : State) (h : Kept s) : Kept (endSynthCal obj typ s) := by
  unfold endSynthCal
  repeat' first | with_reducible assumption | with_reducible apply modCal_kept | with_reducible apply ite_kept | split
                | dsimp only [kept_mk] | intro _ | with_reducible refine Kept.sound ?_

theorem noteDone_kept (obj : Nat) (typ : Nat) (s : State) (h : Kept s) : Kept (noteDone obj typ s) := by
  unfold noteDone
  repeat' first | with_reducible assumption | with_reducible apply modCal_kept | with_reducible apply ite_kept | split
                | dsimp only [kept_mk] | intro _ | with_reducible refine Kept.sound ?_

theorem releaseObject_kept (obj : Nat) (s : State) (h : Kept s) : Kept (releaseObject obj s) := by
  unfold releaseObject
  repeat' first | with_reducible assumption | with_reducible apply serve_kept | with_reducible apply leaveCal_kept
                | with_reducible apply ite_kept | split | dsimp only [kept_mk] | intro _
                | with_reducible refine Kept.sound ?_

theorem calDone_kept (obj : Nat) (job : CalJob) (s : State) (h : Kept s) : Kept (calDone obj job s) := by
  unfold calDone
  repeat' first | with_reducible assumption | with_reducible apply issueWrite_kept | with_reducible apply modCmd_kept
                | with_reducible apply noteDone_kept | with_reducible apply complete_kept
                | with_reducible apply endSynthCal_kept | with_reducible apply startDue_kept
                | with_reducible apply releaseObject_kept | with_reducible apply ite_kept | split
                | dsimp only [kept_mk] | intro _ | with_reducible refine Kept.sound ?_

theorem calFailed_kept (obj : Nat) (bitNo : Nat) (idx : Nat) (m : CalMeas) (job : CalJob) (s : State) (h : Kept s) :
    Kept (calFailed obj bitNo idx m job s) := by
  unfold calFailed
  repeat' first | with_reducible assumption | with_reducible apply complete_kept | with_reducible apply draw_kept
                | with_reducible apply modCal_kept | with_reducible apply endSynthCal_kept
                | with_reducible apply releaseObject_kept | with_reducible apply ite_kept | split
                | dsimp only [kept_mk] | intro _ | with_reducible refine snd_kept (by with_reducible assumption) ?_
                | with_reducible refine Kept.sound ?_

theorem setObjectJob_kept (obj : Nat) (j : CalJob) (s : State) (h : Kept s) : Kept (setObjectJob obj j s) := by
  unfold setObjectJob
  repeat' first | with_reducible assumption | with_reducible apply modPath_kept | with_reducible apply ite_kept
                | split | dsimp only [kept_mk] | intro _ | with_reducible refine Kept.sound ?_

theorem startJob_kept (c : Cmd) (s : State) (h : Kept s) : Kept (startJob c s) := by
  unfold startJob
  repeat' first | with_reducible assumption | with_reducible apply serve_kept | with_reducible apply holdActive_kept
                | with_reducible apply takePath_kept | with_reducible apply modCal_kept
                | with_reducible apply beginBlank_kept | with_reducible apply modSynth_kept
                | with_reducible apply ite_kept | split | dsimp only [kept_mk] | intro _
                | with_reducible refine Kept.sound ?_

theorem writeItem_kept (obj : Nat) (typ : Nat) (bitNo : Nat) (idx : Nat) (m : CalMeas) (s : State) (h : Kept s) : Kept
    (writeItem obj typ bitNo idx m s) := by
  unfold writeItem
  repeat' first | with_reducible assumption | with_reducible apply modCal_kept | with_reducible apply modSynth_kept
                | with_reducible apply ite_kept | split | dsimp only [kept_mk] | intro _
                | with_reducible refine Kept.sound ?_

theorem runCellarEraseKey_kept (s : State) (c : Cmd) (h : Kept s) : Kept (runCellarEraseKey s c) := by
  unfold runCellarEraseKey
  repeat' first | with_reducible assumption | with_reducible apply issueWrite_kept
                | with_reducible apply complete_kept | with_reducible apply ite_kept | split | dsimp only [kept_mk]
                | intro _ | with_reducible refine Kept.sound ?_

theorem runCellarGet_kept (s : State) (c : Cmd) (h : Kept s) : Kept (runCellarGet s c) := by
  unfold runCellarGet
  repeat' first | with_reducible assumption | with_reducible apply devPuts_kept | with_reducible apply complete_kept
                | with_reducible apply ite_kept | split | dsimp only [kept_mk] | intro _
                | with_reducible refine Kept.sound ?_

theorem runCellarPut_kept (s : State) (c : Cmd) (h : Kept s) : Kept (runCellarPut s c) := by
  unfold runCellarPut
  repeat' first | with_reducible assumption | with_reducible apply issueWrite_kept | with_reducible apply ite_kept
                | split | dsimp only [kept_mk] | intro _ | with_reducible refine Kept.sound ?_

theorem runProtectSet_kept (s : State) (c : Cmd) (h : Kept s) : Kept (runProtectSet s c) := by
  unfold runProtectSet
  repeat' first | with_reducible assumption | with_reducible apply issueWrite_kept | with_reducible apply ite_kept
                | split | dsimp only [kept_mk] | intro _ | with_reducible refine Kept.sound ?_

theorem runShadowRead_kept (s : State) (c : Cmd) (h : Kept s) : Kept (runShadowRead s c) := by
  unfold runShadowRead
  repeat' first | with_reducible assumption | with_reducible apply devPuts_kept | with_reducible apply complete_kept
                | with_reducible apply ite_kept | split | dsimp only [kept_mk] | intro _
                | with_reducible refine Kept.sound ?_

theorem runShadowStore_kept (s : State) (c : Cmd) (h : Kept s) : Kept (runShadowStore s c) := by
  unfold runShadowStore
  repeat' first | with_reducible assumption | with_reducible apply complete_kept | with_reducible apply ite_kept
                | split | dsimp only [kept_mk] | intro _ | with_reducible refine Kept.sound ?_

theorem runShadowWrite_kept (s : State) (c : Cmd) (h : Kept s) : Kept (runShadowWrite s c) := by
  unfold runShadowWrite
  repeat' first | with_reducible assumption | with_reducible apply complete_kept | with_reducible apply ite_kept
                | split | dsimp only [kept_mk] | intro _ | with_reducible refine Kept.sound ?_

theorem runUnlock_kept (s : State) (c : Cmd) (h : Kept s) : Kept (runUnlock s c) := by
  unfold runUnlock
  repeat' first | with_reducible assumption | with_reducible apply complete_kept | with_reducible apply ite_kept
                | split | dsimp only [kept_mk] | intro _ | with_reducible refine Kept.sound ?_

theorem cutWrite_kept (s : State) (h : Kept s) : Kept (cutWrite s) := by
  unfold cutWrite
  repeat' first | with_reducible assumption | with_reducible apply draw_kept | with_reducible apply ite_kept | split
                | dsimp only [kept_mk] | intro _ | with_reducible refine snd_kept (by with_reducible assumption) ?_
                | with_reducible refine Kept.sound ?_

theorem blockStamp_kept (p : Nat) (x : LaneSet) (firstSc : Nat) (s : State) (h : Kept s) : Kept (blockStamp p x firstSc s).2 := by
  unfold blockStamp
  with_reducible exact ite_snd_kept _ _ _ _ h (draw_kept 2 s h)

theorem dbLevel_kept (u : Nat) (num : Nat) (den : Nat) (s : State) (h : Kept s) : Kept (dbLevel u num den s).2 := by
  unfold dbLevel
  repeat' first | with_reducible assumption | with_reducible apply draw_kept | with_reducible apply ite_kept | split
                | dsimp only [kept_mk] | intro _ | with_reducible refine snd_kept (by with_reducible assumption) ?_
                | with_reducible refine Kept.sound ?_

theorem laneLevel_kept (num : Nat) (den : Nat) (s : State) (h : Kept s) : Kept (laneLevel num den s).2 := by
  unfold laneLevel
  repeat' first | with_reducible assumption | with_reducible apply dbLevel_kept | with_reducible apply ite_kept
                | split | dsimp only [kept_mk] | intro _
                | with_reducible refine snd_kept (by with_reducible assumption) ?_
                | with_reducible refine Kept.sound ?_

theorem envOf_kept (x0 : Nat) (a : State) (h : Kept a) : Kept (envOf x0 a).2 := by
  unfold envOf
  repeat' first | with_reducible assumption | with_reducible apply laneLevel_kept | with_reducible apply ite_kept
                | split | dsimp only [kept_mk] | intro _
                | with_reducible refine snd_kept (by with_reducible assumption) ?_
                | with_reducible refine Kept.sound ?_

theorem peakOf_kept (xs : List (Int × Int)) (a : State) (h : Kept a) : Kept (peakOf xs a).2 := by
  unfold peakOf
  repeat' first | with_reducible assumption | with_reducible apply laneLevel_kept | with_reducible apply ite_kept
                | split | dsimp only [kept_mk] | intro _
                | with_reducible refine snd_kept (by with_reducible assumption) ?_
                | with_reducible refine Kept.sound ?_

theorem qualOf_kept (preset : Nat) (xs : List (Int × Int)) (s : State) (h : Kept s) : Kept (qualOf preset xs s).2 :=
    by
  unfold qualOf
  repeat' first | with_reducible assumption | with_reducible apply draw_kept | with_reducible apply laneLevel_kept
                | with_reducible apply ite_kept | split | dsimp only [kept_mk] | intro _
                | with_reducible refine snd_kept (by with_reducible assumption) ?_
                | with_reducible refine Kept.sound ?_

theorem rmsOf_kept (xs : List (Int × Int)) (a : State) (h : Kept a) : Kept (rmsOf xs a).2 := by
  unfold rmsOf
  repeat' first | with_reducible assumption | with_reducible apply laneLevel_kept | with_reducible apply ite_kept
                | split | dsimp only [kept_mk] | intro _
                | with_reducible refine snd_kept (by with_reducible assumption) ?_
                | with_reducible refine Kept.sound ?_

theorem drawAny_kept (s : State) (h : Kept s) : Kept (drawAny s).2 := by
  unfold drawAny
  repeat' first | with_reducible assumption | with_reducible apply ite_kept | split | dsimp only [kept_mk] | intro _
                | with_reducible refine Kept.sound ?_

theorem beginListen_kept (s : State) (h : Kept s) : Kept (beginListen s) := by
  unfold beginListen
  repeat' first | with_reducible assumption | with_reducible apply modLane_kept | with_reducible apply startPath_kept
                | with_reducible apply drawAny_kept | with_reducible apply ite_kept | split | dsimp only [kept_mk]
                | intro _ | with_reducible refine snd_kept (by with_reducible assumption) ?_
                | with_reducible refine Kept.sound ?_

theorem afterStart_kept (s : State) (h : Kept s) : Kept (afterStart s) := by
  unfold afterStart
  repeat' first | with_reducible assumption | with_reducible apply beginListen_kept | with_reducible apply arrive_kept
                | with_reducible apply counterBack_kept | with_reducible apply ite_kept | split | dsimp only [kept_mk]
                | intro _ | with_reducible refine Kept.sound ?_

theorem modCk_kept (s : State) (n : Nat) (f : CkOut → CkOut) (h : Kept s) : Kept (modCk s n f) := by
  unfold modCk
  repeat' first | with_reducible assumption | with_reducible apply ite_kept | split | dsimp only [kept_mk] | intro _
                | with_reducible refine Kept.sound ?_

theorem applyCk_kept (s : State) (c : Cmd) (h : Kept s) : Kept (applyCk s c) := by
  unfold applyCk
  repeat' first | with_reducible assumption | with_reducible apply modCk_kept | with_reducible apply ite_kept | split
                | dsimp only [kept_mk] | intro _ | with_reducible refine Kept.sound ?_

theorem movePort_kept (ck : Nat) (steps : Int) (s : State) (h : Kept s) : Kept (movePort ck steps s) := by
  unfold movePort
  repeat' first | with_reducible assumption | with_reducible apply modSap_kept | with_reducible apply ite_kept | split
                | dsimp only [kept_mk] | intro _ | with_reducible refine Kept.sound ?_

theorem applySteps_kept (ck : Nat) (k : Nat) (s : State) (h : Kept s) : Kept (applySteps ck k s) := by
  unfold applySteps
  repeat' first | with_reducible assumption | with_reducible apply modCk_kept | with_reducible apply movePort_kept
                | with_reducible apply ite_kept | split | dsimp only [kept_mk] | intro _
                | with_reducible refine Kept.sound ?_

theorem modEng_kept (s : State) (kind : Nat) (u : Nat) (f : Engine → Engine) (h : Kept s) : Kept (modEng s kind u f)
    := by
  unfold modEng
  repeat' first | with_reducible assumption | with_reducible apply modDrm_kept | with_reducible apply modDab_kept
                | with_reducible apply ite_kept | split | dsimp only [kept_mk] | intro _
                | with_reducible refine Kept.sound ?_

theorem emitAt_kept (p : Place) (kind : Nat) (stream : Nat) (payload : List Byte) (field : Option (Nat × Nat)) (s :
    State) (h : Kept s) : Kept (emitAt p kind stream payload field s) := by
  unfold emitAt
  repeat' first | with_reducible assumption | with_reducible apply emit_kept | with_reducible apply modDrm_kept
                | with_reducible apply modEng_kept | with_reducible apply ite_kept | split | dsimp only [kept_mk]
                | intro _ | with_reducible refine Kept.sound ?_

theorem engineEvent_kept (p : Place) (cause : Nat) (stream : Nat) (lost : Nat) (counter : Nat) (s : State) (h : Kept
    s) : Kept (engineEvent p cause stream lost counter s) := by
  unfold engineEvent
  repeat' first | with_reducible assumption | with_reducible apply emitAt_kept | with_reducible apply ite_kept | split
                | dsimp only [kept_mk] | intro _ | with_reducible refine Kept.sound ?_

theorem admitOne_kept (p : Place) (s : State) (sub : Nat) (h : Kept s) : Kept (admitOne p s sub) := by
  unfold admitOne
  repeat' first | with_reducible assumption | with_reducible apply modDab_kept | with_reducible apply engineEvent_kept
                | with_reducible apply ite_kept | split | dsimp only [kept_mk] | intro _
                | with_reducible refine Kept.sound ?_

theorem keepOne_kept (p : Place) (s : State) (x2 : Nat × SubCh) (h : Kept s) : Kept (keepOne p s x2) := by
  unfold keepOne
  repeat' first | with_reducible assumption | with_reducible apply admitOne_kept | with_reducible apply modDab_kept
                | with_reducible apply ite_kept | split | dsimp only [kept_mk] | intro _
                | with_reducible refine Kept.sound ?_

theorem admitSubch_kept (p : Place) (s : State) (h : Kept s) : Kept (admitSubch p s) := by
  unfold admitSubch
  repeat' first | with_reducible assumption | with_reducible apply keepOne_kept | with_reducible apply admitOne_kept
                | with_reducible apply modDab_kept | with_reducible apply forAll_kept | with_reducible apply ite_kept
                | split | dsimp only [kept_mk] | intro _ | with_reducible refine Kept.sound ?_

theorem occupiedNow_kept (s : State) (h : Kept s) : Kept (occupiedNow s) := by
  unfold occupiedNow
  repeat' first | with_reducible assumption | with_reducible apply endTastings_kept | with_reducible apply ite_kept
                | split | dsimp only [kept_mk] | intro _ | with_reducible refine Kept.sound ?_

theorem afterGeneration_kept (n : Nat) (ch : GenChange) (s : State) (h : Kept s) : Kept (afterGeneration n ch s) := by
  unfold afterGeneration
  repeat' first | with_reducible assumption | with_reducible apply modFollow_kept
                | with_reducible apply occupiedNow_kept | with_reducible apply followBroken_kept
                | with_reducible apply admitSubch_kept | with_reducible apply ite_kept | split | dsimp only [kept_mk]
                | intro _ | with_reducible refine Kept.sound ?_

theorem restartEngine_kept (kind : Nat) (idx : Nat) (s : State) (h : Kept s) : Kept (restartEngine kind idx s) := by
  unfold restartEngine
  repeat' first | with_reducible assumption | with_reducible apply modLf_kept | with_reducible apply modDrm_kept
                | with_reducible apply modAnalogue_kept | with_reducible apply modDab_kept
                | with_reducible apply ite_kept | split | dsimp only [kept_mk] | intro _
                | with_reducible refine Kept.sound ?_

theorem startEngine_kept (kind : Nat) (idx : Nat) (s : State) (h : Kept s) : Kept (startEngine kind idx s) := by
  unfold startEngine
  repeat' first | with_reducible assumption | with_reducible apply modLf_kept | with_reducible apply modDrm_kept
                | with_reducible apply modAnalogue_kept | with_reducible apply modDab_kept
                | with_reducible apply ite_kept | split | dsimp only [kept_mk] | intro _
                | with_reducible refine Kept.sound ?_

theorem applyPending_kept (n : Nat) (s : State) (h : Kept s) : Kept (applyPending n s).1 := by
  unfold applyPending
  repeat' first | with_reducible assumption | with_reducible apply startEngine_kept
                | with_reducible apply setLane_kept | with_reducible apply releaseEngine_kept
                | with_reducible apply restartEngine_kept | with_reducible apply abandonLane_kept
                | with_reducible apply ite_kept | split | dsimp only [kept_mk] | intro _
                | with_reducible refine Kept.sound ?_

theorem boundarySet_kept (n : Nat) (s : State) (h : Kept s) : Kept (boundarySet n s) := by
  unfold boundarySet
  repeat' first | with_reducible assumption | with_reducible apply afterGeneration_kept
                | with_reducible apply applyPending_kept | with_reducible apply ite_kept | split
                | dsimp only [kept_mk] | intro _ | with_reducible refine fst_kept (by with_reducible assumption) ?_
                | with_reducible refine Kept.sound ?_

theorem tasteRestart_kept (lane : Nat) (s : State) (h : Kept s) : Kept (tasteRestart lane s) := by
  unfold tasteRestart
  repeat' first | with_reducible assumption | with_reducible apply modTasting_kept | with_reducible apply ite_kept
                | split | dsimp only [kept_mk] | intro _ | with_reducible refine Kept.sound ?_

theorem toSearch_kept (p : Place) (s : State) (h : Kept s) : Kept (toSearch p s) := by
  unfold toSearch
  repeat' first | with_reducible assumption | with_reducible apply tasteRestart_kept
                | with_reducible apply restartEngine_kept | with_reducible apply ite_kept | split
                | dsimp only [kept_mk] | intro _ | with_reducible refine Kept.sound ?_

theorem boundaryShed_kept (n : Nat) (s : State) (h : Kept s) : Kept (boundaryShed n s) := by
  unfold boundaryShed
  repeat' first | with_reducible assumption | with_reducible apply toSearch_kept | with_reducible apply setLane_kept
                | with_reducible apply ite_kept | split | dsimp only [kept_mk] | intro _
                | with_reducible refine Kept.sound ?_

theorem beginFirst_kept (n : Nat) (s : State) (h : Kept s) : Kept (beginFirst n s) := by
  unfold beginFirst
  repeat' first | with_reducible assumption | with_reducible apply boundaryShed_kept
                | with_reducible apply modLane_kept | with_reducible apply boundarySet_kept
                | with_reducible apply ite_kept | split | dsimp only [kept_mk] | intro _
                | with_reducible refine Kept.sound ?_

theorem beginBlocks_kept (s : State) (h : Kept s) : Kept (beginBlocks s) := by
  unfold beginBlocks
  repeat' first | with_reducible assumption | with_reducible apply beginFirst_kept | with_reducible apply forAll_kept
                | with_reducible apply ite_kept | split | dsimp only [kept_mk] | intro _
                | with_reducible refine Kept.sound ?_

theorem tick_kept (s : State) (h : Kept s) : Kept (tick s) := by
  unfold tick
  repeat' first | with_reducible assumption | with_reducible apply ite_kept | split | dsimp only [kept_mk] | intro _
                | with_reducible refine Kept.sound ?_

theorem passTime_kept (s : State) (h : Kept s) : Kept (passTime s) := by
  unfold passTime
  repeat' first | with_reducible assumption | with_reducible apply beginBlocks_kept
                | with_reducible apply passAudio_kept | with_reducible apply tick_kept | with_reducible apply ite_kept
                | split | dsimp only [kept_mk] | intro _ | with_reducible refine Kept.sound ?_

theorem relockPath_kept (p : Nat) (s : State) (h : Kept s) : Kept (relockPath p s) := by
  unfold relockPath
  repeat' first | with_reducible assumption | with_reducible apply beginLock_kept | with_reducible apply setFe_kept
                | with_reducible apply ite_kept | split | dsimp only [kept_mk] | intro _
                | with_reducible refine Kept.sound ?_

theorem endCpllTune_kept (s : State) (c : Cmd) (h : Kept s) : Kept (endCpllTune s c) := by
  unfold endCpllTune
  repeat' first | with_reducible assumption | with_reducible apply modCk_kept | with_reducible apply complete_kept
                | with_reducible apply ite_kept | split | dsimp only [kept_mk] | intro _
                | with_reducible refine Kept.sound ?_

theorem settleLanes_kept (s : State) (h : Kept s) : Kept (settleLanes s) := by
  unfold settleLanes
  repeat' first | with_reducible assumption | with_reducible apply ite_kept | split | dsimp only [kept_mk] | intro _
                | with_reducible refine Kept.sound ?_

theorem finishRef_kept (seq : Option Nat) (failed : Bool) (s : State) (h : Kept s) : Kept (finishRef seq failed s) :=
    by
  unfold finishRef
  repeat' first | with_reducible assumption | with_reducible apply settleLanes_kept
                | with_reducible apply complete_kept | with_reducible apply endCpllTune_kept
                | with_reducible apply trackZeros_kept | with_reducible apply counterBack_kept
                | with_reducible apply forAll_kept | with_reducible apply ite_kept | split | dsimp only [kept_mk]
                | intro _ | with_reducible refine Kept.sound ?_

theorem synthsDone_kept (s : State) (h : Kept s) : Kept (synthsDone s) := by
  unfold synthsDone
  repeat' first | with_reducible assumption | with_reducible apply finishRef_kept | with_reducible apply ite_kept
                | split | dsimp only [kept_mk] | intro _ | with_reducible refine Kept.sound ?_

theorem relockAll_kept (seq : Option Nat) (failed : Bool) (s : State) (h : Kept s) : Kept (relockAll seq failed s) :=
    by
  unfold relockAll
  repeat' first | with_reducible assumption | with_reducible apply relockPath_kept
                | with_reducible apply synthsDone_kept | with_reducible apply forAll_kept
                | with_reducible apply ite_kept | split | dsimp only [kept_mk] | intro _
                | with_reducible refine Kept.sound ?_

theorem countDropped_kept (s : State) (h : Kept s) : Kept (countDropped s) := by
  unfold countDropped
  repeat' first | with_reducible assumption | with_reducible apply ite_kept | split | dsimp only [kept_mk] | intro _
                | with_reducible refine Kept.sound ?_

theorem dropPacket_kept (s : State) (h : Kept s) : Kept (dropPacket s) := by
  unfold dropPacket
  repeat' first | with_reducible assumption | with_reducible apply countDropped_kept | with_reducible apply setFe_kept
                | with_reducible apply ite_kept | split | dsimp only [kept_mk] | intro _
                | with_reducible refine Kept.sound ?_

theorem cutTransmission_kept (s : State) (h : Kept s) : Kept (cutTransmission s) := by
  unfold cutTransmission
  repeat' first | with_reducible assumption | with_reducible apply setActive_kept
                | with_reducible apply endActive_kept | with_reducible apply setFe_kept
                | with_reducible apply dropPacket_kept | with_reducible apply ite_kept | split | dsimp only [kept_mk]
                | intro _ | with_reducible refine Kept.sound ?_

theorem suspendPath_kept (s : State) (p : Nat) (h : Kept s) : Kept (suspendPath s p) := by
  unfold suspendPath
  repeat' first | with_reducible assumption | with_reducible apply setFe_kept | with_reducible apply modSynth_kept
                | with_reducible apply ite_kept | split | dsimp only [kept_mk] | intro _
                | with_reducible refine Kept.sound ?_

theorem startRef_kept (s : State) (c : Cmd) (h : Kept s) : Kept (startRef s c) := by
  unfold startRef
  repeat' first | with_reducible assumption | with_reducible apply suspendPath_kept
                | with_reducible apply counterOff_kept | with_reducible apply cutTransmission_kept
                | with_reducible apply trackZeros_kept | with_reducible apply forAll_kept
                | with_reducible apply ite_kept | split | dsimp only [kept_mk] | intro _
                | with_reducible refine Kept.sound ?_

theorem runTuneCpll_kept (s : State) (c : Cmd) (h : Kept s) : Kept (runTuneCpll s c) := by
  unfold runTuneCpll
  repeat' first | with_reducible assumption | with_reducible apply applyCk_kept | with_reducible apply serve_kept
                | with_reducible apply startRef_kept | with_reducible apply setPhase_kept
                | with_reducible apply endCpllTune_kept | with_reducible apply ite_kept | split | dsimp only [kept_mk]
                | intro _ | with_reducible refine Kept.sound ?_

theorem dropStage_kept (seq : Nat) (s : State) (h : Kept s) : Kept (dropStage seq s) := by
  unfold dropStage
  repeat' first | with_reducible assumption | with_reducible apply ite_kept | split | dsimp only [kept_mk] | intro _
                | with_reducible refine Kept.sound ?_

theorem abortOne_kept (s : State) (c : Cmd) (h : Kept s) : Kept (abortOne s c) := by
  unfold abortOne
  repeat' first | with_reducible assumption | with_reducible apply stopCmd_kept | with_reducible apply setPhase_kept
                | with_reducible apply dropStage_kept | with_reducible apply ite_kept | split | dsimp only [kept_mk]
                | intro _ | with_reducible refine Kept.sound ?_

theorem runAbort_kept (s : State) (a : Cmd) (h : Kept s) : Kept (runAbort s a) := by
  unfold runAbort
  exact serve_kept _ (sweep_kept _ (forAll_kept _ _ _ (fun _ _ => abortOne_kept _ _) (inflightMap_kept _ _ (fun c => by split <;> rfl) h)))

theorem applyOrganisation_kept (p : Place) (s : State) (h : Kept s) : Kept (applyOrganisation p s) := by
  unfold applyOrganisation
  repeat' first | with_reducible assumption | with_reducible apply admitSubch_kept | with_reducible apply modDab_kept
                | with_reducible apply engineEvent_kept | with_reducible apply forAll_kept
                | with_reducible apply ite_kept | split | dsimp only [kept_mk] | intro _
                | with_reducible refine Kept.sound ?_

theorem dabTime_kept (p : Place) (nextNull : Nat) (mjd : Nat) (hour : Nat) (minute : Nat) (second : Nat) (milli : Nat)
    (long : Bool) (lsi : Bool) (s : State) (h : Kept s) : Kept (dabTime p nextNull mjd hour minute second milli long
    lsi s) := by
  unfold dabTime
  repeat' first | with_reducible assumption | with_reducible apply emitAt_kept | with_reducible apply ite_kept | split
                | dsimp only [kept_mk] | intro _ | with_reducible refine Kept.sound ?_

theorem lossEvent_kept (p : Place) (cause : Nat) (stream : Nat) (counter : Nat) (s : State) (h : Kept s) : Kept
    (lossEvent p cause stream counter s) := by
  unfold lossEvent
  repeat' first | with_reducible assumption | with_reducible apply draw_kept | with_reducible apply engineEvent_kept
                | with_reducible apply ite_kept | split | dsimp only [kept_mk] | intro _
                | with_reducible refine snd_kept (by with_reducible assumption) ?_
                | with_reducible refine Kept.sound ?_

theorem groupDropped_kept (p : Place) (k : Nat) (s : State) (h : Kept s) : Kept (groupDropped p k s) := by
  unfold groupDropped
  repeat' first | with_reducible assumption | with_reducible apply lossEvent_kept | with_reducible apply modEng_kept
                | with_reducible apply ite_kept | split | dsimp only [kept_mk] | intro _
                | with_reducible refine Kept.sound ?_

theorem syncLost_kept (p : Place) (s : State) (h : Kept s) : Kept (syncLost p s) := by
  unfold syncLost
  repeat' first | with_reducible assumption | with_reducible apply lossEvent_kept | with_reducible apply toSearch_kept
                | with_reducible apply modEng_kept | with_reducible apply ite_kept | split | dsimp only [kept_mk]
                | intro _ | with_reducible refine Kept.sound ?_

theorem settleDabFrame_kept (p : Place) (good : Nat) (fr : DabFrame) (s : State) (h : Kept s) : Kept (settleDabFrame p
    good fr s) := by
  unfold settleDabFrame
  repeat' first | with_reducible assumption | with_reducible apply modEng_kept | with_reducible apply syncLost_kept
                | with_reducible apply engineEvent_kept | with_reducible apply ite_kept | split | dsimp only [kept_mk]
                | intro _ | with_reducible refine Kept.sound ?_

theorem takeAu_kept (p : Place) (k : Nat) (erased : Bool) (s : State) (x : Bool × List Byte) (h : Kept s) : Kept
    (takeAu p k erased s x) := by
  unfold takeAu
  repeat' first | with_reducible assumption | with_reducible apply emitAt_kept | with_reducible apply modEng_kept
                | with_reducible apply ite_kept | split | dsimp only [kept_mk] | intro _
                | with_reducible refine Kept.sound ?_

theorem takeDigAf_kept (p : Place) (list : List AfFreq) (s : State) (h : Kept s) : Kept (takeDigAf p list s) := by
  unfold takeDigAf
  repeat' first | with_reducible assumption | with_reducible apply modEng_kept | with_reducible apply listChanged_kept
                | with_reducible apply engineEvent_kept | with_reducible apply ite_kept | split | dsimp only [kept_mk]
                | intro _ | with_reducible refine Kept.sound ?_

theorem tasteService_kept (p : Place) (sid : Nat) (s : State) (h : Kept s) : Kept (tasteService p sid s) := by
  unfold tasteService
  repeat' first | with_reducible assumption | with_reducible apply reportIdentity_kept | with_reducible apply ite_kept
                | split | dsimp only [kept_mk] | intro _ | with_reducible refine Kept.sound ?_

theorem useFig_kept (p : Place) (nextNull : Nat) (use : FigUse) (s : State) (h : Kept s) : Kept (useFig p nextNull use
    s) := by
  unfold useFig
  repeat' first | with_reducible assumption | with_reducible apply dabTime_kept
                | with_reducible apply tasteService_kept | with_reducible apply admitSubch_kept
                | with_reducible apply modDab_kept | with_reducible apply takeDigAf_kept
                | with_reducible apply ite_kept | split | dsimp only [kept_mk] | intro _
                | with_reducible refine Kept.sound ?_

theorem takeFib_kept (p : Place) (fr : DabFrame) (base : Nat) (s : State) (f : Nat × Bool × List Fig) (h : Kept s) : Kept
    (takeFib p fr base s f) := by
  unfold takeFib
  exact ite_kept _ _ (modDab_kept _ _ _ h)
    (foldl_kept _ _ _ (fun _ _ k => useFig_kept _ _ _ _ (emitAt_kept _ _ _ _ _ _ k)) (modDab_kept _ _ _ h))

theorem takeJoined_kept (p : Place) (k : Nat) (addr : Nat) (groupCrc : Option Bool) (off : Nat) (len : Nat) (j :
    Joined) (s : State) (h : Kept s) : Kept (takeJoined p k addr groupCrc off len j s) := by
  unfold takeJoined
  repeat' first | with_reducible assumption | with_reducible apply emitAt_kept
                | with_reducible apply groupDropped_kept | with_reducible apply modEng_kept
                | with_reducible apply ite_kept | split | dsimp only [kept_mk] | intro _
                | with_reducible refine Kept.sound ?_

theorem takeSuperframe_kept (p : Place) (k : Nat) (fire : Bool) (corrected : Nat) (erased : Bool) (bytes : List Byte)
    (units : List (Bool × List Byte)) (s : State) (h : Kept s) : Kept
    (takeSuperframe p k fire corrected erased bytes units s) := by
  unfold takeSuperframe
  exact ite_kept _ _ (engineEvent_kept _ _ _ _ _ _ (modDab_kept _ _ _ h)) (ite_kept _ _ (emitAt_kept _ _ _ _ _ _
      (modDab_kept _ _ _ h))
    (foldl_kept _ _ _ (fun _ _ => takeAu_kept _ _ _ _ _) (modDab_kept _ _ _ h)))

theorem takeSub_kept (lane : Nat) (u : Nat) (s : State) (part : Nat × Nat × SubPart) (h : Kept s) : Kept (takeSub lane
    u s part) := by
  unfold takeSub
  repeat' first | with_reducible assumption | with_reducible apply takeJoined_kept | with_reducible apply emitAt_kept
                | with_reducible apply takeSuperframe_kept | with_reducible apply modEng_kept
                | with_reducible apply ite_kept | split | dsimp only [kept_mk] | intro _
                | with_reducible refine Kept.sound ?_

theorem takeCif_kept (p : Place) (frame : DabFrame) (base : Nat) (run : Bool) (s : State) (k : Nat) (h : Kept s) : Kept
    (takeCif p frame base run s k) := by
  unfold takeCif
  have key : ∀ u, Kept u → ∀ fs, Kept (List.foldl (takeFib p frame base) u fs) :=
    fun u hu fs => foldl_kept _ _ _ (fun _ _ => takeFib_kept _ _ _ _ _) hu
  have org := ite_kept (c := ((dabOf s p.unit).change != 0 && (base + k) % 5000 % 250 == (dabOf s p.unit).occ) = true) _ _
    (applyOrganisation_kept { p with stamp := cifStamp frame k, pos := cifPos (cifStamp frame k) ((base + k) % 5000) } s h) h
  exact ite_kept _ _ (foldl_kept _ _ _ (fun _ _ => takeSub_kept _ _ _ _) (key _ org _)) (key _ org _)

theorem muteSource_kept (src : Nat) (cause : MuteCause) (start : Int) (stop : Option Int) (s : State) (h : Kept s) :
    Kept (muteSource src cause start stop s) := by
  unfold muteSource
  repeat' first | with_reducible assumption | with_reducible apply addStretch_kept | with_reducible apply forAll_kept
                | with_reducible apply ite_kept | split | dsimp only [kept_mk] | intro _
                | with_reducible refine Kept.sound ?_

theorem joinAudio_kept (n : Nat) (s : State) (h : Kept s) : Kept (joinAudio n s) := by
  unfold joinAudio
  repeat' first | with_reducible assumption | with_reducible apply muteSource_kept | with_reducible apply ite_kept
                | split | dsimp only [kept_mk] | intro _ | with_reducible refine Kept.sound ?_

theorem endStretches_kept (src : Nat) (stop : Int) (s : State) (h : Kept s) : Kept (endStretches src stop s) := by
  unfold endStretches
  repeat' first | with_reducible assumption | with_reducible apply modSap_kept | with_reducible apply forAll_kept
                | with_reducible apply ite_kept | split | dsimp only [kept_mk] | intro _
                | with_reducible refine Kept.sound ?_

theorem offerAudio_kept (n : Nat) (r : BlockRec) (flags : Nat) (samples : List (Int × Int)) (s : State) (h : Kept s) :
    Kept (offerAudio n r flags samples s) := by
  unfold offerAudio
  repeat' first | with_reducible assumption | with_reducible apply endStretches_kept
                | with_reducible apply modAnalogue_kept | with_reducible apply muteSource_kept
                | with_reducible apply ite_kept | split | dsimp only [kept_mk] | intro _
                | with_reducible refine Kept.sound ?_

theorem reacquire_kept (p : Place) (s : State) (h : Kept s) : Kept (reacquire p s) := by
  unfold reacquire
  repeat' first | with_reducible assumption | with_reducible apply modDrm_kept | with_reducible apply modEng_kept
                | with_reducible apply ite_kept | split | dsimp only [kept_mk] | intro _
                | with_reducible refine Kept.sound ?_

theorem checkDrift_kept (p : Place) (limit : Int) (s : State) (h : Kept s) : Kept (checkDrift p limit s) := by
  unfold checkDrift
  repeat' first | with_reducible assumption | with_reducible apply lossEvent_kept
                | with_reducible apply reacquire_kept | with_reducible apply modEng_kept
                | with_reducible apply ite_kept | split | dsimp only [kept_mk] | intro _
                | with_reducible refine Kept.sound ?_

theorem reportResidual_kept (p : Place) (s : State) (h : Kept s) : Kept (reportResidual p s) := by
  unfold reportResidual
  repeat' first | with_reducible assumption | with_reducible apply draw_kept | with_reducible apply modEng_kept
                | with_reducible apply ite_kept | split | dsimp only [kept_mk] | intro _
                | with_reducible refine snd_kept (by with_reducible assumption) ?_
                | with_reducible refine Kept.sound ?_

theorem applyMux_kept (p : Place) (new : List (Nat × Nat × Nat × Nat)) (s : State) (h : Kept s) : Kept (applyMux p new
    s) := by
  unfold applyMux
  repeat' first | with_reducible assumption | with_reducible apply modDrm_kept | with_reducible apply engineEvent_kept
                | with_reducible apply forAll_kept | with_reducible apply ite_kept | split | dsimp only [kept_mk]
                | intro _ | with_reducible refine Kept.sound ?_

theorem drmDrift_kept (p : Place) (s : State) (h : Kept s) : Kept (drmDrift p s) := by
  unfold drmDrift
  repeat' first | with_reducible assumption | with_reducible apply checkDrift_kept | with_reducible apply ite_kept
                | split | dsimp only [kept_mk] | intro _ | with_reducible refine Kept.sound ?_

theorem unitDropped_kept (p : Place) (stream : Nat) (addr : Nat) (s : State) (h : Kept s) : Kept (unitDropped p stream
    addr s) := by
  unfold unitDropped
  repeat' first | with_reducible assumption | with_reducible apply lossEvent_kept | with_reducible apply draw_kept
                | with_reducible apply modEng_kept | with_reducible apply ite_kept | split | dsimp only [kept_mk]
                | intro _ | with_reducible refine snd_kept (by with_reducible assumption) ?_
                | with_reducible refine Kept.sound ?_

theorem takeMsc_kept (p : Place) (s : State) (m : MscPart) (h : Kept s) : Kept (takeMsc p s m) := by
  unfold takeMsc
  repeat' first | with_reducible assumption | with_reducible apply emitAt_kept | with_reducible apply modEng_kept
                | with_reducible apply unitDropped_kept | with_reducible apply ite_kept | split | dsimp only [kept_mk]
                | intro _ | with_reducible refine Kept.sound ?_

theorem drmMsc_kept (p : Place) (frame : DrmFrame) (s : State) (h : Kept s) : Kept (drmMsc p frame s) := by
  unfold drmMsc
  exact ite_kept _ _ (foldl_kept _ _ _ (fun _ _ => takeMsc_kept _ _ _) h) h

theorem drmTime_kept (p : Place) (mjd : Nat) (hour : Nat) (minute : Nat) (offset : Option Int) (s : State) (h : Kept
    s) : Kept (drmTime p mjd hour minute offset s) := by
  unfold drmTime
  repeat' first | with_reducible assumption | with_reducible apply emitAt_kept | with_reducible apply ite_kept | split
                | dsimp only [kept_mk] | intro _ | with_reducible refine Kept.sound ?_

theorem modStream_kept (s : State) (u : Nat) (stream : Nat) (f : DrmStream → DrmStream) (h : Kept s) : Kept (modStream
    s u stream f) := by
  unfold modStream
  repeat' first | with_reducible assumption | with_reducible apply modDrm_kept | with_reducible apply ite_kept | split
                | dsimp only [kept_mk] | intro _ | with_reducible refine Kept.sound ?_

theorem setServiceStream_kept (s : State) (u : Nat) (shortId : Nat) (stream : Nat) (h : Kept s) : Kept
    (setServiceStream s u shortId stream) := by
  unfold setServiceStream
  repeat' first | with_reducible assumption | with_reducible apply modDrm_kept | with_reducible apply ite_kept | split
                | dsimp only [kept_mk] | intro _ | with_reducible refine Kept.sound ?_

theorem useEntity_kept (p : Place) (sup : Place) (s : State) (x3 : SdcEntity) (h : Kept s) : Kept (useEntity p sup s
    x3) := by
  unfold useEntity
  repeat' first | with_reducible assumption | with_reducible apply setServiceStream_kept
                | with_reducible apply modStream_kept | with_reducible apply drmTime_kept
                | with_reducible apply modDrm_kept | with_reducible apply takeDigAf_kept
                | with_reducible apply ite_kept | split | dsimp only [kept_mk] | intro _
                | with_reducible refine Kept.sound ?_

theorem takeEntity_kept (p : Place) (sup : Place) (s : State) (x3 : SdcEntity) (h : Kept s) : Kept (takeEntity p sup s
    x3) := by
  unfold takeEntity
  repeat' first | with_reducible assumption | with_reducible apply emitAt_kept | with_reducible apply modDrm_kept
                | with_reducible apply useEntity_kept | with_reducible apply ite_kept | split | dsimp only [kept_mk]
                | intro _ | with_reducible refine Kept.sound ?_

theorem takeSdc_kept (p : Place) (sup : Place) (sdc : Option (Bool × List SdcEntity)) (s : State) (h : Kept s) : Kept
    (takeSdc p sup sdc s) := by
  unfold takeSdc
  split
  · exact h
  · exact modDrm_kept _ _ _ h
  · exact foldl_kept _ _ _ (fun _ _ => takeEntity_kept _ _ _ _) (modDrm_kept _ _ _ h)

theorem drmSdc_kept (p : Place) (sup : Place) (frame : DrmFrame) (s : State) (h : Kept s) : Kept (drmSdc p sup frame
    s) := by
  unfold drmSdc
  repeat' first | with_reducible assumption | with_reducible apply takeSdc_kept | with_reducible apply ite_kept
                | split | dsimp only [kept_mk] | intro _ | with_reducible refine Kept.sound ?_

theorem goodFac_kept (p : Place) (f : Fac) (counts : Bool) (s : State) (h : Kept s) : Kept (goodFac p f counts s) :=
    by
  unfold goodFac
  repeat' first | with_reducible assumption | with_reducible apply emitAt_kept | with_reducible apply modDrm_kept
                | with_reducible apply applyMux_kept | with_reducible apply ite_kept | split | dsimp only [kept_mk]
                | intro _ | with_reducible refine Kept.sound ?_

theorem tasteFac_kept (p : Place) (f : Fac) (s : State) (h : Kept s) : Kept (tasteFac p f s) := by
  unfold tasteFac
  repeat' first | with_reducible assumption | with_reducible apply modDrm_kept
                | with_reducible apply reportIdentity_kept | with_reducible apply ite_kept | split
                | dsimp only [kept_mk] | intro _ | with_reducible refine Kept.sound ?_

theorem takeFacFrame_kept (p : Place) (fr : DrmFrame) (s : State) (h : Kept s) : Kept (takeFacFrame p fr s) := by
  unfold takeFacFrame
  repeat' first | with_reducible assumption | with_reducible apply toSearch_kept | with_reducible apply modDrm_kept
                | with_reducible apply modEng_kept | with_reducible apply goodFac_kept
                | with_reducible apply tasteFac_kept | with_reducible apply syncLost_kept
                | with_reducible apply engineEvent_kept | with_reducible apply ite_kept | split | dsimp only [kept_mk]
                | intro _ | with_reducible refine Kept.sound ?_

theorem dyadicWhole_kept (d : Dyadic) (s : State) (h : Kept s) : Kept (dyadicWhole d s).2 := by
  unfold dyadicWhole
  repeat' first | with_reducible assumption | with_reducible apply draw_kept | with_reducible apply ite_kept | split
                | dsimp only [kept_mk] | intro _ | with_reducible refine snd_kept (by with_reducible assumption) ?_
                | with_reducible refine Kept.sound ?_

theorem enterRun_kept (p : Nat) (s : State) (h : Kept s) : Kept (enterRun p s) := by
  unfold enterRun
  repeat' first | with_reducible assumption | with_reducible apply setFe_kept | with_reducible apply tuneDone_kept
                | with_reducible apply ite_kept | split | dsimp only [kept_mk] | intro _
                | with_reducible refine Kept.sound ?_

theorem settled_kept (p : Nat) (s : State) (h : Kept s) : Kept (settled p s) := by
  unfold settled
  repeat' first | with_reducible assumption | with_reducible apply enterAcquire_kept | with_reducible apply ite_kept
                | split | dsimp only [kept_mk] | intro _ | with_reducible refine Kept.sound ?_

theorem lockDone_kept (p : Nat) (s : State) (h : Kept s) : Kept (lockDone p s) := by
  unfold lockDone
  repeat' first | with_reducible assumption | with_reducible apply settled_kept | with_reducible apply modCal_kept
                | with_reducible apply synthsDone_kept | with_reducible apply modSynth_kept
                | with_reducible apply ite_kept | split | dsimp only [kept_mk] | intro _
                | with_reducible refine Kept.sound ?_

theorem lockFailed_kept (p : Nat) (s : State) (h : Kept s) : Kept (lockFailed p s) := by
  unfold lockFailed
  repeat' first | with_reducible assumption | with_reducible apply synthsDone_kept | with_reducible apply noLock_kept
                | with_reducible apply ite_kept | split | dsimp only [kept_mk] | intro _
                | with_reducible refine Kept.sound ?_

theorem flagCrossed_kept (s : State) (h : Kept s) : Kept (flagCrossed s) := by
  unfold flagCrossed
  repeat' first | with_reducible assumption | with_reducible apply raiseIf_kept | with_reducible apply ite_kept
                | split | dsimp only [kept_mk] | intro _ | with_reducible refine Kept.sound ?_

theorem flagHalted_kept (s : State) (h : Kept s) : Kept (flagHalted s) := by
  unfold flagHalted
  repeat' first | with_reducible assumption | with_reducible apply raiseIf_kept | with_reducible apply ite_kept
                | split | dsimp only [kept_mk] | intro _ | with_reducible refine Kept.sound ?_

theorem flagPrivate_kept (s : State) (h : Kept s) : Kept (flagPrivate s) := by
  unfold flagPrivate
  repeat' first | with_reducible assumption | with_reducible apply raiseIf_kept | with_reducible apply ite_kept
                | split | dsimp only [kept_mk] | intro _ | with_reducible refine Kept.sound ?_

theorem flagRoWrite_kept (s : State) (h : Kept s) : Kept (flagRoWrite s) := by
  unfold flagRoWrite
  repeat' first | with_reducible assumption | with_reducible apply raiseIf_kept | with_reducible apply ite_kept
                | split | dsimp only [kept_mk] | intro _ | with_reducible refine Kept.sound ?_

theorem flagUnmapped_kept (s : State) (h : Kept s) : Kept (flagUnmapped s) := by
  unfold flagUnmapped
  repeat' first | with_reducible assumption | with_reducible apply raiseIf_kept | with_reducible apply ite_kept
                | split | dsimp only [kept_mk] | intro _ | with_reducible refine Kept.sound ?_

theorem copyDone_kept (s : State) (h : Kept s) : Kept (copyDone s) := by
  unfold copyDone
  repeat' first | with_reducible assumption | with_reducible apply startDue_kept | with_reducible apply ite_kept
                | split | dsimp only [kept_mk] | intro _ | with_reducible refine Kept.sound ?_

theorem copyFailed_kept (sector : Nat) (s : State) (h : Kept s) : Kept (copyFailed sector s) := by
  unfold copyFailed
  repeat' first | with_reducible assumption | with_reducible apply complete_kept | with_reducible apply startDue_kept
                | with_reducible apply ite_kept | split | dsimp only [kept_mk] | intro _
                | with_reducible refine Kept.sound ?_

theorem eraseStep_kept (ok : Bool) (r : Reclaim) (s : State) (h : Kept s) : Kept (eraseStep ok r s) := by
  unfold eraseStep
  repeat' first | with_reducible assumption | with_reducible apply copyDone_kept | with_reducible apply startDue_kept
                | with_reducible apply ite_kept | split | dsimp only [kept_mk] | intro _
                | with_reducible refine Kept.sound ?_

theorem endDecant_kept (exhausted : Bool) (s : State) (h : Kept s) : Kept (endDecant exhausted s) := by
  unfold endDecant
  repeat' first | with_reducible assumption | with_reducible apply draw_kept | with_reducible apply ite_kept | split
                | dsimp only [kept_mk] | intro _ | with_reducible refine snd_kept (by with_reducible assumption) ?_
                | with_reducible refine Kept.sound ?_

theorem storeServed_kept (x0 : Store) (status : Nat) (result : List Byte) (s : State) (h : Kept s) : Kept (storeServed
    x0 status result s) := by
  unfold storeServed
  repeat' first | with_reducible assumption | with_reducible apply endDecant_kept | with_reducible apply complete_kept
                | with_reducible apply startDue_kept | with_reducible apply ite_kept | split | dsimp only [kept_mk]
                | intro _ | with_reducible refine Kept.sound ?_

theorem storeStep_kept (ok : Bool) (x1 : Store) (s : State) (h : Kept s) : Kept (storeStep ok x1 s) := by
  unfold storeStep
  repeat' first | with_reducible assumption | with_reducible apply storeServed_kept | with_reducible apply draw_kept
                | with_reducible apply ite_kept | split | dsimp only [kept_mk] | intro _
                | with_reducible refine snd_kept (by with_reducible assumption) ?_
                | with_reducible refine Kept.sound ?_

theorem pairWritten_kept (c : Cmd) (s : State) (h : Kept s) : Kept (pairWritten c s) := by
  unfold pairWritten
  repeat' first | with_reducible assumption | with_reducible apply modEndpoint_kept | with_reducible apply ite_kept
                | split | dsimp only [kept_mk] | intro _ | with_reducible refine Kept.sound ?_

theorem writeServed_kept (seq : Nat) (w : Write) (s : State) (h : Kept s) : Kept (writeServed seq w s) := by
  unfold writeServed
  repeat' first | with_reducible assumption | with_reducible apply serve_kept | with_reducible apply complete_kept
                | with_reducible apply pairWritten_kept | with_reducible apply ite_kept | split | dsimp only [kept_mk]
                | intro _ | with_reducible refine Kept.sound ?_

theorem writeStep_kept (ok : Bool) (w : Write) (s : State) (h : Kept s) : Kept (writeStep ok w s) := by
  unfold writeStep
  repeat' first | with_reducible assumption | with_reducible apply copyDone_kept | with_reducible apply complete_kept
                | with_reducible apply copyFailed_kept | with_reducible apply startDue_kept
                | with_reducible apply writeServed_kept | with_reducible apply ite_kept | split | dsimp only [kept_mk]
                | intro _ | with_reducible refine Kept.sound ?_

theorem bindLane_kept (n : Nat) (hold : Hold) (p : Nat) (set : LaneSet) (s : State) (h : Kept s) : Kept (bindLane n
    hold p set s) := by
  unfold bindLane
  repeat' first | with_reducible assumption | with_reducible apply setLane_kept | with_reducible apply draw_kept
                | with_reducible apply drawAny_kept | with_reducible apply ite_kept | split | dsimp only [kept_mk]
                | intro _ | with_reducible refine snd_kept (by with_reducible assumption) ?_
                | with_reducible refine Kept.sound ?_

theorem pendSet_kept (n : Nat) (f : LaneSet → LaneSet) (s : State) (h : Kept s) : Kept (pendSet n f s).1 := by
  unfold pendSet
  repeat' first | with_reducible assumption | with_reducible apply setLane_kept | with_reducible apply ite_kept
                | split | dsimp only [kept_mk] | intro _ | with_reducible refine Kept.sound ?_

theorem recomputeNco_kept (p : Nat) (s : State) (h : Kept s) : Kept (recomputeNco p s) := by
  unfold recomputeNco
  repeat' first | with_reducible assumption | with_reducible apply ite_kept | split | dsimp only [kept_mk] | intro _
                | with_reducible refine Kept.sound ?_

theorem acquire_kept (n : Nat) (kind : Nat) (u : Nat) (a : Acq) (s : State) (h : Kept s) : Kept (acquire n kind u a s)
    := by
  unfold acquire
  repeat' first | with_reducible assumption | with_reducible apply modDrm_kept | with_reducible apply modEng_kept
                | with_reducible apply ite_kept | split | dsimp only [kept_mk] | intro _
                | with_reducible refine Kept.sound ?_

theorem boundarySync_kept (n : Nat) (s : State) (h : Kept s) : Kept (boundarySync n s) := by
  unfold boundarySync
  repeat' first | with_reducible assumption | with_reducible apply toSearch_kept | with_reducible apply modLane_kept
                | with_reducible apply ite_kept | split | dsimp only [kept_mk] | intro _
                | with_reducible refine Kept.sound ?_

theorem boundary_kept (n : Nat) (s : State) (h : Kept s) : Kept (boundary n s) := by
  unfold boundary
  repeat' first | with_reducible assumption | with_reducible apply boundaryShed_kept
                | with_reducible apply boundarySet_kept | with_reducible apply unbindNow_kept
                | with_reducible apply boundarySync_kept | with_reducible apply ite_kept | split
                | dsimp only [kept_mk] | intro _ | with_reducible refine Kept.sound ?_

theorem countShed_kept (p : Nat) (s : State) (h : Kept s) : Kept (countShed p s) := by
  unfold countShed
  repeat' first | with_reducible assumption | with_reducible apply ite_kept | split | dsimp only [kept_mk] | intro _
                | with_reducible refine Kept.sound ?_

theorem digitalBlock_kept (n : Nat) (kind : Nat) (u : Nat) (erased : Bool) (m : BlockMeas) (s : State) (h : Kept s) :
    Kept (digitalBlock n kind u erased m s) := by
  unfold digitalBlock
  repeat' first | with_reducible assumption | with_reducible apply modEng_kept | with_reducible apply acquire_kept
                | with_reducible apply ite_kept | split | dsimp only [kept_mk] | intro _
                | with_reducible refine Kept.sound ?_

theorem engineBlock_kept (n : Nat) (r : BlockRec) (samples : List (Int × Int)) (m : BlockMeas) (s : State) (h : Kept
    s) : Kept (engineBlock n r samples m s) := by
  unfold engineBlock
  repeat' first | with_reducible assumption | with_reducible apply offerAudio_kept
                | with_reducible apply digitalBlock_kept | with_reducible apply modLf_kept
                | with_reducible apply modAnalogue_kept | with_reducible apply ite_kept | split | dsimp only [kept_mk]
                | intro _ | with_reducible refine Kept.sound ?_

theorem runEngineAttach_kept (s : State) (c : Cmd) (h : Kept s) : Kept (runEngineAttach s c) := by
  unfold runEngineAttach
  repeat' first | with_reducible assumption | with_reducible apply pendSet_kept | with_reducible apply modLane_kept
                | with_reducible apply modLf_kept | with_reducible apply complete_kept
                | with_reducible apply endTasting_kept | with_reducible apply ite_kept | split | dsimp only [kept_mk]
                | intro _ | with_reducible refine fst_kept (by with_reducible assumption) ?_
                | with_reducible refine Kept.sound ?_

theorem runLaneBind_kept (s : State) (c : Cmd) (h : Kept s) : Kept (runLaneBind s c) := by
  unfold runLaneBind
  repeat' first | with_reducible assumption | with_reducible apply releaseHeld_kept
                | with_reducible apply modLane_kept | with_reducible apply complete_kept
                | with_reducible apply unbindNow_kept | with_reducible apply bindLane_kept
                | with_reducible apply endTasting_kept | with_reducible apply occupiedNow_kept
                | with_reducible apply ite_kept | split | dsimp only [kept_mk] | intro _
                | with_reducible refine Kept.sound ?_

theorem runLaneSet_kept (s : State) (c : Cmd) (h : Kept s) : Kept (runLaneSet s c) := by
  unfold runLaneSet
  repeat' first | with_reducible assumption | with_reducible apply pendSet_kept | with_reducible apply complete_kept
                | with_reducible apply ite_kept | split | dsimp only [kept_mk] | intro _
                | with_reducible refine fst_kept (by with_reducible assumption) ?_
                | with_reducible refine Kept.sound ?_

theorem syncLane_kept (stamp : Nat) (s : State) (n : Nat) (h : Kept s) : Kept (syncLane stamp s n) := by
  unfold syncLane
  repeat' first | with_reducible assumption | with_reducible apply beginFirst_kept | with_reducible apply modLane_kept
                | with_reducible apply boundarySync_kept | with_reducible apply ite_kept | split
                | dsimp only [kept_mk] | intro _ | with_reducible refine Kept.sound ?_

theorem runLaneSync_kept (stamp : Nat) (s : State) (c : Cmd) (h : Kept s) : Kept (runLaneSync stamp s c) := by
  unfold runLaneSync
  repeat' first | with_reducible assumption | with_reducible apply complete_kept | with_reducible apply syncLane_kept
                | with_reducible apply forAll_kept | with_reducible apply ite_kept | split | dsimp only [kept_mk]
                | intro _ | with_reducible refine Kept.sound ?_

theorem tasteWindow_kept (n : Nat) (flags : Nat) (s : State) (h : Kept s) : Kept (tasteWindow n flags s) := by
  unfold tasteWindow
  repeat' first | with_reducible assumption | with_reducible apply endTasting_kept | with_reducible apply ite_kept
                | split | dsimp only [kept_mk] | intro _ | with_reducible refine Kept.sound ?_

theorem lfVote_kept (n : Nat) (d : List Byte) (x2 : LfTime) (stamp : Nat) (unc : Nat) (s : State) (h : Kept s) : Kept
    (lfVote n d x2 stamp unc s) := by
  unfold lfVote
  repeat' first | with_reducible assumption | with_reducible apply ktTaken_kept | with_reducible apply takeVote_kept
                | with_reducible apply ite_kept | split | dsimp only [kept_mk] | intro _
                | with_reducible refine Kept.sound ?_

theorem lfClose_kept (n : Nat) (u : Nat) (syms : List (LfSym × Bool)) (edge : Nat) (unc : Nat) (s : State) (h : Kept
    s) : Kept (lfClose n u syms edge unc s) := by
  unfold lfClose
  repeat' first | with_reducible assumption | with_reducible apply modLf_kept | with_reducible apply emit_kept
                | with_reducible apply lfVote_kept | with_reducible apply ite_kept | split | dsimp only [kept_mk]
                | intro _ | with_reducible refine Kept.sound ?_

theorem lfCollect_kept (n : Nat) (u : Nat) (m : LfSecond) (s : State) (h : Kept s) : Kept (lfCollect n u m s) := by
  unfold lfCollect
  repeat' first | with_reducible assumption | with_reducible apply modLf_kept | with_reducible apply lfClose_kept
                | with_reducible apply ite_kept | split | dsimp only [kept_mk] | intro _
                | with_reducible refine Kept.sound ?_

theorem lfReport_kept (u : Nat) (s : State) (h : Kept s) : Kept (lfReport u s) := by
  unfold lfReport
  repeat' first | with_reducible assumption | with_reducible apply modLf_kept | with_reducible apply laneLevel_kept
                | with_reducible apply ite_kept | split | dsimp only [kept_mk] | intro _
                | with_reducible refine snd_kept (by with_reducible assumption) ?_
                | with_reducible refine Kept.sound ?_

theorem endAfter_kept (j : TxJob) (s : State) (h : Kept s) : Kept (endAfter j s) := by
  unfold endAfter
  repeat' first | with_reducible assumption | with_reducible apply serve_kept | with_reducible apply complete_kept
                | with_reducible apply ite_kept | split | dsimp only [kept_mk] | intro _
                | with_reducible refine Kept.sound ?_

theorem afterTakes_kept (j : TxJob) (k : RxPacket) (s : State) (h : Kept s) : Kept (afterTakes j k s) := by
  unfold afterTakes
  repeat' first | with_reducible assumption | with_reducible apply devPuts_kept | with_reducible apply endAfter_kept
                | with_reducible apply ite_kept | split | dsimp only [kept_mk] | intro _
                | with_reducible refine Kept.sound ?_

theorem openResponse_kept (tEnd : Nat) (s : State) (h : Kept s) : Kept (openResponse tEnd s) := by
  unfold openResponse
  repeat' first | with_reducible assumption | with_reducible apply ite_kept | split | dsimp only [kept_mk] | intro _
                | with_reducible refine Kept.sound ?_

theorem sentWhole_kept (j : TxJob) (s : State) (h : Kept s) : Kept (sentWhole j s) := by
  unfold sentWhole
  repeat' first | with_reducible assumption | with_reducible apply pushTx_kept | with_reducible apply complete_kept
                | with_reducible apply stopTx_kept | with_reducible apply attemptEnds_kept
                | with_reducible apply openResponse_kept | with_reducible apply ite_kept | split
                | dsimp only [kept_mk] | intro _ | with_reducible refine Kept.sound ?_

theorem amplifierOff_kept (s : State) (h : Kept s) : Kept (amplifierOff s) := by
  unfold amplifierOff
  repeat' first | with_reducible assumption | with_reducible apply txEnds_kept
                | with_reducible apply removeActive_kept | with_reducible apply serve_kept
                | with_reducible apply relockBand_kept | with_reducible apply sentWhole_kept
                | with_reducible apply setFe_kept | with_reducible apply ite_kept | split | dsimp only [kept_mk]
                | intro _ | with_reducible refine Kept.sound ?_

theorem countAuthFail_kept (s : State) (h : Kept s) : Kept (countAuthFail s) := by
  unfold countAuthFail
  repeat' first | with_reducible assumption | with_reducible apply ite_kept | split | dsimp only [kept_mk] | intro _
                | with_reducible refine Kept.sound ?_

theorem countUnknown_kept (s : State) (h : Kept s) : Kept (countUnknown s) := by
  unfold countUnknown
  repeat' first | with_reducible assumption | with_reducible apply ite_kept | split | dsimp only [kept_mk] | intro _
                | with_reducible refine Kept.sound ?_

theorem endRx_kept (cause : Nat) (s : State) (h : Kept s) : Kept (endRx cause s) := by
  unfold endRx
  repeat' first | with_reducible assumption | with_reducible apply serve_kept | with_reducible apply complete_kept
                | with_reducible apply ite_kept | split | dsimp only [kept_mk] | intro _
                | with_reducible refine Kept.sound ?_

theorem hostTakes_kept (w : RxWindow) (own : Bool) (k : RxPacket) (s : State) (h : Kept s) : Kept (hostTakes w own k
    s) := by
  unfold hostTakes
  repeat' first | with_reducible assumption | with_reducible apply devPuts_kept | with_reducible apply endRx_kept
                | with_reducible apply ite_kept | split | dsimp only [kept_mk] | intro _
                | with_reducible refine Kept.sound ?_

theorem responseFails_kept (why : Nat) (s : State) (h : Kept s) : Kept (responseFails why s) := by
  unfold responseFails
  repeat' first | with_reducible assumption | with_reducible apply ite_kept | split | dsimp only [kept_mk] | intro _
                | with_reducible refine Kept.sound ?_

theorem sensorReports_kept (n : Nat) (isOpen : Bool) (s : State) (h : Kept s) : Kept (sensorReports n isOpen s) := by
  unfold sensorReports
  repeat' first | with_reducible assumption | with_reducible apply modEndpoint_kept
                | with_reducible apply endSessions_kept | with_reducible apply ite_kept | split | dsimp only [kept_mk]
                | intro _ | with_reducible refine Kept.sound ?_

theorem responseTaken_kept (m : CheckMeas) (s : State) (h : Kept s) : Kept (responseTaken m s) := by
  unfold responseTaken
  repeat' first | with_reducible assumption | with_reducible apply tryEnds_kept | with_reducible apply ite_kept
                | split | dsimp only [kept_mk] | intro _ | with_reducible refine Kept.sound ?_

theorem takeResponseFrame_kept (n : Nat) (role : Nat) (payload : List Byte) (k : RxPacket) (s : State) (h : Kept s) :
    Kept (takeResponseFrame n role payload k s) := by
  unfold takeResponseFrame
  repeat' first | with_reducible assumption | with_reducible apply sensorReports_kept
                | with_reducible apply responseTaken_kept | with_reducible apply responseFails_kept
                | with_reducible apply ite_kept | split | dsimp only [kept_mk] | intro _
                | with_reducible refine Kept.sound ?_

theorem ownReceived_kept (k : RxPacket) (s : State) (h : Kept s) : Kept (ownReceived k s) := by
  unfold ownReceived
  repeat' first | with_reducible assumption | with_reducible apply epSet_kept
                | with_reducible apply sensorReports_kept | with_reducible apply takeResponseFrame_kept
                | with_reducible apply countUnknown_kept | with_reducible apply countAuthFail_kept
                | with_reducible apply responseFails_kept | with_reducible apply ite_kept | split
                | dsimp only [kept_mk] | intro _ | with_reducible refine Kept.sound ?_

theorem deliverPacket_kept (k : RxPacket) (s : State) (h : Kept s) : Kept (deliverPacket k s) := by
  unfold deliverPacket
  repeat' first | with_reducible assumption | with_reducible apply ownReceived_kept
                | with_reducible apply hostTakes_kept | with_reducible apply afterTakes_kept
                | with_reducible apply ite_kept | split | dsimp only [kept_mk] | intro _
                | with_reducible refine Kept.sound ?_

theorem endDueWindow_kept (s : State) (h : Kept s) : Kept (endDueWindow s) := by
  unfold endDueWindow
  repeat' first | with_reducible assumption | with_reducible apply complete_kept | with_reducible apply endAfter_kept
                | with_reducible apply endRx_kept | with_reducible apply ite_kept | split | dsimp only [kept_mk]
                | intro _ | with_reducible refine Kept.sound ?_

theorem packetOver_kept (held : Bool) (s : State) (h : Kept s) : Kept (packetOver held s) := by
  unfold packetOver
  repeat' first | with_reducible assumption | with_reducible apply serve_kept | with_reducible apply endDueWindow_kept
                | with_reducible apply ite_kept | split | dsimp only [kept_mk] | intro _
                | with_reducible refine Kept.sound ?_

theorem runLinkRx_kept (s : State) (c : Cmd) (h : Kept s) : Kept (runLinkRx s c) := by
  unfold runLinkRx
  repeat' first | with_reducible assumption | with_reducible apply serve_kept | with_reducible apply complete_kept
                | with_reducible apply modFe_kept | with_reducible apply ite_kept | split | dsimp only [kept_mk]
                | intro _ | with_reducible refine Kept.sound ?_

theorem takePacket_kept (k : RxPacket) (s : State) (h : Kept s) : Kept (takePacket k s) := by
  unfold takePacket
  repeat' first | with_reducible assumption | with_reducible apply deliverPacket_kept
                | with_reducible apply countDropped_kept | with_reducible apply ite_kept | split
                | dsimp only [kept_mk] | intro _ | with_reducible refine Kept.sound ?_

theorem tooLate_kept (j : TxJob) (s : State) (h : Kept s) : Kept (tooLate j s) := by
  unfold tooLate
  repeat' first | with_reducible assumption | with_reducible apply txEnds_kept | with_reducible apply serve_kept
                | with_reducible apply ite_kept | split | dsimp only [kept_mk] | intro _
                | with_reducible refine Kept.sound ?_

theorem endBlank_kept (tx : Bool) (s : State) (h : Kept s) : Kept (endBlank tx s) := by
  unfold endBlank
  repeat' first | with_reducible assumption | with_reducible apply touchLanes_kept
                | with_reducible apply trackZeros_kept | with_reducible apply forAll_kept
                | with_reducible apply ite_kept | split | dsimp only [kept_mk] | intro _
                | with_reducible refine Kept.sound ?_

theorem txStep_kept (s : State) (k : Nat) (h : Kept s) : Kept (txStep s k) := by
  unfold txStep
  repeat' first | with_reducible assumption | with_reducible apply endBlank_kept
                | with_reducible apply amplifierOff_kept | with_reducible apply setFe_kept
                | with_reducible apply ite_kept | split | dsimp only [kept_mk] | intro _
                | with_reducible refine Kept.sound ?_

theorem readyToSend_kept (s : State) (h : Kept s) : Kept (readyToSend s) := by
  unfold readyToSend
  repeat' first | with_reducible assumption | with_reducible apply removeActive_kept
                | with_reducible apply setActive_kept | with_reducible apply endActive_kept
                | with_reducible apply goOnAir_kept | with_reducible apply stopTx_kept | with_reducible apply ite_kept
                | split | dsimp only [kept_mk] | intro _ | with_reducible refine Kept.sound ?_

theorem startListen_kept (s : State) (h : Kept s) : Kept (startListen s) := by
  unfold startListen
  repeat' first | with_reducible assumption | with_reducible apply setActive_kept | with_reducible apply trng_kept
                | with_reducible apply ite_kept | split | dsimp only [kept_mk] | intro _
                | with_reducible refine snd_kept (by with_reducible assumption) ?_
                | with_reducible refine Kept.sound ?_

theorem checkPassed_kept (s : State) (h : Kept s) : Kept (checkPassed s) := by
  unfold checkPassed
  repeat' first | with_reducible assumption | with_reducible apply removeActive_kept
                | with_reducible apply startListen_kept | with_reducible apply stopTx_kept
                | with_reducible apply readyToSend_kept | with_reducible apply ite_kept | split | dsimp only [kept_mk]
                | intro _ | with_reducible refine Kept.sound ?_

theorem startBackoff_kept (s : State) (h : Kept s) : Kept (startBackoff s) := by
  unfold startBackoff
  repeat' first | with_reducible assumption | with_reducible apply setActive_kept | with_reducible apply trng_kept
                | with_reducible apply ite_kept | split | dsimp only [kept_mk] | intro _
                | with_reducible refine snd_kept (by with_reducible assumption) ?_
                | with_reducible refine Kept.sound ?_

theorem discardLanes_kept (s : State) (h : Kept s) : Kept (discardLanes s) := by
  unfold discardLanes
  repeat' first | with_reducible assumption | with_reducible apply ite_kept | split | dsimp only [kept_mk] | intro _
                | with_reducible refine Kept.sound ?_

theorem discardEnvelopes_kept (s : State) (h : Kept s) : Kept (discardEnvelopes s) := by
  unfold discardEnvelopes
  repeat' first | with_reducible assumption | with_reducible apply dropEnvelope_kept
                | with_reducible apply forAll_kept | with_reducible apply ite_kept | split | dsimp only [kept_mk]
                | intro _ | with_reducible refine Kept.sound ?_

theorem stopClocks_kept (m : Nat) (s : State) (h : Kept s) : Kept (stopClocks m s) := by
  unfold stopClocks
  repeat' first | with_reducible assumption | with_reducible apply pathOff_kept | with_reducible apply complete_kept
                | with_reducible apply forAll_kept | with_reducible apply ite_kept | split | dsimp only [kept_mk]
                | intro _ | with_reducible refine Kept.sound ?_

theorem enterLow_kept (m : Nat) (s : State) (h : Kept s) : Kept (enterLow m s) := by
  unfold enterLow
  repeat' first | with_reducible assumption | with_reducible apply stopClocks_kept
                | with_reducible apply discardEnvelopes_kept | with_reducible apply discardLanes_kept
                | with_reducible apply ite_kept | split | dsimp only [kept_mk] | intro _
                | with_reducible refine Kept.sound ?_

theorem afterPath_kept (p : Nat) (s : State) (h : Kept s) : Kept (afterPath p s) := by
  unfold afterPath
  repeat' first | with_reducible assumption | with_reducible apply serve_kept | with_reducible apply ite_kept | split
                | dsimp only [kept_mk] | intro _ | with_reducible refine Kept.sound ?_

theorem changeRange_kept (p : Nat) (r : Nat) (fine : Nat) (s : State) (h : Kept s) : Kept (changeRange p r fine s) :=
    by
  unfold changeRange
  repeat' first | with_reducible assumption | with_reducible apply enterRun_kept | with_reducible apply modFe_kept
                | with_reducible apply setFe_kept | with_reducible apply ite_kept | split | dsimp only [kept_mk]
                | intro _ | with_reducible refine Kept.sound ?_

theorem quietPeriod_kept (p : Nat) (s : State) (h : Kept s) : Kept (quietPeriod p s) := by
  unfold quietPeriod
  repeat' first | with_reducible assumption | with_reducible apply enterRun_kept | with_reducible apply modFe_kept
                | with_reducible apply ite_kept | split | dsimp only [kept_mk] | intro _
                | with_reducible refine Kept.sound ?_

theorem agcApply_kept (p : Nat) (rms : Int) (clipped : Nat) (s : State) (h : Kept s) : Kept (agcApply p rms clipped s)
    := by
  unfold agcApply
  repeat' first | with_reducible assumption | with_reducible apply modFe_kept | with_reducible apply quietPeriod_kept
                | with_reducible apply changeRange_kept | with_reducible apply ite_kept | split | dsimp only [kept_mk]
                | intro _ | with_reducible refine Kept.sound ?_

theorem checkWindow_kept (count : Nat) (n : Nat) (s : State) (h : Kept s) : Kept (checkWindow count n s) := by
  unfold checkWindow
  repeat' first | with_reducible assumption | with_reducible apply endActive_kept
                | with_reducible apply checkPassed_kept | with_reducible apply modSynth_kept
                | with_reducible apply ite_kept | split | dsimp only [kept_mk] | intro _
                | with_reducible refine Kept.sound ?_

theorem relockNow_kept (path : Nat) (s : State) (h : Kept s) : Kept (relockNow path s) := by
  unfold relockNow
  repeat' first | with_reducible assumption | with_reducible apply relockBand_kept | with_reducible apply setFe_kept
                | with_reducible apply ite_kept | split | dsimp only [kept_mk] | intro _
                | with_reducible refine Kept.sound ?_

theorem runLoop_kept (p : Nat) (xs : List (Int × Int)) (s : State) (h : Kept s) : Kept (runLoop p xs s) := by
  unfold runLoop
  repeat' first | with_reducible assumption | with_reducible apply dyadicWhole_kept | with_reducible apply modFe_kept
                | with_reducible apply ite_kept | split | dsimp only [kept_mk] | intro _
                | with_reducible refine snd_kept (by with_reducible assumption) ?_
                | with_reducible refine Kept.sound ?_

theorem tunePath_kept (p : Nat) (centre : Nat) (raster : Nat) (side : Nat) (width : Nat) (s : State) (h : Kept s) :
    Kept (tunePath p centre raster side width s) := by
  unfold tunePath
  repeat' first | with_reducible assumption | with_reducible apply settled_kept
                | with_reducible apply recomputeNco_kept | with_reducible apply enterRun_kept
                | with_reducible apply modFe_kept | with_reducible apply retunePath_kept
                | with_reducible apply setFe_kept | with_reducible apply ite_kept | split | dsimp only [kept_mk]
                | intro _ | with_reducible refine Kept.sound ?_

theorem tuneS_kept (s : State) (c : Cmd) (h : Kept s) : Kept (tuneS s c) := by
  unfold tuneS
  repeat' first | with_reducible assumption | with_reducible apply complete_kept | with_reducible apply modFe_kept
                | with_reducible apply retunePath_kept | with_reducible apply ite_kept | split | dsimp only [kept_mk]
                | intro _ | with_reducible refine Kept.sound ?_

theorem runTune_kept (s : State) (c : Cmd) (h : Kept s) : Kept (runTune s c) := by
  unfold runTune
  repeat' first | with_reducible assumption | with_reducible apply tunePath_kept | with_reducible apply serve_kept
                | with_reducible apply tuneS_kept | with_reducible apply complete_kept | with_reducible apply ite_kept
                | split | dsimp only [kept_mk] | intro _ | with_reducible refine Kept.sound ?_

theorem acked_kept (b : Bool) (s : State) (h : Kept s) : Kept (acked b s) := by
  unfold acked
  repeat' first | with_reducible assumption | with_reducible apply ite_kept | split | dsimp only [kept_mk] | intro _
                | with_reducible refine Kept.sound ?_

theorem takeSnapshot_kept (s : State) (h : Kept s) : Kept (takeSnapshot s) := by
  unfold takeSnapshot
  repeat' first | with_reducible assumption | with_reducible apply ite_kept | split | dsimp only [kept_mk] | intro _
                | with_reducible refine Kept.sound ?_

theorem latchCounter_kept (s : State) (h : Kept s) : Kept (latchCounter s) := by
  unfold latchCounter
  repeat' first | with_reducible assumption | with_reducible apply takeSnapshot_kept | with_reducible apply ite_kept
                | split | dsimp only [kept_mk] | intro _ | with_reducible refine Kept.sound ?_

theorem moveMode_kept (m : Nat) (s : State) (h : Kept s) : Kept (moveMode m s) := by
  unfold moveMode
  repeat' first | with_reducible assumption | with_reducible apply startClocks_kept
                | with_reducible apply stopLanes_kept | with_reducible apply arrive_kept
                | with_reducible apply enterLow_kept | with_reducible apply leaveLow_kept
                | with_reducible apply ite_kept | split | dsimp only [kept_mk] | intro _
                | with_reducible refine Kept.sound ?_

theorem movePointer_kept (s : State) (h : Kept s) : Kept (movePointer s) := by
  unfold movePointer
  repeat' first | with_reducible assumption | with_reducible apply flagHalted_kept
                | with_reducible apply flagCrossed_kept | with_reducible apply ite_kept | split | dsimp only [kept_mk]
                | intro _ | with_reducible refine Kept.sound ?_

theorem afterBlockRead_kept (a : Nat) (s : State) (h : Kept s) : Kept (afterBlockRead a s) := by
  unfold afterBlockRead
  repeat' first | with_reducible assumption | with_reducible apply ite_kept | split | dsimp only [kept_mk] | intro _
                | with_reducible refine Kept.sound ?_

theorem windowRead_kept (s : State) (a : Nat) (h : Kept s) : Kept (windowRead s a).2 := by
  unfold windowRead
  repeat' first | with_reducible assumption | with_reducible apply afterBlockRead_kept
                | with_reducible apply flagUnmapped_kept | with_reducible apply flagPrivate_kept
                | with_reducible apply touchRow_kept | with_reducible apply ite_kept | split | dsimp only [kept_mk]
                | intro _ | with_reducible refine Kept.sound ?_

theorem winDataRead_kept (s : State) (h : Kept s) : Kept (winDataRead s).2 := by
  unfold winDataRead
  repeat' first | with_reducible assumption | with_reducible apply movePointer_kept
                | with_reducible apply windowRead_kept | with_reducible apply ite_kept | split | dsimp only [kept_mk]
                | intro _ | with_reducible refine snd_kept (by with_reducible assumption) ?_
                | with_reducible refine Kept.sound ?_

theorem readReg_kept (off : Nat) (s : State) (h : Kept s) : Kept (readReg off s).2 := by
  unfold readReg
  repeat' first | with_reducible assumption | with_reducible apply winDataRead_kept | with_reducible apply ite_kept
                | split | dsimp only [kept_mk] | intro _
                | with_reducible refine snd_kept (by with_reducible assumption) ?_
                | with_reducible refine Kept.sound ?_

theorem readCycle_kept (off : Nat) (s : State) (h : Kept s) : Kept (readCycle off s) := by
  unfold readCycle
  repeat' first | with_reducible assumption | with_reducible apply acked_kept | with_reducible apply readReg_kept
                | with_reducible apply ite_kept | split | dsimp only [kept_mk] | intro _
                | with_reducible refine snd_kept (by with_reducible assumption) ?_
                | with_reducible refine Kept.sound ?_

theorem snapBooks_kept (s : State) (h : Kept s) : Kept (snapBooks s) := by
  unfold snapBooks
  repeat' first | with_reducible assumption | with_reducible apply ite_kept | split | dsimp only [kept_mk] | intro _
                | with_reducible refine Kept.sound ?_

theorem loadPointer_kept (v : Byte) (s : State) (h : Kept s) : Kept (loadPointer v s) := by
  unfold loadPointer
  repeat' first | with_reducible assumption | with_reducible apply ite_kept | split | dsimp only [kept_mk] | intro _
                | with_reducible refine Kept.sound ?_

theorem windowWrite_kept (s : State) (a : Nat) (v : Byte) (h : Kept s) : Kept (windowWrite s a v) := by
  unfold windowWrite
  refine ite_kept _ _ (flagRoWrite_kept _ h) (ite_kept _ _ (flagPrivate_kept _ h) (ite_kept _ _ (flagRoWrite_kept _ h)
    (ite_kept _ _ (devPuts_kept _ _ _ h) (ite_kept _ _ (flagRoWrite_kept _ h) ?_))))
  split
  · exact flagUnmapped_kept _ h
  · split
    · rename_i e
      exact blockWrite_kept _ _ _ _ e h
    · exact flagRoWrite_kept _ h

theorem winDataWrite_kept (s : State) (v : Byte) (h : Kept s) : Kept (winDataWrite s v) := by
  unfold winDataWrite
  repeat' first | with_reducible assumption | with_reducible apply windowWrite_kept
                | with_reducible apply movePointer_kept | with_reducible apply ite_kept | split | dsimp only [kept_mk]
                | intro _ | with_reducible refine Kept.sound ?_

theorem stopAudio_kept (s : State) (h : Kept s) : Kept (stopAudio s) := by
  unfold stopAudio
  repeat' first | with_reducible assumption | with_reducible apply aoutOff_kept | with_reducible apply stopPorts_kept
                | with_reducible apply modSap_kept | with_reducible apply forAll_kept | with_reducible apply ite_kept
                | split | dsimp only [kept_mk] | intro _ | with_reducible refine Kept.sound ?_

theorem stopJobs_kept (s : State) (h : Kept s) : Kept (stopJobs s) := by
  unfold stopJobs
  repeat' first | with_reducible assumption | with_reducible apply freeLane_kept | with_reducible apply modPath_kept
                | with_reducible apply forAll_kept | with_reducible apply ite_kept | split | dsimp only [kept_mk]
                | intro _ | with_reducible refine Kept.sound ?_

theorem stopLink_kept (s : State) (h : Kept s) : Kept (stopLink s) := by
  unfold stopLink
  repeat' first | with_reducible assumption | with_reducible apply releaseAtRest_kept
                | with_reducible apply endBlank_kept | with_reducible apply ite_kept | split | dsimp only [kept_mk]
                | intro _ | with_reducible refine Kept.sound ?_

theorem stopRadio_kept (s : State) (h : Kept s) : Kept (stopRadio s) := by
  unfold stopRadio
  repeat' first | with_reducible assumption | with_reducible apply pathOff_kept | with_reducible apply forAll_kept
                | with_reducible apply ite_kept | split | dsimp only [kept_mk] | intro _
                | with_reducible refine Kept.sound ?_

theorem halt_kept (ph : Phase) (s : State) (h : Kept s) : Kept (halt ph s) := by
  unfold halt
  repeat' first | with_reducible assumption | with_reducible apply endTastings_kept
                | with_reducible apply stopRadio_kept | with_reducible apply discardEnvelopes_kept
                | with_reducible apply stopLink_kept | with_reducible apply stopAudio_kept
                | with_reducible apply releasePins_kept | with_reducible apply ringsReset_kept
                | with_reducible apply stopLanes_kept | with_reducible apply clearShed_kept
                | with_reducible apply stopJobs_kept | with_reducible apply ite_kept | split | dsimp only [kept_mk]
                | intro _ | with_reducible refine Kept.sound ?_

theorem settleCellar_kept (s : State) (h : Kept s) : Kept (settleCellar s) := by
  unfold settleCellar
  repeat' first | with_reducible assumption | with_reducible apply ite_kept | split | dsimp only [kept_mk] | intro _
                | with_reducible refine Kept.sound ?_

theorem beginSoft_kept (s : State) (h : Kept s) : Kept (beginSoft s) := by
  unfold beginSoft
  repeat' first | with_reducible assumption | with_reducible apply halt_kept | with_reducible apply settleCellar_kept
                | with_reducible apply ite_kept | split | dsimp only [kept_mk] | intro _
                | with_reducible refine Kept.sound ?_

theorem writeHpCtrl_kept (v : Byte) (s : State) (h : Kept s) : Kept (writeHpCtrl v s) := by
  unfold writeHpCtrl
  repeat' first | with_reducible assumption | with_reducible apply beginSoft_kept | with_reducible apply ite_kept
                | split | dsimp only [kept_mk] | intro _ | with_reducible refine Kept.sound ?_

theorem writeModeReq_kept (v : Byte) (s : State) (h : Kept s) : Kept (writeModeReq v s) := by
  unfold writeModeReq
  repeat' first | with_reducible assumption | with_reducible apply takeModeReq_kept | with_reducible apply ite_kept
                | split | dsimp only [kept_mk] | intro _ | with_reducible refine Kept.sound ?_

theorem writeWinCtrl_kept (v : Byte) (s : State) (h : Kept s) : Kept (writeWinCtrl v s) := by
  unfold writeWinCtrl
  repeat' first | with_reducible assumption | with_reducible apply ite_kept | split | dsimp only [kept_mk] | intro _
                | with_reducible refine Kept.sound ?_

theorem writeWinStatus_kept (v : Byte) (s : State) (h : Kept s) : Kept (writeWinStatus v s) := by
  unfold writeWinStatus
  repeat' first | with_reducible assumption | with_reducible apply ite_kept | split | dsimp only [kept_mk] | intro _
                | with_reducible refine Kept.sound ?_

theorem writeReg_kept (off : Nat) (v : Byte) (s : State) (h : Kept s) : Kept (writeReg off v s) := by
  unfold writeReg
  repeat' first | with_reducible assumption | with_reducible apply writeWinCtrl_kept
                | with_reducible apply latchCounter_kept | with_reducible apply loadPointer_kept
                | with_reducible apply freeWrite_kept | with_reducible apply writeModeReq_kept
                | with_reducible apply snapBooks_kept | with_reducible apply writeHpCtrl_kept
                | with_reducible apply writeWinStatus_kept | with_reducible apply doorbellWrite_kept
                | with_reducible apply winDataWrite_kept | with_reducible apply ite_kept | split
                | dsimp only [kept_mk] | intro _ | with_reducible refine Kept.sound ?_

theorem writeCycle_kept (off : Nat) (v : Byte) (s : State) (h : Kept s) : Kept (writeCycle off v s) := by
  unfold writeCycle
  repeat' first | with_reducible assumption | with_reducible apply acked_kept | with_reducible apply writeReg_kept
                | with_reducible apply ite_kept | split | dsimp only [kept_mk] | intro _
                | with_reducible refine Kept.sound ?_

theorem beginDecant_kept (s : State) (h : Kept s) : Kept (beginDecant s) := by
  unfold beginDecant
  repeat' first | with_reducible assumption | with_reducible apply halt_kept | with_reducible apply endDecant_kept
                | with_reducible apply ite_kept | split | dsimp only [kept_mk] | intro _
                | with_reducible refine Kept.sound ?_

theorem brownOutReset_kept (s : State) (h : Kept s) : Kept (brownOutReset s) := by
  unfold brownOutReset
  repeat' first | with_reducible assumption | with_reducible apply halt_kept | with_reducible apply cutWrite_kept
                | with_reducible apply ite_kept | split | dsimp only [kept_mk] | intro _
                | with_reducible refine Kept.sound ?_

theorem finish_kept (seq : Nat) (status : Nat) (result : List Byte) (s : State) (h : Kept s) : Kept (finish seq status
    result s) := by
  unfold finish
  repeat' first | with_reducible assumption | with_reducible apply complete_kept | with_reducible apply ite_kept
                | split | dsimp only [kept_mk] | intro _ | with_reducible refine Kept.sound ?_

theorem startCheck_kept (n : Nat) (purpose : CheckFor) (tries : Nat) (margin : Option Int) (key : List Byte) (eui :
    Nat) (s : State) (h : Kept s) : Kept (startCheck n purpose tries margin key eui s) := by
  unfold startCheck
  repeat' first | with_reducible assumption | with_reducible apply kickCheck_kept | with_reducible apply ite_kept
                | split | dsimp only [kept_mk] | intro _ | with_reducible refine Kept.sound ?_

theorem checkRecordOf_kept (n : Nat) (purpose : CheckFor) (margin : Int) (s : State) (h : Kept s) : Kept
    (checkRecordOf n purpose margin s) := by
  unfold checkRecordOf
  repeat' first | with_reducible assumption | with_reducible apply startCheck_kept | with_reducible apply ite_kept
                | split | dsimp only [kept_mk] | intro _ | with_reducible refine Kept.sound ?_

theorem runPair_kept (margin : Int) (s : State) (c : Cmd) (h : Kept s) : Kept (runPair margin s c) := by
  unfold runPair
  repeat' first | with_reducible assumption | with_reducible apply modEndpoint_kept
                | with_reducible apply issueWrite_kept | with_reducible apply epSet_kept
                | with_reducible apply serve_kept | with_reducible apply modCmd_kept
                | with_reducible apply devPuts_kept | with_reducible apply endSession_kept
                | with_reducible apply startCheck_kept | with_reducible apply draw_kept
                | with_reducible apply writePairing_kept | with_reducible apply ite_kept | split
                | dsimp only [kept_mk] | intro _ | with_reducible refine snd_kept (by with_reducible assumption) ?_
                | with_reducible refine Kept.sound ?_

theorem runReleaseStart_kept (s : State) (c : Cmd) (h : Kept s) : Kept (runReleaseStart s c) := by
  unfold runReleaseStart
  repeat' first | with_reducible assumption | with_reducible apply refreshDemand_kept
                | with_reducible apply startSchedule_kept | with_reducible apply modTarget_kept
                | with_reducible apply serve_kept | with_reducible apply complete_kept | with_reducible apply ite_kept
                | split | dsimp only [kept_mk] | intro _ | with_reducible refine Kept.sound ?_

theorem runReleaseStop_kept (margin : Int) (s : State) (c : Cmd) (h : Kept s) : Kept (runReleaseStop margin s c) := by
  unfold runReleaseStop
  repeat' first | with_reducible assumption | with_reducible apply pushTx_kept | with_reducible apply serve_kept
                | with_reducible apply complete_kept | with_reducible apply disarm_kept
                | with_reducible apply ite_kept | split | dsimp only [kept_mk] | intro _
                | with_reducible refine Kept.sound ?_

theorem runSessionCfg_kept (margin : Int) (s : State) (c : Cmd) (h : Kept s) : Kept (runSessionCfg margin s c) := by
  unfold runSessionCfg
  repeat' first | with_reducible assumption | with_reducible apply refreshDemand_kept
                | with_reducible apply modEndpoint_kept | with_reducible apply serve_kept
                | with_reducible apply endSession_kept | with_reducible apply checkRecordOf_kept
                | with_reducible apply complete_kept | with_reducible apply ite_kept | split | dsimp only [kept_mk]
                | intro _ | with_reducible refine Kept.sound ?_

theorem deliverEvent_kept (lane : Nat) (body : List Byte) (s : State) (h : Kept s) : Kept (deliverEvent lane body s) := by
  unfold deliverEvent
  exact ite_kept _ _ (forAll_kept _ _ _ (fun _ _ => putRecord_kept _ _ _ _ _ _) h) h

theorem settleSlot_kept (x0 : SdeEnv) (s : State) (n : Nat) (h : Kept s) : Kept (settleSlot x0 s n) := by
  unfold settleSlot
  repeat' first | with_reducible assumption | with_reducible apply modSlot_kept | with_reducible apply putRecord_kept
                | with_reducible apply ite_kept | split | dsimp only [kept_mk] | intro _
                | with_reducible refine fst_kept (by with_reducible assumption) ?_
                | with_reducible refine Kept.sound ?_

theorem settleEnvelope_kept (x0 : SdeEnv) (s : State) (h : Kept s) : Kept (settleEnvelope x0 s) := by
  unfold settleEnvelope
  repeat' first | with_reducible assumption | with_reducible apply settleSlot_kept | with_reducible apply forAll_kept
                | with_reducible apply ite_kept | split | dsimp only [kept_mk] | intro _
                | with_reducible refine Kept.sound ?_

theorem admitOn_kept (lane : Nat) (s : State) (h : Kept s) : Kept (admitOn lane s) := by
  unfold admitOn
  repeat' first | with_reducible assumption | with_reducible apply admitSubch_kept | with_reducible apply ite_kept
                | split | dsimp only [kept_mk] | intro _ | with_reducible refine Kept.sound ?_

theorem dropUnnamed_kept (s : State) (h : Kept s) : Kept (dropUnnamed s) := by
  unfold dropUnnamed
  repeat' first | with_reducible assumption | with_reducible apply ite_kept | split | dsimp only [kept_mk] | intro _
                | with_reducible refine Kept.sound ?_

theorem runSlotClose_kept (s : State) (c : Cmd) (h : Kept s) : Kept (runSlotClose s c) := by
  unfold runSlotClose
  repeat' first | with_reducible assumption | with_reducible apply modSlot_kept
                | with_reducible apply dropUnnamed_kept | with_reducible apply complete_kept
                | with_reducible apply admitOn_kept | with_reducible apply ite_kept | split | dsimp only [kept_mk]
                | intro _ | with_reducible refine Kept.sound ?_

theorem runSlotOpen_kept (s : State) (c : Cmd) (h : Kept s) : Kept (runSlotOpen s c) := by
  unfold runSlotOpen
  repeat' first | with_reducible assumption | with_reducible apply modSlot_kept | with_reducible apply complete_kept
                | with_reducible apply admitOn_kept | with_reducible apply ite_kept | split | dsimp only [kept_mk]
                | intro _ | with_reducible refine Kept.sound ?_

theorem beginTasting_kept (x0 : Nat) (n : Nat) (idx : Nat) (at_ : Nat) (hz : Nat) (s : State) (h : Kept s) : Kept
    (beginTasting x0 n idx at_ hz s) := by
  unfold beginTasting
  repeat' first | with_reducible assumption | with_reducible apply bindLane_kept | with_reducible apply modFollow_kept
                | with_reducible apply ite_kept | split | dsimp only [kept_mk] | intro _
                | with_reducible refine Kept.sound ?_

theorem carryAf_kept (kind : Nat) (old : Nat) (new : Nat) (taken : Bool) (s : State) (h : Kept s) : Kept (carryAf kind
    old new taken s) := by
  unfold carryAf
  repeat' first | with_reducible assumption | with_reducible apply modAnalogue_kept | with_reducible apply modEng_kept
                | with_reducible apply ite_kept | split | dsimp only [kept_mk] | intro _
                | with_reducible refine Kept.sound ?_

theorem countSwitch_kept (x0 : Tasting) (lane : Nat) (left : Nat) (lost : Nat) (racked : Nat) (s : State) (h : Kept s)
    : Kept (countSwitch x0 lane left lost racked s) := by
  unfold countSwitch
  repeat' first | with_reducible assumption | with_reducible apply modFollow_kept | with_reducible apply ite_kept
                | split | dsimp only [kept_mk] | intro _ | with_reducible refine Kept.sound ?_

theorem fitTastings_kept (x0 : Nat) (x1 : State) (h : Kept x1) : Kept (fitTastings x0 x1) := by
  induction x0 generalizing x1 with
  | zero => exact h
  | succ n ih =>
    unfold fitTastings
    split
    · exact ih _ (endTasting_kept _ _ _ h)
    · exact h

theorem rackItem_kept (lane : Nat) (gen : Nat) (s : State) (m : MustItem) (h : Kept s) : Kept (rackItem lane gen s m)
    := by
  unfold rackItem
  repeat' first | with_reducible assumption | with_reducible apply deliverGated_kept | with_reducible apply ite_kept
                | split | dsimp only [kept_mk] | intro _ | with_reducible refine Kept.sound ?_

theorem runTasteArm_kept (s : State) (c : Cmd) (h : Kept s) : Kept (runTasteArm s c) := by
  unfold runTasteArm
  repeat' first | with_reducible assumption | with_reducible apply complete_kept
                | with_reducible apply clearEntry_kept | with_reducible apply fitTastings_kept
                | with_reducible apply forAll_kept | with_reducible apply ite_kept | split | dsimp only [kept_mk]
                | intro _ | with_reducible refine Kept.sound ?_

theorem runTasteView_kept (s : State) (c : Cmd) (h : Kept s) : Kept (runTasteView s c) := by
  have hv : ∀ (q : State × View) (l : Nat), Kept q.1 → Kept (viewTasting q l).1 := by
    intro q l hq
    unfold viewTasting
    dsimp only
    split
    · exact hq
    · exact setTasting_kept _ _ _ hq
  unfold runTasteView
  exact ite_kept _ _ (complete_kept _ _ _ _ (releasePins_kept _ h))
    (complete_kept _ _ _ _ (devPuts_kept _ _ _ (foldl_fst_kept _ _ _ hv (releasePins_kept _ h))))

theorem settleSwitch_kept (x0 : Tasting) (follow : Nat) (s : State) (h : Kept s) : Kept (settleSwitch x0 follow s) :=
    by
  unfold settleSwitch
  repeat' first | with_reducible assumption | with_reducible apply endTastings_kept | with_reducible apply raise_kept
                | with_reducible apply occupiedNow_kept | with_reducible apply admitSubch_kept
                | with_reducible apply ite_kept | split | dsimp only [kept_mk] | intro _
                | with_reducible refine Kept.sound ?_

theorem switchLanes_kept (x0 : Tasting) (lane : Nat) (follow : Nat) (s : State) (h : Kept s) : Kept (switchLanes x0
    lane follow s) := by
  unfold switchLanes
  repeat' first | with_reducible assumption | with_reducible apply carryAf_kept | with_reducible apply setLane_kept
                | with_reducible apply releaseEngine_kept | with_reducible apply joinAudio_kept
                | with_reducible apply ite_kept | split | dsimp only [kept_mk] | intro _
                | with_reducible refine Kept.sound ?_

theorem expireVotes_kept (s : State) (h : Kept s) : Kept (expireVotes s) := by
  unfold expireVotes
  repeat' first | with_reducible assumption | with_reducible apply ite_kept | split | dsimp only [kept_mk] | intro _
                | with_reducible refine Kept.sound ?_

theorem runDateSet_kept (s : State) (c : Cmd) (h : Kept s) : Kept (runDateSet s c) := by
  unfold runDateSet
  repeat' first | with_reducible assumption | with_reducible apply complete_kept | with_reducible apply setCause_kept
                | with_reducible apply ite_kept | split | dsimp only [kept_mk] | intro _
                | with_reducible refine Kept.sound ?_

theorem runTimeVoteCfg_kept (s : State) (c : Cmd) (h : Kept s) : Kept (runTimeVoteCfg s c) := by
  unfold runTimeVoteCfg
  repeat' first | with_reducible assumption | with_reducible apply complete_kept
                | with_reducible apply expireVotes_kept | with_reducible apply evaluateVotes_kept
                | with_reducible apply ite_kept | split | dsimp only [kept_mk] | intro _
                | with_reducible refine fst_kept (by with_reducible assumption) ?_
                | with_reducible refine Kept.sound ?_

theorem dropVotes_kept (s : State) (h : Kept s) : Kept (dropVotes s) := by
  unfold dropVotes
  repeat' first | with_reducible assumption | with_reducible apply ite_kept | split | dsimp only [kept_mk] | intro _
                | with_reducible refine Kept.sound ?_

theorem invalidate_kept (cause : Nat) (s : State) (h : Kept s) : Kept (invalidate cause s) := by
  unfold invalidate
  repeat' first | with_reducible assumption | with_reducible apply setCause_kept | with_reducible apply ite_kept
                | split | dsimp only [kept_mk] | intro _ | with_reducible refine Kept.sound ?_

theorem runs_kept (s : State) (seq : Nat) (h : Kept s) : Kept (runs s seq) := by
  unfold runs
  repeat' first | with_reducible assumption | with_reducible apply setPhase_kept | with_reducible apply ite_kept
                | split | dsimp only [kept_mk] | intro _ | with_reducible refine Kept.sound ?_

theorem stepped_kept (s : State) (d : Byte) (h : Kept s) : Kept (stepped s d) := by
  unfold stepped
  repeat' first | with_reducible assumption | with_reducible apply ite_kept | split | dsimp only [kept_mk] | intro _
                | with_reducible refine Kept.sound ?_

end Sys2Proof.Machine
end

