-- ==== Sys2Proof/Laws/Link.lean ====
section
/-!
SUPPORT. With no work for path S and no cellar write waiting, serving the link changes nothing; and what the rings do leaves no write waiting.
-/
namespace Sys2Proof.Machine

/-! No cellar write waits -/

theorem dueCmd_none {cs : List Cmd} (h : ∀ c ∈ cs, c.due = none) (before : List Cmd) : dueCmd before cs = none := by
  induction cs generalizing before with
  | nil => rfl
  | cons c cs ih =>
    have hc : c.due = none := h c (by simp)
    simp only [dueCmd, hc]
    exact ih (fun d hd => h d (by simp [hd])) _

theorem startDueN_none {s : State} (h : NoneDue s) (n : Nat) : startDueN n s = s := by
  cases n with
  | zero => rfl
  | succ n => simp [startDueN, dueCmd_none h]

/-- With no write waiting, none starts. -/
@[simp] theorem startDue_none {s : State} (h : NoneDue s) : startDue s = s := startDueN_none h _

theorem modCmd_noneDue {s : State} {f : Cmd → Cmd} (hf : ∀ c, (f c).due = c.due) (h : NoneDue s) (seq : Nat) : NoneDue (modCmd s seq f) := by
  intro c hc
  simp only [modCmd, List.mem_map] at hc
  obtain ⟨d, hd, rfl⟩ := hc
  split
  · rw [hf]; exact h d hd
  · exact h d hd

theorem runs_noneDue {s : State} (h : NoneDue s) (seq : Nat) : NoneDue (runs s seq) :=
  modCmd_noneDue (f := fun c => { c with phase := .running }) (fun _ => rfl) h seq

theorem tellAborts_due (seq : Nat) (a : Bool) (c : Cmd) : (tellAborts seq a c).due = c.due := by
  unfold tellAborts
  split <;> rfl

theorem raiseIf_rings (b : Bool) (q : Irq) (s : State) : (raiseIf b q s).rings = s.rings := by
  unfold raiseIf
  split
  · rw [raise_frame]
  · rfl

theorem post_noneDue {s : State} (h : NoneDue s) (c : Cmd) (status : Nat) (result : List Byte) : NoneDue (post s c status result) := by
  intro d hd
  unfold post at hd
  simp only [raiseIf_rings, List.mem_map] at hd
  obtain ⟨e, he, rfl⟩ := hd
  rw [tellAborts_due]
  rw [devPuts_frame] at he
  exact h e (List.mem_of_mem_eraseP he)

theorem sweepN_noneDue (n : Nat) : ∀ {s : State}, NoneDue s → NoneDue (sweepN n s) := by
  induction n with
  | zero => intro s h; exact h
  | succ n ih =>
    intro s h
    unfold sweepN
    split
    · exact ih (post_noneDue h _ _ _)
    · exact h

/-- Completing a command leaves no cellar write waiting where none waited. -/
theorem complete_noneDue {s : State} (h : NoneDue s) (seq status : Nat) (result : List Byte) : NoneDue (complete seq status result s) := by
  unfold complete
  split
  · exact sweepN_noneDue _ (post_noneDue h _ _ _)
  · exact h

/-! The link -/

theorem linkStep_quiet {s : State} (h : LinkQuiet s) : linkStep s = none := by
  obtain ⟨h0, h1, h2, h3, h4, h5⟩ := h
  simp [linkStep, activeTx, h1]

theorem linkSteps_quiet {s : State} (h : LinkQuiet s) (n : Nat) : linkSteps n s = s := by
  cases n with
  | zero => rfl
  | succ n => simp [linkSteps, linkStep_quiet h]

theorem serving_quiet {s : State} (h : LinkQuiet s) : serving s = .none := by
  obtain ⟨h0, h1, h2, h3, h4, h5⟩ := h
  simp [serving, h1, h2, h3, h4]

/-- A link with nothing to do stays as it is. -/
theorem serve_quiet {s : State} (h : LinkQuiet s) : serve s = s := by
  have hk : kickCheck s = s := by simp [kickCheck, h.2.2.2.1]
  have hw : windowNoLock s = s := by simp [windowNoLock, h.2.2.2.2.2]
  have hs : serveWindows s = s := by
    simp [serveWindows, servingChannel, serving_quiet h, h.2.2.2.2.2]
  have ht : trackPause s = s := by simp [trackPause, h.2.2.1]
  simp only [serve, startDue_none h.1, hw, hk, linkSteps_quiet h, hs, ht]

/-- Posting completions leaves the link quiet where it leaves no cellar write waiting. -/
theorem LinkQuiet.of_ringFrame {s t : State} (h : LinkQuiet s) (d : NoneDue t) (f : RingFrame s t) : LinkQuiet t := by
  refine ⟨d, ?_⟩
  rw [f]
  exact h.2

/-- Completing a command leaves the link quiet. -/
theorem LinkQuiet.complete {s : State} (h : LinkQuiet s) (seq status : Nat) (result : List Byte) :
    LinkQuiet (Machine.complete seq status result s) :=
  h.of_ringFrame (complete_noneDue h.1 _ _ _) (complete_frame _ _ _ _)

end Sys2Proof.Machine
end

