-- ==== Sys2Proof/Laws/Paths.lean ====
section
/-!
SUPPORT. What a front end's change of state does to its path, said once, and that it leaves the other paths and everything else but the rings, the
working SRAM, the interrupt bits and the lanes alone.
-/
namespace Sys2Proof.Machine

/-- `t` is `s` apart from what posting completions writes and the lanes. -/
def LaneFrame (s t : State) : Prop :=
  t = { s with rings := t.rings, mem := t.mem, scrub := t.scrub, lanes := t.lanes, port := { s.port with irqStat0 := t.port.irqStat0 } }

theorem LaneFrame.of_ring {s t : State} (h : RingFrame s t) : LaneFrame s t := by
  unfold LaneFrame
  have h' := h
  unfold RingFrame at h'
  have hl : t.lanes = s.lanes := by rw [h']
  rw [hl]
  exact h'

theorem LaneFrame.refl (s : State) : LaneFrame s s := rfl

theorem LaneFrame.trans {s t u : State} (h : LaneFrame s t) (k : LaneFrame t u) : LaneFrame s u := by
  unfold LaneFrame at *
  rw [k, h]

theorem pathOf_of_laneFrame {s t : State} (h : LaneFrame s t) (p : Nat) : pathOf t p = pathOf s p := by
  rw [h]
  unfold pathOf
  split <;> rfl

theorem pathOf_of_ringFrame {s t : State} (h : RingFrame s t) (p : Nat) : pathOf t p = pathOf s p :=
  pathOf_of_laneFrame (LaneFrame.of_ring h) p

theorem tuneBoundary_frame (p : Nat) (s : State) : RingFrame s (tuneBoundary p s) := by
  unfold tuneBoundary
  split
  · split
    · exact complete_frame _ _ _ _
    · exact RingFrame.refl s
  · exact RingFrame.refl s

theorem tuneDone_frame (p status : Nat) (result : List Byte) (s : State) : RingFrame s (tuneDone p status result s) := by
  unfold tuneDone
  split
  · exact complete_frame _ _ _ _
  · exact RingFrame.refl s

theorem touchLanes_frame (p k : Nat) (s : State) : LaneFrame s (touchLanes p k s) := rfl

theorem touchState_frame (p : Nat) (st : FeState) (s : State) : LaneFrame s (touchState p st s) := by
  unfold touchState
  split <;> first | exact touchLanes_frame _ _ _ | exact LaneFrame.refl s

/-- The front end that a change of state leaves. -/
def feAfter (st : FeState) (f : FrontEnd) : FrontEnd :=
  { f with state := st, retunes := if st = .retune && f.state != .retune then bump 4 f.retunes 1 else f.retunes,
           stateSamples := if st = f.state then f.stateSamples else 0 }

theorem setPath_laneFrame {s t : State} (h : LaneFrame s t) (p : Nat) (x : Path) : LaneFrame (setPath s p x) (setPath t p x) := by
  unfold LaneFrame at *
  unfold setPath
  split <;> (rw [h])

theorem trackZeros_laneFrame {s t : State} (h : LaneFrame s t) (p : Nat) : LaneFrame (trackZeros p s) (trackZeros p t) := by
  have h2 : pathOf t p = pathOf s p := pathOf_of_laneFrame h p
  have h3 : blanked t p = blanked s p := by rw [h]; rfl
  have h4 : clocksRun t = clocksRun s := by rw [h]; rfl
  have h5 : t.clocks = s.clocks := by rw [h]
  have h6 : blankedNow t p = blankedNow s p := by
    funext f
    simp only [blankedNow, h5]
  unfold trackZeros modFe modPath
  simp only [h2, h3, h4, h5, h6]
  exact setPath_laneFrame h p _

/-- A change of state writes the front end, whose run of replaced samples it brings up to date, and the rest of the path stands. -/
theorem setFe_spec (p : Nat) (st : FeState) (s : State) :
    LaneFrame (trackZeros p (modFe s p (feAfter st))) (setFe p st s) := by
  have h1 : LaneFrame s (touchState p (pathOf s p).fe.state s) := touchState_frame _ _ _
  have h2 : pathOf (touchState p (pathOf s p).fe.state s) p = pathOf s p := pathOf_of_laneFrame h1 p
  unfold setFe
  have e : (modFe (touchState p (pathOf s p).fe.state s) p fun f =>
      { f with state := st, retunes := if (decide (st = .retune) && (pathOf s p).fe.state != .retune) = true then bump 4 f.retunes 1 else f.retunes,
               stateSamples := if st = (pathOf s p).fe.state then f.stateSamples else 0 })
      = setPath (touchState p (pathOf s p).fe.state s) p { pathOf s p with fe := feAfter st (pathOf s p).fe } := by
    simp only [modFe, modPath, h2, feAfter]
  simp only []
  rw [e]
  have h3 := setPath_laneFrame h1 p { pathOf s p with fe := feAfter st (pathOf s p).fe }
  have h4 : LaneFrame (trackZeros p (modFe s p (feAfter st))) (trackZeros p (touchState p st
      (setPath (touchState p (pathOf s p).fe.state s) p { pathOf s p with fe := feAfter st (pathOf s p).fe }))) :=
    trackZeros_laneFrame (LaneFrame.trans h3 (touchState_frame _ _ _)) p
  split
  · exact h4
  · exact h4
  · exact h4
  · exact h4.trans (LaneFrame.of_ring (tuneBoundary_frame _ _))

/-- The front end after `trackZeros`: only its run of replaced samples moves. -/
def feTracked (s : State) (p : Nat) (f : FrontEnd) : FrontEnd :=
  if blanked s p && f.state != .off && clocksRun s then { f with blankFrom := some (f.blankFrom.getD s.clocks.sc) }
  else { f with blankedSamples := blankedNow s p f, blankFrom := none }

theorem pathOf_setFe (p : Nat) (st : FeState) (s : State) :
    pathOf (setFe p st s) p = { pathOf s p with fe := feTracked (modFe s p (feAfter st)) p (feAfter st (pathOf s p).fe) } := by
  rw [pathOf_of_laneFrame (setFe_spec p st s) p]
  unfold trackZeros
  rw [pathOf_modFe_same, pathOf_modFe_same]
  rfl

end Sys2Proof.Machine
end

