-- ==== Sys2Proof/Machine/Layout.lean ====
section
/-!
DEFINITION. How a record, a bank and its tag row stand in flash (R426, R435, R436, R447, Table 19-10). The cellar is never mapped into the window
(R65): these bytes are what the state of a log or a bank stands for.
-/
namespace Sys2Proof.Machine

/-- The stage has programmed what an earlier or equal stage programs. -/
def stageRank : RecStage → Nat
  | .torn => 0
  | .opened => 1
  | .payload => 2
  | .crc => 3
  | .commitPart => 4
  | .committed => 5

/-- Header bytes [7:0]: KEY, LEN, VERSION. -/
def recHead (r : Rec) : List Byte := leBytes r.key 2 ++ leBytes r.payload.length 2 ++ leBytes r.version 4

/-- The 16 header bytes once the header is programmed. -/
def recHeader (r : Rec) : List Byte :=
  recHead r ++ leBytes (crc16 (recHead r)) 2 ++
    [0x00, if r.stage = .committed then 0x00 else 0xFF, if r.superseded then 0x00 else 0xFF, if r.tomb then 0xFE else 0xFF, 0xFF, 0xFF]

/-- A record whose operations are whole, as far as its stage has come: an area not programmed yet reads 0xFF. -/
def recBytes (r : Rec) : List Byte :=
  let blank (n : Nat) : List Byte := List.replicate n 0xFF
  let len := r.payload.length
  let body := if 2 ≤ stageRank r.stage then r.payload else blank len
  let crc := if 3 ≤ stageRank r.stage then leBytes (crc32 (recHead r ++ r.payload)) 4 else blank 4
  recHeader r ++ body ++ crc ++ blank (recSize len - 20 - len)

/-- The 8,192 data bytes of a bank. -/
def bankData (x : Bank) : List Byte := cellGets x.data 0 8192

/-- WRITTEN and ERASES, as the tag row holds them and the CRC covers them. -/
def bankMarks (x : Bank) : List Byte := leBytes x.written.toNat 16 ++ leBytes x.erases 4

/-- The tag row of a valid bank: SEQ, its inverse, the CRC-32 over data rows, WRITTEN and ERASES, and these two. -/
def tagRow (x : Bank) : List Byte :=
  leBytes x.seq 4 ++ leBytes (0xFFFFFFFF - x.seq) 4 ++ leBytes (crc32 (bankData x ++ bankMarks x)) 4 ++ bankMarks x ++ List.replicate 32 0xFF

end Sys2Proof.Machine
end

