-- ==== Sys2Proof/WellFormed.lean ====
section
/-!
DEFINITION. Which commands the host or the board can send: operands within the ranges the spec gives their objects. A command
outside them names an object that does not exist; its meaning leaves the state unchanged.
-/
namespace Sys2Proof

/-- The operands name objects that exist: paths 0 to 2 (L, V, S), lanes 0 to 63, endpoints 0 to 127, targets 0 to 3, follow entries 0 to 7, ports 0 and 1. -/
def wellFormed : Instr → Bool
  | .barrier _ | .abort _ | .tune _ | .tuneCpll _ | .laneBind _ | .laneSet _ | .engineAttach _
  | .tasteArm _ | .tasteView _ | .slotOpen _ | .slotClose _ | .dateSet _ | .timeVoteCfg _ | .calRun _
  | .selftest _ | .linkRx _ | .releaseStart _ | .sapCfg _ | .sapStop _ | .cellarPut _ | .cellarGet _
  | .cellarEraseKey _ | .shadowWrite _ | .shadowRead _ | .shadowStore _ | .protectSet _ | .unlock _ => true
  | .laneSync _ _ | .linkTx _ _ | .pair _ _ | .sessionCfg _ _ | .releaseStop _ _ | .sapStart _ _ | .selftestEnd _ _ => true
  | .irqStatWrite n _ | .irqEnWrite n _ => n < 3
  | .registerWrite off _ => off < 64
  | .shedRaise p _ | .shedLower p _ | .pathDrops p => p < 2
  | .synRecal p _ | .lockWindow p _ | .timedLock p | .lockLost p | .offsetAcquire p _ | .agcPeriod p _ => p < 3
  | .laneBlock n _ | .gap n | .rdsGroup n _ | .lfSecond n _ | .drmFrame n _ | .dabFrame n _ | .idTimeout n | .dwellMax n
  | .switchOver n _ => n < 64
  | .voteLife k => 1 ≤ k && k ≤ 4
  | .tastingStart e => e < 8
  | .sessionCheck e _ | .sessionTimeout e => e < 128
  | .releaseDue t _ | .releaseRetry t | .releaseSkip t => t < 4
  | .captureBlock p | .underrun p | .sapStopRampEnd p => p < 2
  | .pdmOverrun pin _ => pin < 4
  | .micSettle g => g < 2
  | .reclaim a => a < 2
  | .calItemEnd o _ => o < 5
  | .phaseStepsApplied ck _ => 4 ≤ ck && ck ≤ 6
  | .transmissionEnd k => 2 ≤ k && k ≤ 6
  | .doorbell _ | .ccConsHWrite _ | .booksSnap _ | .scLatch _ | .cqConsLRead | .cqConsHRead | .ccProdLRead | .ccProdHRead
  | .tempLRead | .tempHRead | .winAddrHWrite _ | .winDataRead | .winDataWrite _ | .slotConsWrite _ | .slotProdRead
  | .statisticsRead | .paceMinRead | .fillHwRead | .capConsWrite _ | .profileWrite _ | .pfCtrlWrite _ | .modeReq _
  | .modeChangeComplete | .softReset _ | .powerGood _ | .powerGoodFall | .presNMake | .boot _ | .removal | .powerFail
  | .pfWarning | .pfPendingClear | .brownOut | .decantExhausted | .decantReturn _ | .pinReset | .vioLoss | .vioReturn | .holdOk
  | .blankInRise | .blankInEnd | .lanesync _ _ | .winOpen _ | .x32Stop | .refCheck _ | .paceWindow _ _ | .governorTick _
  | .leapHold | .counterHoldEnd _ | .counterMinute | .keeptimeListen | .ktListenEnd | .sdeVerify | .lbtBackoff | .atStart
  | .rxAfter | .linkRxEnd | .qualTimeout | .sfdTimeout | .packet _ | .responseTimeout | .scrub
  | .cpllLock _ | .x32Start | .flashOperationEnd _ | .lbtListenEnd _ | .counterSecond _ | .calRange => true

end Sys2Proof
end

