-- ==== Sys2Proof/Tests/Slice0.lean ====
section
/-!
SUPPORT. The model's own tests: small states; a state and operands that meet the hypotheses of each statement, clause by clause; the terms
that WellFormed refuses; and the worked examples of the manual.
-/
namespace Sys2Proof.Tests
open Sys2Proof.Machine
set_option Elab.async false

/-! Small states -/

/-- A 32-byte descriptor: tag 0x1234, an opcode, an object word and parameters from byte 8. -/
def desc (op obj : Nat) (params : List Byte) : List Byte :=
  [0x34, 0x12, lowByte op, 0] ++ leBytes obj 2 ++ [0, 0] ++ (params ++ List.replicate 24 0).take 24

/-- A command that waits in flight. -/
def cmdOf (seq op obj : Nat) (params : List Byte) : Cmd :=
  { seq := seq, desc := desc op obj params, phase := .waiting, selected := 0, abortedCount := 0, waitFor := [], result := [] }

/-- A command that runs. -/
def running (c : Cmd) : Cmd := { c with phase := .running }

/-- The machine after reset, in a mode. -/
def inMode (m : Nat) : State := { State.reset with modes := { State.reset.modes with modeNow := m } }

/-- A state with these commands in flight. -/
def flying (s : State) (cs : List Cmd) : State :=
  { s with rings := { s.rings with inflight := cs, credits := s.rings.credits - cs.length, nextSeq := 5 } }

/-- A state whose window pointer stands at an address. -/
def windowAt (s : State) (a : Nat) : State := { s with port := { s.port with ptr := a } }

/-- The machine after reset, with another phase of its power. -/
def inPhase (p : Phase) : State := { State.reset with power := { State.reset.power with phase := p } }

/-- Two seconds of the counter have passed. -/
def later (s : State) : State := { s with clocks := { s.clocks with sc := 2 ^ 25 } }

/-- The scrub has ended. -/
def scrubbed (s : State) : State := { s with scrub := { next := 8064 } }

/-! The port -/

def wNoVio : State := { State.reset with power := { State.reset.power with vioValid := false } }
def wHeld (h : Byte) : State :=
  { State.reset with port := { State.reset.port with holdCqCons := some h, holdCcProd := some h, holdTemp := some h } }
def wLast (edge halted ring : Bool) (a : Nat) : State :=
  { State.reset with port := { State.reset.port with ptr := a, winEdge := edge, wsHalted := halted, winRing := ring } }
def wPrivate : State := { State.reset with port := { State.reset.port with ptr := 0x100000, wsPrivate := true } }
/-- Slot 1023 open with a ring of 256 bytes at 0x180000, 0x40 of them written. -/
def wSlotRing : State :=
  windowAt { State.reset with slots := { State.reset.slots with slots := [(1023,
    { isOpen := true, ringBase := 0x80000, ringLog2 := 8, prod := 0x140, cons := 0x100, stagedCons := [0x20, 1, 0] })] } }
    (0x240000 + 0x40 * 1023 + 0x1B)
def wCapture : State :=
  windowAt { State.reset with saps := [(1, { capProd := 3, capCons := 1, stagedCapCons := 3 })] } (0x260000 + 0x400 * 1 + 0x19)

/-- A decant through which PRES_N has stood asserted. -/
def wDecantBus : State := { State.reset with power := { State.reset.power with phase := .decanting, decantBus := true } }
/-- An interrupt stands; its enable as given. -/
def wIrq (pol : Bool) : State :=
  { State.reset with port := { State.reset.port with irqStat0 := 0x85, irqEn0 := 0x84, irqStat1 := 0x3F, irqStat2 := 0x03, irqPol := pol } }
/-- The pointer stands at the last byte of the ring of slot 1023, 256 bytes at 0x080000. -/
def wRingSlot : Slot := { isOpen := true, ringBase := 0x80000, ringLog2 := 8 }
def wRingEnd : State :=
  { wLast true false true 0x800FF with slots := { State.reset.slots with slots := [(1023, wRingSlot)] } }
def wFill : State :=
  { State.reset with fabric := { State.reset.fabric with paceMin := 9, fillHwL := 0x1234, fillHwV := 0x3FFF } }

/-! The rings -/

/-- Two commands at the end of the ring, three credits, one completion unread. -/
def wRings : State :=
  { State.reset with
    port := { State.reset.port with stagedCqProdL := 1, stagedCcConsL := 7 },
    rings := { State.reset.rings with
      cqProd := 0x1FE, cqCons := 0x1FE, ccProd := 7, ccCons := 6, credits := 3, unread := 1, nextSeq := 65535,
      inflight := (List.range 508).map fun i => running (cmdOf (65535 - 508 + i) 0x38 0x7000 []) } }
def cBarrier : Cmd := cmdOf 4 0x01 0 [0]
def wOne (c : Cmd) : State := flying State.reset [c]
def cOrdered : Cmd := { cmdOf 6 0x20 0x5000 [] with desc := [0, 0, 0x20, 2] ++ leBytes 0x5000 2 ++ List.replicate 26 0 }
def cReservedFlag : Cmd := { cmdOf 4 0x20 0x5000 [] with desc := [0, 0, 0x20, 8] ++ leBytes 0x5000 2 ++ List.replicate 26 0 }
def cBadKind : Cmd := cmdOf 4 0x20 0xF000 []
def wSame : State := flying State.reset [running (cmdOf 5 0x21 0x5000 []), cmdOf 6 0x20 0x5000 []]
def wAll : State := flying State.reset [running (cmdOf 5 0x21 0x5001 []), cOrdered]
def cPutAt (seq : Nat) : Cmd := cmdOf seq 0x50 0xB000 (leBytes 0x100 2 ++ leBytes 1 2 ++ leBytes 0x1F7FFF 3)
def cBadKindPut : Cmd := cmdOf 4 0x50 0xF000 []
def wHold : State := flying State.reset [cmdOf 3 0x01 0 [1], cmdOf 6 0x20 0x5000 []]

/-! Modes, supplies, resets, fabric, clocks -/

def wTarget (now m : Nat) : State := { State.reset with modes := { State.reset.modes with modeNow := now, target := some m } }
def wNoX32 : State := { State.reset with modes := { State.reset.modes with x32Ok := false } }
/-- A change from PLAY to FOLLOW that a running SAP_CFG holds. -/
def wChangeHeld : State := flying (wTarget 5 4) [running (cmdOf 4 0x48 0xA000 [])]
def wPf (pending : Bool) : State := { State.reset with power := { State.reset.power with pfPending := pending } }
def wHoldReady : State := { State.reset with power := { State.reset.power with holdLow := false } }
def wDirty (d vin : Bool) : State :=
  { State.reset with power := { State.reset.power with decantOnVin := vin }, cellar := { State.reset.cellar with dirty := d } }
def wWaiting (vin : Bool) : State :=
  { State.reset with power := { State.reset.power with phase := .waiting, vinGood := vin, pendingKind := .brownOut } }
def wSoft : State := { State.reset with power := { State.reset.power with phase := .softBoot, savedMode := 3, pendingKind := .soft },
                                        modes := { State.reset.modes with modeNow := 0 } }
def wHot : State := { State.reset with cal := { State.reset.cal with tempAvg := 1000, samples := [(0, 1000)], calDue := 0 } }
def mBoot : BootMeas := { temp := 400, pace := 300, epochOk := true, lock := true }
def wScrub (k : Nat) (early : List Nat) : State :=
  { State.reset with scrub := { next := k, early := early }, mem := [(0x1EFFFF, 9), (0x1F0001, 7), (0x1F0100, 8)] }
def wSecond : State := { inMode 1 with clocks := { State.reset.clocks with sc := 2 ^ 24 } }
def fills (n : Nat) : Fills := { pathL := n, pathV := 0, pathS := 0, linkTx := 0, sap0 := 0, sap1 := 0, pdm := 0 }
def wFabric (vcore cap quiet pace : Nat) : State :=
  { State.reset with fabric := { State.reset.fabric with vcore := vcore, vcoreCap := cap, quietTicks := quiet, pace := pace } }
/-- The die temperature stands where Table 22-5 gives no minimum pace, so that the plan of R117 binds nothing. -/
def noPlan (s : State) : State := { s with cal := { s.cal with temp := 9000 } }
/-- Two lanes of path L run for the host; path L is in RUN. -/
def wLanes : State :=
  { wFabric 35 35 0 40 with
    lanes := [(3, { hold := .host, running := true, gen := 1, idle := false }), (9, { hold := .host, running := true, gen := 1, idle := false }),
              (11, { hold := .host, path := 1, running := true, gen := 1, idle := false })],
    pathL := { State.reset.pathL with fe := { State.reset.pathL.fe with state := .run } } }
def wShed : State := { wLanes with fabric := { wLanes.fabric with shedLevelL := 1 } }
def wUnlocked (m : Nat) : State :=
  { inMode m with clocks := { State.reset.clocks with locked := false, scOnX32 := true } }
def wRefCheck (b : Bool) : State := { State.reset with clocks := { State.reset.clocks with refCheck := b } }
/-- KEEPTIME: a listen is due, and one at its end on lane 5 of path L. -/
def wKeeptime (next : Option Nat) (end_ : Option Nat) : State :=
  { inMode 2 with
    modes := { (inMode 2).modes with ktNext := next, ktEnd := end_, ktLaneUsed := 5 },
    clocks := { State.reset.clocks with sc := 200 * 2 ^ 24 },
    lanes := [(5, { hold := .host, running := true, gen := 1 })],
    pathL := { State.reset.pathL with fe := { State.reset.pathL.fe with state := .run } } }
def wZero : State := { wHot with cal := { wHot.cal with tempAvg := 0, samples := [] } }

/-! Paths, clocks, calibration -/

def bandTable : Tab BandEntry := [(0, { fStart := 3000000, bandStart := 20, bandEnd := 240, khzPerBand := 12000 })]
/-- The machine after reset with a band table on each path. -/
def wTables (m : Nat) : State :=
  { inMode m with
    pathL := { State.reset.pathL with synth := { State.reset.pathL.synth with table := bandTable } },
    pathV := { State.reset.pathV with synth := { State.reset.pathV.synth with table := bandTable } },
    pathS := { State.reset.pathS with synth := { State.reset.pathS.synth with table := bandTable } } }
/-- A TUNE of path L to 30 MHz, its upper end, with a raster of 1 kHz, and of path V to 64 MHz. -/
def cTuneL : Cmd := cmdOf 4 0x10 0x2000 (leBytes 30000000 4 ++ leBytes 1000 3 ++ [0])
def cTuneV : Cmd := cmdOf 4 0x10 0x2001 (leBytes 64000000 4 ++ leBytes 2000000 3 ++ [13])
def cRef : Cmd := cmdOf 4 0x10 0x3000 [1, 4, 2, 1]
def cCk : Cmd := cmdOf 4 0x10 0x3000 ([2, 0, 0, 0, 6, 1] ++ leBytes 1023 2 ++ [63])
def cStep : Cmd := cmdOf 4 0x10 0x3000 [4, 0, 0, 0, 5]
def wStage (c : Cmd) (st : RefStage) : State :=
  { flying (inMode 3) [running c] with clocks := { State.reset.clocks with locked := false, scOnX32 := true, stage := st } }
def wStepping : State :=
  { flying (inMode 3) [running cStep] with clocks := { State.reset.clocks with ck5 := { pend := -3 } } }
/-- Path L's synthesiser locks on band 100: a ratio of 100, windows of 2^10 counts. -/
def locking (y : Synth → Synth) (st : FeState) : State :=
  { wTables 3 with pathL := { State.reset.pathL with
      fe := { State.reset.pathL.fe with state := st, tuned := true },
      synth := y { State.reset.pathL.synth with
        table := bandTable, locking := true, nInt := 100, band := 100, baseBand := 100 } } }
/-- Path V stands in a state on AUTO with this range and fine gain. -/
def wGain (st : FeState) (range fine : Nat) : State :=
  { inMode 3 with pathV := { State.reset.pathV with
      fe := { State.reset.pathV.fe with state := st, gainRange := range, gainFine := fine } } }
/-- Path L stands in a state on AUTO with this range and fine gain. -/
def wGainL (st : FeState) (range fine : Nat) : State :=
  { inMode 3 with pathL := { State.reset.pathL with
      fe := { State.reset.pathL.fe with state := st, gainRange := range, gainFine := fine } } }
def wBlank : State := { wLanes with link := { State.reset.link with pinBlank := true }, clocks := { State.reset.clocks with sc := 2 ^ 24 } }
/-- BLANK_IN stands, from 512 counts ago on path L and from now on path V. -/
def wBlanking : State :=
  { wBlank with
    pathL := { wBlank.pathL with fe := { wBlank.pathL.fe with blankFrom := some (2 ^ 24 - 512) } }
    pathV := { wBlank.pathV with fe := { wBlank.pathV.fe with blankFrom := some (2 ^ 24) } } }
def cCal (obj typ flags : Nat) : Cmd := cmdOf 4 0x30 obj [lowByte typ, lowByte flags]
def wX32Job : State :=
  { flying (inMode 3) [running (cCal 0x3000 0x10 0)] with
    cal := { State.reset.cal with x32Job := some { seq := 4, typ := 0x10, items := [(8, 0)], written := 0, store := false } } }
def wPathJob : State :=
  { flying (inMode 3) [running (cCal 0x2001 1 0)] with
    pathV := { State.reset.pathV with
      fe := { State.reset.pathV.fe with state := .cal },
      job := some { seq := 4, typ := 1, items := [(0, 0), (0, 1)], written := 0, store := false } } }
def wRecal : State :=
  { inMode 3 with
    cal := { State.reset.cal with tempAvg := 800 },
    pathL := { State.reset.pathL with
      fe := { State.reset.pathL.fe with state := .run },
      synth := { State.reset.pathL.synth with locked := true } } }
def mCal (ok : Bool) : CalMeas := { converged := ok, reason := 3, x := -40000, y := 7, z := 1, w := 2 }
def mTest (ok : Bool) : TestMeas := { pass := ok, units := 9, unit := 2, index := 1, fault := 4, signature := 0x01020304 }
def cTest (obj typ : Nat) : Cmd := cmdOf 4 0x31 obj [lowByte typ, 3]
def wBound (c : Cmd) : State := { flying (inMode 3) [c] with lanes := [(63, { hold := .host })] }
def wTested : State := { flying (inMode 3) [running (cTest 0x103F 0x10)] with lanes := [(63, { hold := .test })] }
/-- A FABRIC self-test runs with VCORE at 20, 50 °C and this PACE. -/
def wFabricTest (pace : Nat) : State :=
  let s := { flying (inMode 3) [running (cTest 0 3)] with cal := { State.reset.cal with temp := 400 } }
  { s with fabric := { s.fabric with vcore := 20, pace := pace } }
def wBadBank : State := { flying (inMode 3) [running (cTest 0xB000 0x30)] with
  cellar := { State.reset.cellar with bankB := { valid := false } } }

/-! Lanes and engines -/

def cBind (path hz rate : Nat) : Cmd := cmdOf 4 0x11 0x103F ([lowByte path] ++ leBytes hz 4 ++ [lowByte rate])
/-- Lane 63 as given; path L in RUN with its LO at 10 MHz, path V at 100 MHz. -/
def onAir (s : State) (x : Lane) : State :=
  { s with
    lanes := [(63, x)],
    pathL := { s.pathL with fe := { s.pathL.fe with state := .run, tuned := true, loHz := 10000000, width := 2 } },
    pathV := { s.pathV with fe := { s.pathV.fe with state := .run, tuned := true, loHz := 100000000, width := 3 } } }
def hostLane (path : Nat) (set : LaneSet) : Lane :=
  { hold := .host, path := path, running := true, gen := 1, cur := set, idle := false, seq := 6, settling := 1 }
def amLane : Lane := hostLane 0 { freqHz := 9990000, rate := 1 }
def fmSet : LaneSet := { freqHz := 100400000, rate := 1, engKind := 1, engIndex := 23, params := [4, 0, 9] }
def fmLane : Lane := hostLane 1 fmSet
/-- A LANE_SET of every field. -/
def cSet : Cmd := cmdOf 4 0x12 0x103F ([0xFF, 1] ++ leBytes 9980000 4 ++ [0x32, 0x94, 2, 0x48, 0x24] ++ leBytes 100 2 ++ leBytes 100 2 ++ [5, 6])
def cDetach : Cmd := cmdOf 4 0x14 0x103F [0]
def cAttach : Cmd := cmdOf 4 0x14 0x103F [1, 0xFF, 1]
def cAttachLf : Cmd := cmdOf 4 0x14 0x103F [4, 3, 1, 1, 4]
def lfLaneSet : LaneSet := { freqHz := 77500, rate := 4, engKind := 4, engIndex := 3, params := [0, 2, 10, 0] }
/-- Every analogue unit is held: by lanes that taste for all but lane 63. -/
def wTastingUnits : State :=
  let s := onAir (inMode 4) amLane
  { s with lanes := ((List.range 24).map fun i =>
      (i, { hold := .tasting, path := 1, running := true, gen := 1, cur := { fmSet with engIndex := i } })) ++ [(63, amLane)] }
def cSync : Cmd := cmdOf 4 0x13 0x2000 (leBytes (2 ^ 63 + 1) 8)
def cSync63 : Cmd := cmdOf 4 0x13 0x2000 (leBytes (2 ^ 63) 8)
def pinLane (x : Lane) : Lane := { x with cur := { x.cur with syncPinEn := true } }
def mBlock : BlockMeas :=
  { samples := [], firstSc := 5000, taken := true, pilotHz := 0, carrier := false, snrDb := 0, quality := 0, acq := none, erasedCells := 0 }
def wBlanked (x : Lane) : State := { onAir (inMode 3) x with link := { State.reset.link with txBlank := true } }
def wInCal (x : Lane) : State :=
  let s := onAir (inMode 3) x
  { s with pathL := { s.pathL with fe := { s.pathL.fe with state := .cal } } }
def goodGroup : RdsGroup :=
  { blocks := [0xD311, 0x0408, 0xE0CD, 0x2020].map fun v => { raw := 1024 * v, found := some (1024 * v), reliability := 15 },
    cPrime := false, eBlocks := 0, startSc := 100, endSc := 200 }
/-- Blocks B and D of a group arrive corrected, the others clean. -/
def badGroup : RdsGroup :=
  { goodGroup with blocks := [(0xD311, 0), (0x0408, 1), (0xE0CD, 0), (0x2020, 3)].map fun v =>
      { raw := 1024 * v.1 + v.2, found := some (1024 * v.1), reliability := 15 } }
def wFm (a : Analogue) : State := { onAir (inMode 3) fmLane with analogue := [(23, a)] }
def wLf (d : LfDec) : State := { onAir (inMode 3) (hostLane 0 lfLaneSet) with lf := [(3, d)] }
/-- A second of the envelope whose carrier falls at `t` for 0.1 s. -/
def mSecond (t : Nat) : LfMeas :=
  { points := [(t - 1, 1000), (t, 100), (t + 2 ^ 24 / 10, 100), (t + 2 ^ 24 / 10 + 1, 1000)], unc := 3 }
/-- The frame of descriptor 0 for 2001-01-01 00:00 local time, the newest second first. -/
def lfFrame (erased : Bool) : List (LfSym × Bool) :=
  ((List.range 60).map fun i => if i = 59 then (LfSym.missing, false) else
    if [18, 20, 36, 42, 45, 50].contains i then (LfSym.one, erased) else (LfSym.zero, false)).reverse
def lfDecoder (state : Nat) : LfDec :=
  { state := state, copy := lfFactory0, edges := 4, lastEdge := some (4 * 2 ^ 24), expected := 5 * 2 ^ 24, reference := [(1000, 1)] }
def drmSet : LaneSet := { freqHz := 9990000, rate := 1, preset := 1, engKind := 2, engIndex := 1, params := [1, 0, 0] }
def wDrm (d : Drm) : State := { onAir (inMode 3) (hostLane 0 drmSet) with drm := [(1, d)] }
def dabSet : LaneSet := { freqHz := 99000000, rate := 0, preset := 1, engKind := 3, engIndex := 0, params := [0, 0, 2] }
def wDab (d : Dab) : State := { onAir (inMode 3) (hostLane 1 dabSet) with dab := [(0, d)] }
def fac : Fac :=
  { identity := 0, so := 3, longInt := true, mscMode := 0, sdcMode := 0, services := 2, reconf := 0, svcIndex := 0,
    svc := { id := 5, shortId := 0, data := false, ca := false, language := 0 }, raw := [] }
def drmFrame (f : Option Fac) : DrmFrame :=
  { stamp := 100, superStamp := 100, facErased := false, allErased := false, fac := f, sdc := none, msc := [], residual := 0, mer := 0,
    erasedCells := 0, taps := [] }
def dabFrame (ok : Bool) : DabFrame :=
  { stamp := 100, nextNull := 200, fibs := List.replicate 12 (ok, []), prsOk := true, allErased := false, parts := [], residual := 0, mer := 0,
    erasedCells := 0 }
def fmIdle : Lane := { fmLane with idle := true }
def amPending : Lane := { amLane with pending := some {}, genPending := 65535 }
def amSlow : Lane := { amLane with cur := { amLane.cur with rate := 4 } }
def amUnbound : Lane := { amLane with unbind := true, touched := 4 }
def amShort : Lane := { amLane with shortNext := true, seq := 2 ^ 32 - 1, syncNext := true }
def amNew : Lane := { amLane with pending := some { freqHz := 9000000 }, genPending := 7, settling := 0 }
def amOff : Lane := { amLane with settling := 0, cur := { amLane.cur with freqHz := 30000000 } }
/-- A lane whose blocks take 1,024 ADC samples of path L, and those samples. -/
def quick (x : Lane) : Lane := { x with cur := { x.cur with rate := 0, blockLen := 0 } }
def mQuick : BlockMeas := { mBlock with samples := List.replicate 1024 (100, -3) }
def amCoarse : Lane := { amLane with settling := 0, cur := { amLane.cur with detSrc := 2 } }
def amFine : Lane := { amLane with settling := 0 }
def amFirst : Lane := { quick amLane with idle := true }
/-- A set on path V whose chain delays nothing. -/
def flatLane : Lane := { hostLane 1 { freqHz := 100400000, rate := 4 } with shortNext := true }
def gapLane (x : Lane) : Lane := { x with gaps := [(0, 2 ^ 40)] }
def lfAtMark (erased : Bool) : LfDec := { lfDecoder 4 with prevMark := true, symbols := lfFrame erased }
def wSecondsOn (s : State) : State := { s with clocks := { s.clocks with sc := 2 ^ 25 } }
/-- What descriptor 0 reads from `lfFrame false`. -/
def lfTime0 : LfTime := (lfRead State.reset lfFactory0 (lfFrame false).reverse).toOption.getD
  { minutes := 0, year2 := 0, offset := 0, leap := false, dst := false, dstAnnounce := false }

/-! Tasting and slots -/

def tasting (state kind : Nat) : Tasting :=
  { state := state, entry := 7, kind := kind, engIndex := 0, tgen := 5, freqHz := 100500000, run := 0, started := 0, matchedAt := 0, items := [],
    rolled := 0, afTaken := false }
def mustItem : MustItem :=
  { item := { kind := 0x10, lane := 0, gen := 5, iseq := 1, stamp := 9, payload := [1, 2, 3] }, field := none, addr := 0x1A0000, pinned := false }
def tastingLane : Lane :=
  let set := { fmSet with freqHz := 100500000, engIndex := 0 }
  { hold := .tasting, path := 1, running := true, gen := 1, cur := set }
def withMust (t : Tasting) : Tasting := { t with items := [mustItem] }
/-- Lane 63 tastes for entry 7 of lane 0's list. -/
def wTasted (cs : List Cmd) : State :=
  { flying (inMode 5) cs with lanes := [(63, tastingLane)], taste := { State.reset.taste with tastings := [(63, tasting 2 1)] } }
/-- Lane 63 plays FM, followed by entry 7 with two frequencies in its AF list. -/
def wFollow (tastings : List (Nat × Tasting)) : State :=
  let s := onAir (inMode 4) fmLane
  { s with
    lanes := (tastings.map fun t => (t.1, tastingLane)) ++ [(63, fmLane)],
    analogue := [(23, { rdsSync := true, pi := some 0xD311, af := { entries := [10050, 9990] } })],
    taste := { s.taste with
      follows := [(7, { valid := true, lane := 63, kind := 1, ident := 0xD311, perFollow := 2, idTimeout := 1, dwellMax := 1 })],
      tastings := tastings } }
def wUnfollowed : State := { wFollow [] with taste := {} }
def wNoList : State := { wFollow [] with analogue := [] }
def cArm (op e : Nat) (rest : List Byte) : Cmd := cmdOf 4 0x18 0x4000 ([lowByte op, lowByte e] ++ rest)
def cArmSet : Cmd := cArm 0 7 ([0x11, 0xD3, 0, 0, 63, 1, 80, 8, 60, 5])
def cArmMost : Cmd := cArm 3 0 [64, 16]
def cView (lane : Nat) (flags : Nat) : Cmd := cmdOf 4 0x19 0x4000 ([lowByte lane, lowByte flags] ++ leBytes 0x1F7FF0 3 ++ leBytes 1 2)
/-- DWELL_MAX has passed for lane 0 while another candidate waits for its place. -/
def wDwell : State :=
  let s := later (wFollow [(0, tasting 2 1)])
  { s with taste := { s.taste with follows := [(7, { valid := true, lane := 63, kind := 1, ident := 0xD311, perFollow := 1, dwellMax := 2 })] } }
/-- SLOT_OPEN of slot 1023: RAW of lane 63, or SDE, with a ring of 2^20 bytes. -/
def cOpen (policy : Nat) : Cmd :=
  cmdOf 4 0x20 0x53FF ([lowByte policy, 63, 0xFF, 0] ++ leBytes 0x7FFF 4 ++ leBytes 0xFFFF 2 ++ [0, 0] ++ leBytes 0 2 ++ leBytes 1 2 ++
    leBytes 0 3 ++ [20])
def wOpenSlot (c : Cmd) : State := { flying (inMode 6) [c] with slots := { State.reset.slots with slots := [(1023, { isOpen := true })] } }
def cClose : Cmd := cmdOf 4 0x21 0x53FF []
/-- An envelope of issuer 1 with sequence 9. -/
def envelope : SdeEnv :=
  { carrier := 1, lane := 63, aid := 0x4ABC, stream := 0, sub := 0, lengthOk := true, stamp := 0, iseq := 2,
    bytes := [1, 1, 9, 0, 0, 0] ++ leBytes 60000 3 ++ leBytes 0 3 ++ leBytes 60000 3 ++ leBytes 1 3 ++ [5, 0] ++ List.replicate 68 7 }
def sdeSlot : Slot :=
  { isOpen := true, policy := 1, timeRule := true, srcLane := 63, issuerMask := 2, ringBase := 0, ringLog2 := 8, floors := [(1, 8)] }
def keyRec (key : Nat) (payload : List Byte) : Rec :=
  { key := key, version := 1, tomb := false, payload := payload, stage := .committed, superseded := false, crcOk := true, sector := 16, off := 16 }
def wEnvelope (x : Slot) (e : SdeEnv) : State :=
  { inMode 3 with
    slots := { State.reset.slots with slots := [(1023, x)], waiting := [e] },
    cellar := { State.reset.cellar with keyLog := { recs := [keyRec 0x8101 (List.replicate 64 1)] } } }
/-- The envelope under a signature that verifies, and the key for it: with U1 = 3 and U2 = 1 the sum of FIPS 186 is a point whose x is r. -/
def signed : SdeEnv :=
  let r := 0x7494BDB16A4E06BB61CBE358241DBB414AC9D9DED658243E66F990CA4CA5586E
  { envelope with bytes := envelope.bytes.take 24 ++ beBytes r 32 ++ beBytes r 32 }
def wSigned (x : Slot) : State :=
  let s := wEnvelope x signed
  let key := beBytes 0xD68F68D763C9E39E453A27B975B01A8CD6B8130EF43AF6E6CA73CEF12194128C 32 ++
    beBytes 0xC8F98D5D9BBD9E5526D21B7FE8DDC6C3D2BE0C2FEBCDAD7F99E18DC75B271750 32
  { s with cellar := { s.cellar with keyLog := { recs := [keyRec 0x8101 key] } } }
def sdeTyped : Slot := { sdeSlot with ptype := 6 }
def sdeFloor : Slot := { sdeSlot with floors := [(1, 9)] }
def sdeUnmasked : Slot := { sdeSlot with issuerMask := 0 }
def sdeAll : Slot := { sdeUnmasked with policy := 2 }

/-! The calendar and the home link -/

def cDate (mon day hour min sec at_ : Nat) : Cmd :=
  cmdOf 4 0x28 0x6000 (leBytes 2199 2 ++ [lowByte mon, lowByte day, lowByte hour, lowByte min, lowByte sec] ++ leBytes (2 ^ 24 - 1) 3 ++
    [lowByte at_, 0] ++ leBytes 1000 8)
def cVote : Cmd := cmdOf 4 0x29 0x6000 ([63, 4, 1] ++ leBytes 10 2 ++ leBytes 86400 4 ++ [15, 0, 1, 2])
def cVoteClear : Cmd := cmdOf 4 0x29 0x6000 [32]
/-- The calendar stands at a second of an MJD, and is valid. -/
def wCalendar (mjd sod : Nat) : State :=
  { inMode 3 with time := { State.reset.time with valid := true, offset := utcCounts mjd sod } }
def wVotes : State :=
  { wCalendar 60000 5 with
    time := { (wCalendar 60000 5).time with votes := [(1, { current := true, stamp := 0 }), (2, { current := true, stamp := 43201 * 2 ^ 24 })] }
    clocks := { State.reset.clocks with sc := 43201 * 2 ^ 24 } }
def wLeap (sod : Nat) : State :=
  let s := wCalendar 60000 sod
  { s with time := { s.time with leapPending := true, leapTarget := 59999 } }
def wStopped (held : Bool) : State :=
  let s := wCalendar 60000 0
  { s with clocks := { s.clocks with scHeld := held } }
def wMinute : State := { inMode 3 with clocks := { State.reset.clocks with sc := 60 * 2 ^ 24 } }

def band (ppm : Nat) : SubBand :=
  { fLowKhz := 868000, fHighKhz := 868600, chFirstKhz := 868100, chStepKhz := 200, maxPower := 28, phyAllow := 1, dutyPpm := ppm, lbtThresh := -80 }
def profile3 : Profile := { channelHz := 868300000, state := 1 }
def wLink (ok : Bool) (ppm : Nat) : State :=
  let s := wTables 4
  { s with link := { s.link with profiles := [(3, profile3)], region := { ok := ok, id := 1, bands := [{}, band ppm] } } }
def cTx : Cmd := cmdOf 4 0x39 0x7000 ([3, 1] ++ leBytes 0x1F7FF8 3 ++ leBytes 8 2)
def cRx (profile : Nat) : Cmd :=
  cmdOf 4 0x38 0x7000 ([lowByte profile, 0] ++ leBytes 0x1F7FC0 3 ++ leBytes 64 2 ++ [0] ++ leBytes 0 4 ++ leBytes 60000 2)
def txJob (stage : TxStage) : TxJob :=
  { newTx (.host 4) none with stage := stage, profile := profile3, profileNo := 3, channel := 868300000, psdu := [1, 2, 3], cost := 30, band := 1 }
/-- The LINK_TX of a job runs on path S in a state of its front end. -/
def wTx (j : TxJob) (st : FeState) : State :=
  let s := wLink true 10000
  { flying s [running cTx] with
    link := { s.link with txs := [j], txBlank := j.stage == .onAir },
    pathS := { s.pathS with fe := { s.pathS.fe with state := st, loHz := linkLo 868300000, loNow := linkLo 868300000 }, synth := { s.pathS.synth with locked := true } } }
def jobAt (stage : TxStage) (t : Nat) : TxJob := { txJob stage with at_ := some t }
def jobTries (n : Nat) : TxJob := { txJob .listen with tries := n }
def jobAfter : TxJob := { txJob .onAir with rxAfterMs := some 2000, endStamp := 500 }
def jobWindow (t : Nat) : TxJob := { txJob .after with rxAfterMs := some 1, until_ := t }
def rxWindow (until_ : Nat) : RxWindow :=
  { seq := 4, profile := profile3, profileNo := 3, channel := 868300000, dest := 0x1F7FC0, size := 64, maxPackets := 0, keepBad := false,
    ownToo := false, until_ := until_, records := 0, bytes := 0, dropped := 0, pausedFor := 0, pausedAt := none }
def wRx (until_ : Nat) (st : FeState) : State :=
  let s := wLink true 10000
  { flying s [running (cRx 3)] with
    link := { s.link with hostRx := some (rxWindow until_) },
    pathS := { s.pathS with fe := { s.pathS.fe with state := st, loHz := linkLo 868300000, loNow := linkLo 868300000 }, synth := { s.pathS.synth with locked := true } } }
def packetOf (ok : Bool) : RxPacket :=
  { modeSwitch := !ok, reserved := 0, headerOk := true, length := 5, fcsOk := true, fcs4 := true, whitened := false, ofdm := false, rateOrMcs := 0, option := 0, rssi := -240, snr := 100, afc := 5,
    stamp := 44, psdu := [1, 2, 3, 4, 5] }
def wLeapSoon : State := { wLeap 0 with time := { (wLeap 0).time with offset := (wLeap 0).time.offset - 1 } }
def wNoBands : State := { wLink true 0 with link := { (wLink true 0).link with region := { ok := true, bands := [] } } }

/-! Sessions and release -/

def paired (e : Endpoint) : Endpoint := { e with paired := true, eui := 0x1122334455667788, role := 1 }
/-- Endpoint 127 as given; the machine is in LISTEN with an empty key log whose head sector takes records. -/
def wEndpoint (e : Endpoint) : State :=
  let s := inMode 3
  { s with
    sessions := { s.sessions with endpoints := [(127, e)] },
    cellar := { s.cellar with keyLog := { sectors := [(16, { fill := 16 })], ring := [16] } } }
/-- A calibration holds path S. -/
def held (s : State) : State :=
  { s with pathS := { s.pathS with
      fe := { s.pathS.fe with state := .cal },
      job := some { seq := 900, typ := 1, items := [(0, 0)], written := 0, store := false } } }
def cPair (op check : Nat) : Cmd := cmdOf 4 0x40 0x807F ([lowByte op, 1, lowByte check, 0] ++ leBytes 0x1122334455667788 8 ++ leBytes 0x1F7FF0 3)
/-- The key lies in scratch. -/
def withKey (s : State) : State := memPuts s 0x1F7FF0 ((List.range 16).map fun i => lowByte (i + 1))
def cSession (op : Nat) : Cmd := cmdOf 4 0x41 0x807F ([lowByte op, 0x1F, 0xFF, 5] ++ leBytes 3600 2 ++ leBytes 3601 4)
def inSession : Endpoint := { paired {} with session := true, demand := true, useWinPin := true, nextCheck := 10, expires := 20, checkPeriod := 60 }
def atSecond (n : Nat) (s : State) : State := { s with clocks := { s.clocks with sc := n * 2 ^ 24 } }
def check (tries : Nat) (until_ : Nat) : Check :=
  { ep := 127, purpose := .periodic, nonce := 5, tries := tries, limit := 3, windowOpen := true, until_ := until_, tEnd := 0, fail := 0,
    margin := none, key := [], eui := 0x1122334455667788 }
def wCheck (k : Check) : State :=
  let s := held (wEndpoint inSession)
  { s with sessions := { s.sessions with checks := [k] } }
def wNoVioPin : State := { wEndpoint inSession with power := { State.reset.power with vioValid := false } }
def cStart (ep session level interval : Nat) : Cmd :=
  cmdOf 4 0x42 0x9003 ([lowByte ep, lowByte session, lowByte level, 0] ++ leBytes interval 2)
def cStop (send : Nat) : Cmd := cmdOf 4 0x43 0x9003 [lowByte send]
def target (st : TargetState) : Target := { state := st, ep := 126, level := 50, nextDue := 30 * 2 ^ 24 }
def valve : Endpoint := { paired := true, role := 3 }
def wTargets (t : Target) : State :=
  let s := inMode 3
  { s with sessions := { s.sessions with endpoints := [(126, valve)], targets := [(3, t)] } }
def noTargets : State := { wTargets {} with sessions := { (wTargets {}).sessions with targets := [] } }
def retrying : Target := { target .sending with retry := true }
/-- The instant 20 ms before the target's due time, in counts. -/
def nearDue (early : Nat) (s : State) : State :=
  { s with clocks := { s.clocks with sc := 30 * 2 ^ 24 - microsCounts 20000 - early } }

/-! Audio and the cellar -/

def sapCfg : SapCfg := { capMask0 := 3, framesPerBlock := 16 }
def sap (st : SapState) : Sap :=
  { cfg := sapCfg, used := sapCfg, state := st, configOk := true, poolBlocks := 2, underrunFrames := 5, blockFrame := 99, capProd := 65535,
    capCons := 65534, gapNext := true, divInt := 16 }
def wSap (cs : List Cmd) (x : Sap) : State := { flying (inMode 5) cs with saps := [(1, x)] }
def cSap (op : Nat) : Cmd := cmdOf 4 op 0xA001 []
def cSap0 (op : Nat) : Cmd := cmdOf 4 op 0xA000 []
def frameOf (zero : Bool) : SentFrame := { words0 := [5, -7], words1 := [], muted := false, settling := false, lost := false, zero := zero }
/-- A port that has sent 17 frames which no block holds yet. -/
def sentSap (x : Sap) (zero : Bool) : Sap :=
  { x with sent := [frameOf zero, frameOf false], frames := List.replicate 16 (frameOf false) ++ [frameOf zero] }
/-- Both ports, SAP1 on SAP0's frame clock. -/
def wShared (cs : List Cmd) (x y : Sap) : State :=
  { flying (inMode 5) cs with saps := [(0, x), (1, { y with cfg := { y.cfg with shareFs := true }, used := { y.used with shareFs := true } })] }
def fallSap : Sap := { sap .stopping with fall := some 0, firstEdge := 0 }
def wMics (s : State) : State :=
  { s with pdm := { s.pdm with clkA := true, clkB := true, settlingA := some 0, settlingB := some 0 } }
def fullSap : Sap := { sap .running with capCons := 65533 }
def micSap : Sap :=
  let cfg := { sapCfg with map0 := [(0, 0x2007)] }
  { sap .running with cfg := cfg, used := cfg }

/-- The record and key logs with room at their heads, and these records of the two areas. -/
def wCellar (cs : List Cmd) (recs keys : List Rec) : State :=
  let s := flying (inMode 1) cs
  { s with cellar := { s.cellar with
      recLog := { sectors := [(32, { fill := 1000 })], ring := [32], recs := recs },
      keyLog := { sectors := [(16, { fill := 1000 })], ring := [16], recs := keys } } }
def recOf (key : Nat) (payload : List Byte) : Rec := { keyRec key payload with version := 4, sector := 32 }
def cPut (key : Nat) : Cmd := cmdOf 4 0x50 0xB000 (leBytes key 2 ++ leBytes 1 2 ++ leBytes 0x1F7FFF 3)
def cGet (key : Nat) : Cmd := cmdOf 4 0x51 0xB000 (leBytes key 2 ++ leBytes 1024 2 ++ leBytes 0x1F7C00 3)
def cErase (key : Nat) : Cmd := cmdOf 4 0x52 0xB000 (leBytes key 2)
def protect (b : Nat) : Rec := recOf 0x4001 [lowByte b]
def password (region access : Nat) : Rec := keyRec (0x8200 + 2 * region + access) [1, 2, 3, 4, 5, 6, 7, 8]
/-- A record log with no room: every sector in use but one. -/
def wFull : State :=
  let s := wCellar [cPut 0x3FFF] [] []
  let big := { recOf 0x100 (List.replicate 1024 7) with sector := 33 }
  { s with cellar := { s.cellar with recLog := { s.cellar.recLog with
      sectors := ((List.range 217).map fun i => (32 + i, { retired := true })), ring := [249], recs := [big] } } }
def cShadow (op addr len mode : Nat) : Cmd := cmdOf 4 op 0xB001 (leBytes addr 2 ++ leBytes len 2 ++ leBytes 0x1F0000 3 ++ [lowByte mode])
def wShadow (cs : List Cmd) : State :=
  let s := memPuts (wCellar cs [] []) 0x1F0000 [0, 9, 0, 8]
  { s with cellar := { s.cellar with shadow := [(0x13FE, 5), (0x1400, 6), (0x1FFF, 7)] } }
def wWritten (w : BitVec 128) (d : Bool) (cs : List Cmd) : State :=
  let s := wShadow cs
  { s with cellar := { s.cellar with written := w, dirty := d, bankB := { seq := 7 } } }
def cStore : Cmd := cmdOf 4 0x55 0xB001 []
def cProtect (r f : Nat) : Cmd := cmdOf 4 0x56 (0xB000 + r) [lowByte f, 1]
def cUnlock (r a : Nat) (pw : List Byte) : Cmd := cmdOf 4 0x57 (0xB000 + r) ([lowByte a] ++ pw)
def writeOf (key : Nat) (st : RecStage) (left : Nat) (again : Bool) : Write :=
  { seq := some 4, keyArea := decide (0x8000 ≤ key), rec_ := { recOf key [5, 6] with version := 5, stage := st }, opsLeft := left, retried := again }
def wWriting (c : Cmd) (w : Write) : State :=
  let s := wCellar [running c] [recOf 0x100 [1]] [keyRec 0x8101 [2]]
  { s with cellar := { s.cellar with write := some w } }
def storeOf (left : Nat) : Store := { seq := some 4, bankB := true, newSeq := 9, data := [(1, 2)], written := 1, erases := 3, opsLeft := left }
def wStoring (left : Nat) : State :=
  let s := wCellar [running cStore] [] []
  { s with cellar := { s.cellar with store := some (storeOf left) } }
/-- Four sectors of the key area are free: the ring holds twelve. -/
def wReclaim (n : Nat) : State :=
  let s := wCellar [] [] [{ keyRec 0x8101 [2] with sector := 17 }]
  { s with cellar := { s.cellar with keyLog := { s.cellar.keyLog with ring := (List.range n).map (· + 16) } } }
def cAbort : Cmd := cmdOf 4 0x02 0 [3]
def cBarrierAt (seq : Nat) : Cmd := cmdOf seq 0x01 0 [1]
def noPin : Endpoint := { inSession with useWinPin := false }
def unused (x : Sap) : Sap := { x with used := {} }

/-- With one lane in the table, its first block begun, no lane that a synchronisation reaches waits for its first block. -/
theorem begun_lane {s : State} {x : Lane} (h : s.lanes = [(63, x)]) (hx : x.idle = false) (p n : Nat) (hs : syncable s p n = true) :
    (laneOf s n).idle = false := by
  by_cases e : n = 63
  · simp [laneOf, h, tabGet, e, hx]
  · have hl : laneOf s n = {} := by simp [laneOf, h, tabGet, Ne.symm e]
    rw [syncable, hl] at hs
    simp at hs

/-- What is asked of an engine's holder holds where nothing holds it. -/
theorem no_holder {s : State} {kind i : Nat} {P : Nat → Lane → Prop} (h : engineHolder s kind i = none) (m : Nat) (y : Lane)
    (e : engineHolder s kind i = some (m, y)) : P m y := by rw [h] at e; cases e

/-- A level is the unit below it or the next: what holds at both holds of it. -/
theorem level_cases {P : Int → Prop} (u num den : Nat) (s : State) (n : Int) (h0 : num ≠ 0) (hn : dbFloor u num den = n) (ha : P n)
    (hb : P (n + 1)) : P (dbLevel u num den s).1 := by
  have hk : (draw 2 s).1 = 0 ∨ (draw 2 s).1 = 1 := by
    have : (draw 2 s).1 < 2 := Nat.mod_lt _ (by decide)
    omega
  simp only [dbLevel, if_neg h0, hn]
  rcases hk with hk | hk <;> rw [hk]
  · simpa using ha
  · simpa using hb

/-! The commands that name no object of the block are not well formed: one term for each check -/

theorem test_ill_formed_registers :
    wellFormed (.irqStatWrite 3 0) = false ∧ wellFormed (.irqEnWrite 3 0) = false ∧ wellFormed (.registerWrite 64 0) = false := by decide

theorem test_ill_formed_paths_and_lanes :
    wellFormed (.shedRaise 2 0) = false ∧ wellFormed (.synRecal 3 none) = false ∧ wellFormed (.gap 64) = false ∧ wellFormed (.tastingStart 8) = false ∧
      wellFormed (.calItemEnd 5 (mCal true)) = false ∧ wellFormed (.phaseStepsApplied 3 1) = false ∧ wellFormed (.phaseStepsApplied 7 1) = false := by
  decide

theorem test_ill_formed_homes :
    wellFormed (.voteLife 0) = false ∧ wellFormed (.voteLife 5) = false ∧ wellFormed (.sessionTimeout 128) = false ∧
      wellFormed (.releaseRetry 4) = false ∧ wellFormed (.underrun 2) = false ∧ wellFormed (.pdmOverrun 4 0) = false ∧
      wellFormed (.micSettle 2) = false ∧ wellFormed (.transmissionEnd 1) = false ∧ wellFormed (.transmissionEnd 7) = false ∧ wellFormed (.reclaim 2) = false := by decide

theorem test_well_formed : wellFormed (.barrier 65535) = true ∧ wellFormed (.phaseStepsApplied 6 1) = true ∧ wellFormed (.sessionTimeout 127) = true := by
  decide

/-! Worked examples of the manual -/

/-- Chapter 3, the completion ring: the read of the last byte of entry 511 brings the pointer to 0x1FC000 and halts nothing. -/
theorem test_window_ring_wraps : (movePointer (wLast false false true 0x1FDFFF)).port.ptr = 0x1FC000 ∧
    (movePointer (wLast false false true 0x1FDFFF)).port.wsHalted = false := by decide +kernel

/-- The same read with RING = 0 and WIN_EDGE = 0 carries the pointer to 0x1FE000; with WIN_EDGE = 1 the pointer halts at 0x1FDFFF. -/
theorem test_window_edge : (movePointer (wLast false false false 0x1FDFFF)).port.ptr = 0x1FE000 ∧
    (movePointer (wLast true false false 0x1FDFFF)).port.ptr = 0x1FDFFF ∧ (movePointer (wLast true false false 0x1FDFFF)).port.wsHalted = true := by
  decide +kernel

/-- The thermostat of chapter 4: a CAL_RUN of path L, a BARRIER and an ABORT by tag from entry 510 on, CQ_PROD_L = 0x01 staged. -/
def wLastThree : State :=
  let s := { onAir (inMode 4) amLane with
             rings := { State.reset.rings with cqProd := 510, cqCons := 510, ccProd := 200, ccCons := 200, nextSeq := 0x1F0E },
             port := { State.reset.port with stagedCqProdL := 1 } }
  memPuts (memPuts (memPuts s 0x1FBFC0 (desc 0x30 0x2000 [1])) 0x1FBFE0 (desc 0x01 0 [])) 0x1F8000 (desc 0x02 0 [1, 0, 0x34, 0x12])

/-- Chapter 4: with 510 in CQ_PROD and CQ_CONS and 512 credits, CQ_PROD_L = 0x01 and CQ_PROD_H = 0x00 issue three commands. -/
theorem test_doorbell_across_the_end :
    (match exec (.doorbell 0) wLastThree with
      | .next t => t.rings.credits == 509 && t.rings.inflight.map (·.seq) == [0x1F0E, 0x1F0F, 0x1F10] && t.rings.cqCons == 1 && t.rings.cqProd == 1
      | _ => false) = true := by
  decide +kernel

/-- Chapter 7: the LO of 196.615 MHz on path V, at 26 MHz and doubled. -/
theorem test_dab_synthesiser :
    let a := spurAfterLock 1 196615000 {} (programLo 1 196615000 {} {})
    let b := spurAfterLock 1 196615000 { mult := 1 } (programLo 1 196615000 { mult := 1 } {})
    (a.divLog2 = 4 ∧ a.nInt = 120 ∧ a.nFrac = 16673972 ∧ a.loErr = 39 ∧ a.ibNear = true) ∧
      (b.nInt = 60 ∧ b.nFrac = 0x7F365A ∧ b.vcoKhz = 3145840 ∧ b.loErr = 39 ∧ b.ibOffset = 0x64F0 ∧ b.ibNear = false) := by
  decide +kernel

/-- Chapter 7, step 6: entry 3 of the Harrow table gives band 0x2E at 3,145,840 kHz. -/
theorem test_band_of_the_table :
    selectBand [(3, { fStart := 3120000, bandStart := 0x2C, bandEnd := 0x3F, khzPerBand := 11500 })] 3145840 = (3, 0x2E) := by decide +kernel

/-- Chapter 8: the LO of 1,210,500 Hz on path L takes k = 12 and a VCO of 4,958,208 kHz. -/
theorem test_path_l_divider : dividerLog2 0 1210500 = 12 ∧ (programLo 0 1210500 {} {}).vcoKhz = 4958208 := by decide +kernel

/-- Chapter 10: the lanes L00 and L01 of the thermostat. -/
theorem test_lane_words :
    let l0 : LaneSet := { freqHz := 1143000, rate := 1, preset := 1, blockLen := 2 }
    let l1 : LaneSet := { freqHz := 68500, rate := 4, preset := 2, blockLen := 0 }
    ncoWordOf 0 1143000 1210500 = 0xFA600000 ∧ ncoWordOf 0 68500 1210500 = 0xA0D55555 ∧ fineDelay2 0 l0 = 0x0B2B ∧ fineDelay2 0 l1 = 0x0132FB ∧
      coarseDelay2 0 l0 = 0x7B ∧ coarseDelay2 0 l1 = 0x07FB ∧ settleCount l0 = 1 ∧ settleCount l1 = 2 := by
  decide +kernel

/-- Chapter 14: an SDE record of a 182-byte envelope is 216 bytes with RTYPE 3, and starts with its length and RSEQ 37. -/
theorem test_sde_record :
    let e : SdeEnv := { envelope with bytes := ([1, 1, 0x0B, 0x10, 0, 0] : List Byte) ++ List.replicate 176 0 }
    let r := recordBytes { rseqNext := 37 } 3 false (sdeBody e .verified)
    r.length = 216 ∧ r.take 8 = [0xD8, 0, 3, 0, 0x25, 0, 0, 0] ∧ (r.drop 11).take 5 = [1, 0x0B, 0x10, 0, 0] := by
  decide +kernel

/-- Chapter 15: 05:42 UTC on 14 March 2031 and the offset of the LF vote. -/
theorem test_consensus_offset :
    mjdOf 2031 3 14 = 62939 ∧ civil 62939 = (2031, 3, 14) ∧ weekday 62939 = 5 ∧
      utcCounts 62939 20520 - (7265 * 2 ^ 24 + 0x4189) = 0x0144206C46FFBE77 := by
  decide +kernel

/-- Chapter 16: the hub's 24-byte PSDU at 50 kb/s costs 58 tokens. -/
theorem test_frame_cost :
    let p : Profile := { flags := 0x10, preambleLen := 8 }
    costOf { newTx (.host 0) none with profile := p, psdu := List.replicate 24 0 } = 58 := by
  decide +kernel

/-- Chapter 18: SAP0 in TDM at 44.1 kHz with four slots of 32 bits: the divider, its error and the pool's blocks. -/
theorem test_audio_divider :
    let c : SapCfg := { format := 0, slots := 4, width := 3, rateHz := 44100, capMask0 := 0xC, framesPerBlock := 441 }
    let d := sapDivider 80 c
    d = 8 * 2 ^ 24 + 0xB51D9B ∧ sapFsErr 80 d c = -5 ∧ poolBlocks c = 36 := by
  decide +kernel

/-- Chapter 19: a record of 40 bytes takes 64; 12 bytes at 0x0038 wrap in the page, or span into the next. -/
theorem test_cellar_sizes :
    recSize 40 = 64 ∧ (List.range 12).map (shadowAddr false 0x38) = [0x38, 0x39, 0x3A, 0x3B, 0x3C, 0x3D, 0x3E, 0x3F, 0, 1, 2, 3] ∧
      shadowResult (cShadow 0x53 0x38 12 0) = [4, 0, 1] ∧ shadowResult (cShadow 0x53 0x38 12 1) = [0x44, 0, 2] := by
  decide +kernel

/-- An empty queue: the block idles for one tick. -/
theorem test_idle_step : (match step State.reset with | .next t => t.pending.isEmpty && t.clocks.sc != State.reset.clocks.sc | _ => false) = true := by
  decide +kernel


/-- The LINK_TX of `cTx` with these flags and these last bytes (CHANNEL_HZ, AT, RX_AFTER_MS). -/
def cTxWith (flags len : Nat) (rest : List Byte) : Cmd :=
  cmdOf 4 0x39 0x7000 ([3, lowByte flags] ++ leBytes 0x1F7FF8 3 ++ leBytes len 2 ++ rest)
def cTxAt (t : Nat) : Cmd := cTxWith 3 8 ([0] ++ leBytes 0 4 ++ leBytes t 8)
def wProfile (s : State) (p : Profile) : State := { s with link := { s.link with profiles := [(3, p)] } }
def jobUntil (j : TxJob) (t : Nat) : TxJob := { j with until_ := t }
def winHigh (s : State) : State := { s with sessions := { s.sessions with winPin := true } }
/-- The oldest sector of the key area, free of live records, is under erasure. -/
def wErasing : State :=
  let s := wReclaim 12
  { s with cellar := { s.cellar with reclaim := some { keyArea := true, sector := 16, erasing := true, forWrite := false } } }

/-! Witnesses: for each statement with hypotheses, states and operands that meet them, clause by clause -/

theorem witness_BusCyclesWithoutEffect :
  (let i : Instr := .doorbell 5; let y : Cycle := .write 0x0F 5; let s : State := wNoVio;
   cycleOf i = some y ∧ s.power.vioValid = false) ∧
  (let i : Instr := .capConsWrite 5; let y : Cycle := .write 0x0B 5; let s : State := windowAt wNoVio 0x260019;
   cycleOf i = some y ∧ s.power.vioValid = false) ∧
  (let i : Instr := .registerWrite 0x3F 5; let s : State := inPhase .softBoot; let off := 0x3F; let v : Byte := 5;
   s.power.vioValid = true ∧ (s.power.phase = .softBoot ∨ (s.power.phase = .decanting ∧ s.power.decantBus = true)) ∧ cycleOf i = some (.write off v)) ∧
  (let i : Instr := .modeReq 5; let s : State := wDecantBus; let off := 5; let v : Byte := 5;
   s.power.vioValid = true ∧ (s.power.phase = .softBoot ∨ (s.power.phase = .decanting ∧ s.power.decantBus = true)) ∧ cycleOf i = some (.write off v)) ∧
  (let i : Instr := .tempHRead; let s : State := wDecantBus; let off := 0x2D;
   s.power.vioValid = true ∧ (s.power.phase = .softBoot ∨ (s.power.phase = .decanting ∧ s.power.decantBus = true)) ∧ cycleOf i = some (.read off)) ∧
  (let i : Instr := .winDataRead; let s : State := inPhase .softBoot; let off := 0x0B;
   s.power.vioValid = true ∧ (s.power.phase = .softBoot ∨ (s.power.phase = .decanting ∧ s.power.decantBus = true)) ∧ cycleOf i = some (.read off)) ∧
  (let i : Instr := .scLatch 0; let y : Cycle := .write 0x23 0; let s : State := inPhase .decanting;
   cycleOf i = some y ∧
   ((s.power.phase = .decanting ∧ s.power.decantBus = false) ∨ s.power.phase = .waiting ∨ s.power.phase = .pinHeld ∨ s.power.phase = .decantHold)) ∧
  (let i : Instr := .pfCtrlWrite 3; let y : Cycle := .write 0x2F 3; let s : State := inPhase .decantHold;
   cycleOf i = some y ∧
   ((s.power.phase = .decanting ∧ s.power.decantBus = false) ∨ s.power.phase = .waiting ∨ s.power.phase = .pinHeld ∨ s.power.phase = .decantHold)) ∧
  (let s : State := State.reset; let off : Nat := 0x30;
   PortLive s ∧ 0x30 ≤ off ∧ off ≤ 0x3F) ∧
  (let s : State := State.reset; let off : Nat := 0x3F;
   PortLive s ∧ 0x30 ≤ off ∧ off ≤ 0x3F) := by
  refine ⟨?_, ?_, ?_, ?_, ?_, ?_, ?_, ?_, ?_, ?_⟩ <;> decide +kernel

theorem witness_PairReadsArmAndDisarm :
  (let s : State := wHeld 9; let h : Byte := 9;
   PortLive s ∧ s.port.holdCqCons = some h ∧ s.port.holdCcProd = some h ∧ s.port.holdTemp = some h) ∧
  (let s : State := State.reset;
   PortLive s ∧ s.port.holdCqCons = none ∧ s.port.holdCcProd = none ∧ s.port.holdTemp = none) := by
  refine ⟨?_, ?_⟩ <;> decide +kernel

theorem witness_InterruptBitsAndEnables :
  (let s : State := State.reset;
   PortLive s) ∧
  (let s : State := wIrq true;
   PortLive s) ∧
  (let s : State := wIrq false;
   PortLive s) ∧
  (let s : State := wNoVio;
   s.power.vioValid = false) ∧
  (let s : State := inPhase .waiting;
   s.power.phase ≠ .ready) ∧
  (let s : State := inPhase .softBoot;
   s.power.phase ≠ .ready) ∧
  (let s : State := State.reset;
   s.power.phase = .ready) ∧
  (let s : State := wIrq true;
   s.power.phase = .ready) := by
  refine ⟨?_, ?_, ?_, ?_, ?_, ?_, ?_, ?_⟩ <;> decide +kernel

theorem witness_WindowPointerLoadsAndStops :
  (let s : State := wLast true true false 0x1F7FFF;
   PortLive s) ∧
  (let s : State := wLast false false false 0x1F7FFF; let i : Instr := .winDataWrite 0;
   PortLive s ∧ s.port.winInc = true ∧ s.port.ptr < 2 ^ 24 ∧ (i = .winDataRead ∨ ∃ v, i = .winDataWrite v) ∧ s.port.wsHalted = false ∧
   s.port.ptr = regionLast s.port.ptr ∧ (s.port.winRing = true → ringStart s s.port.ptr = none) ∧ s.port.winEdge = false) ∧
  (let s : State := wLast false false false 0xFFFFFF; let i : Instr := .winDataRead;
   PortLive s ∧ s.port.winInc = true ∧ s.port.ptr < 2 ^ 24 ∧ (i = .winDataRead ∨ ∃ v, i = .winDataWrite v) ∧ s.port.wsHalted = false ∧
   s.port.ptr = regionLast s.port.ptr ∧ (s.port.winRing = true → ringStart s s.port.ptr = none) ∧ s.port.winEdge = false) ∧
  (let s : State := wLast false false true 0x0FFFFF; let i : Instr := .winDataRead;
   PortLive s ∧ s.port.winInc = true ∧ s.port.ptr < 2 ^ 24 ∧ (i = .winDataRead ∨ ∃ v, i = .winDataWrite v) ∧ s.port.wsHalted = false ∧
   s.port.ptr = regionLast s.port.ptr ∧ (s.port.winRing = true → ringStart s s.port.ptr = none) ∧ s.port.winEdge = false) ∧
  (let s : State := wLast true false true 0x1F7FFF; let i : Instr := .winDataRead;
   PortLive s ∧ s.port.winInc = true ∧ s.port.ptr < 2 ^ 24 ∧ (i = .winDataRead ∨ ∃ v, i = .winDataWrite v) ∧ s.port.wsHalted = false ∧
   s.port.ptr = regionLast s.port.ptr ∧ (s.port.winRing = true → ringStart s s.port.ptr = none) ∧ s.port.winEdge = true) ∧
  (let s : State := wLast true false true 0x1FBFFF; let i : Instr := .winDataRead;
   PortLive s ∧ s.port.winInc = true ∧ s.port.ptr < 2 ^ 24 ∧ (i = .winDataRead ∨ ∃ v, i = .winDataWrite v) ∧ s.port.wsHalted = false ∧
   s.port.winRing = true ∧ s.port.ptr = 0x1FBFFF) ∧
  (let s : State := wLast false false true 0x1FDFFF; let i : Instr := .winDataWrite 7;
   PortLive s ∧ s.port.winInc = true ∧ s.port.ptr < 2 ^ 24 ∧ (i = .winDataRead ∨ ∃ v, i = .winDataWrite v) ∧ s.port.wsHalted = false ∧
   s.port.winRing = true ∧ s.port.ptr = 0x1FDFFF) ∧
  (let s : State := wRingEnd; let i : Instr := .winDataRead; let n := 1023; let x := wRingSlot;
   PortLive s ∧ s.port.winInc = true ∧ s.port.ptr < 2 ^ 24 ∧ (i = .winDataRead ∨ ∃ v, i = .winDataWrite v) ∧ s.port.wsHalted = false ∧
   s.port.winRing = true ∧ s.slots.slots = [(n, x)] ∧ x.isOpen = true ∧ s.port.ptr < 0x100000 ∧ s.port.ptr + 1 = x.ringBase + ringSize x) ∧
  (let s : State := wLast true true false 0x1F7FFF;
   PortLive s ∧ s.port.wsHalted = true) := by
  refine ⟨?_, ?_, ?_, ?_, ?_, ?_, ?_, ?_, ?_⟩ <;> decide +kernel

theorem witness_WindowReads :
  (let s : State := windowAt State.reset 0x1F0000; let a : Nat := 0x1F0000;
   WindowAt s a ∧ a < 0x1FE000 ∧ ¬ (0x100000 ≤ a ∧ a < 0x180000)) ∧
  (let s : State := windowAt (wScrub 0 []) 0x0FFFFE; let a : Nat := 0x0FFFFE;
   WindowAt s a ∧ a < 0x1FE000 ∧ ¬ (0x100000 ≤ a ∧ a < 0x180000)) ∧
  (let s : State := windowAt (wScrub 8063 [8063]) 0x1FDFFE; let a : Nat := 0x1FDFFE;
   WindowAt s a ∧ a < 0x1FE000 ∧ ¬ (0x100000 ≤ a ∧ a < 0x180000)) ∧
  (let s : State := wPrivate; let a : Nat := 0x100000;
   WindowAt s a ∧ 0x100000 ≤ a ∧ a < 0x180000 ∧ s.port.wsPrivate = true) ∧
  (let s : State := windowAt State.reset 0x17FFFE; let a : Nat := 0x17FFFE;
   WindowAt s a ∧ 0x100000 ≤ a ∧ a < 0x180000 ∧ s.port.wsPrivate = false) := by
  refine ⟨?_, ?_, ?_, ?_, ?_⟩ <;> decide +kernel

theorem witness_WindowWrites :
  (let s : State := windowAt State.reset 0x1F0000; let a : Nat := 0x1F0000;
   WindowAt s a ∧ 0x1F0000 ≤ a ∧ a < 0x1FC000 ∧ MemoryOk s) ∧
  (let s : State := windowAt (wScrub 7 [0]) 0x1FBFFE; let a : Nat := 0x1FBFFE; let b := 0x1F0000;
   WindowAt s a ∧ 0x1F0000 ≤ a ∧ a < 0x1FC000 ∧ MemoryOk s ∧ b ≠ a) ∧
  (let s : State := windowAt State.reset 0x1EFFFE; let a : Nat := 0x1EFFFE;
   WindowAt s a ∧ (a < 0x100000 ∨ (0x180000 ≤ a ∧ a < 0x1F0000) ∨ (0x1FC000 ≤ a ∧ a < 0x1FE000)) ∧ s.port.wsRoWrite = false) ∧
  (let s : State := windowAt State.reset 0x1FC000; let a : Nat := 0x1FC000;
   WindowAt s a ∧ (a < 0x100000 ∨ (0x180000 ≤ a ∧ a < 0x1F0000) ∨ (0x1FC000 ≤ a ∧ a < 0x1FE000)) ∧ s.port.wsRoWrite = false) ∧
  (let s : State := windowAt wPrivate 0; let a : Nat := 0;
   WindowAt s a ∧ (a < 0x100000 ∨ (0x180000 ≤ a ∧ a < 0x1F0000) ∨ (0x1FC000 ≤ a ∧ a < 0x1FE000))) := by
  refine ⟨?_, ?_, ?_, ?_, ?_⟩ <;> decide +kernel

theorem witness_BlockReadsClearAndLatch :
  (let s : State := windowAt wFill 0x2A0003;
   WindowAt s 0x2A0003) ∧
  (let s : State := windowAt wFill 0x2A0014;
   WindowAt s 0x2A0014) ∧
  (let s : State := windowAt wFill 0x2A0016;
   WindowAt s 0x2A0016) ∧
  (let s : State := windowAt (onAir State.reset amLane) (0x300000 + 0x40 * 63); let n : Nat := 63;
   n < 64 ∧ WindowAt s (0x300000 + 0x40 * n)) ∧
  (let s : State := windowAt (onAir State.reset amLane) 0x300000; let n : Nat := 0; let o : Nat := 0x2F;
   n < 64 ∧ WindowAt s (0x300000 + 0x40 * n) ∧ 0 < o ∧ o < 0x30) := by
  refine ⟨?_, ?_, ?_, ?_, ?_⟩ <;> decide +kernel

theorem witness_ConsumerPointersStayInTheirRings :
  (let s : State := windowAt wSlotRing (0x240000 + 0x40 * 1023 + 0x14); let n : Nat := 1023;
   n < 1024 ∧ WindowAt s (0x240000 + 0x40 * n + 0x14)) ∧
  (let s : State := wSlotRing; let n : Nat := 1023; let v : Byte := 0; let new := leNat ((slotOf s n).stagedCons ++ [v]);
   let frees := ((slotOf s n).prod + 2 ^ 32 - new) % 2 ^ 32 ≤ ringWritten (slotOf s n) ∧ new % 8 = 0;
   n < 1024 ∧ WindowAt s (0x240000 + 0x40 * n + 0x1B) ∧ (slotOf s n).isOpen = true ∧ (slotOf s n).stagedCons.length = 3 ∧ frees) ∧
  (let s : State := wSlotRing; let n : Nat := 1023; let v : Byte := 1; let new := leNat ((slotOf s n).stagedCons ++ [v]);
   let frees := ((slotOf s n).prod + 2 ^ 32 - new) % 2 ^ 32 ≤ ringWritten (slotOf s n) ∧ new % 8 = 0;
   n < 1024 ∧ WindowAt s (0x240000 + 0x40 * n + 0x1B) ∧ (slotOf s n).isOpen = true ∧ (slotOf s n).stagedCons.length = 3 ∧ ¬ frees) ∧
  (let s : State := wSlotRing; let n : Nat := 1023; let m := 0;
   n < 1024 ∧ WindowAt s (0x240000 + 0x40 * n + 0x1B) ∧ (slotOf s n).isOpen = true ∧ (slotOf s n).stagedCons.length = 3 ∧ m ≠ n) ∧
  (let s : State := wCapture; let p : Nat := 1; let v : Byte := 0; let x := sapOf s p; let new := x.stagedCapCons.toNat + 256 * v.toNat;
   let freed := (new + 65536 - x.capCons) % 65536;
   p < 2 ∧ WindowAt s (0x260000 + 0x400 * p + 0x19) ∧ freed ≤ capQueued x) ∧
  (let s : State := wCapture; let p : Nat := 1; let v : Byte := 0xFF; let x := sapOf s p; let new := x.stagedCapCons.toNat + 256 * v.toNat;
   let freed := (new + 65536 - x.capCons) % 65536;
   p < 2 ∧ WindowAt s (0x260000 + 0x400 * p + 0x19) ∧ capQueued x < freed) ∧
  (let s : State := wCapture; let p : Nat := 1; let q := 0;
   p < 2 ∧ WindowAt s (0x260000 + 0x400 * p + 0x19) ∧ q ≠ p) := by
  refine ⟨?_, ?_, ?_, ?_, ?_, ?_, ?_⟩ <;> decide +kernel

theorem witness_DoorbellIsAcceptedWhole :
  (let s : State := wRings; let v : Byte := 0; let idx := v.toNat % 2 * 256 + s.port.stagedCqProdL.toNat; let k := (idx + 512 - s.rings.cqProd) % 512;
   let a := 0x1F7FFF;
   PortLive s ∧ s.rings.cqCons < 512 ∧ s.rings.ccProd < 512 ∧ k ≤ s.rings.credits ∧ (a < 0x1F8000 ∨ 0x1FE000 ≤ a)) ∧
  (let s : State := wRings; let v : Byte := 1; let idx := v.toNat % 2 * 256 + s.port.stagedCqProdL.toNat; let k := (idx + 512 - s.rings.cqProd) % 512;
   PortLive s ∧ s.rings.cqCons < 512 ∧ s.rings.ccProd < 512 ∧ s.rings.credits < k) ∧
  (let s : State := wLastThree; let v : Byte := 0; let idx := v.toNat % 2 * 256 + s.port.stagedCqProdL.toNat;
   let k := (idx + 512 - s.rings.cqProd) % 512;
   PortLive s ∧ s.rings.cqCons < 512 ∧ s.rings.ccProd < 512 ∧ k ≤ s.rings.credits) := by
  refine ⟨?_, ?_, ?_⟩ <;> decide +kernel

theorem witness_FreedCompletionsBecomeCredits :
  (let s : State := wRings; let v : Byte := 0; let idx := v.toNat % 2 * 256 + s.port.stagedCcConsL.toNat; let m := (idx + 512 - s.rings.ccCons) % 512;
   PortLive s ∧ m ≤ s.rings.unread) ∧
  (let s : State := wRings; let v : Byte := 1; let idx := v.toNat % 2 * 256 + s.port.stagedCcConsL.toNat; let m := (idx + 512 - s.rings.ccCons) % 512;
   PortLive s ∧ s.rings.unread < m) ∧
  (let s : State := wRings;
   PortLive s ∧ BooksBalance s) := by
  refine ⟨?_, ?_, ?_⟩ <;> decide +kernel

theorem witness_CompletionsArePosted :
  (let s : State := wOne cBarrier; let c : Cmd := cBarrier; let i := 15; let a := 0x1FBFFF;
   findCmd s c.seq = some c ∧ c.desc.length = 32 ∧ MemoryOk s ∧ s.rings.ccProd < 512 ∧ s.rings.inflight.length ≤ 512 ∧ i < 16 ∧
   (a < 0x1FC000 ∨ 0x1FE000 ≤ a)) ∧
  (let s : State := wRings; let c : Cmd := running (cmdOf 65027 0x38 0x7000 []); let status : Nat := 0x10;
   findCmd s c.seq = some c ∧ c.desc.length = 32 ∧ MemoryOk s ∧ s.rings.ccProd < 512 ∧ s.rings.inflight.length ≤ 512 ∧
   (cmdNotify c = true ∨ 0x10 ≤ status) ∧ s.power.phase = .ready) := by
  refine ⟨?_, ?_⟩ <;> decide +kernel

theorem witness_FirstFailureIsReported :
  (let s : State := wOne cBadKind; let seq : Nat := 4; let c : Cmd := cBadKind; let m : Int := 0; let e : Nat := 0; let i : Instr := .slotOpen 4;
   let obj : Nat := 0x5000;
   (i, cmdOp c, obj) ∈ ringRows seq m e ∧ startable s seq (cmdOp c) = some c ∧ cmdKind c = 15) ∧
  (let s : State := wOne cBadKindPut; let seq : Nat := 4; let c : Cmd := cBadKindPut; let m : Int := 0; let e : Nat := 0;
   let i : Instr := .cellarPut 4; let obj : Nat := 0xB000;
   (i, cmdOp c, obj) ∈ ringRows seq m e ∧ startable s seq (cmdOp c) = some c ∧ cmdKind c = 15) ∧
  (let s : State := wOne cReservedFlag; let seq : Nat := 4; let c : Cmd := cReservedFlag; let m : Int := 0; let e : Nat := 0;
   let i : Instr := .slotOpen 4; let obj : Nat := 0x5000;
   (i, cmdOp c, obj) ∈ ringRows seq m e ∧ startable s seq (cmdOp c) = some c ∧ cmdObj c = obj ∧ 8 ≤ cmdFlags c) := by
  refine ⟨?_, ?_, ?_⟩ <;> decide +kernel

theorem witness_HeldCommandsDoNotStart :
  (let s : State := wSame; let seq : Nat := 6; let m : Int := 0; let e : Nat := 0; let op : Nat := 0x20; let obj : Nat := 0x5000;
   let i : Instr := .slotOpen 6;
   (i, op, obj) ∈ ringRows seq m e ∧
   (findCmd s seq = none ∨ s.power.phase ≠ .ready ∨ (op ≠ 0x02 ∧ ∃ c, findCmd s seq = some c ∧ cmdObj c ≠ 0 ∧ ∃ b, b ∈ earlier s.rings.inflight seq ∧
     cmdObj b = cmdObj c) ∨ (op ≠ 0x02 ∧ ∃ c, findCmd s seq = some c ∧ cmdOrder c = 2 ∧ earlier s.rings.inflight seq ≠ []) ∨ (op ≠ 0x02 ∧ ∃ b, b ∈
     earlier s.rings.inflight seq ∧ cmdOp b = 0x01 ∧ b.phase = .waiting ∧ bit (par b 8) 0 = true))) ∧
  (let s : State := wAll; let seq : Nat := 6; let m : Int := 0; let e : Nat := 0; let op : Nat := 0x20; let obj : Nat := 0x5000;
   let i : Instr := .slotOpen 6;
   (i, op, obj) ∈ ringRows seq m e ∧
   (findCmd s seq = none ∨ s.power.phase ≠ .ready ∨ (op ≠ 0x02 ∧ ∃ c, findCmd s seq = some c ∧ cmdObj c ≠ 0 ∧ ∃ b, b ∈ earlier s.rings.inflight seq ∧
     cmdObj b = cmdObj c) ∨ (op ≠ 0x02 ∧ ∃ c, findCmd s seq = some c ∧ cmdOrder c = 2 ∧ earlier s.rings.inflight seq ≠ []) ∨ (op ≠ 0x02 ∧ ∃ b, b ∈
     earlier s.rings.inflight seq ∧ cmdOp b = 0x01 ∧ b.phase = .waiting ∧ bit (par b 8) 0 = true))) ∧
  (let s : State := wHold; let seq : Nat := 6; let m : Int := 0; let e : Nat := 0; let op : Nat := 0x20; let obj : Nat := 0x5000;
   let i : Instr := .slotOpen 6;
   (i, op, obj) ∈ ringRows seq m e ∧
   (findCmd s seq = none ∨ s.power.phase ≠ .ready ∨ (op ≠ 0x02 ∧ ∃ c, findCmd s seq = some c ∧ cmdObj c ≠ 0 ∧ ∃ b, b ∈ earlier s.rings.inflight seq ∧
     cmdObj b = cmdObj c) ∨ (op ≠ 0x02 ∧ ∃ c, findCmd s seq = some c ∧ cmdOrder c = 2 ∧ earlier s.rings.inflight seq ≠ []) ∨ (op ≠ 0x02 ∧ ∃ b, b ∈
     earlier s.rings.inflight seq ∧ cmdOp b = 0x01 ∧ b.phase = .waiting ∧ bit (par b 8) 0 = true))) ∧
  (let s : State := State.reset; let seq : Nat := 6; let m : Int := 0; let e : Nat := 0; let op : Nat := 0x20; let obj : Nat := 0x5000;
   let i : Instr := .slotOpen 6;
   (i, op, obj) ∈ ringRows seq m e ∧
   (findCmd s seq = none ∨ s.power.phase ≠ .ready ∨ (op ≠ 0x02 ∧ ∃ c, findCmd s seq = some c ∧ cmdObj c ≠ 0 ∧ ∃ b, b ∈ earlier s.rings.inflight seq ∧
     cmdObj b = cmdObj c) ∨ (op ≠ 0x02 ∧ ∃ c, findCmd s seq = some c ∧ cmdOrder c = 2 ∧ earlier s.rings.inflight seq ≠ []) ∨ (op ≠ 0x02 ∧ ∃ b, b ∈
     earlier s.rings.inflight seq ∧ cmdOp b = 0x01 ∧ b.phase = .waiting ∧ bit (par b 8) 0 = true))) ∧
  (let s : State := flying State.reset [cmdOf 3 0x01 0 [1], cPutAt 6]; let seq : Nat := 6; let m : Int := 0; let e : Nat := 0; let op : Nat := 0x50;
   let obj : Nat := 0xB000; let i : Instr := .cellarPut 6;
   (i, op, obj) ∈ ringRows seq m e ∧
   (findCmd s seq = none ∨ s.power.phase ≠ .ready ∨ (op ≠ 0x02 ∧ ∃ c, findCmd s seq = some c ∧ cmdObj c ≠ 0 ∧ ∃ b, b ∈ earlier s.rings.inflight seq ∧
     cmdObj b = cmdObj c) ∨ (op ≠ 0x02 ∧ ∃ c, findCmd s seq = some c ∧ cmdOrder c = 2 ∧ earlier s.rings.inflight seq ≠ []) ∨ (op ≠ 0x02 ∧ ∃ b, b ∈
     earlier s.rings.inflight seq ∧ cmdOp b = 0x01 ∧ b.phase = .waiting ∧ bit (par b 8) 0 = true))) := by
  refine ⟨?_, ?_, ?_, ?_, ?_⟩ <;> decide +kernel

theorem witness_ModeRequests :
  (let s : State := inPhase .waiting;
   s.power.phase ≠ .ready) ∧
  (let s : State := wDecantBus;
   s.power.phase ≠ .ready) ∧
  (let s : State := State.reset; let v : Byte := 7;
   PortLive s ∧ (v.toNat % 8 = 0 ∨ v.toNat % 8 = 7)) ∧
  (let s : State := wTarget 3 5; let v : Byte := 8;
   PortLive s ∧ (v.toNat % 8 = 0 ∨ v.toNat % 8 = 7)) ∧
  (let s : State := State.reset; let v : Byte := 0xFB;
   PortLive s ∧ v.toNat % 8 ≠ 0 ∧ v.toNat % 8 ≠ 7 ∧ v.toNat % 8 = s.modes.modeNow ∧ s.modes.target = none) ∧
  (let s : State := wTarget 3 4; let v : Byte := 6; let m : Nat := 6; let x := 4;
   PortLive s ∧ v.toNat % 8 = m ∧ 1 ≤ m ∧ m ≤ 6 ∧ s.modes.target = some x) ∧
  (let s : State := wTarget 3 4; let v : Byte := 1; let m : Nat := 1; let x := 4;
   PortLive s ∧ v.toNat % 8 = m ∧ 1 ≤ m ∧ m ≤ 6 ∧ s.modes.target = some x) ∧
  (let s : State := wNoX32; let v : Byte := 1; let m : Nat := 1;
   PortLive s ∧ v.toNat % 8 = m ∧ 1 ≤ m ∧ m ≤ 6 ∧ s.modes.target = none ∧ m = 1 ∧ s.modes.modeNow ≠ 1 ∧ s.modes.x32Ok = false) ∧
  (let s : State := wUnlocked 1; let v : Byte := 3; let m : Nat := 3;
   PortLive s ∧ v.toNat % 8 = m ∧ 1 ≤ m ∧ m ≤ 6 ∧ s.modes.target = none ∧ 3 ≤ m ∧ m ≠ s.modes.modeNow) ∧
  (let s : State := inMode 3; let v : Byte := 6; let m : Nat := 6;
   PortLive s ∧ v.toNat % 8 = m ∧ 1 ≤ m ∧ m ≤ 6 ∧ s.modes.target = none ∧ 3 ≤ m ∧ m ≠ s.modes.modeNow) := by
  refine ⟨?_, ?_, ?_, ?_, ?_, ?_, ?_, ?_, ?_, ?_⟩ <;> decide +kernel

theorem witness_ModeChangeArrives :
  (let s : State := { wTarget 5 4 with clocks := { State.reset.clocks with locked := false, stage := .locking none none } }; let m : Nat := 4;
   s.power.phase = .ready ∧ s.modes.target = some m ∧ 3 ≤ m ∧ m ≤ 6 ∧ 3 ≤ s.modes.modeNow ∧ s.modes.queued = none ∧ cpllStarting s = true) ∧
  (let s : State := wChangeHeld; let m : Nat := 4;
   s.power.phase = .ready ∧ s.modes.target = some m ∧ 3 ≤ m ∧ m ≤ 6 ∧ 3 ≤ s.modes.modeNow ∧ s.modes.queued = none ∧ cpllStarting s = false ∧
   changeWaits m (stopUnrun m s) = true) ∧
  (let s : State := wTarget 5 4; let m : Nat := 4;
   s.power.phase = .ready ∧ s.modes.target = some m ∧ 3 ≤ m ∧ m ≤ 6 ∧ 3 ≤ s.modes.modeNow ∧ s.modes.queued = none ∧ cpllStarting s = false ∧
   changeWaits m (stopUnrun m s) = false) ∧
  (let s : State := wTarget 3 6; let m : Nat := 6;
   s.power.phase = .ready ∧ s.modes.target = some m ∧ 3 ≤ m ∧ m ≤ 6 ∧ 3 ≤ s.modes.modeNow ∧ s.modes.queued = none ∧ cpllStarting s = false ∧
   changeWaits m (stopUnrun m s) = false) ∧
  (let s : State := { wShed with modes := (wTarget 6 3).modes }; let m : Nat := 3;
   s.power.phase = .ready ∧ s.modes.target = some m ∧ 3 ≤ m ∧ m ≤ 6 ∧ 3 ≤ s.modes.modeNow ∧ s.modes.queued = none ∧ cpllStarting s = false ∧
   changeWaits m (stopUnrun m s) = false) := by
  refine ⟨?_, ?_, ?_, ?_, ?_⟩ <;> decide +kernel

theorem witness_SupplyEventsChangeTheirBits :
  (let s : State := State.reset;
   PortLive s ∧ s.power.holdLow = true ∧ s.power.charging = true ∧ s.power.phase = .ready) ∧
  (let s : State := wWaiting false;
   s.power.phase = .waiting) ∧
  (let s : State := wPf true;
   s.power.pfPending = true) ∧
  (let s : State := wPf false;
   s.power.pfPending = false ∧ s.power.phase = .ready) ∧
  (let s : State := wHoldReady;
   s.power.holdLow = false) := by
  refine ⟨?_, ?_, ?_, ?_, ?_⟩ <;> decide +kernel

theorem witness_DecantStarts :
  (let s : State := wDirty true true;
   s.power.phase = .ready ∧ s.cellar.write = none ∧ s.cellar.store = none ∧ s.power.decantOnVin = true) ∧
  (let s : State := { wRings with power := (wDirty true true).power };
   s.power.phase = .ready ∧ s.cellar.write = none ∧ s.cellar.store = none ∧ s.power.decantOnVin = true) ∧
  (let s : State := wDirty false false;
   s.power.phase = .ready ∧ s.cellar.write = none ∧ s.cellar.store = none ∧ s.power.decantOnVin = false) ∧
  (let s : State := { wShed with power := (wDirty false true).power };
   s.power.phase = .ready ∧ s.cellar.write = none ∧ s.cellar.store = none ∧ s.power.decantOnVin = true) := by
  refine ⟨?_, ?_, ?_, ?_⟩ <;> decide +kernel

theorem witness_ResetsAndReturns :
  (let s : State := wDirty false false;
   s.power.phase = .ready ∧ s.power.decantOnVin = false) ∧
  (let s : State := State.reset;
   s.power.phase = .ready) ∧
  (let s : State := wDirty true false;
   s.power.phase = .ready ∧ s.power.decantOnVin = false) ∧
  (let s : State := inPhase .decanting;
   s.power.phase = .decanting) ∧
  (let s : State := inPhase .decantHold;
   s.power.phase = .decantHold ∧ s.power.vinGood = true ∧ s.power.present = true) ∧
  (let s : State := State.reset; let v : Byte := 0xB3;
   PortLive s ∧ v.toNat / 16 ≠ 0xA) ∧
  (let s : State := State.reset; let v : Byte := 0xA3;
   PortLive s ∧ v.toNat / 16 = 0xA) ∧
  (let s : State := wRings; let v : Byte := 0xAF;
   PortLive s ∧ v.toNat / 16 = 0xA) := by
  refine ⟨?_, ?_, ?_, ?_, ?_, ?_, ?_, ?_⟩ <;> decide +kernel

theorem witness_BootAndScrub :
  (let s : State := wWaiting true;
   s.power.phase = .waiting ∧ s.power.vinGood = true ∧ s.power.present = true ∧ s.power.pendingKind ≠ .soft) ∧
  (let s : State := wSoft;
   s.power.phase = .softBoot ∧ 3 ≤ s.power.savedMode) ∧
  (let s : State := wWaiting false;
   s.power.phase = .waiting ∧ s.power.vinGood = false) ∧
  (let s : State := wScrub 0 []; let i := 255; let a := 0x1F0100;
   s.power.phase = .ready ∧ s.scrub.next < 8064 ∧ s.scrub.early.contains s.scrub.next = false ∧ MemoryOk s ∧ i < 256 ∧
   (a < scrubAddr s.scrub.next ∨ scrubAddr s.scrub.next + 256 ≤ a)) ∧
  (let s : State := wScrub 8063 [];
   s.power.phase = .ready ∧ s.scrub.next < 8064 ∧ s.scrub.early.contains s.scrub.next = false ∧ MemoryOk s) ∧
  (let s : State := { State.reset with scrub := { next := 0 }, mem := [(5, 9), (0x100, 7), (0x1F0000, 8)] };
   s.power.phase = .ready ∧ s.scrub.next < 8064 ∧ s.scrub.early.contains s.scrub.next = false ∧ MemoryOk s) ∧
  (let s : State := wScrub 0 [0];
   s.power.phase = .ready ∧ s.scrub.next < 8064 ∧ s.scrub.early.contains s.scrub.next = true) ∧
  (let s : State := wScrub 8064 [];
   s.power.phase = .ready ∧ 8064 ≤ s.scrub.next) := by
  refine ⟨?_, ?_, ?_, ?_, ?_, ?_, ?_, ?_⟩ <;> decide +kernel

theorem witness_TemperatureSamples :
  (let s : State := later wHot; let temp : Int := 400; let num := 320000; let den := 2800;
   s.power.phase = .ready ∧ s.modes.modeNow ≠ 1 ∧ s.fabric.windowStart + 2 ^ 14 ≤ s.clocks.sc ∧ minPace s.fabric.windowLow temp = some (num, den)) ∧
  (let s : State := later wHot;
   s.power.phase = .ready ∧ s.modes.modeNow ≠ 1 ∧ s.fabric.windowStart + 2 ^ 14 ≤ s.clocks.sc) ∧
  (let s : State := later wHot; let temp : Int := 9000;
   s.power.phase = .ready ∧ s.modes.modeNow ≠ 1 ∧ s.fabric.windowStart + 2 ^ 14 ≤ s.clocks.sc ∧ minPace s.fabric.windowLow temp = none) ∧
  (let s : State := inMode 1;
   s.power.phase = .ready ∧ (s.modes.modeNow = 1 ∨ s.clocks.sc < s.fabric.windowStart + 2 ^ 14)) ∧
  (let s : State := { later State.reset with fabric := { State.reset.fabric with windowStart := 2 ^ 25 - 2 ^ 14 + 1 } };
   s.power.phase = .ready ∧ (s.modes.modeNow = 1 ∨ s.clocks.sc < s.fabric.windowStart + 2 ^ 14)) ∧
  (let s : State := wSecond;
   s.power.phase = .ready ∧ s.modes.modeNow = 1 ∧ s.clocks.secondDone < s.clocks.sc / 2 ^ 24) ∧
  (let s : State := later wHot;
   s.power.phase = .ready ∧ s.modes.modeNow ≠ 1 ∧ s.fabric.windowStart + 2 ^ 14 ≤ s.clocks.sc ∧ s.cal.thermWarn = false ∧ s.cal.thermSc = none) ∧
  (let s : State := later wHot;
   s.power.phase = .ready ∧ s.modes.modeNow ≠ 1 ∧ s.fabric.windowStart + 2 ^ 14 ≤ s.clocks.sc ∧ s.cal.calDue = 0) := by
  refine ⟨?_, ?_, ?_, ?_, ?_, ?_, ?_, ?_⟩ <;> decide +kernel

theorem witness_GovernorMovesVcore :
  (let s : State := later (wFabric 8 8 0 40);
   s.power.phase = .ready ∧ 2 ≤ s.modes.modeNow ∧ s.fabric.tickStart + 2 ^ 12 ≤ s.clocks.sc ∧ planHolds s = true) ∧
  (let s : State := noPlan (later (wFabric 8 8 0 40));
   s.power.phase = .ready ∧ 2 ≤ s.modes.modeNow ∧ s.fabric.tickStart + 2 ^ 12 ≤ s.clocks.sc ∧ planHolds s = false) ∧
  (let s : State := later (wFabric 9 8 0 40);
   s.power.phase = .ready ∧ 2 ≤ s.modes.modeNow ∧ s.fabric.tickStart + 2 ^ 12 ≤ s.clocks.sc ∧ ceiling s < s.fabric.vcore) ∧
  (let s : State := noPlan (later (wFabric 5 35 0 40)); let fills : Fills := fills 2049; let f := fillsOf s fills;
   s.power.phase = .ready ∧ 2 ≤ s.modes.modeNow ∧ s.fabric.tickStart + 2 ^ 12 ≤ s.clocks.sc ∧ s.fabric.vcore ≤ ceiling s ∧ fillOver f 4 = true) ∧
  (let s : State := noPlan (later (wFabric 33 35 0 40)); let fills : Fills := fills 4096; let f := fillsOf s fills;
   s.power.phase = .ready ∧ 2 ≤ s.modes.modeNow ∧ s.fabric.tickStart + 2 ^ 12 ≤ s.clocks.sc ∧ s.fabric.vcore ≤ ceiling s ∧ fillOver f 4 = true) ∧
  (let s : State := later (wFabric 5 35 0 0); let fills : Fills := fills 0; let f := fillsOf s fills;
   s.power.phase = .ready ∧ 2 ≤ s.modes.modeNow ∧ s.fabric.tickStart + 2 ^ 12 ≤ s.clocks.sc ∧ s.fabric.vcore ≤ ceiling s ∧ fillOver f 4 = false ∧
   (fillOver f 2 = true ∨ s.fabric.pace < paceFloor s.modes.modeNow)) ∧
  (let s : State := later (wFabric 35 35 0 255); let fills : Fills := fills 1025; let f := fillsOf s fills;
   s.power.phase = .ready ∧ 2 ≤ s.modes.modeNow ∧ s.fabric.tickStart + 2 ^ 12 ≤ s.clocks.sc ∧ s.fabric.vcore ≤ ceiling s ∧ fillOver f 4 = false ∧
   (fillOver f 2 = true ∨ s.fabric.pace < paceFloor s.modes.modeNow)) ∧
  (let s : State := later (wFabric 5 35 15 255); let fills : Fills := fills 0; let f := fillsOf s fills;
   s.power.phase = .ready ∧ 2 ≤ s.modes.modeNow ∧ s.fabric.tickStart + 2 ^ 12 ≤ s.clocks.sc ∧ s.fabric.vcore ≤ ceiling s ∧ fillOver f 1 = false ∧
   15 ≤ s.fabric.quietTicks ∧ paceFloor s.modes.modeNow + 8 ≤ s.fabric.pace) ∧
  (let s : State := later (wFabric 0 35 15 38); let fills : Fills := fills 512; let f := fillsOf s fills;
   s.power.phase = .ready ∧ 2 ≤ s.modes.modeNow ∧ s.fabric.tickStart + 2 ^ 12 ≤ s.clocks.sc ∧ s.fabric.vcore ≤ ceiling s ∧ fillOver f 1 = false ∧
   15 ≤ s.fabric.quietTicks ∧ paceFloor s.modes.modeNow + 8 ≤ s.fabric.pace) ∧
  (let s : State := later (wFabric 5 35 14 255); let fills : Fills := fills 0; let f := fillsOf s fills;
   s.power.phase = .ready ∧ 2 ≤ s.modes.modeNow ∧ s.fabric.tickStart + 2 ^ 12 ≤ s.clocks.sc ∧ s.fabric.vcore ≤ ceiling s ∧ fillOver f 2 = false ∧
   paceFloor s.modes.modeNow ≤ s.fabric.pace ∧ (fillOver f 1 = true ∨ s.fabric.quietTicks < 15 ∨ s.fabric.pace < paceFloor s.modes.modeNow + 8)) ∧
  (let s : State := later (wFabric 5 35 20 37); let fills : Fills := fills 0; let f := fillsOf s fills;
   s.power.phase = .ready ∧ 2 ≤ s.modes.modeNow ∧ s.fabric.tickStart + 2 ^ 12 ≤ s.clocks.sc ∧ s.fabric.vcore ≤ ceiling s ∧ fillOver f 2 = false ∧
   paceFloor s.modes.modeNow ≤ s.fabric.pace ∧ (fillOver f 1 = true ∨ s.fabric.quietTicks < 15 ∨ s.fabric.pace < paceFloor s.modes.modeNow + 8)) ∧
  (let s : State := later (wFabric 5 35 20 255); let fills : Fills := fills 513; let f := fillsOf s fills;
   s.power.phase = .ready ∧ 2 ≤ s.modes.modeNow ∧ s.fabric.tickStart + 2 ^ 12 ≤ s.clocks.sc ∧ s.fabric.vcore ≤ ceiling s ∧ fillOver f 2 = false ∧
   paceFloor s.modes.modeNow ≤ s.fabric.pace ∧ (fillOver f 1 = true ∨ s.fabric.quietTicks < 15 ∨ s.fabric.pace < paceFloor s.modes.modeNow + 8)) := by
  refine ⟨?_, ?_, ?_, ?_, ?_, ?_, ?_, ?_, ?_, ?_, ?_, ?_⟩ <;> decide +kernel

theorem witness_SheddingAndDrops :
  (let s : State := wLanes;
   s.power.phase = .ready ∧ planHolds s = true) ∧
  (let s : State := noPlan wLanes; let fill : Nat := 3072;
   s.power.phase = .ready ∧ planHolds s = false ∧ s.fabric.shedLevelL = 0 ∧ 3 * 4096 ≤ 4 * fill ∧ s.fabric.vcore = ceiling s ∧ shedOrder s 0 ≠ []) ∧
  (let s : State := noPlan wLanes; let fill : Nat := 3071;
   s.power.phase = .ready ∧ 4 * fill < 3 * 4096) ∧
  (let s : State := wShed; let fill : Nat := 1024;
   s.power.phase = .ready ∧ s.fabric.shedLevelL = 1 ∧ shedOrder s 0 ≠ [] ∧ s.fabric.lowerWaitL = none ∧ 4 * fill ≤ 4096) ∧
  (let s : State := wShed; let fill : Nat := 1025;
   s.power.phase = .ready ∧ 4096 < 4 * fill) ∧
  (let s : State := wLanes; let p : Nat := 0;
   s.power.phase = .ready ∧ p < 2 ∧ (pathOf s p).fe.state ≠ .off ∧ planHolds s = true) ∧
  (let s : State := noPlan wLanes; let p : Nat := 0; let n := 9;
   s.power.phase = .ready ∧ p < 2 ∧ (pathOf s p).fe.state ≠ .off ∧ planHolds s = false ∧ p = 0 ∧ (laneOf s n).running = true ∧ (laneOf s n).path = p) ∧
  (let s : State := noPlan wLanes; let p : Nat := 0; let n := 11;
   s.power.phase = .ready ∧ p < 2 ∧ (pathOf s p).fe.state ≠ .off ∧ planHolds s = false ∧ ((laneOf s n).running = false ∨ (laneOf s n).path ≠ p)) ∧
  (let s : State := noPlan (onAir State.reset fmLane); let p : Nat := 1;
   s.power.phase = .ready ∧ p < 2 ∧ (pathOf s p).fe.state ≠ .off ∧ planHolds s = false ∧ p = 1) := by
  refine ⟨?_, ?_, ?_, ?_, ?_, ?_, ?_, ?_, ?_⟩ <;> decide +kernel

theorem witness_OscillatorAndKeeptime :
  (let s : State := wNoX32;
   s.clocks.locked = true ∧ s.modes.x32Ok = false) ∧
  (let s : State := wUnlocked 2;
   s.clocks.locked = false ∧ s.power.phase = .ready ∧ (s.modes.modeNow = 1 ∨ s.modes.modeNow = 2) ∧ s.modes.target = none ∧ s.clocks.scOnX32 = true ∧
   s.clocks.stage = .idle) ∧
  (let s : State := wUnlocked 1;
   s.power.phase = .ready ∧ (s.modes.modeNow = 1 ∨ s.modes.modeNow = 2) ∧ s.modes.target = none ∧ s.clocks.locked = false ∧ s.clocks.scOnX32 = true ∧
   s.clocks.stage = .idle) ∧
  (let s : State := inMode 3;
   3 ≤ s.modes.modeNow ∧ s.clocks.scOnX32 = false) ∧
  (let s : State := wRefCheck true; let ppm : Nat := 1000;
   s.clocks.refCheck = true ∧ ppm ≤ 1000) ∧
  (let s : State := wRefCheck true; let ppm : Nat := 1001;
   s.clocks.refCheck = true ∧ 1000 < ppm ∧ s.power.phase = .ready) ∧
  (let s : State := wRefCheck false;
   s.clocks.refCheck = false) ∧
  (let s : State := wKeeptime (some (200 * 2 ^ 24)) none; let t : Nat := 200 * 2 ^ 24;
   s.power.phase = .ready ∧ s.modes.modeNow = 2 ∧ s.modes.target = none ∧ s.modes.ktNext = some t ∧ t ≤ s.clocks.sc ∧ s.modes.ktEnd = none ∧
   s.clocks.stage = .idle ∧ 0 < s.modes.ktPeriodUsed) ∧
  (let s : State := wKeeptime (some (60 * 2 ^ 24)) none; let t : Nat := 60 * 2 ^ 24;
   s.power.phase = .ready ∧ s.modes.modeNow = 2 ∧ s.modes.target = none ∧ s.modes.ktNext = some t ∧ t ≤ s.clocks.sc ∧ s.modes.ktEnd = none ∧
   s.clocks.stage = .idle ∧ 0 < s.modes.ktPeriodUsed) ∧
  (let s : State := wKeeptime none (some (200 * 2 ^ 24 + 1)); let t : Nat := 200 * 2 ^ 24 + 1;
   s.modes.ktEnd = some t ∧ s.clocks.sc < t) ∧
  (let s : State := wKeeptime none (some (200 * 2 ^ 24)); let t : Nat := 200 * 2 ^ 24;
   s.modes.ktEnd = some t ∧ t ≤ s.clocks.sc ∧ s.modes.target = none ∧ (laneOf s s.modes.ktLaneUsed).unbind = false) := by
  refine ⟨?_, ?_, ?_, ?_, ?_, ?_, ?_, ?_, ?_, ?_, ?_⟩ <;> decide +kernel

theorem witness_TuneStartsAPath :
  (let s : State := flying (wTables 3) [cTuneL]; let seq : Nat := 4; let side : Nat := 0; let c : Cmd := cTuneL;
   MayRun s seq 0x10 c ∧ Names c 2 ∧ cmdIdx c < 2 ∧ ZeroBytes c 16 31 ∧ 3 ≤ s.modes.modeNow ∧ s.modes.modeNow ≤ 6 ∧ s.clocks.stage = .idle ∧
   s.clocks.locked = true ∧ s.clocks.fault = false ∧ covered (cmdIdx c) (parN c 8 4) = true ∧ rasterOk (cmdIdx c) (parN c 12 3) = true ∧
   par c 15 < 16 ∧ par c 15 % 4 ≠ 3 ∧ widthOk (cmdIdx c) (par c 15 / 4) = true ∧
   chooseSide s (cmdIdx c) (parN c 8 4) (parN c 12 3) (par c 15 % 4) = some side ∧ (pathOf s (cmdIdx c)).fe.state = .off ∧
   tableFor (pathOf s (cmdIdx c)).synth ≠ none) ∧
  (let s : State := flying (wTables 6) [cTuneV]; let seq : Nat := 4; let side : Nat := 0; let c : Cmd := cTuneV;
   MayRun s seq 0x10 c ∧ Names c 2 ∧ cmdIdx c < 2 ∧ ZeroBytes c 16 31 ∧ 3 ≤ s.modes.modeNow ∧ s.modes.modeNow ≤ 6 ∧ s.clocks.stage = .idle ∧
   s.clocks.locked = true ∧ s.clocks.fault = false ∧ covered (cmdIdx c) (parN c 8 4) = true ∧ rasterOk (cmdIdx c) (parN c 12 3) = true ∧
   par c 15 < 16 ∧ par c 15 % 4 ≠ 3 ∧ widthOk (cmdIdx c) (par c 15 / 4) = true ∧
   chooseSide s (cmdIdx c) (parN c 8 4) (parN c 12 3) (par c 15 % 4) = some side ∧ (pathOf s (cmdIdx c)).fe.state = .off ∧
   tableFor (pathOf s (cmdIdx c)).synth ≠ none) := by
  refine ⟨?_, ?_⟩ <;> decide +kernel

theorem witness_CpllIsTuned :
  (let s : State := flying (inMode 3) [cRef]; let seq := 4; let c := cRef;
   LinkQuiet s ∧ s.pathL.fe.state = .off ∧ s.pathV.fe.state = .off ∧ s.lanes = [] ∧ s.pathL.fe.blankFrom = none ∧ s.pathV.fe.blankFrom = none ∧
   s.pathS.fe.blankFrom = none ∧ MayRun s seq 0x10 c ∧ Names c 3 ∧ ZeroBytes c 19 31 ∧ 3 ≤ s.modes.modeNow ∧ s.modes.modeNow ≤ 6 ∧
   s.clocks.stage = .idle ∧ par c 8 = 1 ∧ par c 9 < 5 ∧ par c 10 < 3 ∧ par c 11 < 2 ∧ refAsked c ≠ s.clocks.ref ∧ s.modes.x32Ok = true ∧
   anySapRuns s = false ∧ refBusy s = false) ∧
  (let s : State := flying (inMode 6) [cCk]; let seq := 4; let c := cCk;
   LinkQuiet s ∧ s.pathL.fe.state = .off ∧ s.pathV.fe.state = .off ∧ s.lanes = [] ∧ s.pathL.fe.blankFrom = none ∧ s.pathV.fe.blankFrom = none ∧
   s.pathS.fe.blankFrom = none ∧ MayRun s seq 0x10 c ∧ Names c 3 ∧ ZeroBytes c 19 31 ∧ 3 ≤ s.modes.modeNow ∧ s.modes.modeNow ≤ 6 ∧
   s.clocks.stage = .idle ∧ par c 8 = 2 ∧ 4 ≤ par c 12 ∧ par c 12 ≤ 6 ∧ par c 13 < 2 ∧ 40 ≤ parN c 14 2 ∧ parN c 14 2 ≤ 1023 ∧ par c 16 < 64 ∧
   ckInUse s (par c 12) = false) ∧
  (let s : State := wStage cRef (.locking (some 4) none); let seq := 4; let prev : Option RefArr := none; let c := running cRef;
   LinkQuiet s ∧ s.pathL.fe.state = .off ∧ s.pathV.fe.state = .off ∧ s.lanes = [] ∧ s.pathL.fe.blankFrom = none ∧ s.pathV.fe.blankFrom = none ∧
   s.pathS.fe.blankFrom = none ∧ findCmd s seq = some c ∧ bit (par c 8) 2 = false ∧ s.clocks.stage = .locking (some seq) prev ∧
   s.pathL.synth.locking = false ∧ s.pathV.synth.locking = false ∧ s.pathS.synth.locking = false) ∧
  (let s : State := wStage cRef (.locking (some 4) (some {})); let seq := 4; let r : RefArr := {};
   LinkQuiet s ∧ s.pathL.fe.state = .off ∧ s.pathV.fe.state = .off ∧ s.lanes = [] ∧ s.pathL.fe.blankFrom = none ∧ s.pathV.fe.blankFrom = none ∧
   s.pathS.fe.blankFrom = none ∧ s.clocks.stage = .locking (some seq) (some r)) ∧
  (let s : State := wStage cRef (.restoring (some 4)); let seq := 4;
   LinkQuiet s ∧ s.pathL.fe.state = .off ∧ s.pathV.fe.state = .off ∧ s.lanes = [] ∧ s.pathL.fe.blankFrom = none ∧ s.pathV.fe.blankFrom = none ∧
   s.pathS.fe.blankFrom = none ∧ s.clocks.stage = .restoring (some seq) ∧ anySapRuns s = false ∧ s.power.phase = .ready) ∧
  (let s : State := wStepping; let ck := 5; let k := 3; let c := running cStep;
   LinkQuiet s ∧ s.pathL.fe.state = .off ∧ s.pathV.fe.state = .off ∧ s.lanes = [] ∧ s.pathL.fe.blankFrom = none ∧ s.pathV.fe.blankFrom = none ∧
   s.pathS.fe.blankFrom = none ∧ runningOf s 0x10 0x3000 = some c ∧ par c 12 = ck ∧ (ckOf s ck).pend ≠ 0 ∧ 0 < k ∧ stopCause s c.seq = none ∧
   (ckOf s ck).pend.natAbs ≤ k) ∧
  (let s : State := wStepping; let ck := 5; let k := 2; let c := running cStep;
   LinkQuiet s ∧ s.pathL.fe.state = .off ∧ s.pathV.fe.state = .off ∧ s.lanes = [] ∧ s.pathL.fe.blankFrom = none ∧ s.pathV.fe.blankFrom = none ∧
   s.pathS.fe.blankFrom = none ∧ runningOf s 0x10 0x3000 = some c ∧ par c 12 = ck ∧ (ckOf s ck).pend ≠ 0 ∧ 0 < k ∧ stopCause s c.seq = none ∧
   k < (ckOf s ck).pend.natAbs) := by
  refine ⟨?_, ?_, ?_, ?_, ?_, ?_, ?_⟩ <;> decide +kernel

theorem witness_LocksGoByWindows :
  (let s : State := locking id .starting; let p : Nat := 0;
   p < 2 ∧ s.clocks.stage = .idle ∧ (pathOf s p).synth.locking = true ∧ (pathOf s p).synth.timedMode = false ∧ 0 < (pathOf s p).synth.run ∧
   (pathOf s p).synth.windows = 0 ∧ 1 < (pathOf s p).synth.limit) ∧
  (let s : State := locking (fun y => { y with windows := 1 }) .starting; let p : Nat := 0; let count : Nat := 6402;
   p < 2 ∧ s.clocks.stage = .idle ∧ (pathOf s p).synth.locking = true ∧ (pathOf s p).synth.timedMode = false ∧ 0 < (pathOf s p).synth.run ∧
   0 < (pathOf s p).synth.windows ∧ windowGood (pathOf s p).synth count = true ∧ (pathOf s p).synth.goodRun + 1 < (pathOf s p).synth.run ∧
   (pathOf s p).synth.windows + 1 < (pathOf s p).synth.limit) ∧
  (let s : State := locking (fun y => { y with windows := 3, goodRun := 2 }) .starting; let p : Nat := 0; let count : Nat := 6398;
   p < 2 ∧ s.clocks.stage = .idle ∧ (pathOf s p).synth.locking = true ∧ (pathOf s p).synth.timedMode = false ∧ 0 < (pathOf s p).synth.run ∧
   0 < (pathOf s p).synth.windows ∧ windowGood (pathOf s p).synth count = true ∧ (pathOf s p).synth.goodRun + 1 = (pathOf s p).synth.run ∧
   (pathOf s p).fe.state = .starting ∧ (pathOf s p).fe.selPend = false) ∧
  (let s : State := locking (fun y => { y with windows := 63, tryPlace := 3, baseBand := 253 }) .starting; let p : Nat := 0; let count : Nat := 6403;
   p < 2 ∧ s.clocks.stage = .idle ∧ (pathOf s p).synth.locking = true ∧ (pathOf s p).synth.timedMode = false ∧ 0 < (pathOf s p).synth.run ∧
   windowGood (pathOf s p).synth count = false ∧ (pathOf s p).synth.limit ≤ (pathOf s p).synth.windows + 1 ∧ 2 ≤ (pathOf s p).synth.baseBand ∧
   (pathOf s p).synth.baseBand ≤ 253 ∧ (pathOf s p).synth.tryPlace < 4) ∧
  (let s : State := locking (fun y => { y with windows := 63, tryPlace := 0, baseBand := 2 }) .retune; let p : Nat := 0; let count : Nat := 6397;
   p < 2 ∧ s.clocks.stage = .idle ∧ (pathOf s p).synth.locking = true ∧ (pathOf s p).synth.timedMode = false ∧ 0 < (pathOf s p).synth.run ∧
   windowGood (pathOf s p).synth count = false ∧ (pathOf s p).synth.limit ≤ (pathOf s p).synth.windows + 1 ∧ 2 ≤ (pathOf s p).synth.baseBand ∧
   (pathOf s p).synth.baseBand ≤ 253 ∧ (pathOf s p).synth.tryPlace < 4) ∧
  (let s : State := locking (fun y => { y with windows := 63, tryPlace := 4 }) .starting; let p : Nat := 0; let count : Nat := 6397;
   p < 2 ∧ s.clocks.stage = .idle ∧ (pathOf s p).synth.locking = true ∧ (pathOf s p).synth.timedMode = false ∧ 0 < (pathOf s p).synth.run ∧
   windowGood (pathOf s p).synth count = false ∧ (pathOf s p).synth.limit ≤ (pathOf s p).synth.windows + 1 ∧ (pathOf s p).synth.tryPlace = 4) ∧
  (let s : State := locking (fun y => { y with timedMode := true }) .starting; let p : Nat := 0;
   p < 2 ∧ s.clocks.stage = .idle ∧ (pathOf s p).synth.locking = true ∧ (pathOf s p).synth.timedMode = true ∧ (pathOf s p).fe.state = .starting ∧
   (pathOf s p).fe.selPend = false) ∧
  (let s : State := locking (fun y => { y with locking := false, locked := true, badRun := 2 }) .run; let p : Nat := 0;
   p < 2 ∧ s.clocks.stage = .idle ∧ (pathOf s p).synth.locked = true ∧ (pathOf s p).synth.timedLock = false ∧ 2 ≤ (pathOf s p).synth.badRun ∧
   (pathOf s p).fe.state ≠ .cal ∧ s.clocks.fault = false ∧ tableFor (pathOf s p).synth ≠ none ∧ s.power.phase = .ready) := by
  refine ⟨?_, ?_, ?_, ?_, ?_, ?_, ?_, ?_⟩ <;> decide +kernel

theorem witness_GainFollowsTheLevel :
  (let s : State := wGain .noLock 1 20; let p : Nat := 1; let xs : List (Int × Int) := []; let f := (pathOf s p).fe;
   p < 2 ∧ (f.state = .off ∨ f.state = .starting ∨ f.state = .cal ∨ f.state = .noLock ∨ blanked s p = true ∨ xs.length ≠ periodSamples p)) ∧
  (let s : State := wGainL .run 1 20; let p : Nat := 0; let xs : List (Int × Int) := [(1, 1)]; let f := (pathOf s p).fe;
   p < 2 ∧ (f.state = .off ∨ f.state = .starting ∨ f.state = .cal ∨ f.state = .noLock ∨ blanked s p = true ∨ xs.length ≠ periodSamples p)) ∧
  (let s : State := wGainL .run 1 20; let p : Nat := 0; let xs : List (Int × Int) := List.replicate 2048 (5827, 0); let f := (pathOf s p).fe;
   let m := dbLevel 8 (energy xs) (xs.length * adcScale p ^ 2) (runLoop p xs s); let clipped := (xs.filter (atFullScale p)).length;
   let err := 8 * f.set.agcTarget - m.1;
   p < 2 ∧ f.state = .run ∧ blanked s p = false ∧ clocksRun s = true ∧ xs.length = periodSamples p ∧ f.set.agcMode = 0 ∧ clipped ≤ f.set.clipLimit ∧
   err.natAbs ≤ 4 * f.set.agcHyst) ∧
  (let s : State := wGainL .run 1 1; let p : Nat := 0; let xs : List (Int × Int) := List.replicate 2048 (16384, 0); let f := (pathOf s p).fe;
   let m := dbLevel 8 (energy xs) (xs.length * adcScale p ^ 2) (runLoop p xs s); let clipped := (xs.filter (atFullScale p)).length;
   let err := 8 * f.set.agcTarget - m.1;
   p < 2 ∧ f.state = .run ∧ blanked s p = false ∧ clocksRun s = true ∧ xs.length = periodSamples p ∧ f.set.agcMode = 0 ∧ clipped ≤ f.set.clipLimit ∧
   4 * f.set.agcHyst < err.natAbs ∧ 0 < f.gainFine ∧ f.gainFine < fineSpan p) ∧
  (let s : State := wGainL .run 1 40; let p : Nat := 0; let xs : List (Int × Int) := List.replicate 2048 (1, 0); let f := (pathOf s p).fe;
   let m := dbLevel 8 (energy xs) (xs.length * adcScale p ^ 2) (runLoop p xs s); let clipped := (xs.filter (atFullScale p)).length;
   let err := 8 * f.set.agcTarget - m.1;
   p < 2 ∧ f.state = .run ∧ blanked s p = false ∧ clocksRun s = true ∧ xs.length = periodSamples p ∧ f.set.agcMode = 0 ∧ clipped ≤ f.set.clipLimit ∧
   4 * f.set.agcHyst < err.natAbs ∧ 0 < f.gainFine ∧ f.gainFine < fineSpan p) ∧
  (let s : State := wGainL .run 0 48; let p : Nat := 0; let xs : List (Int × Int) := List.replicate 2048 (1, 0); let f := (pathOf s p).fe;
   let m := dbLevel 8 (energy xs) (xs.length * adcScale p ^ 2) (runLoop p xs s); let clipped := (xs.filter (atFullScale p)).length;
   let err := 8 * f.set.agcTarget - m.1;
   p < 2 ∧ f.state = .run ∧ blanked s p = false ∧ clocksRun s = true ∧ xs.length = periodSamples p ∧ f.set.agcMode = 0 ∧ clipped ≤ f.set.clipLimit ∧
   4 * f.set.agcHyst < err.natAbs ∧ 0 < err ∧ f.gainFine = fineSpan p ∧ f.lastRangeSc = none ∧ f.gainRange + 1 < rangeCount p) ∧
  (let s : State := wGainL .run 1 36; let p : Nat := 0; let xs : List (Int × Int) := List.replicate 9 (32767, 0) ++ List.replicate 2039 (0, -1);
   let f := (pathOf s p).fe; let clipped := (xs.filter (atFullScale p)).length;
   p < 2 ∧ f.state = .run ∧ blanked s p = false ∧ clocksRun s = true ∧ xs.length = periodSamples p ∧ f.set.agcMode = 0 ∧ f.set.clipLimit < clipped ∧
   0 < f.gainRange) ∧
  (let s : State := wGain .range 1 36; let p : Nat := 1; let count : Nat := 640 + 2 ^ (State.reset.pathV.fe.used.dcKAcq + 3);
   let f := (pathOf s p).fe;
   p < 2 ∧ f.state = .range ∧ blanked s p = false ∧ clocksRun s = true ∧ settleSamples p + 2 ^ (f.used.dcKAcq + 3) ≤ count) ∧
  (let s : State := wGain .range 1 36; let p : Nat := 1; let count : Nat := 640; let f := (pathOf s p).fe;
   p < 2 ∧ f.state = .range ∧ blanked s p = false ∧ clocksRun s = true ∧ count < settleSamples p + 2 ^ (f.used.dcKAcq + 3)) ∧
  (let s : State := wBlank; let p : Nat := 1;
   p < 2 ∧ blanked s p = true) := by
  refine ⟨by decide +kernel, by decide +kernel, ⟨by decide, rfl, rfl, by decide +kernel, by decide +kernel, rfl, by decide +kernel, ?_⟩,
    ⟨by decide, rfl, rfl, by decide +kernel, by decide +kernel, rfl, by decide +kernel, ?_, by decide +kernel, by decide +kernel⟩,
    ⟨by decide, rfl, rfl, by decide +kernel, by decide +kernel, rfl, by decide +kernel, ?_, by decide +kernel, by decide +kernel⟩,
    ⟨by decide, rfl, rfl, by decide +kernel, by decide +kernel, rfl, by decide +kernel, ?_, ?_, by decide +kernel, rfl, by decide +kernel⟩,
    by decide +kernel, by decide +kernel, by decide +kernel, by decide +kernel⟩
  · exact level_cases (P := fun v => (8 * -15 - v).natAbs ≤ 24) 8 _ _ _ (-121) (by decide +kernel) (by decide +kernel) (by decide) (by decide)
  · exact level_cases (P := fun v => 24 < (8 * -15 - v).natAbs) 8 _ _ _ (-49) (by decide +kernel) (by decide +kernel) (by decide) (by decide)
  · exact level_cases (P := fun v => 24 < (8 * -15 - v).natAbs) 8 _ _ _ (-723) (by decide +kernel) (by decide +kernel) (by decide) (by decide)
  · exact level_cases (P := fun v => 24 < (8 * -15 - v).natAbs) 8 _ _ _ (-723) (by decide +kernel) (by decide +kernel) (by decide) (by decide)
  · exact level_cases (P := fun v => 0 < 8 * -15 - v) 8 _ _ _ (-723) (by decide +kernel) (by decide +kernel) (by decide) (by decide)

theorem witness_BlankInCoversBothPaths :
  (let s : State := wLanes; let p := 1; let n := 11;
   s.link.txBlank = false ∧ tuneOf s 0 = none ∧ tuneOf s 1 = none ∧ s.power.phase = .ready ∧ s.power.vioValid = true ∧ s.link.pinBlank = false ∧
   s.pathL.fe.blankFrom = none ∧ s.pathV.fe.blankFrom = none ∧ p < 2 ∧ (laneOf s n).running = true ∧ (laneOf s n).path < 2) ∧
  (let s : State := wLanes; let n := 0;
   s.link.txBlank = false ∧ tuneOf s 0 = none ∧ tuneOf s 1 = none ∧ s.power.phase = .ready ∧ s.power.vioValid = true ∧ s.link.pinBlank = false ∧
   s.pathL.fe.blankFrom = none ∧ s.pathV.fe.blankFrom = none ∧ ((laneOf s n).running = false ∨ 2 ≤ (laneOf s n).path)) ∧
  (let s : State := wBlanking; let b := 2 ^ 24 - 512; let c := 2 ^ 24; let n := 9;
   s.link.txBlank = false ∧ tuneOf s 0 = none ∧ tuneOf s 1 = none ∧ s.link.pinBlank = true ∧ s.pathL.fe.blankFrom = some b ∧
   s.pathV.fe.blankFrom = some c ∧ (laneOf s n).running = true ∧ (laneOf s n).path < 2) := by
  refine ⟨?_, ?_, ?_⟩ <;> decide +kernel

theorem witness_CalibrationsRun :
  (let s : State := flying (inMode 3) [cCal 0x3000 0x10 3]; let seq := 4; let c := cCal 0x3000 0x10 3;
   LinkQuiet s ∧ s.taste.tastings = [] ∧ MayRun s seq 0x30 c ∧ 3 ≤ s.modes.modeNow ∧ s.modes.modeNow ≤ 6 ∧ par c 9 < 4 ∧ ZeroBytes c 10 31 ∧
   Names c 3 ∧ par c 8 = 0x10) ∧
  (let s : State := flying wLanes [cCal 0x2000 1 0]; let seq := 4; let c := cCal 0x2000 1 0;
   LinkQuiet s ∧ s.taste.tastings = [] ∧ MayRun s seq 0x30 c ∧ 3 ≤ s.modes.modeNow ∧ s.modes.modeNow ≤ 6 ∧ par c 9 < 4 ∧ ZeroBytes c 10 31 ∧
   Names c 2 ∧ 1 ≤ par c 8 ∧ par c 8 ≤ 6 ∧ pathWaits s (cmdIdx c) (bit (par c 9) 0) = true) ∧
  (let s : State := flying wLanes [cCal 0x2001 6 1]; let seq := 4; let c := cCal 0x2001 6 1;
   LinkQuiet s ∧ s.taste.tastings = [] ∧ MayRun s seq 0x30 c ∧ 3 ≤ s.modes.modeNow ∧ s.modes.modeNow ≤ 6 ∧ par c 9 < 4 ∧ ZeroBytes c 10 31 ∧
   Names c 2 ∧ cmdIdx c < 2 ∧ 1 ≤ par c 8 ∧ par c 8 ≤ 6 ∧ pathWaits s (cmdIdx c) (bit (par c 9) 0) = false) ∧
  (let s : State := flying (inMode 6) [cCal 0x7000 0x20 2]; let seq := 4; let c := cCal 0x7000 0x20 2;
   LinkQuiet s ∧ s.taste.tastings = [] ∧ MayRun s seq 0x30 c ∧ 3 ≤ s.modes.modeNow ∧ s.modes.modeNow ≤ 6 ∧ par c 9 < 4 ∧ ZeroBytes c 10 31 ∧
   Names c 7 ∧ par c 8 = 0x20 ∧ linkWaits s = false) ∧
  (let s : State := wX32Job; let job : CalJob := { seq := 4, typ := 0x10, items := [(8, 0)], written := 0, store := false }; let m := mCal true;
   LinkQuiet s ∧ s.taste.tastings = [] ∧ s.cal.x32Job = some job ∧ job.typ = 0x10 ∧ job.items = [(8, 0)] ∧ job.store = false ∧ m.converged = true ∧
   stopCause s job.seq = none) ∧
  (let s : State := wX32Job; let job : CalJob := { seq := 4, typ := 0x10, items := [(8, 0)], written := 0, store := false }; let m := mCal false;
   LinkQuiet s ∧ s.taste.tastings = [] ∧ s.cal.x32Job = some job ∧ job.typ = 0x10 ∧ job.items = [(8, 0)] ∧ job.store = false ∧ m.converged = false) ∧
  (let s : State := wPathJob; let p := 1; let job : CalJob := { seq := 4, typ := 1, items := [(0, 0), (0, 1)], written := 0, store := false };
   let i := 0; let rest := [(0, 1)]; let m := mCal true;
   LinkQuiet s ∧ s.taste.tastings = [] ∧ p < 2 ∧ (pathOf s p).job = some job ∧ job.items = (0, i) :: rest ∧ rest ≠ [] ∧ job.typ = 0x01 ∧
   m.converged = true ∧ blanked s p = false ∧ stopCause s job.seq = none) ∧
  (let s : State := wRecal; let p := 0; let b := 255;
   LinkQuiet s ∧ s.taste.tastings = [] ∧ p < 3 ∧ b < 256 ∧ recalRuns s p = true) := by
  refine ⟨?_, ?_, ?_, ?_, ?_, ?_, ?_, ?_⟩ <;> decide +kernel

theorem witness_SelfTestsReport :
  (let s : State := flying (inMode 3) [cTest 0 3]; let seq : Nat := 4; let c : Cmd := cTest 0 3;
   MayRun s seq 0x31 c ∧ 3 ≤ s.modes.modeNow ∧ s.modes.modeNow ≤ 6 ∧ par c 9 < 4 ∧ ZeroBytes c 10 31 ∧ Names c 0 ∧ 1 ≤ par c 8 ∧ par c 8 ≤ 3) ∧
  (let s : State := flying (inMode 3) [cTest 0xB000 0x30]; let seq : Nat := 4; let c : Cmd := cTest 0xB000 0x30;
   MayRun s seq 0x31 c ∧ 3 ≤ s.modes.modeNow ∧ s.modes.modeNow ≤ 6 ∧ par c 9 < 4 ∧ ZeroBytes c 10 31 ∧ Names c 11 ∧ par c 8 = 0x30) ∧
  (let s : State := flying (inMode 6) [cTest 0x103F 0x10]; let seq : Nat := 4; let c : Cmd := cTest 0x103F 0x10;
   MayRun s seq 0x31 c ∧ 3 ≤ s.modes.modeNow ∧ s.modes.modeNow ≤ 6 ∧ par c 9 < 4 ∧ ZeroBytes c 10 31 ∧ Names c 1 ∧ par c 8 = 0x10 ∧
   (laneOf s (cmdIdx c)).hold = .free) ∧
  (let s : State := wBound (cTest 0x103F 0x10); let seq : Nat := 4; let c : Cmd := cTest 0x103F 0x10;
   MayRun s seq 0x31 c ∧ 3 ≤ s.modes.modeNow ∧ s.modes.modeNow ≤ 6 ∧ par c 9 < 4 ∧ ZeroBytes c 10 31 ∧ Names c 1 ∧ par c 8 = 0x10 ∧
   (laneOf s (cmdIdx c)).hold = .host) ∧
  (let s : State := flying (inMode 3) [running (cTest 0 1)]; let seq : Nat := 4; let c : Cmd := running (cTest 0 1); let m : TestMeas := mTest true;
   findCmd s seq = some c ∧ cmdOp c = 0x31 ∧ c.phase = .running ∧ cmdKind c = 0 ∧ (par c 8 ≠ 3 ∨ s.modes.modeNow = 1) ∧ m.pass = true) ∧
  (let s : State := flying (inMode 1) [running (cTest 0 3)]; let seq : Nat := 4; let c : Cmd := running (cTest 0 3); let m : TestMeas := mTest true;
   findCmd s seq = some c ∧ cmdOp c = 0x31 ∧ c.phase = .running ∧ cmdKind c = 0 ∧ (par c 8 ≠ 3 ∨ s.modes.modeNow = 1) ∧ m.pass = true) ∧
  (let s : State := wFabricTest 115; let seq : Nat := 4; let c : Cmd := running (cTest 0 3); let num := 320000; let den := 2800;
   findCmd s seq = some c ∧ cmdOp c = 0x31 ∧ c.phase = .running ∧ cmdKind c = 0 ∧ par c 8 = 3 ∧ s.modes.modeNow ≠ 1 ∧
   minPace s.fabric.vcore s.cal.temp = some (num, den) ∧ num ≤ den * s.fabric.pace) ∧
  (let s : State := wFabricTest 114; let seq : Nat := 4; let c : Cmd := running (cTest 0 3); let num := 320000; let den := 2800;
   findCmd s seq = some c ∧ cmdOp c = 0x31 ∧ c.phase = .running ∧ cmdKind c = 0 ∧ par c 8 = 3 ∧ s.modes.modeNow ≠ 1 ∧
   minPace s.fabric.vcore s.cal.temp = some (num, den) ∧ den * s.fabric.pace < num) ∧
  (let s : State := flying (inMode 3) [running (cTest 0 2)]; let seq : Nat := 4; let c : Cmd := running (cTest 0 2); let m : TestMeas := mTest false;
   findCmd s seq = some c ∧ cmdOp c = 0x31 ∧ c.phase = .running ∧ cmdKind c = 0 ∧ (par c 8 ≠ 3 ∨ s.modes.modeNow = 1) ∧ m.pass = false) ∧
  (let s : State := wBadBank; let seq : Nat := 4; let c : Cmd := running (cTest 0xB000 0x30);
   findCmd s seq = some c ∧ cmdOp c = 0x31 ∧ c.phase = .running ∧ cmdKind c = 11 ∧ badRecords s.cellar ≠ 0) ∧
  (let s : State := wTested; let seq : Nat := 4; let c : Cmd := running (cTest 0x103F 0x10); let m : TestMeas := mTest true;
   findCmd s seq = some c ∧ cmdOp c = 0x31 ∧ c.phase = .running ∧ cmdKind c = 1 ∧ m.pass = true) := by
  refine ⟨?_, ?_, ?_, ?_, ?_, ?_, ?_, ?_, ?_, ?_, ?_⟩ <;> decide +kernel

theorem witness_LaneCommandsMakeTheNextGeneration :
  (let s : State := flying (inMode 3) [cBind 0 30000000 4]; let seq : Nat := 4; let c : Cmd := cBind 0 30000000 4; let n := cmdIdx c;
   let x := laneOf s n;
   Names c 1 ∧ 3 ≤ s.modes.modeNow ∧ s.modes.modeNow ≤ 6 ∧ MayRun s seq 0x11 c ∧ ZeroBytes c 14 31 ∧ par c 13 < 8 ∧ par c 8 < 2 ∧
   freqOk s (par c 8) (parN c 9 4) = true ∧ (laneRate (par c 8) (par c 13)).isSome = true ∧ s.taste.tastings = [] ∧ x.hold = .free ∧
   (s.modes.modeNow = 3 → (runningHost s).length < 8)) ∧
  (let s : State := flying (inMode 6) [cBind 1 64000000 3]; let seq : Nat := 4; let c : Cmd := cBind 1 64000000 3; let n := cmdIdx c;
   let x := laneOf s n;
   Names c 1 ∧ 3 ≤ s.modes.modeNow ∧ s.modes.modeNow ≤ 6 ∧ MayRun s seq 0x11 c ∧ ZeroBytes c 14 31 ∧ par c 13 < 8 ∧ par c 8 < 2 ∧
   freqOk s (par c 8) (parN c 9 4) = true ∧ (laneRate (par c 8) (par c 13)).isSome = true ∧ s.taste.tastings = [] ∧ x.hold = .free ∧
   (s.modes.modeNow = 3 → (runningHost s).length < 8)) ∧
  (let s : State := wTasted [cBind 1 64000000 3]; let seq : Nat := 4; let c : Cmd := cBind 1 64000000 3; let n := cmdIdx c; let x := laneOf s n;
   let y := tasting 2 1; let k := 0;
   Names c 1 ∧ 3 ≤ s.modes.modeNow ∧ s.modes.modeNow ≤ 6 ∧ MayRun s seq 0x11 c ∧ ZeroBytes c 14 31 ∧ par c 13 < 8 ∧ par c 8 < 2 ∧
   freqOk s (par c 8) (parN c 9 4) = true ∧ (laneRate (par c 8) (par c 13)).isSome = true ∧ s.taste.tastings = [(n, y)] ∧ x.hold = .tasting ∧
   s.modes.modeNow ≠ 3 ∧ k ≠ n) ∧
  (let s : State := flying (onAir (inMode 6) amLane) [cBind 0 9980000 1]; let seq : Nat := 4; let c : Cmd := cBind 0 9980000 1; let n := cmdIdx c;
   let x := laneOf s n;
   Names c 1 ∧ 3 ≤ s.modes.modeNow ∧ s.modes.modeNow ≤ 6 ∧ MayRun s seq 0x11 c ∧ ZeroBytes c 14 31 ∧ par c 13 < 8 ∧ par c 8 < 2 ∧
   freqOk s (par c 8) (parN c 9 4) = true ∧ (laneRate (par c 8) (par c 13)).isSome = true ∧ x.hold = .host) ∧
  (let s : State := flying (inMode 5) [cBind 0xFF 0 0]; let seq : Nat := 4; let c : Cmd := cBind 0xFF 0 0; let n := cmdIdx c; let x := laneOf s n;
   Names c 1 ∧ 3 ≤ s.modes.modeNow ∧ s.modes.modeNow ≤ 6 ∧ MayRun s seq 0x11 c ∧ ZeroBytes c 14 31 ∧ par c 13 < 8 ∧ par c 8 = 0xFF ∧ x.hold = .free) ∧
  (let s : State := flying (onAir (inMode 3) amLane) [cBind 0xFF 0 0]; let seq : Nat := 4; let c : Cmd := cBind 0xFF 0 0; let n := cmdIdx c;
   let x := laneOf s n;
   Names c 1 ∧ 3 ≤ s.modes.modeNow ∧ s.modes.modeNow ≤ 6 ∧ MayRun s seq 0x11 c ∧ ZeroBytes c 14 31 ∧ par c 13 < 8 ∧ par c 8 = 0xFF ∧ x.hold = .host ∧
   delivering s n = true ∧ x.idle = false) ∧
  (let s : State := flying (onAir (inMode 3) fmIdle) [cBind 0xFF 0 0]; let seq : Nat := 4; let c : Cmd := cBind 0xFF 0 0; let n := cmdIdx c;
   let x := laneOf s n; let k := 0;
   Names c 1 ∧ 3 ≤ s.modes.modeNow ∧ s.modes.modeNow ≤ 6 ∧ MayRun s seq 0x11 c ∧ ZeroBytes c 14 31 ∧ par c 13 < 8 ∧ par c 8 = 0xFF ∧ x.hold = .host ∧
   (delivering s n = false ∨ x.idle = true) ∧ s.taste.follows = [] ∧ k ≠ n) ∧
  (let s : State := flying (onAir (inMode 3) amLane) [cSet]; let seq : Nat := 4; let c : Cmd := cSet; let n := cmdIdx c; let x := laneOf s n;
   Names c 1 ∧ 3 ≤ s.modes.modeNow ∧ s.modes.modeNow ≤ 6 ∧ MayRun s seq 0x12 c ∧ ZeroBytes c 25 31 ∧ par c 9 < 2 ∧
   (setMask c 0 = true → freqOk s x.path (parN c 10 4) = true) ∧ (setMask c 1 = true → (laneRate x.path (bits (par c 14) 2 0)).isSome = true) ∧
   ((setMask c 1 = true ∨ setMask c 2 = true) → bit (par c 14) 3 = false ∧ par c 14 < 64) ∧ (setMask c 3 = true → bits (par c 15) 2 0 ≤ 4) ∧
   ((setMask c 3 = true ∨ setMask c 4 = true ∨ setMask c 7 = true) → bit (par c 15) 3 = false) ∧ (setMask c 5 = true → par c 16 < 3) ∧
   (setMask c 6 = true → par c 18 % 16 ≤ 4 ∧ parI c 21 2 ≤ parI c 19 2) ∧ x.hold = .host ∧ settingAccepted x.path (setFields c (nextSet x)) = true) ∧
  (let s : State := flying (onAir (inMode 3) amPending) [cSet]; let seq : Nat := 4; let c : Cmd := cSet; let n := cmdIdx c; let x := laneOf s n;
   Names c 1 ∧ 3 ≤ s.modes.modeNow ∧ s.modes.modeNow ≤ 6 ∧ MayRun s seq 0x12 c ∧ ZeroBytes c 25 31 ∧ par c 9 < 2 ∧
   (setMask c 0 = true → freqOk s x.path (parN c 10 4) = true) ∧ (setMask c 1 = true → (laneRate x.path (bits (par c 14) 2 0)).isSome = true) ∧
   ((setMask c 1 = true ∨ setMask c 2 = true) → bit (par c 14) 3 = false ∧ par c 14 < 64) ∧ (setMask c 3 = true → bits (par c 15) 2 0 ≤ 4) ∧
   ((setMask c 3 = true ∨ setMask c 4 = true ∨ setMask c 7 = true) → bit (par c 15) 3 = false) ∧ (setMask c 5 = true → par c 16 < 3) ∧
   (setMask c 6 = true → par c 18 % 16 ≤ 4 ∧ parI c 21 2 ≤ parI c 19 2) ∧ x.hold = .host ∧ settingAccepted x.path (setFields c (nextSet x)) = true) ∧
  (let s : State := flying (onAir (inMode 3) fmLane) [cDetach]; let seq : Nat := 4; let c : Cmd := cDetach; let n := cmdIdx c; let x := laneOf s n;
   Names c 1 ∧ 3 ≤ s.modes.modeNow ∧ s.modes.modeNow ≤ 6 ∧ MayRun s seq 0x14 c ∧ x.hold = .host ∧ firstFail (checkParams s (some x.path) c) = none ∧
   settingAccepted x.path (withEngine c 0 (nextSet x)) = true ∧ par c 8 = 0) ∧
  (let s : State := flying (onAir (inMode 3) amLane) [cAttach]; let seq : Nat := 4; let c : Cmd := cAttach; let n := cmdIdx c; let x := laneOf s n;
   let i := 0;
   Names c 1 ∧ 3 ≤ s.modes.modeNow ∧ s.modes.modeNow ≤ 6 ∧ MayRun s seq 0x14 c ∧ x.hold = .host ∧ firstFail (checkParams s (some x.path) c) = none ∧
   settingAccepted x.path (withEngine c 0 (nextSet x)) = true ∧ 1 ≤ par c 8 ∧ par c 8 ≤ 4 ∧ pickEngine s (par c 8) (par c 9) = some i ∧
   i < engineCount (par c 8) ∧ engineTaken s n (par c 8) i = false ∧ (∀ m y, engineHolder s (par c 8) i = some (m, y) → y.hold ≠ .tasting)) ∧
  (let s : State := flying (onAir (inMode 3) amSlow) [cAttachLf]; let seq : Nat := 4; let c : Cmd := cAttachLf; let n := cmdIdx c;
   let x := laneOf s n; let i := 3;
   Names c 1 ∧ 3 ≤ s.modes.modeNow ∧ s.modes.modeNow ≤ 6 ∧ MayRun s seq 0x14 c ∧ x.hold = .host ∧ firstFail (checkParams s (some x.path) c) = none ∧
   settingAccepted x.path (withEngine c 0 (nextSet x)) = true ∧ 1 ≤ par c 8 ∧ par c 8 ≤ 4 ∧ pickEngine s (par c 8) (par c 9) = some i ∧
   i < engineCount (par c 8) ∧ engineTaken s n (par c 8) i = false ∧ (∀ m y, engineHolder s (par c 8) i = some (m, y) → y.hold ≠ .tasting)) ∧
  (let s : State := flying wTastingUnits [cAttach]; let seq : Nat := 4; let c : Cmd := cAttach; let n := cmdIdx c; let x := laneOf s n; let i := 0;
   let m := 0; let y := laneOf wTastingUnits 0;
   Names c 1 ∧ 3 ≤ s.modes.modeNow ∧ s.modes.modeNow ≤ 6 ∧ MayRun s seq 0x14 c ∧ x.hold = .host ∧ firstFail (checkParams s (some x.path) c) = none ∧
   settingAccepted x.path (withEngine c 0 (nextSet x)) = true ∧ 1 ≤ par c 8 ∧ par c 8 ≤ 4 ∧ pickEngine s (par c 8) (par c 9) = some i ∧
   i < engineCount (par c 8) ∧ engineTaken s n (par c 8) i = false ∧ par c 8 ≠ 4 ∧ m ≠ n ∧ engineHolder s (par c 8) i = some (m, y) ∧
   y.hold = .tasting) := by
  refine ⟨?_, ?_, ?_, ?_, ?_, ?_, ?_, ?_, ?_, ?_, ⟨?_, ?_, ?_, ?_, ?_, ?_, ?_, ?_, ?_, ?_, ?_, ?_, no_holder (by decide +kernel)⟩,
    ⟨?_, ?_, ?_, ?_, ?_, ?_, ?_, ?_, ?_, ?_, ?_, ?_, no_holder (by decide +kernel)⟩, ?_⟩ <;> decide +kernel

theorem witness_SynchronisationReachesItsLanes :
  (let s : State := flying (onAir (inMode 5) amLane) [cSync]; let seq := 4; let c := cSync;
   let reached (n : Nat) : Bool := bit (parN c 8 8) n && syncable s (cmdIdx c) n; let n := 63;
   MayRun s seq 0x13 c ∧ Names c 2 ∧ cmdIdx c < 2 ∧ ZeroBytes c 16 31 ∧ 3 ≤ s.modes.modeNow ∧ s.modes.modeNow ≤ 5 ∧
   (∀ n, reached n = true → (laneOf s n).idle = false) ∧ n < 64) ∧
  (let s : State := flying (onAir (inMode 3) amFirst) [cSync63]; let seq := 4; let c := cSync63; let n := 63; let k := 0;
   MayRun s seq 0x13 c ∧ Names c 2 ∧ cmdIdx c < 2 ∧ ZeroBytes c 16 31 ∧ 3 ≤ s.modes.modeNow ∧ s.modes.modeNow ≤ 5 ∧ n < 64 ∧ parN c 8 8 = 2 ^ n ∧
   syncable s (cmdIdx c) n = true ∧ (laneOf s n).idle = true ∧ (laneOf s n).pending = none ∧ (laneOf s n).shortNext = false ∧
   (laneOf s n).shed = false ∧ (laneOf s n).cur.engKind < 2 ∧ s.fabric.shedLevelL = 0 ∧ s.fabric.shedLevelV = 0 ∧ k ≠ n) ∧
  (let s : State := onAir (inMode 5) (pinLane fmLane); let n := 63;
   s.power.phase = .ready ∧ s.power.vioValid = true ∧
   (∀ n p, p < 2 → syncable s p n = true → (laneOf s n).cur.syncPinEn = true → (laneOf s n).idle = false) ∧ n < 64) ∧
  (let s : State := inPhase .waiting;
   (s.power.phase ≠ .ready ∨ s.power.vioValid = false)) ∧
  (let s : State := wNoVio;
   (s.power.phase ≠ .ready ∨ s.power.vioValid = false)) := by
  refine ⟨⟨?_, ?_, ?_, ?_, ?_, ?_, fun n h => begun_lane rfl rfl 0 n (by rw [Bool.and_eq_true] at h; exact h.2), ?_⟩, ?_,
    ⟨?_, ?_, fun n p _ h _ => begun_lane rfl rfl p n h, ?_⟩, ?_, ?_⟩ <;> decide +kernel

theorem witness_BlocksAreRecorded :
  (let s : State := State.reset; let n : Nat := 63;
   laneTakes s n = false) ∧
  (let s : State := onAir (inMode 3) amLane; let n : Nat := 63; let m : BlockMeas := mQuick; let x := laneOf s n;
   x.idle = false ∧ blockDue x m.samples.length = false) ∧
  (let s : State := onAir (inMode 3) amFirst; let n : Nat := 63; let m : BlockMeas := mQuick; let x := laneOf s n; let begun := beginFirst n s;
   laneTakes s n = true ∧ x.idle = true ∧ laneTakes begun n = true ∧ blockDue (laneOf begun n) m.samples.length = true) ∧
  (let s : State := onAir (inMode 3) (quick amLane); let n : Nat := 63; let m : BlockMeas := mQuick; let x := laneOf s n;
   let coarse := x.cur.detSrc == 2 || (x.cur.detSrc == 0 && 0 < x.settling); let k := 0;
   laneTakes s n = true ∧ x.hold = .host ∧ x.idle = false ∧ x.shed = false ∧ blockDue x m.samples.length = true ∧ s.fabric.shedLevelL = 0 ∧
   s.fabric.shedLevelV = 0 ∧ x.cur.engKind = 0 ∧ x.cur.thSrc = 0 ∧ (∀ new, x.pending = some new → new.engKind = 0) ∧
   (∀ d, x.synced = some d → d.1.engKind = 0) ∧ s.taste.tastings = [] ∧ s.taste.follows = [] ∧ k ≠ n ∧ x.touched = 0 ∧ x.causeEnd = [] ∧
   s.link.txBlank = false ∧ s.link.pinBlank = false ∧ (pathOf s x.path).fe.state = .run ∧ inWindow s x.path x.cur.freqHz = true ∧ coarse = true ∧
   x.unbind = false ∧ x.pending = none ∧ x.shortNext = false) ∧
  (let s : State := onAir (inMode 3) (quick amCoarse); let n : Nat := 63; let m : BlockMeas := mQuick; let x := laneOf s n;
   let coarse := x.cur.detSrc == 2 || (x.cur.detSrc == 0 && 0 < x.settling);
   laneTakes s n = true ∧ x.hold = .host ∧ x.idle = false ∧ x.shed = false ∧ blockDue x m.samples.length = true ∧ s.fabric.shedLevelL = 0 ∧
   s.fabric.shedLevelV = 0 ∧ x.cur.engKind = 0 ∧ x.cur.thSrc = 0 ∧ (∀ new, x.pending = some new → new.engKind = 0) ∧
   (∀ d, x.synced = some d → d.1.engKind = 0) ∧ s.taste.tastings = [] ∧ s.taste.follows = [] ∧ x.touched = 0 ∧ x.causeEnd = [] ∧
   s.link.txBlank = false ∧ s.link.pinBlank = false ∧ (pathOf s x.path).fe.state = .run ∧ inWindow s x.path x.cur.freqHz = true ∧ coarse = true) ∧
  (let s : State := onAir (inMode 3) (quick amFine); let n : Nat := 63; let m : BlockMeas := mQuick; let x := laneOf s n;
   let coarse := x.cur.detSrc == 2 || (x.cur.detSrc == 0 && 0 < x.settling);
   laneTakes s n = true ∧ x.hold = .host ∧ x.idle = false ∧ x.shed = false ∧ blockDue x m.samples.length = true ∧ s.fabric.shedLevelL = 0 ∧
   s.fabric.shedLevelV = 0 ∧ x.cur.engKind = 0 ∧ x.cur.thSrc = 0 ∧ (∀ new, x.pending = some new → new.engKind = 0) ∧
   (∀ d, x.synced = some d → d.1.engKind = 0) ∧ s.taste.tastings = [] ∧ s.taste.follows = [] ∧ x.touched = 0 ∧ x.causeEnd = [] ∧
   s.link.txBlank = false ∧ s.link.pinBlank = false ∧ (pathOf s x.path).fe.state = .run ∧ inWindow s x.path x.cur.freqHz = true ∧ coarse = false) ∧
  (let s : State := onAir (inMode 3) flatLane; let n : Nat := 63; let m : BlockMeas := mBlock; let x := laneOf s n;
   let delay := fineDelay2 x.path x.cur * 2 ^ 24;
   laneTakes s n = true ∧ x.hold = .host ∧ x.idle = false ∧ x.shed = false ∧ blockDue x m.samples.length = true ∧ s.fabric.shedLevelL = 0 ∧
   s.fabric.shedLevelV = 0 ∧ x.cur.engKind = 0 ∧ x.cur.thSrc = 0 ∧ (∀ new, x.pending = some new → new.engKind = 0) ∧
   (∀ d, x.synced = some d → d.1.engKind = 0) ∧ s.taste.tastings = [] ∧ s.taste.follows = [] ∧ delay % (2 * adcRate x.path) = 0) ∧
  (let s : State := wBlanked (quick amLane); let n : Nat := 63; let m : BlockMeas := mQuick; let x := laneOf s n;
   laneTakes s n = true ∧ x.hold = .host ∧ x.idle = false ∧ x.shed = false ∧ blockDue x m.samples.length = true ∧ s.fabric.shedLevelL = 0 ∧
   s.fabric.shedLevelV = 0 ∧ x.cur.engKind = 0 ∧ x.cur.thSrc = 0 ∧ (∀ new, x.pending = some new → new.engKind = 0) ∧
   (∀ d, x.synced = some d → d.1.engKind = 0) ∧ s.taste.tastings = [] ∧ s.taste.follows = [] ∧
   (s.link.txBlank = true ∨ s.link.pinBlank = true ∨ bit x.touched 0 = true)) ∧
  (let s : State := wInCal (quick amUnbound); let n : Nat := 63; let m : BlockMeas := mQuick; let x := laneOf s n;
   laneTakes s n = true ∧ x.hold = .host ∧ x.idle = false ∧ x.shed = false ∧ blockDue x m.samples.length = true ∧ s.fabric.shedLevelL = 0 ∧
   s.fabric.shedLevelV = 0 ∧ x.cur.engKind = 0 ∧ x.cur.thSrc = 0 ∧ (∀ new, x.pending = some new → new.engKind = 0) ∧
   (∀ d, x.synced = some d → d.1.engKind = 0) ∧ s.taste.tastings = [] ∧ s.taste.follows = [] ∧
   ((pathOf s x.path).fe.state = .cal ∨ bit x.touched 1 = true) ∧ x.unbind = true) ∧
  (let s : State := onAir (inMode 3) (quick amShort); let n : Nat := 63; let m : BlockMeas := mQuick; let x := laneOf s n;
   laneTakes s n = true ∧ x.hold = .host ∧ x.idle = false ∧ x.shed = false ∧ blockDue x m.samples.length = true ∧ s.fabric.shedLevelL = 0 ∧
   s.fabric.shedLevelV = 0 ∧ x.cur.engKind = 0 ∧ x.cur.thSrc = 0 ∧ (∀ new, x.pending = some new → new.engKind = 0) ∧
   (∀ d, x.synced = some d → d.1.engKind = 0) ∧ s.taste.tastings = [] ∧ s.taste.follows = [] ∧ x.unbind = false ∧ x.shortNext = true) ∧
  (let s : State := onAir (inMode 3) { quick amShort with synced := some ({ freqHz := 9900000 }, 9, false) }; let n : Nat := 63;
   let m : BlockMeas := { mQuick with samples := List.replicate 160 (9, 9) }; let x := laneOf s n;
   laneTakes s n = true ∧ x.hold = .host ∧ x.idle = false ∧ x.shed = false ∧ blockDue x m.samples.length = true ∧ s.fabric.shedLevelL = 0 ∧
   s.fabric.shedLevelV = 0 ∧ x.cur.engKind = 0 ∧ x.cur.thSrc = 0 ∧ (∀ new, x.pending = some new → new.engKind = 0) ∧
   (∀ d, x.synced = some d → d.1.engKind = 0) ∧ s.taste.tastings = [] ∧ s.taste.follows = [] ∧ x.unbind = false ∧ x.shortNext = true) ∧
  (let s : State := onAir (inMode 3) (quick amNew); let n : Nat := 63; let m : BlockMeas := mQuick; let x := laneOf s n;
   let new := { freqHz := 9000000 };
   laneTakes s n = true ∧ x.hold = .host ∧ x.idle = false ∧ x.shed = false ∧ blockDue x m.samples.length = true ∧ s.fabric.shedLevelL = 0 ∧
   s.fabric.shedLevelV = 0 ∧ x.cur.engKind = 0 ∧ x.cur.thSrc = 0 ∧ (∀ new, x.pending = some new → new.engKind = 0) ∧
   (∀ d, x.synced = some d → d.1.engKind = 0) ∧ s.taste.tastings = [] ∧ s.taste.follows = [] ∧ x.unbind = false ∧ x.shortNext = false ∧
   x.pending = some new ∧ new.freqHz ≠ x.cur.freqHz) ∧
  (let s : State := onAir (inMode 3) (quick amOff); let n : Nat := 63; let m : BlockMeas := mQuick; let x := laneOf s n;
   laneTakes s n = true ∧ x.hold = .host ∧ x.idle = false ∧ x.shed = false ∧ blockDue x m.samples.length = true ∧ s.fabric.shedLevelL = 0 ∧
   s.fabric.shedLevelV = 0 ∧ x.cur.engKind = 0 ∧ x.cur.thSrc = 0 ∧ (∀ new, x.pending = some new → new.engKind = 0) ∧
   (∀ d, x.synced = some d → d.1.engKind = 0) ∧ s.taste.tastings = [] ∧ s.taste.follows = [] ∧
   (inWindow s x.path x.cur.freqHz = false ∨ bit x.touched 2 = true)) := by
  refine ⟨?_, ?_, ?_, ?_, ?_, ?_, ?_, ?_, ?_, ?_, ?_, ?_, ?_⟩ <;> decide +kernel

theorem witness_NarrowEnginesTakeTheirSignals :
  (let s : State := wFm {}; let n : Nat := 63; let x := (laneOf s n).cur; let u := x.engIndex; let raw := badGroup; let a := analogueOf s u;
   let g := readGroup (laneOf s n) raw;
   laneTakes s n = true ∧ (laneOf s n).hold = .host ∧ s.slots.slots = [] ∧ s.taste.follows = [] ∧ s.taste.tastings = [] ∧ x.engKind = 1 ∧
   (engPar x 10 = 3 ∨ engPar x 10 = 4) ∧ bit (engPar x 12) 0 = true ∧ a.rdsSync = false ∧ rdsGainsSync a g = false) ∧
  (let s : State := wFm { rdsSync := true, piSeen := some 0xD311 }; let n : Nat := 63; let x := (laneOf s n).cur; let u := x.engIndex;
   let raw := goodGroup; let a := analogueOf s u; let g := readGroup (laneOf s n) raw; let k := 0;
   laneTakes s n = true ∧ (laneOf s n).hold = .host ∧ s.slots.slots = [] ∧ s.taste.follows = [] ∧ s.taste.tastings = [] ∧ x.engKind = 1 ∧
   (engPar x 10 = 3 ∨ engPar x 10 = 4) ∧ bit (engPar x 12) 0 = true ∧ (laneOf s n).gaps = [] ∧ raw.blocks.length = 4 ∧
   (∀ b ∈ raw.blocks, b.found = some b.raw) ∧ raw.cPrime = false ∧ raw.eBlocks = 0 ∧ piExpect x = 0 ∧ rdsBlock g 1 / 2048 ≠ 8 ∧
   a.piSeen = some (rdsBlock g 0) ∧ k ≠ u) ∧
  (let s : State := wFm { rdsSync := false, piSeen := some 0xD311 }; let n : Nat := 63; let x := (laneOf s n).cur; let u := x.engIndex;
   let raw := goodGroup; let a := analogueOf s u; let g := readGroup (laneOf s n) raw;
   laneTakes s n = true ∧ (laneOf s n).hold = .host ∧ s.slots.slots = [] ∧ s.taste.follows = [] ∧ s.taste.tastings = [] ∧ x.engKind = 1 ∧
   (engPar x 10 = 3 ∨ engPar x 10 = 4) ∧ bit (engPar x 12) 0 = true ∧ (laneOf s n).gaps = [] ∧ raw.blocks.length = 4 ∧
   (∀ b ∈ raw.blocks, b.found = some b.raw) ∧ raw.cPrime = false ∧ raw.eBlocks = 0 ∧ piExpect x = 0 ∧ rdsBlock g 1 / 2048 ≠ 8 ∧
   a.piSeen = some (rdsBlock g 0)) ∧
  (let s : State := wLf (lfDecoder 0); let n : Nat := 63; let x := (laneOf s n).cur; let u := x.engIndex; let d := lfOf s u;
   laneTakes s n = true ∧ (laneOf s n).hold = .host ∧ s.slots.slots = [] ∧ s.taste.follows = [] ∧ s.taste.tastings = [] ∧ x.engKind = 4 ∧ d.state = 0) ∧
  (let s : State := wLf (lfDecoder 2); let n : Nat := 63; let x := (laneOf s n).cur; let u := x.engIndex; let m := mSecond (5 * 2 ^ 24);
   let d := lfOf s u; let w := some (5 * 2 ^ 24 + 2 ^ 24 / 10 + 1); let e := 4 * 2 ^ 24; let k := 0;
   laneTakes s n = true ∧ (laneOf s n).hold = .host ∧ s.slots.slots = [] ∧ s.taste.follows = [] ∧ s.taste.tastings = [] ∧ x.engKind = 4 ∧
   d.state = 2 ∧ d.edges = 4 ∧ d.lastEdge = some e ∧ (laneOf s n).gaps = [] ∧ m.points ≠ [] ∧
   (lfKeyed d.copy (engPar x 12) (lfReference d) m).head? = some (e + 2 ^ 24, w) ∧ k ≠ u) ∧
  (let s : State := wLf (lfDecoder 4); let n : Nat := 63; let x := (laneOf s n).cur; let u := x.engIndex; let m := mSecond (5 * 2 ^ 24);
   let d := lfOf s u; let second := lfSecondOf (laneOf s n) (engPar x 12) m d; let sym := lfClass d.copy second; let k := 0;
   laneTakes s n = true ∧ (laneOf s n).hold = .host ∧ s.slots.slots = [] ∧ s.taste.follows = [] ∧ s.taste.tastings = [] ∧ x.engKind = 4 ∧
   d.state = 4 ∧ second.erased = false ∧ lfIsMark d.copy d sym second.edgeErased = false ∧ (second.key.isSome = true ∨ d.empty < 9) ∧ k ≠ u) ∧
  (let s : State := wLf (lfAtMark false); let n : Nat := 63; let x := (laneOf s n).cur; let u := x.engIndex; let m := mSecond (5 * 2 ^ 24);
   let d := lfOf s u; let second := lfSecondOf (laneOf s n) (engPar x 12) m d; let sym := lfClass d.copy second; let k := 0; let tm := lfTime0;
   laneTakes s n = true ∧ (laneOf s n).hold = .host ∧ s.slots.slots = [] ∧ s.taste.follows = [] ∧ s.taste.tastings = [] ∧ x.engKind = 4 ∧
   d.state = 4 ∧ second.erased = false ∧ lfIsMark d.copy d sym second.edgeErased = true ∧ k ≠ u ∧ d.symbols.length = 60 ∧
   (lfRead s d.copy d.symbols.reverse).toOption = some tm ∧ d.lastMinute = none ∧ bit (engPar x 13) 0 = false ∧ 2 ≤ engPar x 11) ∧
  (let s : State := wLf (lfAtMark true); let n : Nat := 63; let x := (laneOf s n).cur; let u := x.engIndex; let m := mSecond (5 * 2 ^ 24);
   let d := lfOf s u; let second := lfSecondOf (laneOf s n) (engPar x 12) m d; let sym := lfClass d.copy second;
   laneTakes s n = true ∧ (laneOf s n).hold = .host ∧ s.slots.slots = [] ∧ s.taste.follows = [] ∧ s.taste.tastings = [] ∧ x.engKind = 4 ∧
   d.state = 4 ∧ second.erased = false ∧ lfIsMark d.copy d sym second.edgeErased = true ∧ d.symbols.length = 60 ∧
   (match lfRead s d.copy d.symbols.reverse with | .ok _ => none | .error f => some f) = some LfFault.erased) ∧
  (let s : State := wLf { lfAtMark false with symbols := [(LfSym.missing, false)] }; let n : Nat := 63; let x := (laneOf s n).cur;
   let u := x.engIndex; let m := mSecond (5 * 2 ^ 24); let d := lfOf s u; let second := lfSecondOf (laneOf s n) (engPar x 12) m d;
   let sym := lfClass d.copy second;
   laneTakes s n = true ∧ (laneOf s n).hold = .host ∧ s.slots.slots = [] ∧ s.taste.follows = [] ∧ s.taste.tastings = [] ∧ x.engKind = 4 ∧
   d.state = 4 ∧ second.erased = false ∧ lfIsMark d.copy d sym second.edgeErased = true ∧ d.symbols.length ≠ 60 ∧ d.symbols.length ≠ 61) := by
  refine ⟨?_, ?_, ?_, ?_, ?_, ?_, ?_, ?_, ?_⟩ <;> decide +kernel

theorem witness_WideEnginesTakeTheirSignals :
  (let s : State := wSecondsOn (wDrm { eng := { state := 6, erasedSince := some 0 } }); let n : Nat := 63; let x := (laneOf s n).cur;
   let u := x.engIndex; let e := engOf s x.engKind u; let t0 := 0;
   laneTakes s n = true ∧ (laneOf s n).hold = .host ∧ s.slots.slots = [] ∧ s.taste.follows = [] ∧ s.taste.tastings = [] ∧
   (x.engKind = 2 ∨ x.engKind = 3) ∧ e.state ≠ 0 ∧ e.erasedSince = some t0 ∧ t0 + 2 * 2 ^ 24 ≤ s.clocks.sc ∧ e.gapDone = false) ∧
  (let s : State := wSecondsOn (wDab { eng := { state := 4, erasedSince := some 0 } }); let n : Nat := 63; let x := (laneOf s n).cur;
   let u := x.engIndex; let e := engOf s x.engKind u; let t0 := 0;
   laneTakes s n = true ∧ (laneOf s n).hold = .host ∧ s.slots.slots = [] ∧ s.taste.follows = [] ∧ s.taste.tastings = [] ∧
   (x.engKind = 2 ∨ x.engKind = 3) ∧ e.state ≠ 0 ∧ e.erasedSince = some t0 ∧ t0 + 2 * 2 ^ 24 ≤ s.clocks.sc ∧ e.gapDone = false) ∧
  (let s : State := wDab { eng := { state := 4 } }; let n : Nat := 63; let x := (laneOf s n).cur; let u := x.engIndex; let e := engOf s x.engKind u;
   laneTakes s n = true ∧ (laneOf s n).hold = .host ∧ s.slots.slots = [] ∧ s.taste.follows = [] ∧ s.taste.tastings = [] ∧
   (x.engKind = 2 ∨ x.engKind = 3) ∧ (e.erasedSince = none ∨ e.gapDone = true)) ∧
  (let s : State := wDrm { eng := { state := 4 } }; let n : Nat := 63; let x := (laneOf s n).cur; let u := x.engIndex; let fr := drmFrame (some fac);
   let d := drmOf s u; let f := fac; let k := 9;
   laneTakes s n = true ∧ (laneOf s n).hold = .host ∧ s.slots.slots = [] ∧ s.taste.follows = [] ∧ s.taste.tastings = [] ∧ x.engKind = 2 ∧
   fr.sdc = none ∧ fr.msc = [] ∧ fr.residual = 0 ∧ (drmOf s u).eng.residuals = [] ∧ (laneOf s n).gaps = [] ∧ d.eng.state = 4 ∧ d.nextStreams = none ∧
   fr.fac = some f ∧ k ≠ u) ∧
  (let s : State := wDrm { eng := { state := 6 } }; let n : Nat := 63; let x := (laneOf s n).cur; let u := x.engIndex; let fr := drmFrame none;
   let d := drmOf s u;
   laneTakes s n = true ∧ (laneOf s n).hold = .host ∧ s.slots.slots = [] ∧ s.taste.follows = [] ∧ s.taste.tastings = [] ∧ x.engKind = 2 ∧
   fr.sdc = none ∧ fr.msc = [] ∧ fr.residual = 0 ∧ (drmOf s u).eng.residuals = [] ∧ (laneOf s n).gaps = [] ∧ d.eng.state = 6 ∧ fr.fac = none ∧
   d.eng.fails + 1 < syncLoss x) ∧
  (let s : State := wDrm { eng := { state := 6, fails := syncLoss drmSet - 1 } }; let n : Nat := 63; let x := (laneOf s n).cur; let u := x.engIndex;
   let fr := drmFrame none; let d := drmOf s u;
   laneTakes s n = true ∧ (laneOf s n).hold = .host ∧ s.slots.slots = [] ∧ s.taste.follows = [] ∧ s.taste.tastings = [] ∧ x.engKind = 2 ∧
   fr.sdc = none ∧ fr.msc = [] ∧ fr.residual = 0 ∧ (drmOf s u).eng.residuals = [] ∧ (laneOf s n).gaps = [] ∧ d.eng.state = 6 ∧ fr.fac = none ∧
   d.eng.fails + 1 = syncLoss x) ∧
  (let s : State := onAir (wDrm { eng := { state := 6 } }) (gapLane (hostLane 0 drmSet)); let n : Nat := 63; let x := (laneOf s n).cur;
   let u := x.engIndex; let fr := { drmFrame none with facErased := true }; let d := drmOf s u;
   laneTakes s n = true ∧ (laneOf s n).hold = .host ∧ s.slots.slots = [] ∧ s.taste.follows = [] ∧ s.taste.tastings = [] ∧ x.engKind = 2 ∧
   fr.sdc = none ∧ fr.msc = [] ∧ fr.residual = 0 ∧ (drmOf s u).eng.residuals = [] ∧
   erasedIn (laneOf s n) fr.stamp (fr.stamp + frameCounts d.mode) = true ∧ fr.facErased = true ∧ d.eng.state = 6 ∧ fr.fac = none) ∧
  (let s : State := wDab { eng := { state := 3 } }; let n : Nat := 63; let x := (laneOf s n).cur; let u := x.engIndex;
   let fr := { dabFrame true with fibs := List.replicate 4 (true, []) ++ List.replicate 8 (false, []) }; let d := dabOf s u; let good := 4;
   let k := 9;
   laneTakes s n = true ∧ (laneOf s n).hold = .host ∧ s.slots.slots = [] ∧ s.taste.follows = [] ∧ s.taste.tastings = [] ∧ x.engKind = 3 ∧
   fr.parts = [] ∧ fr.residual = 0 ∧ (dabOf s u).eng.residuals = [] ∧ (laneOf s n).gaps = [] ∧ d.eng.state = 3 ∧ d.change = 0 ∧ 4 ≤ good ∧ good ≤ 12 ∧
   fr.fibs = List.replicate good (true, []) ++ List.replicate (12 - good) (false, []) ∧ k ≠ u) ∧
  (let s : State := wDab { eng := { state := 3 } }; let n : Nat := 63; let x := (laneOf s n).cur; let u := x.engIndex; let fr := dabFrame true;
   let d := dabOf s u; let good := 12;
   laneTakes s n = true ∧ (laneOf s n).hold = .host ∧ s.slots.slots = [] ∧ s.taste.follows = [] ∧ s.taste.tastings = [] ∧ x.engKind = 3 ∧
   fr.parts = [] ∧ fr.residual = 0 ∧ (dabOf s u).eng.residuals = [] ∧ (laneOf s n).gaps = [] ∧ d.eng.state = 3 ∧ d.change = 0 ∧ 4 ≤ good ∧ good ≤ 12 ∧
   fr.fibs = List.replicate good (true, []) ++ List.replicate (12 - good) (false, []) ∧ good = 12) ∧
  (let s : State := wDab { eng := { state := 4 } }; let n : Nat := 63; let x := (laneOf s n).cur; let u := x.engIndex; let fr := dabFrame false;
   let d := dabOf s u;
   laneTakes s n = true ∧ (laneOf s n).hold = .host ∧ s.slots.slots = [] ∧ s.taste.follows = [] ∧ s.taste.tastings = [] ∧ x.engKind = 3 ∧
   fr.parts = [] ∧ fr.residual = 0 ∧ (dabOf s u).eng.residuals = [] ∧ (laneOf s n).gaps = [] ∧ d.eng.state = 4 ∧ d.change = 0 ∧
   fr.fibs = List.replicate 12 (false, []) ∧ d.eng.fails + 1 < syncLoss x) := by
  refine ⟨?_, ?_, ?_, ?_, ?_, ?_, ?_, ?_, ?_, ?_⟩ <;> decide +kernel

theorem witness_TasteCommandsArmAndView :
  (let s : State := flying wUnfollowed [cArmSet]; let seq : Nat := 4; let c : Cmd := cArmSet; let e := 7; let l := 63;
   Names c 4 ∧ (s.modes.modeNow = 4 ∨ s.modes.modeNow = 5) ∧ MayRun s seq 0x18 c ∧ ZeroBytes c 20 31 ∧ par c 8 = 0 ∧ par c 9 = e ∧ e < 8 ∧
   par c 14 = l ∧ l < 64 ∧ followable s l = true ∧ (entryOf s l = none ∨ entryOf s l = some e) ∧ ((laneOf s l).cur.engKind = 3 → parN c 10 4 ≠ 0) ∧
   1 ≤ par c 15 ∧ par c 16 ≤ 80 ∧ 1 ≤ par c 17 ∧ par c 17 ≤ 8 ∧ 1 ≤ par c 18 ∧ par c 18 ≤ 60 ∧ 5 ≤ par c 19 ∧ s.taste.tastings = []) ∧
  (let s : State := flying (wFollow []) [cArmSet]; let seq : Nat := 4; let c : Cmd := cArmSet; let e := 7; let l := 63;
   Names c 4 ∧ (s.modes.modeNow = 4 ∨ s.modes.modeNow = 5) ∧ MayRun s seq 0x18 c ∧ ZeroBytes c 20 31 ∧ par c 8 = 0 ∧ par c 9 = e ∧ e < 8 ∧
   par c 14 = l ∧ l < 64 ∧ followable s l = true ∧ (entryOf s l = none ∨ entryOf s l = some e) ∧ ((laneOf s l).cur.engKind = 3 → parN c 10 4 ≠ 0) ∧
   1 ≤ par c 15 ∧ par c 16 ≤ 80 ∧ 1 ≤ par c 17 ∧ par c 17 ≤ 8 ∧ 1 ≤ par c 18 ∧ par c 18 ≤ 60 ∧ 5 ≤ par c 19 ∧ s.taste.tastings = []) ∧
  (let s : State := flying (wFollow []) [cArm 1 7 []]; let seq : Nat := 4; let c : Cmd := cArm 1 7 []; let e := 7;
   Names c 4 ∧ (s.modes.modeNow = 4 ∨ s.modes.modeNow = 5) ∧ MayRun s seq 0x18 c ∧ ZeroBytes c 20 31 ∧ par c 8 = 1 ∧ par c 9 = e ∧ e < 8 ∧
   s.taste.tastings = []) ∧
  (let s : State := flying (wFollow [(0, tasting 1 1)]) [cArm 1 7 []]; let seq : Nat := 4; let c : Cmd := cArm 1 7 []; let e := 7; let m := 0;
   let y := tasting 1 1; let k := 5;
   Names c 4 ∧ (s.modes.modeNow = 4 ∨ s.modes.modeNow = 5) ∧ MayRun s seq 0x18 c ∧ ZeroBytes c 20 31 ∧ par c 8 = 1 ∧ par c 9 = e ∧ e < 8 ∧
   s.taste.tastings = [(m, y)] ∧ y.entry = e ∧ k ≠ m) ∧
  (let s : State := flying (wFollow []) [cArm 2 0 []]; let seq : Nat := 4; let c : Cmd := cArm 2 0 []; let e := 0;
   Names c 4 ∧ (s.modes.modeNow = 4 ∨ s.modes.modeNow = 5) ∧ MayRun s seq 0x18 c ∧ ZeroBytes c 20 31 ∧ par c 8 = 2 ∧ s.taste.tastings = [] ∧ e < 8) ∧
  (let s : State := flying (wFollow []) [cArmMost]; let seq : Nat := 4; let c : Cmd := cArmMost;
   Names c 4 ∧ (s.modes.modeNow = 4 ∨ s.modes.modeNow = 5) ∧ MayRun s seq 0x18 c ∧ ZeroBytes c 20 31 ∧ par c 8 = 3 ∧ 1 ≤ par c 10 ∧ par c 10 ≤ 64 ∧
   1 ≤ par c 11 ∧ par c 11 ≤ 16 ∧ s.taste.tastings = []) ∧
  (let s : State := flying (wFollow [(0, withMust (tasting 1 1))]) [cView 0xFF 1]; let seq : Nat := 4; let c : Cmd := cView 0xFF 1;
   Names c 4 ∧ (s.modes.modeNow = 4 ∨ s.modes.modeNow = 5) ∧ MayRun s seq 0x19 c ∧ ZeroBytes c 15 31 ∧ (par c 8 < 64 ∨ par c 8 = 0xFF) ∧ par c 9 = 1) ∧
  (let s : State := flying (wFollow []) [cView 63 0]; let seq : Nat := 4; let c : Cmd := cView 63 0;
   Names c 4 ∧ (s.modes.modeNow = 4 ∨ s.modes.modeNow = 5) ∧ MayRun s seq 0x19 c ∧ ZeroBytes c 15 31 ∧ (par c 8 < 64 ∨ par c 8 = 0xFF) ∧ par c 9 = 0 ∧
   1 ≤ parN c 13 2 ∧ parN c 13 2 ≤ 2048 ∧ inScratch (parN c 10 3) (16 * parN c 13 2) = true ∧ s.taste.tastings = []) ∧
  (let s : State := scrubbed (flying (wFollow [(0, withMust (tasting 1 1))]) [cView 0xFF 0]); let seq : Nat := 4; let c : Cmd := cView 0xFF 0;
   let m := 0; let y := withMust (tasting 1 1); let i := mustItem;
   Names c 4 ∧ (s.modes.modeNow = 4 ∨ s.modes.modeNow = 5) ∧ MayRun s seq 0x19 c ∧ ZeroBytes c 15 31 ∧ (par c 8 < 64 ∨ par c 8 = 0xFF) ∧ par c 9 = 0 ∧
   1 ≤ parN c 13 2 ∧ parN c 13 2 ≤ 2048 ∧ inScratch (parN c 10 3) (16 * parN c 13 2) = true ∧ s.taste.tastings = [(m, y)] ∧ m < 64 ∧ y.items = [i] ∧
   (par c 8 = m ∨ par c 8 = 0xFF)) := by
  refine ⟨?_, ?_, ?_, ?_, ?_, ?_, ?_, ?_, ?_⟩ <;> decide +kernel

theorem witness_TastingsStart :
  (let s : State := { wFollow [] with analogue := [] }; let e := 7; let f := followOf s e;
   s.power.phase = .ready ∧ (s.modes.modeNow = 4 ∨ s.modes.modeNow = 5) ∧ f.valid = true ∧ followable s f.lane = true ∧
   (laneOf s f.lane).cur.engKind = f.kind ∧ tastingsOf s e < f.perFollow ∧ s.taste.tastings.length < s.taste.maxTaste ∧
   (pathOf s (laneOf s f.lane).path).job = none ∧ nextCandidate s e = none) ∧
  (let s : State := wFollow []; let e := 7; let i := 0; let hz := 100500000; let m := 0; let idx := 0; let f := followOf s e; let k := 9;
   s.power.phase = .ready ∧ (s.modes.modeNow = 4 ∨ s.modes.modeNow = 5) ∧ f.valid = true ∧ followable s f.lane = true ∧
   (laneOf s f.lane).cur.engKind = f.kind ∧ tastingsOf s e < f.perFollow ∧ s.taste.tastings.length < s.taste.maxTaste ∧
   (pathOf s (laneOf s f.lane).path).job = none ∧ nextCandidate s e = some (i, hz) ∧ borrowable s f.kind = some (m, idx) ∧ k ≠ m) ∧
  (let s : State := wFollow [(0, tasting 1 1)]; let e := 7; let i := 1; let hz := 99900000; let m := 1; let idx := 1; let f := followOf s e;
   s.power.phase = .ready ∧ (s.modes.modeNow = 4 ∨ s.modes.modeNow = 5) ∧ f.valid = true ∧ followable s f.lane = true ∧
   (laneOf s f.lane).cur.engKind = f.kind ∧ tastingsOf s e < f.perFollow ∧ s.taste.tastings.length < s.taste.maxTaste ∧
   (pathOf s (laneOf s f.lane).path).job = none ∧ nextCandidate s e = some (i, hz) ∧ borrowable s f.kind = some (m, idx)) := by
  refine ⟨?_, ?_, ?_⟩ <;> decide +kernel

theorem witness_TastingsEndAndSwitch :
  (let s : State := later (wFollow [(0, tasting 1 1)]); let m := 0; let y := tasting 1 1;
   tastingOf s m = some y ∧ y.state = 1 ∧ y.started + (followOf s y.entry).idTimeout * 2 ^ 24 ≤ s.clocks.sc) ∧
  (let s : State := wFollow [(0, tasting 1 1)]; let m := 0; let y := tasting 1 1;
   tastingOf s m = some y ∧ s.clocks.sc < y.started + (followOf s y.entry).idTimeout * 2 ^ 24) ∧
  (let s : State := wDwell; let m := 0; let y := tasting 2 1;
   tastingOf s m = some y ∧ y.state = 2 ∧ y.matchedAt + (followOf s y.entry).dwellMax * 2 ^ 24 ≤ s.clocks.sc ∧ candidateWaits s y.entry = true) ∧
  (let s : State := later (wFollow [(0, tasting 2 1)]); let m := 0; let y := tasting 2 1;
   tastingOf s m = some y ∧ candidateWaits s y.entry = false) ∧
  (let s : State := wFollow [(0, tasting 2 1)]; let m := 0; let y := tasting 2 1;
   s.taste.tastings = [(m, y)] ∧ y.items = [] ∧ y.kind ≠ 3 ∧ s.slots.slots = [] ∧ y.state ≠ 3) ∧
  (let s : State := wFollow [(0, tasting 3 1)]; let m := 0; let y := tasting 3 1; let f := followOf s y.entry; let k := 9;
   s.taste.tastings = [(m, y)] ∧ y.items = [] ∧ y.kind ≠ 3 ∧ s.slots.slots = [] ∧ y.state = 3 ∧ m ≠ f.lane ∧ (laneOf s f.lane).pending = none ∧
   (laneOf s f.lane).synced = none ∧ s.power.phase = .ready ∧ k ≠ m ∧ k ≠ f.lane) := by
  refine ⟨?_, ?_, ?_, ?_, ?_, ?_⟩ <;> decide +kernel

theorem witness_SlotCommandsOpenAndClose :
  (let s : State := wOpenSlot (cOpen 0); let seq := 4; let c := cOpen 0; let n := 1023;
   Names c 5 ∧ cmdIdx c = n ∧ 3 ≤ s.modes.modeNow ∧ s.modes.modeNow ≤ 6 ∧ MayRun s seq 0x20 c ∧ par c 8 < 64 ∧ bit (par c 8) 3 = false ∧
   par c 8 % 4 ≠ 3 ∧ par c 9 < 64 ∧ par c 19 = 0 ∧ par c 31 = 0 ∧
   (par c 8 % 4 = 0 → parN c 12 4 ≠ 0 ∧ parN c 12 4 < 2 ^ 20 ∧ (par c 10 = 0xFF → ∀ k, k ≤ 18 → 15 ≤ k → bit (parN c 12 4) k = false)) ∧
   (par c 8 % 4 ≠ 0 → parN c 22 2 ≠ 0) ∧ 8 ≤ par c 27 ∧ par c 27 ≤ 20 ∧ parN c 24 3 % 2 ^ par c 27 = 0 ∧ parN c 24 3 + 2 ^ par c 27 ≤ 0x100000 ∧
   (∀ e ∈ s.slots.slots, e.1 ≠ n → e.2.isOpen = true → parN c 24 3 + 2 ^ par c 27 ≤ e.2.ringBase ∨ e.2.ringBase + 2 ^ e.2.ringLog2 ≤ parN c 24 3) ∧
   (slotOf s n).isOpen = true) ∧
  (let s : State := flying (inMode 3) [cOpen 0x26]; let seq := 4; let c := cOpen 0x26; let n := 1023;
   Names c 5 ∧ cmdIdx c = n ∧ 3 ≤ s.modes.modeNow ∧ s.modes.modeNow ≤ 6 ∧ MayRun s seq 0x20 c ∧ par c 8 < 64 ∧ bit (par c 8) 3 = false ∧
   par c 8 % 4 ≠ 3 ∧ par c 9 < 64 ∧ par c 19 = 0 ∧ par c 31 = 0 ∧
   (par c 8 % 4 = 0 → parN c 12 4 ≠ 0 ∧ parN c 12 4 < 2 ^ 20 ∧ (par c 10 = 0xFF → ∀ k, k ≤ 18 → 15 ≤ k → bit (parN c 12 4) k = false)) ∧
   (par c 8 % 4 ≠ 0 → parN c 22 2 ≠ 0) ∧ 8 ≤ par c 27 ∧ par c 27 ≤ 20 ∧ parN c 24 3 % 2 ^ par c 27 = 0 ∧ parN c 24 3 + 2 ^ par c 27 ≤ 0x100000 ∧
   (∀ e ∈ s.slots.slots, e.1 ≠ n → e.2.isOpen = true → parN c 24 3 + 2 ^ par c 27 ≤ e.2.ringBase ∨ e.2.ringBase + 2 ^ e.2.ringLog2 ≤ parN c 24 3) ∧
   (slotOf s n).isOpen = false ∧ (laneOf s (par c 9)).cur.engKind ≠ 3) ∧
  (let s : State := flying (onAir (inMode 6) fmLane) [cOpen 0]; let seq := 4; let c := cOpen 0; let n := 1023;
   Names c 5 ∧ cmdIdx c = n ∧ 3 ≤ s.modes.modeNow ∧ s.modes.modeNow ≤ 6 ∧ MayRun s seq 0x20 c ∧ par c 8 < 64 ∧ bit (par c 8) 3 = false ∧
   par c 8 % 4 ≠ 3 ∧ par c 9 < 64 ∧ par c 19 = 0 ∧ par c 31 = 0 ∧
   (par c 8 % 4 = 0 → parN c 12 4 ≠ 0 ∧ parN c 12 4 < 2 ^ 20 ∧ (par c 10 = 0xFF → ∀ k, k ≤ 18 → 15 ≤ k → bit (parN c 12 4) k = false)) ∧
   (par c 8 % 4 ≠ 0 → parN c 22 2 ≠ 0) ∧ 8 ≤ par c 27 ∧ par c 27 ≤ 20 ∧ parN c 24 3 % 2 ^ par c 27 = 0 ∧ parN c 24 3 + 2 ^ par c 27 ≤ 0x100000 ∧
   (∀ e ∈ s.slots.slots, e.1 ≠ n → e.2.isOpen = true → parN c 24 3 + 2 ^ par c 27 ≤ e.2.ringBase ∨ e.2.ringBase + 2 ^ e.2.ringLog2 ≤ parN c 24 3) ∧
   (slotOf s n).isOpen = false ∧ (laneOf s (par c 9)).cur.engKind ≠ 3) ∧
  (let s : State := wOpenSlot cClose; let seq := 4; let c := cClose; let n := 1023; let k := 0;
   Names c 5 ∧ cmdIdx c = n ∧ 3 ≤ s.modes.modeNow ∧ s.modes.modeNow ≤ 6 ∧ MayRun s seq 0x21 c ∧ ZeroBytes c 8 31 ∧
   (laneOf s (slotOf s n).srcLane).cur.engKind ≠ 3 ∧ k ≠ n) ∧
  (let s : State := flying (inMode 3) [cClose]; let seq := 4; let c := cClose; let n := 1023; let k := 0;
   Names c 5 ∧ cmdIdx c = n ∧ 3 ≤ s.modes.modeNow ∧ s.modes.modeNow ≤ 6 ∧ MayRun s seq 0x21 c ∧ ZeroBytes c 8 31 ∧
   (laneOf s (slotOf s n).srcLane).cur.engKind ≠ 3 ∧ k ≠ n ∧ (slotOf s n).isOpen = false) := by
  refine ⟨?_, ⟨?_, ?_, ?_, ?_, ?_, ?_, ?_, ?_, ?_, ?_, ?_, ?_, ?_, ?_, ?_, ?_, ?_, ?_, ?_, ?_⟩,
    ⟨?_, ?_, ?_, ?_, ?_, ?_, ?_, ?_, ?_, ?_, ?_, ?_, ?_, ?_, ?_, ?_, ?_, ?_, ?_, ?_⟩, ?_, ?_⟩ <;> decide +kernel

theorem witness_EnvelopesAreVerified :
  (let s : State := State.reset;
   s.slots.waiting = []) ∧
  (let s : State := wEnvelope sdeTyped envelope; let e := envelope; let rest := []; let n := 1023; let x := slotOf s n;
   s.slots.waiting = e :: rest ∧ s.power.phase = .ready ∧ slotsDeliver s e.lane = true ∧ namingSlots s e = [n] ∧ (slotOf s n).suspended = false ∧
   judge s x e = .filtered) ∧
  (let s : State := wEnvelope sdeFloor envelope; let e := envelope; let rest := []; let n := 1023; let x := slotOf s n;
   s.slots.waiting = e :: rest ∧ s.power.phase = .ready ∧ slotsDeliver s e.lane = true ∧ namingSlots s e = [n] ∧ (slotOf s n).suspended = false ∧
   judge s x e = .repeated) ∧
  (let s : State := wEnvelope sdeUnmasked envelope; let e := envelope; let rest := []; let n := 1023; let x := slotOf s n;
   s.slots.waiting = e :: rest ∧ s.power.phase = .ready ∧ slotsDeliver s e.lane = true ∧ namingSlots s e = [n] ∧ (slotOf s n).suspended = false ∧
   judge s x e ≠ .filtered ∧ judge s x e ≠ .repeated ∧ judge s x e ≠ .verified ∧ x.policy ≠ 2) ∧
  (let s : State := wEnvelope sdeAll envelope; let e := envelope; let rest := []; let n := 1023; let x := slotOf s n;
   let len := (recordBytes x 3 false (sdeBody e .verified)).length; let k := 1;
   s.slots.waiting = e :: rest ∧ s.power.phase = .ready ∧ slotsDeliver s e.lane = true ∧ namingSlots s e = [n] ∧ (slotOf s n).suspended = false ∧
   judge s x e ≠ .filtered ∧ judge s x e ≠ .repeated ∧ (judge s x e ≠ .verified → x.policy = 2) ∧ ringWritten x + len ≤ 2 ^ x.ringLog2 ∧ k ≠ n ∧
   judge s x e ≠ .verified) ∧
  (let s : State := wEnvelope { sdeSlot with policy := 2 } envelope; let e := envelope; let rest := []; let n := 1023; let x := slotOf s n;
   let len := (recordBytes x 3 false (sdeBody e .verified)).length;
   s.slots.waiting = e :: rest ∧ s.power.phase = .ready ∧ slotsDeliver s e.lane = true ∧ namingSlots s e = [n] ∧ (slotOf s n).suspended = false ∧
   judge s x e ≠ .filtered ∧ judge s x e ≠ .repeated ∧ (judge s x e ≠ .verified → x.policy = 2) ∧ ringWritten x + len ≤ 2 ^ x.ringLog2 ∧
   judge s x e ≠ .verified) ∧
  (let s : State := wSigned { sdeSlot with prod := 2 ^ 32 - 8, cons := 2 ^ 32 - 128 }; let e := signed; let rest := []; let n := 1023;
   let x := slotOf s n; let len := (recordBytes x 3 false (sdeBody e .verified)).length;
   s.slots.waiting = e :: rest ∧ s.power.phase = .ready ∧ slotsDeliver s e.lane = true ∧ namingSlots s e = [n] ∧ (slotOf s n).suspended = false ∧
   judge s x e ≠ .filtered ∧ judge s x e ≠ .repeated ∧ (judge s x e ≠ .verified → x.policy = 2) ∧ ringWritten x + len ≤ 2 ^ x.ringLog2 ∧
   judge s x e = .verified ∧ Memory.wf s.cellar.shadow = true) := by
  refine ⟨?_, ?_, ?_, ?_, ?_, ?_, ?_⟩ <;> decide +kernel

theorem witness_CalendarFollowsItsCommands :
  (let s : State := flying (inMode 1) [cDate 13 1 0 0 0 0]; let seq := 4; let c := cDate 13 1 0 0 0 0; let y := parN c 8 2;
   MayRun s seq 0x28 c ∧ Names c 6 ∧ ZeroBytes c 28 31 ∧ par c 18 < 2 ∧ par c 19 = 0 ∧ 2000 ≤ y ∧ y ≤ 2199 ∧ 12 < par c 10) ∧
  (let s : State := flying (inMode 1) [cDate 1 1 0 0 61 0]; let seq := 4; let c := cDate 1 1 0 0 61 0; let y := parN c 8 2;
   MayRun s seq 0x28 c ∧ Names c 6 ∧ ZeroBytes c 28 31 ∧ par c 18 < 2 ∧ par c 19 = 0 ∧ 2000 ≤ y ∧ y ≤ 2199 ∧ 1 ≤ par c 10 ∧ par c 10 ≤ 12 ∧
   1 ≤ par c 11 ∧ par c 11 ≤ monthDays (par c 10) y ∧ par c 12 < 24 ∧ par c 13 < 60 ∧ 61 ≤ par c 14) ∧
  (let s : State := flying (inMode 1) [cDate 2 28 23 59 60 1]; let seq := 4; let c := cDate 2 28 23 59 60 1; let y := parN c 8 2;
   MayRun s seq 0x28 c ∧ Names c 6 ∧ ZeroBytes c 28 31 ∧ par c 18 < 2 ∧ par c 19 = 0 ∧ 2000 ≤ y ∧ y ≤ 2199 ∧ 1 ≤ par c 10 ∧ par c 10 ≤ 12 ∧
   1 ≤ par c 11 ∧ par c 11 ≤ monthDays (par c 10) y ∧ par c 12 < 24 ∧ par c 13 < 60 ∧
   (par c 14 < 60 ∨ (par c 14 = 60 ∧ par c 12 = 23 ∧ par c 13 = 59 ∧ par c 11 = monthDays (par c 10) y))) ∧
  (let s : State := flying (wCalendar 60000 5) [cDate 12 31 23 59 59 0]; let seq := 4; let c := cDate 12 31 23 59 59 0; let y := parN c 8 2;
   MayRun s seq 0x28 c ∧ Names c 6 ∧ ZeroBytes c 28 31 ∧ par c 18 < 2 ∧ par c 19 = 0 ∧ 2000 ≤ y ∧ y ≤ 2199 ∧ 1 ≤ par c 10 ∧ par c 10 ≤ 12 ∧
   1 ≤ par c 11 ∧ par c 11 ≤ monthDays (par c 10) y ∧ par c 12 < 24 ∧ par c 13 < 60 ∧
   (par c 14 < 60 ∨ (par c 14 = 60 ∧ par c 12 = 23 ∧ par c 13 = 59 ∧ par c 11 = monthDays (par c 10) y))) ∧
  (let s : State := flying (wCalendar 60000 5) [cVote]; let seq := 4; let c := cVote;
   MayRun s seq 0x29 c ∧ Names c 6 ∧ ZeroBytes c 21 31 ∧ par c 8 < 64 ∧ (bit (par c 8) 0 = true → 1 ≤ par c 9 ∧ par c 9 ≤ 4) ∧
   (bit (par c 8) 1 = true → par c 10 < 2) ∧ (bit (par c 8) 2 = true → 10 ≤ parN c 11 2 ∧ parN c 11 2 ≤ 10000) ∧
   (bit (par c 8) 3 = true → 60 ≤ parN c 13 4 ∧ parN c 13 4 ≤ 86400) ∧
   (bit (par c 8) 4 = true → par c 17 ≤ 15 ∧ par c 18 ≤ 15 ∧ par c 19 ≤ 15 ∧ par c 20 ≤ 15)) ∧
  (let s : State := flying wVotes [cVoteClear]; let seq := 4; let c := cVoteClear;
   MayRun s seq 0x29 c ∧ Names c 6 ∧ ZeroBytes c 21 31 ∧ par c 8 < 64 ∧ (bit (par c 8) 0 = true → 1 ≤ par c 9 ∧ par c 9 ≤ 4) ∧
   (bit (par c 8) 1 = true → par c 10 < 2) ∧ (bit (par c 8) 2 = true → 10 ≤ parN c 11 2 ∧ parN c 11 2 ≤ 10000) ∧
   (bit (par c 8) 3 = true → 60 ≤ parN c 13 4 ∧ parN c 13 4 ≤ 86400) ∧
   (bit (par c 8) 4 = true → par c 17 ≤ 15 ∧ par c 18 ≤ 15 ∧ par c 19 ≤ 15 ∧ par c 20 ≤ 15) ∧ bit (par c 8) 5 = true) ∧
  (let s : State := wCalendar 51544 86399;
   PortLive s ∧ 51544 ≤ mjdAt (calendarNow s)) := by
  refine ⟨?_, ?_, ?_, ?_, ?_, ?_, ?_⟩ <;> decide +kernel

theorem witness_CalendarFollowsTheCounter :
  (let kind := 1; let k := 2;
   k ≠ kind) ∧
  (let s : State := wLeap 0;
   s.time.valid = true ∧ s.time.leapPending = true ∧ utcCounts (s.time.leapTarget + 1) 0 ≤ calendarNow s) ∧
  (let s : State := wLeapSoon;
   s.time.valid = true ∧ s.time.leapPending = true ∧ calendarNow s < utcCounts (s.time.leapTarget + 1) 0) ∧
  (let s : State := wCalendar 124592 86399;
   s.time.valid = true ∧ s.time.calRange = false ∧ mjdAt (calendarNow s) ≤ 124592) ∧
  (let s : State := wCalendar 124593 0;
   s.time.valid = true ∧ s.time.calRange = false ∧ 124592 < mjdAt (calendarNow s)) ∧
  (let s : State := wStopped false;
   (s.clocks.scHeld = false ∨ counterDriven s = false)) ∧
  (let s : State := wStopped true; let us := 4999;
   s.clocks.scHeld = true ∧ counterDriven s = true ∧ us < 5000) ∧
  (let s : State := wStopped true; let us := 5000;
   s.clocks.scHeld = true ∧ counterDriven s = true ∧ 5000 ≤ us) ∧
  (let s : State := wMinute;
   s.power.phase = .ready ∧ s.clocks.minuteDone < s.clocks.sc / (60 * 2 ^ 24) ∧ Memory.wf s.cellar.shadow = true) := by
  refine ⟨?_, ?_, ?_, ?_, ?_, ?_, ?_, ?_, ?_⟩ <;> decide +kernel

theorem witness_LinkTxIsAcceptedOrDenied :
  (let s : State := flying (wProfile (wLink true 0) {}) [cTx]; let seq := 4; let c := cTx; let f := 0; let p := profileOf s (par c 8);
   let cw := bit (par c 9) 3; let k := 8;
   s.pathS.job = none ∧ s.cal.linkJob = none ∧ s.clocks.stage = .idle ∧ tuneOf s 2 = none ∧ LinkQuiet s ∧ MayRun s seq 0x39 c ∧ Names c 7 ∧
   par c 8 < 4 ∧ par c 9 < 16 ∧ ZeroBytes c 15 15 ∧ ZeroBytes c 30 31 ∧ (bit (par c 9) 2 = true → 1 ≤ parN c 28 2 ∧ parN c 28 2 ≤ 2000) ∧
   1 ≤ parN c 13 2 ∧ (cw = true → s.modes.modeNow = 6 ∧ parN c 13 2 ≤ 1000) ∧
   (cw = false → 4 ≤ s.modes.modeNow ∧ s.modes.modeNow ≤ 6 ∧ inScratch (parN c 10 3) (parN c 13 2) = true ∧ parN c 13 2 ≤ (if bit (par c 9) 0 then
     2047 - fcsLen p else 2047)) ∧
   f = (if parN c 16 4 = 0 then p.channelHz else parN c 16 4) ∧ profileBad p f = some k) ∧
  (let s : State := flying (wLink true 0) [cTxAt 0]; let seq := 4; let c := cTxAt 0; let m : Int := 3; let f := 868300000;
   let p := profileOf s (par c 8); let cw := bit (par c 9) 3; let bytes := memGets s (parN c 10 3) (parN c 13 2);
   let j := { newTx (.host seq) (some m) with
     profileNo := par c 8, profile := p, channel := f, psdu := if cw then [] else if bit (par c 9) 0 then bytes ++ fcsBytes p bytes else bytes,
     cwMs := if cw then some (parN c 13 2) else none, at_ := if bit (par c 9) 1 then some (parN c 20 8) else none,
     rxAfterMs := if bit (par c 9) 2 then some (parN c 28 2) else none };
   let a := 0;
   s.pathS.job = none ∧ s.cal.linkJob = none ∧ s.clocks.stage = .idle ∧ tuneOf s 2 = none ∧ LinkQuiet s ∧ MayRun s seq 0x39 c ∧ Names c 7 ∧
   par c 8 < 4 ∧ par c 9 < 16 ∧ ZeroBytes c 15 15 ∧ ZeroBytes c 30 31 ∧ (bit (par c 9) 2 = true → 1 ≤ parN c 28 2 ∧ parN c 28 2 ≤ 2000) ∧
   1 ≤ parN c 13 2 ∧ (cw = true → s.modes.modeNow = 6 ∧ parN c 13 2 ≤ 1000) ∧
   (cw = false → 4 ≤ s.modes.modeNow ∧ s.modes.modeNow ≤ 6 ∧ inScratch (parN c 10 3) (parN c 13 2) = true ∧ parN c 13 2 ≤ (if bit (par c 9) 0 then
     2047 - fcsLen p else 2047)) ∧
   f = (if parN c 16 4 = 0 then p.channelHz else parN c 16 4) ∧ profileBad p f = none ∧ j.at_ = some a ∧ a < s.clocks.sc + microsCounts 2000) ∧
  (let s : State := flying (wLink false 0) [cTx]; let seq := 4; let c := cTx; let m : Int := 3; let f := 868300000; let p := profileOf s (par c 8);
   let cw := bit (par c 9) 3; let bytes := memGets s (parN c 10 3) (parN c 13 2);
   let j := { newTx (.host seq) (some m) with
     profileNo := par c 8, profile := p, channel := f, psdu := if cw then [] else if bit (par c 9) 0 then bytes ++ fcsBytes p bytes else bytes,
     cwMs := if cw then some (parN c 13 2) else none, at_ := if bit (par c 9) 1 then some (parN c 20 8) else none,
     rxAfterMs := if bit (par c 9) 2 then some (parN c 28 2) else none };
   let r := regulatory 6 0xFF 0;
   s.pathS.job = none ∧ s.cal.linkJob = none ∧ s.clocks.stage = .idle ∧ tuneOf s 2 = none ∧ LinkQuiet s ∧ MayRun s seq 0x39 c ∧ Names c 7 ∧
   par c 8 < 4 ∧ par c 9 < 16 ∧ ZeroBytes c 15 15 ∧ ZeroBytes c 30 31 ∧ (bit (par c 9) 2 = true → 1 ≤ parN c 28 2 ∧ parN c 28 2 ≤ 2000) ∧
   1 ≤ parN c 13 2 ∧ (cw = true → s.modes.modeNow = 6 ∧ parN c 13 2 ≤ 1000) ∧
   (cw = false → 4 ≤ s.modes.modeNow ∧ s.modes.modeNow ≤ 6 ∧ inScratch (parN c 10 3) (parN c 13 2) = true ∧ parN c 13 2 ≤ (if bit (par c 9) 0 then
     2047 - fcsLen p else 2047)) ∧
   f = (if parN c 16 4 = 0 then p.channelHz else parN c 16 4) ∧ profileBad p f = none ∧ (∀ a, j.at_ = some a → s.clocks.sc + microsCounts 2000 ≤ a) ∧
   regulatoryCheck s p f = some r) ∧
  (let s : State := flying (wProfile (wLink true 0) { profile3 with state := 2 }) [cTx]; let seq := 4; let c := cTx; let m : Int := 3;
   let f := 868300000; let p := profileOf s (par c 8); let cw := bit (par c 9) 3; let bytes := memGets s (parN c 10 3) (parN c 13 2);
   let j := { newTx (.host seq) (some m) with
     profileNo := par c 8, profile := p, channel := f, psdu := if cw then [] else if bit (par c 9) 0 then bytes ++ fcsBytes p bytes else bytes,
     cwMs := if cw then some (parN c 13 2) else none, at_ := if bit (par c 9) 1 then some (parN c 20 8) else none,
     rxAfterMs := if bit (par c 9) 2 then some (parN c 28 2) else none };
   let b := 1;
   s.pathS.job = none ∧ s.cal.linkJob = none ∧ s.clocks.stage = .idle ∧ tuneOf s 2 = none ∧ LinkQuiet s ∧ MayRun s seq 0x39 c ∧ Names c 7 ∧
   par c 8 < 4 ∧ par c 9 < 16 ∧ ZeroBytes c 15 15 ∧ ZeroBytes c 30 31 ∧ (bit (par c 9) 2 = true → 1 ≤ parN c 28 2 ∧ parN c 28 2 ≤ 2000) ∧
   1 ≤ parN c 13 2 ∧ (cw = true → s.modes.modeNow = 6 ∧ parN c 13 2 ≤ 1000) ∧
   (cw = false → 4 ≤ s.modes.modeNow ∧ s.modes.modeNow ≤ 6 ∧ inScratch (parN c 10 3) (parN c 13 2) = true ∧ parN c 13 2 ≤ (if bit (par c 9) 0 then
     2047 - fcsLen p else 2047)) ∧
   f = (if parN c 16 4 = 0 then p.channelHz else parN c 16 4) ∧ profileBad p f = none ∧ (∀ a, j.at_ = some a → s.clocks.sc + microsCounts 2000 ≤ a) ∧
   regulatoryCheck s p f = none ∧ (subBandOf s f).map (·.1) = some b ∧ p.state = 2) ∧
  (let s : State := flying (wProfile (wLink true 0) { profile3 with state := 0 }) [cTx]; let seq := 4; let c := cTx; let m : Int := -1;
   let f := 868300000; let p := profileOf s (par c 8); let cw := bit (par c 9) 3; let bytes := memGets s (parN c 10 3) (parN c 13 2);
   let j := { newTx (.host seq) (some m) with
     profileNo := par c 8, profile := p, channel := f, psdu := if cw then [] else if bit (par c 9) 0 then bytes ++ fcsBytes p bytes else bytes,
     cwMs := if cw then some (parN c 13 2) else none, at_ := if bit (par c 9) 1 then some (parN c 20 8) else none,
     rxAfterMs := if bit (par c 9) 2 then some (parN c 28 2) else none };
   let b := 1;
   s.pathS.job = none ∧ s.cal.linkJob = none ∧ s.clocks.stage = .idle ∧ tuneOf s 2 = none ∧ LinkQuiet s ∧ MayRun s seq 0x39 c ∧ Names c 7 ∧
   par c 8 < 4 ∧ par c 9 < 16 ∧ ZeroBytes c 15 15 ∧ ZeroBytes c 30 31 ∧ (bit (par c 9) 2 = true → 1 ≤ parN c 28 2 ∧ parN c 28 2 ≤ 2000) ∧
   1 ≤ parN c 13 2 ∧ (cw = true → s.modes.modeNow = 6 ∧ parN c 13 2 ≤ 1000) ∧
   (cw = false → 4 ≤ s.modes.modeNow ∧ s.modes.modeNow ≤ 6 ∧ inScratch (parN c 10 3) (parN c 13 2) = true ∧ parN c 13 2 ≤ (if bit (par c 9) 0 then
     2047 - fcsLen p else 2047)) ∧
   f = (if parN c 16 4 = 0 then p.channelHz else parN c 16 4) ∧ profileBad p f = none ∧ (∀ a, j.at_ = some a → s.clocks.sc + microsCounts 2000 ≤ a) ∧
   regulatoryCheck s p f = none ∧ (subBandOf s f).map (·.1) = some b ∧ p.state = 0 ∧ m < 0) ∧
  (let s : State := flying (wProfile (wLink true 0) { profile3 with state := 0 }) [cTx]; let seq := 4; let c := cTx; let m : Int := 3;
   let f := 868300000; let p := profileOf s (par c 8); let cw := bit (par c 9) 3; let bytes := memGets s (parN c 10 3) (parN c 13 2);
   let j := { newTx (.host seq) (some m) with
     profileNo := par c 8, profile := p, channel := f, psdu := if cw then [] else if bit (par c 9) 0 then bytes ++ fcsBytes p bytes else bytes,
     cwMs := if cw then some (parN c 13 2) else none, at_ := if bit (par c 9) 1 then some (parN c 20 8) else none,
     rxAfterMs := if bit (par c 9) 2 then some (parN c 28 2) else none };
   let b := 1;
   s.pathS.job = none ∧ s.cal.linkJob = none ∧ s.clocks.stage = .idle ∧ tuneOf s 2 = none ∧ LinkQuiet s ∧ MayRun s seq 0x39 c ∧ Names c 7 ∧
   par c 8 < 4 ∧ par c 9 < 16 ∧ ZeroBytes c 15 15 ∧ ZeroBytes c 30 31 ∧ (bit (par c 9) 2 = true → 1 ≤ parN c 28 2 ∧ parN c 28 2 ≤ 2000) ∧
   1 ≤ parN c 13 2 ∧ (cw = true → s.modes.modeNow = 6 ∧ parN c 13 2 ≤ 1000) ∧
   (cw = false → 4 ≤ s.modes.modeNow ∧ s.modes.modeNow ≤ 6 ∧ inScratch (parN c 10 3) (parN c 13 2) = true ∧ parN c 13 2 ≤ (if bit (par c 9) 0 then
     2047 - fcsLen p else 2047)) ∧
   f = (if parN c 16 4 = 0 then p.channelHz else parN c 16 4) ∧ profileBad p f = none ∧ (∀ a, j.at_ = some a → s.clocks.sc + microsCounts 2000 ≤ a) ∧
   regulatoryCheck s p f = none ∧ (subBandOf s f).map (·.1) = some b ∧ (p.state = 1 ∨ (p.state = 0 ∧ 0 ≤ m)) ∧ costCovered s b (costOf j) = false) ∧
  (let s : State := flying (wLink true 10000) [cTx]; let seq := 4; let c := cTx; let m : Int := 3; let f := 868300000; let p := profileOf s (par c 8);
   let cw := bit (par c 9) 3; let bytes := memGets s (parN c 10 3) (parN c 13 2);
   let j := { newTx (.host seq) (some m) with
     profileNo := par c 8, profile := p, channel := f, psdu := if cw then [] else if bit (par c 9) 0 then bytes ++ fcsBytes p bytes else bytes,
     cwMs := if cw then some (parN c 13 2) else none, at_ := if bit (par c 9) 1 then some (parN c 20 8) else none,
     rxAfterMs := if bit (par c 9) 2 then some (parN c 28 2) else none };
   let b := 1;
   s.pathS.job = none ∧ s.cal.linkJob = none ∧ s.clocks.stage = .idle ∧ tuneOf s 2 = none ∧ LinkQuiet s ∧ MayRun s seq 0x39 c ∧ Names c 7 ∧
   par c 8 < 4 ∧ par c 9 < 16 ∧ ZeroBytes c 15 15 ∧ ZeroBytes c 30 31 ∧ (bit (par c 9) 2 = true → 1 ≤ parN c 28 2 ∧ parN c 28 2 ≤ 2000) ∧
   1 ≤ parN c 13 2 ∧ (cw = true → s.modes.modeNow = 6 ∧ parN c 13 2 ≤ 1000) ∧
   (cw = false → 4 ≤ s.modes.modeNow ∧ s.modes.modeNow ≤ 6 ∧ inScratch (parN c 10 3) (parN c 13 2) = true ∧ parN c 13 2 ≤ (if bit (par c 9) 0 then
     2047 - fcsLen p else 2047)) ∧
   f = (if parN c 16 4 = 0 then p.channelHz else parN c 16 4) ∧ profileBad p f = none ∧ (∀ a, j.at_ = some a → s.clocks.sc + microsCounts 2000 ≤ a) ∧
   regulatoryCheck s p f = none ∧ (subBandOf s f).map (·.1) = some b ∧ (p.state = 1 ∨ (p.state = 0 ∧ 0 ≤ m)) ∧ costCovered s b (costOf j) = true ∧
   s.clocks.fault = false ∧ s.clocks.locked = true ∧ tableFor s.pathS.synth ≠ none) ∧
  (let s : State := flying { wLink true 10000 with modes := (inMode 6).modes } [cTxWith 8 10 []]; let seq := 4; let c := cTxWith 8 10 [];
   let m : Int := 3; let f := 868300000; let p := profileOf s (par c 8); let cw := bit (par c 9) 3;
   let bytes := memGets s (parN c 10 3) (parN c 13 2);
   let j := { newTx (.host seq) (some m) with
     profileNo := par c 8, profile := p, channel := f, psdu := if cw then [] else if bit (par c 9) 0 then bytes ++ fcsBytes p bytes else bytes,
     cwMs := if cw then some (parN c 13 2) else none, at_ := if bit (par c 9) 1 then some (parN c 20 8) else none,
     rxAfterMs := if bit (par c 9) 2 then some (parN c 28 2) else none };
   let b := 1;
   s.pathS.job = none ∧ s.cal.linkJob = none ∧ s.clocks.stage = .idle ∧ tuneOf s 2 = none ∧ LinkQuiet s ∧ MayRun s seq 0x39 c ∧ Names c 7 ∧
   par c 8 < 4 ∧ par c 9 < 16 ∧ ZeroBytes c 15 15 ∧ ZeroBytes c 30 31 ∧ (bit (par c 9) 2 = true → 1 ≤ parN c 28 2 ∧ parN c 28 2 ≤ 2000) ∧
   1 ≤ parN c 13 2 ∧ (cw = true → s.modes.modeNow = 6 ∧ parN c 13 2 ≤ 1000) ∧
   (cw = false → 4 ≤ s.modes.modeNow ∧ s.modes.modeNow ≤ 6 ∧ inScratch (parN c 10 3) (parN c 13 2) = true ∧ parN c 13 2 ≤ (if bit (par c 9) 0 then
     2047 - fcsLen p else 2047)) ∧
   f = (if parN c 16 4 = 0 then p.channelHz else parN c 16 4) ∧ profileBad p f = none ∧ (∀ a, j.at_ = some a → s.clocks.sc + microsCounts 2000 ≤ a) ∧
   regulatoryCheck s p f = none ∧ (subBandOf s f).map (·.1) = some b ∧ (p.state = 1 ∨ (p.state = 0 ∧ 0 ≤ m)) ∧ costCovered s b (costOf j) = true ∧
   s.clocks.fault = false ∧ s.clocks.locked = true ∧ tableFor s.pathS.synth ≠ none) := by
  refine ⟨?_, ?_, ?_, ?_, ?_, ?_, ?_, ?_⟩ <;> decide +kernel

theorem witness_TransmissionsGoStepByStep :
  (let s : State := wTx (jobUntil (txJob .listen) 1) .run; let j := jobUntil (txJob .listen) 1; let q := 4;
   NoneDue s ∧ s.pathS.job = none ∧ s.cal.linkJob = none ∧ s.clocks.stage = .idle ∧ tuneOf s 0 = none ∧ tuneOf s 1 = none ∧ tuneOf s 2 = none ∧
   s.link.txs = [j] ∧ j.owner = .host q ∧ s.link.hostRx = none ∧ s.sessions.checks = [] ∧ watching s = false ∧ j.stage = .listen ∧
   s.pathS.fe.state = .run ∧ stopCause s q = none ∧ s.clocks.sc < j.until_) ∧
  (let s : State := wTx (jobTries 1) .run; let j := jobTries 1; let q := 4; let rssi : Int := -320;
   let limit := 4 * min (bandAt s j.band).lbtThresh s.link.lbtThresh;
   NoneDue s ∧ s.pathS.job = none ∧ s.cal.linkJob = none ∧ s.clocks.stage = .idle ∧ tuneOf s 0 = none ∧ tuneOf s 1 = none ∧ tuneOf s 2 = none ∧
   s.link.txs = [j] ∧ j.owner = .host q ∧ s.link.hostRx = none ∧ s.sessions.checks = [] ∧ watching s = false ∧ j.stage = .listen ∧
   s.pathS.fe.state = .run ∧ stopCause s q = none ∧ j.until_ ≤ s.clocks.sc ∧ limit ≤ rssi ∧ j.at_ = none ∧ j.tries + 1 < s.link.lbtTries) ∧
  (let s : State := wTx (jobTries 2) .run; let j := jobTries 2; let q := 4; let rssi : Int := -320;
   let limit := 4 * min (bandAt s j.band).lbtThresh s.link.lbtThresh; let c := running cTx;
   NoneDue s ∧ s.pathS.job = none ∧ s.cal.linkJob = none ∧ s.clocks.stage = .idle ∧ tuneOf s 0 = none ∧ tuneOf s 1 = none ∧ tuneOf s 2 = none ∧
   s.link.txs = [j] ∧ j.owner = .host q ∧ s.link.hostRx = none ∧ s.sessions.checks = [] ∧ watching s = false ∧ j.stage = .listen ∧
   s.pathS.fe.state = .run ∧ stopCause s q = none ∧ j.until_ ≤ s.clocks.sc ∧ limit ≤ rssi ∧ (j.at_.isSome = true ∨ s.link.lbtTries ≤ j.tries + 1) ∧
   s.rings.inflight = [c] ∧ c.seq = q) ∧
  (let s : State := wTx (jobAt .listen 1000) .run; let j := jobAt .listen 1000; let q := 4; let rssi : Int := -321;
   let limit := 4 * min (bandAt s j.band).lbtThresh s.link.lbtThresh;
   NoneDue s ∧ s.pathS.job = none ∧ s.cal.linkJob = none ∧ s.clocks.stage = .idle ∧ tuneOf s 0 = none ∧ tuneOf s 1 = none ∧ tuneOf s 2 = none ∧
   s.link.txs = [j] ∧ j.owner = .host q ∧ s.link.hostRx = none ∧ s.sessions.checks = [] ∧ watching s = false ∧ j.stage = .listen ∧
   s.pathS.fe.state = .run ∧ stopCause s q = none ∧ j.until_ ≤ s.clocks.sc ∧ rssi < limit ∧ costCovered s j.band j.cost = true ∧ j.at_.isSome = true) ∧
  (let s : State := wTx (jobTries 2) .run; let j := jobTries 2; let q := 4; let rssi : Int := -321;
   let limit := 4 * min (bandAt s j.band).lbtThresh s.link.lbtThresh;
   NoneDue s ∧ s.pathS.job = none ∧ s.cal.linkJob = none ∧ s.clocks.stage = .idle ∧ tuneOf s 0 = none ∧ tuneOf s 1 = none ∧ tuneOf s 2 = none ∧
   s.link.txs = [j] ∧ j.owner = .host q ∧ s.link.hostRx = none ∧ s.sessions.checks = [] ∧ watching s = false ∧ j.stage = .listen ∧
   s.pathS.fe.state = .run ∧ stopCause s q = none ∧ j.until_ ≤ s.clocks.sc ∧ rssi < limit ∧ costCovered s j.band j.cost = true ∧ j.at_ = none) ∧
  (let s : State := wTx (txJob .backoff) .run; let j := txJob .backoff; let q := 4;
   NoneDue s ∧ s.pathS.job = none ∧ s.cal.linkJob = none ∧ s.clocks.stage = .idle ∧ tuneOf s 0 = none ∧ tuneOf s 1 = none ∧ tuneOf s 2 = none ∧
   s.link.txs = [j] ∧ j.owner = .host q ∧ s.link.hostRx = none ∧ s.sessions.checks = [] ∧ watching s = false ∧ j.stage = .backoff ∧
   j.until_ ≤ s.clocks.sc ∧ j.at_ = none) ∧
  (let s : State := wTx (txJob .listen) .run; let j := txJob .listen; let q := 4;
   NoneDue s ∧ s.pathS.job = none ∧ s.cal.linkJob = none ∧ s.clocks.stage = .idle ∧ tuneOf s 0 = none ∧ tuneOf s 1 = none ∧ tuneOf s 2 = none ∧
   s.link.txs = [j] ∧ j.owner = .host q ∧ s.link.hostRx = none ∧ s.sessions.checks = [] ∧ watching s = false ∧
   (j.stage ≠ .backoff ∨ s.clocks.sc < j.until_) ∧ j.at_ = none) ∧
  (let s : State := wTx (jobAt .timed 1000000) .run; let j := jobAt .timed 1000000; let q := 4; let a := 1000000;
   NoneDue s ∧ s.pathS.job = none ∧ s.cal.linkJob = none ∧ s.clocks.stage = .idle ∧ tuneOf s 0 = none ∧ tuneOf s 1 = none ∧ tuneOf s 2 = none ∧
   s.link.txs = [j] ∧ j.owner = .host q ∧ s.link.hostRx = none ∧ s.sessions.checks = [] ∧ watching s = false ∧ j.at_ = some a ∧ j.stage = .timed ∧
   s.pathS.fe.state = .run ∧ earliestPhr s j ≤ a) ∧
  (let s : State := wTx (jobAt .timed 0) .run; let j := jobAt .timed 0; let q := 4; let a := 0; let c := running cTx;
   NoneDue s ∧ s.pathS.job = none ∧ s.cal.linkJob = none ∧ s.clocks.stage = .idle ∧ tuneOf s 0 = none ∧ tuneOf s 1 = none ∧ tuneOf s 2 = none ∧
   s.link.txs = [j] ∧ j.owner = .host q ∧ s.link.hostRx = none ∧ s.sessions.checks = [] ∧ watching s = false ∧ j.at_ = some a ∧ j.stage = .timed ∧
   s.pathS.fe.state = .run ∧ a < earliestPhr s j ∧ s.rings.inflight = [c] ∧ c.seq = q) ∧
  (let s : State := wTx (txJob .onAir) .txRampUp; let j := txJob .onAir; let q := 4;
   NoneDue s ∧ s.pathS.job = none ∧ s.cal.linkJob = none ∧ s.clocks.stage = .idle ∧ tuneOf s 0 = none ∧ tuneOf s 1 = none ∧ tuneOf s 2 = none ∧
   s.link.txs = [j] ∧ j.owner = .host q ∧ s.link.hostRx = none ∧ s.sessions.checks = [] ∧ watching s = false ∧ j.stage = .onAir) ∧
  (let s : State := wTx (txJob .onAir) .tx; let j := txJob .onAir; let q := 4;
   NoneDue s ∧ s.pathS.job = none ∧ s.cal.linkJob = none ∧ s.clocks.stage = .idle ∧ tuneOf s 0 = none ∧ tuneOf s 1 = none ∧ tuneOf s 2 = none ∧
   s.link.txs = [j] ∧ j.owner = .host q ∧ s.link.hostRx = none ∧ s.sessions.checks = [] ∧ watching s = false ∧ j.stage = .onAir) ∧
  (let s : State := wTx (txJob .onAir) .run; let j := txJob .onAir; let q := 4;
   NoneDue s ∧ s.pathS.job = none ∧ s.cal.linkJob = none ∧ s.clocks.stage = .idle ∧ tuneOf s 0 = none ∧ tuneOf s 1 = none ∧ tuneOf s 2 = none ∧
   s.link.txs = [j] ∧ j.owner = .host q ∧ s.link.hostRx = none ∧ s.sessions.checks = [] ∧ watching s = false ∧ j.stage = .onAir) ∧
  (let s : State := wTx (txJob .onAir) .txRampDown; let j := txJob .onAir; let q := 4; let c := running cTx;
   NoneDue s ∧ s.pathS.job = none ∧ s.cal.linkJob = none ∧ s.clocks.stage = .idle ∧ tuneOf s 0 = none ∧ tuneOf s 1 = none ∧ tuneOf s 2 = none ∧
   s.link.txs = [j] ∧ j.owner = .host q ∧ s.link.hostRx = none ∧ s.sessions.checks = [] ∧ watching s = false ∧ j.stage = .onAir ∧
   s.pathS.fe.state = .txRampDown ∧ s.pathS.synth.locked = true ∧ s.rings.inflight = [c] ∧ c.seq = q ∧ stopCause s q = none ∧ j.cut = false ∧
   j.rxAfterMs = none) ∧
  (let s : State := wTx { txJob .onAir with cut := true } .txRampDown; let j := { txJob .onAir with cut := true }; let q := 4; let c := running cTx;
   NoneDue s ∧ s.pathS.job = none ∧ s.cal.linkJob = none ∧ s.clocks.stage = .idle ∧ tuneOf s 0 = none ∧ tuneOf s 1 = none ∧ tuneOf s 2 = none ∧
   s.link.txs = [j] ∧ j.owner = .host q ∧ s.link.hostRx = none ∧ s.sessions.checks = [] ∧ watching s = false ∧ j.stage = .onAir ∧
   s.pathS.fe.state = .txRampDown ∧ s.pathS.synth.locked = true ∧ s.rings.inflight = [c] ∧ c.seq = q ∧ stopCause s q = none ∧ j.cut = true) ∧
  (let s : State := wTx jobAfter .txRampDown; let j := jobAfter; let q := 4; let c := running cTx; let ms := 2000;
   NoneDue s ∧ s.pathS.job = none ∧ s.cal.linkJob = none ∧ s.clocks.stage = .idle ∧ tuneOf s 0 = none ∧ tuneOf s 1 = none ∧ tuneOf s 2 = none ∧
   s.link.txs = [j] ∧ j.owner = .host q ∧ s.link.hostRx = none ∧ s.sessions.checks = [] ∧ watching s = false ∧ j.stage = .onAir ∧
   s.pathS.fe.state = .txRampDown ∧ s.pathS.synth.locked = true ∧ s.rings.inflight = [c] ∧ c.seq = q ∧ stopCause s q = none ∧ j.cut = false ∧
   j.rxAfterMs = some ms ∧ s.pathS.fe.loNow = linkLo j.channel) ∧
  (let s : State := wTx (jobWindow 0) .run; let j := jobWindow 0; let q := 4; let c := running cTx;
   NoneDue s ∧ s.pathS.job = none ∧ s.cal.linkJob = none ∧ s.clocks.stage = .idle ∧ tuneOf s 0 = none ∧ tuneOf s 1 = none ∧ tuneOf s 2 = none ∧
   s.link.txs = [j] ∧ j.owner = .host q ∧ s.link.hostRx = none ∧ s.sessions.checks = [] ∧ watching s = false ∧ j.stage = .after ∧
   s.pathS.fe.state = .run ∧ j.until_ ≤ s.clocks.sc ∧ s.rings.inflight = [c] ∧ c.seq = q) ∧
  (let s : State := wTx (jobWindow 1) .run; let j := jobWindow 1; let q := 4;
   NoneDue s ∧ s.pathS.job = none ∧ s.cal.linkJob = none ∧ s.clocks.stage = .idle ∧ tuneOf s 0 = none ∧ tuneOf s 1 = none ∧ tuneOf s 2 = none ∧
   s.link.txs = [j] ∧ j.owner = .host q ∧ s.link.hostRx = none ∧ s.sessions.checks = [] ∧ watching s = false ∧ j.stage = .after ∧
   s.pathS.fe.state = .run ∧ s.clocks.sc < j.until_) ∧
  (let s : State := State.reset;
   NoneDue s ∧ s.pathS.job = none ∧ s.cal.linkJob = none ∧ s.clocks.stage = .idle ∧ tuneOf s 0 = none ∧ tuneOf s 1 = none ∧ tuneOf s 2 = none ∧
   (∀ j ∈ s.link.txs, j.stage ≠ .onAir) ∧ s.pathS.fe.state ≠ .txRampUp ∧ s.pathS.fe.state ≠ .tx ∧ s.pathS.fe.state ≠ .txRampDown ∧
   s.link.txBlank = false) ∧
  (let s : State := { State.reset with link := { State.reset.link with txBlank := true } };
   NoneDue s ∧ s.pathS.job = none ∧ s.cal.linkJob = none ∧ s.clocks.stage = .idle ∧ tuneOf s 0 = none ∧ tuneOf s 1 = none ∧ tuneOf s 2 = none ∧
   (∀ j ∈ s.link.txs, j.stage ≠ .onAir) ∧ s.pathS.fe.state ≠ .txRampUp ∧ s.pathS.fe.state ≠ .tx ∧ s.pathS.fe.state ≠ .txRampDown ∧
   s.link.txBlank = true) ∧
  (let s : State := State.reset; let k := 7;
   NoneDue s ∧ s.pathS.job = none ∧ s.cal.linkJob = none ∧ s.clocks.stage = .idle ∧ tuneOf s 0 = none ∧ tuneOf s 1 = none ∧ tuneOf s 2 = none ∧
   (k < 2 ∨ 6 < k)) := by
  refine ⟨?_, ?_, ?_, ?_, ?_, ?_, ?_, ?_, ?_, ?_, ?_, ?_, ?_, ?_, ?_, ?_, ?_, ?_, ?_, ?_⟩ <;> decide +kernel

theorem witness_LinkRxOpensItsWindow :
  (let s : State := flying (wLink true 0) [cRx 0]; let seq := 4; let c := cRx 0; let f := 0; let p := profileOf s (par c 8); let k := 8;
   LinkQuiet s ∧ s.pathS.job = none ∧ s.cal.linkJob = none ∧ s.clocks.stage = .idle ∧ tuneOf s 2 = none ∧ MayRun s seq 0x38 c ∧ Names c 7 ∧
   3 ≤ s.modes.modeNow ∧ s.modes.modeNow ≤ 6 ∧ par c 8 < 4 ∧ par c 9 < 4 ∧ ZeroBytes c 22 31 ∧ inScratch (parN c 10 3) (parN c 13 2) = true ∧
   parN c 13 2 % 4 = 0 ∧ 64 ≤ parN c 13 2 ∧ parN c 13 2 ≤ 32768 ∧ (parN c 16 4 ≠ 0 → covered 2 (parN c 16 4) = true) ∧ 1 ≤ parN c 20 2 ∧
   parN c 20 2 ≤ 60000 ∧ f = (if parN c 16 4 = 0 then p.channelHz else parN c 16 4) ∧ profileBad p f = some k) ∧
  (let s : State := flying (wProfile (wLink true 0) { profile3 with channelHz := 1000000000 }) [cRx 3]; let seq := 4; let c := cRx 3;
   let f := 1000000000; let p := profileOf s (par c 8);
   LinkQuiet s ∧ s.pathS.job = none ∧ s.cal.linkJob = none ∧ s.clocks.stage = .idle ∧ tuneOf s 2 = none ∧ MayRun s seq 0x38 c ∧ Names c 7 ∧
   3 ≤ s.modes.modeNow ∧ s.modes.modeNow ≤ 6 ∧ par c 8 < 4 ∧ par c 9 < 4 ∧ ZeroBytes c 22 31 ∧ inScratch (parN c 10 3) (parN c 13 2) = true ∧
   parN c 13 2 % 4 = 0 ∧ 64 ≤ parN c 13 2 ∧ parN c 13 2 ≤ 32768 ∧ (parN c 16 4 ≠ 0 → covered 2 (parN c 16 4) = true) ∧ 1 ≤ parN c 20 2 ∧
   parN c 20 2 ≤ 60000 ∧ f = (if parN c 16 4 = 0 then p.channelHz else parN c 16 4) ∧ profileBad p f = none ∧ covered 2 f = false) ∧
  (let s : State := flying wNoBands [cRx 3]; let seq := 4; let c := cRx 3; let f := 868300000; let p := profileOf s (par c 8);
   LinkQuiet s ∧ s.pathS.job = none ∧ s.cal.linkJob = none ∧ s.clocks.stage = .idle ∧ tuneOf s 2 = none ∧ MayRun s seq 0x38 c ∧ Names c 7 ∧
   3 ≤ s.modes.modeNow ∧ s.modes.modeNow ≤ 6 ∧ par c 8 < 4 ∧ par c 9 < 4 ∧ ZeroBytes c 22 31 ∧ inScratch (parN c 10 3) (parN c 13 2) = true ∧
   parN c 13 2 % 4 = 0 ∧ 64 ≤ parN c 13 2 ∧ parN c 13 2 ≤ 32768 ∧ (parN c 16 4 ≠ 0 → covered 2 (parN c 16 4) = true) ∧ 1 ≤ parN c 20 2 ∧
   parN c 20 2 ≤ 60000 ∧ f = (if parN c 16 4 = 0 then p.channelHz else parN c 16 4) ∧ profileBad p f = none ∧ covered 2 f = true ∧
   channelPermitted s f = false) ∧
  (let s : State := flying { wLink true 0 with clocks := { (wLink true 0).clocks with fault := true } } [cRx 3]; let seq := 4; let c := cRx 3;
   let f := 868300000; let p := profileOf s (par c 8);
   LinkQuiet s ∧ s.pathS.job = none ∧ s.cal.linkJob = none ∧ s.clocks.stage = .idle ∧ tuneOf s 2 = none ∧ MayRun s seq 0x38 c ∧ Names c 7 ∧
   3 ≤ s.modes.modeNow ∧ s.modes.modeNow ≤ 6 ∧ par c 8 < 4 ∧ par c 9 < 4 ∧ ZeroBytes c 22 31 ∧ inScratch (parN c 10 3) (parN c 13 2) = true ∧
   parN c 13 2 % 4 = 0 ∧ 64 ≤ parN c 13 2 ∧ parN c 13 2 ≤ 32768 ∧ (parN c 16 4 ≠ 0 → covered 2 (parN c 16 4) = true) ∧ 1 ≤ parN c 20 2 ∧
   parN c 20 2 ≤ 60000 ∧ f = (if parN c 16 4 = 0 then p.channelHz else parN c 16 4) ∧ profileBad p f = none ∧ covered 2 f = true ∧
   channelPermitted s f = true ∧ s.clocks.fault = true) ∧
  (let s : State := flying (wLink true 0) [cRx 3]; let seq := 4; let c := cRx 3; let f := 868300000; let p := profileOf s (par c 8);
   LinkQuiet s ∧ s.pathS.job = none ∧ s.cal.linkJob = none ∧ s.clocks.stage = .idle ∧ tuneOf s 2 = none ∧ MayRun s seq 0x38 c ∧ Names c 7 ∧
   3 ≤ s.modes.modeNow ∧ s.modes.modeNow ≤ 6 ∧ par c 8 < 4 ∧ par c 9 < 4 ∧ ZeroBytes c 22 31 ∧ inScratch (parN c 10 3) (parN c 13 2) = true ∧
   parN c 13 2 % 4 = 0 ∧ 64 ≤ parN c 13 2 ∧ parN c 13 2 ≤ 32768 ∧ (parN c 16 4 ≠ 0 → covered 2 (parN c 16 4) = true) ∧ 1 ≤ parN c 20 2 ∧
   parN c 20 2 ≤ 60000 ∧ f = (if parN c 16 4 = 0 then p.channelHz else parN c 16 4) ∧ profileBad p f = none ∧ covered 2 f = true ∧
   channelPermitted s f = true ∧ s.clocks.fault = false ∧ s.clocks.locked = true ∧ tableFor s.pathS.synth ≠ none) := by
  refine ⟨?_, ?_, ?_, ?_, ?_⟩ <;> decide +kernel

theorem witness_WindowsReceivePackets :
  (let s : State := wRx 1 .run; let w := rxWindow 1;
   NoneDue s ∧ tuneOf s 2 = none ∧ s.link.hostRx = some w ∧ s.link.txs = [] ∧ s.sessions.checks = [] ∧ watching s = false ∧
   (s.clocks.sc < w.until_ ∨ s.pathS.fe.state = .rxPacket) ∧ s.pathS.fe.state = .run) ∧
  (let s : State := wRx 0 .run; let w := rxWindow 0; let c := running (cRx 3);
   NoneDue s ∧ tuneOf s 2 = none ∧ s.link.hostRx = some w ∧ s.link.txs = [] ∧ s.sessions.checks = [] ∧ watching s = false ∧ w.until_ ≤ s.clocks.sc ∧
   s.rings.inflight = [c] ∧ c.seq = w.seq ∧ s.pathS.fe.state = .run ∧ s.pathS.job = none ∧ s.cal.linkJob = none) ∧
  (let s : State := wRx 1 .run; let w := rxWindow 1;
   NoneDue s ∧ tuneOf s 2 = none ∧ s.link.hostRx = some w ∧ s.link.txs = [] ∧ s.sessions.checks = [] ∧ watching s = false ∧
   (s.pathS.fe.state = .run ∨ (s.pathS.fe.state = .rxPacket ∧ s.clocks.sc < w.until_ ∧ stopCause s w.seq = none)) ∧
   s.pathS.fe.loNow = linkLo w.channel ∧ s.pathS.job = none ∧ s.cal.linkJob = none ∧ w.pausedAt = none) ∧
  (let s : State := wRx 1 .rxPacket; let w := rxWindow 1;
   NoneDue s ∧ tuneOf s 2 = none ∧ s.link.hostRx = some w ∧ s.link.txs = [] ∧ s.sessions.checks = [] ∧ watching s = false ∧
   (s.pathS.fe.state = .run ∨ (s.pathS.fe.state = .rxPacket ∧ s.clocks.sc < w.until_ ∧ stopCause s w.seq = none)) ∧
   s.pathS.fe.loNow = linkLo w.channel ∧ s.pathS.job = none ∧ s.cal.linkJob = none ∧ w.pausedAt = none) ∧
  (let s : State := wRx 1 .run; let w := rxWindow 1; let k := { packetOf true with afc := 6001 };
   NoneDue s ∧ tuneOf s 2 = none ∧ s.link.hostRx = some w ∧ s.link.txs = [] ∧ s.sessions.checks = [] ∧ watching s = false ∧
   (s.pathS.fe.state = .run ∨ (s.pathS.fe.state = .rxPacket ∧ s.clocks.sc < w.until_ ∧ stopCause s w.seq = none)) ∧
   s.pathS.fe.loNow = linkLo w.channel ∧ s.pathS.job = none ∧ s.cal.linkJob = none ∧ w.pausedAt = none ∧ pulledIn s w.profile k = false) ∧
  (let s : State := wRx 1 .run; let w := rxWindow 1; let k0 := packetOf false; let k := asReceived w.profile k0;
   NoneDue s ∧ tuneOf s 2 = none ∧ s.link.hostRx = some w ∧ s.link.txs = [] ∧ s.sessions.checks = [] ∧ watching s = false ∧
   (s.pathS.fe.state = .run ∨ (s.pathS.fe.state = .rxPacket ∧ s.clocks.sc < w.until_ ∧ stopCause s w.seq = none)) ∧
   s.pathS.fe.loNow = linkLo w.channel ∧ s.pathS.job = none ∧ s.cal.linkJob = none ∧ w.pausedAt = none ∧ pulledIn s w.profile k0 = true ∧
   phrOk w.profile k = false) ∧
  (let s : State := wRx 1 .run; let w := rxWindow 1; let k0 := packetOf true; let k := asReceived w.profile k0;
   let r := rxRecord w.profileNo w.channel false k; let a := 0x1F7FBF;
   NoneDue s ∧ tuneOf s 2 = none ∧ s.link.hostRx = some w ∧ s.link.txs = [] ∧ s.sessions.checks = [] ∧ watching s = false ∧
   (s.pathS.fe.state = .run ∨ (s.pathS.fe.state = .rxPacket ∧ s.clocks.sc < w.until_ ∧ stopCause s w.seq = none)) ∧
   s.pathS.fe.loNow = linkLo w.channel ∧ s.pathS.job = none ∧ s.cal.linkJob = none ∧ w.pausedAt = none ∧ pulledIn s w.profile k0 = true ∧
   phrOk w.profile k = true ∧ k.fcsOk = true ∧ byteAt k.psdu 0 % 8 ≠ 4 ∧ (w.maxPackets = 0 ∨ w.records + 1 < w.maxPackets) ∧
   w.bytes + r.length ≤ w.size ∧ (a < w.dest + w.bytes ∨ w.dest + w.bytes + r.length ≤ a)) ∧
  (let s : State := wRx 1 .starting;
   NoneDue s ∧ tuneOf s 2 = none ∧ s.pathS.fe.state ≠ .run ∧ s.pathS.fe.state ≠ .rxPacket) ∧
  (let s : State := windowAt State.reset (0x270101 + 0x80 * 3); let k := 3;
   NoneDue s ∧ tuneOf s 2 = none ∧ k < 4 ∧ WindowAt s (0x270101 + 0x80 * k)) ∧
  (let s : State := windowAt State.reset (0x270100 + 0x80 * 3 + 7); let k := 3; let v : Byte := 9; let o := 7; let p := ({ power := 9 } : Profile);
   NoneDue s ∧ tuneOf s 2 = none ∧ k < 4 ∧ o < 0x50 ∧ profileByte o v (profileOf s k) = some p ∧ WindowAt s (0x270100 + 0x80 * k + o)) := by
  refine ⟨?_, ?_, ?_, ?_, ?_, ?_, ?_, ?_, ?_, ?_⟩ <;> decide +kernel

theorem witness_PairAndSessionCommands :
  (let s : State := flying (withKey (wEndpoint {})) [cPair 0 0]; let seq := 4; let c := cPair 0 0; let n := 127;
   let free := WritesClear s ∧ noEarlierWrite (earlier s.rings.inflight seq) = true;
   s.sessions.targets = [] ∧ MayRun s seq 0x40 c ∧ Names c 8 ∧ cmdIdx c = n ∧ 3 ≤ s.modes.modeNow ∧ s.modes.modeNow ≤ 6 ∧ par c 11 = 0 ∧
   ZeroBytes c 23 31 ∧ c.desc.length = 32 ∧ fraction s.cellar 2 ≠ 3 ∧ par c 8 = 0 ∧ 1 ≤ par c 9 ∧ par c 9 ≤ 3 ∧ par c 10 < 2 ∧
   inScratch (parN c 20 3) 16 = true ∧ (endpointOf s n).paired = false ∧ euiTaken s n (parN c 12 8) = false ∧ Memory.wf s.cellar.shadow = true ∧
   par c 10 = 0 ∧ free ∧ RoomFor s.cellar (0x8000 + n) 26) ∧
  (let s : State := flying (held (withKey (wEndpoint {}))) [cPair 0 1]; let seq := 4; let c := cPair 0 1; let n := 127;
   s.sessions.targets = [] ∧ MayRun s seq 0x40 c ∧ Names c 8 ∧ cmdIdx c = n ∧ 3 ≤ s.modes.modeNow ∧ s.modes.modeNow ≤ 6 ∧ par c 11 = 0 ∧
   ZeroBytes c 23 31 ∧ c.desc.length = 32 ∧ fraction s.cellar 2 ≠ 3 ∧ par c 8 = 0 ∧ 1 ≤ par c 9 ∧ par c 9 ≤ 3 ∧ par c 10 < 2 ∧
   inScratch (parN c 20 3) 16 = true ∧ (endpointOf s n).paired = false ∧ euiTaken s n (parN c 12 8) = false ∧ Memory.wf s.cellar.shadow = true ∧
   par c 10 = 1 ∧ LinkHeld s) ∧
  (let s : State := flying (wEndpoint (paired {})) [cPair 1 0]; let seq := 4; let c := cPair 1 0; let n := 127;
   let free := WritesClear s ∧ noEarlierWrite (earlier s.rings.inflight seq) = true;
   s.sessions.targets = [] ∧ MayRun s seq 0x40 c ∧ Names c 8 ∧ cmdIdx c = n ∧ 3 ≤ s.modes.modeNow ∧ s.modes.modeNow ≤ 6 ∧ par c 11 = 0 ∧
   ZeroBytes c 23 31 ∧ c.desc.length = 32 ∧ fraction s.cellar 2 ≠ 3 ∧ par c 8 = 1 ∧ par c 10 < 2 ∧ (endpointOf s n).paired = true ∧
   (endpointOf s n).session = false ∧ LinkQuiet s ∧ free ∧ RoomFor s.cellar (0x8000 + n) 0) ∧
  (let s : State := flying (wEndpoint inSession) [cSession 1]; let seq := 4; let c := cSession 1; let n := 127; let e := endpointOf s n;
   s.sessions.targets = [] ∧ MayRun s seq 0x41 c ∧ Names c 8 ∧ cmdIdx c = n ∧ 3 ≤ s.modes.modeNow ∧ s.modes.modeNow ≤ 6 ∧ par c 9 < 32 ∧
   ZeroBytes c 18 31 ∧ (endpointOf s n).paired = true ∧ par c 8 = 1 ∧ e.session = true ∧ LinkQuiet s) ∧
  (let s : State := flying (wEndpoint (paired {})) [cSession 1]; let seq := 4; let c := cSession 1; let n := 127; let e := endpointOf s n;
   s.sessions.targets = [] ∧ MayRun s seq 0x41 c ∧ Names c 8 ∧ cmdIdx c = n ∧ 3 ≤ s.modes.modeNow ∧ s.modes.modeNow ≤ 6 ∧ par c 9 < 32 ∧
   ZeroBytes c 18 31 ∧ (endpointOf s n).paired = true ∧ par c 8 = 1 ∧ e.session = false ∧ LinkQuiet s) ∧
  (let s : State := flying (held (wEndpoint inSession)) [cSession 2]; let seq := 4; let c := cSession 2; let n := 127;
   s.sessions.targets = [] ∧ MayRun s seq 0x41 c ∧ Names c 8 ∧ cmdIdx c = n ∧ 3 ≤ s.modes.modeNow ∧ s.modes.modeNow ≤ 6 ∧ par c 9 < 32 ∧
   ZeroBytes c 18 31 ∧ (endpointOf s n).paired = true ∧ par c 8 = 2 ∧ txLow s n < 0xFFFFFF ∧ LinkHeld s) ∧
  (let s : State := flying (wEndpoint (paired {})) [cSession 3]; let seq := 4; let c := cSession 3; let n := 127; let e := endpointOf s n;
   let period := if parN c 12 2 = 0 then 300 else parN c 12 2; let timeout := if parN c 14 4 = 0 then 1800 else parN c 14 4;
   s.sessions.targets = [] ∧ MayRun s seq 0x41 c ∧ Names c 8 ∧ cmdIdx c = n ∧ 3 ≤ s.modes.modeNow ∧ s.modes.modeNow ≤ 6 ∧ par c 9 < 32 ∧
   ZeroBytes c 18 31 ∧ (endpointOf s n).paired = true ∧ (par c 10 < 128 ∨ par c 10 = 0xFF) ∧ par c 11 ≤ 5 ∧ 60 ≤ period ∧ period ≤ 3600 ∧
   period < timeout ∧ 120 ≤ timeout ∧ timeout ≤ 86400 ∧ e.role ≠ 3 ∧ par c 8 = 3 ∧ LinkQuiet s ∧
   (e.session = false ∨ (par c 10 = 0xFF ∧ (bit (par c 9) 4 = false ∨ s.sessions.winPin = false)))) ∧
  (let s : State := flying (winHigh (wEndpoint inSession)) [cSession 3]; let seq := 4; let c := cSession 3; let n := 127; let e := endpointOf s n;
   let period := if parN c 12 2 = 0 then 300 else parN c 12 2; let timeout := if parN c 14 4 = 0 then 1800 else parN c 14 4;
   s.sessions.targets = [] ∧ MayRun s seq 0x41 c ∧ Names c 8 ∧ cmdIdx c = n ∧ 3 ≤ s.modes.modeNow ∧ s.modes.modeNow ≤ 6 ∧ par c 9 < 32 ∧
   ZeroBytes c 18 31 ∧ (endpointOf s n).paired = true ∧ (par c 10 < 128 ∨ par c 10 = 0xFF) ∧ par c 11 ≤ 5 ∧ 60 ≤ period ∧ period ≤ 3600 ∧
   period < timeout ∧ 120 ≤ timeout ∧ timeout ≤ 86400 ∧ e.role ≠ 3 ∧ par c 8 = 3 ∧ LinkQuiet s ∧ e.session = true ∧ bit (par c 9) 4 = true ∧
   s.sessions.winPin = true) ∧
  (let s : State := flying (held (wEndpoint (paired {}))) [cSession 0]; let seq := 4; let c := cSession 0; let n := 127; let e := endpointOf s n;
   let period := if parN c 12 2 = 0 then 300 else parN c 12 2; let timeout := if parN c 14 4 = 0 then 1800 else parN c 14 4;
   s.sessions.targets = [] ∧ MayRun s seq 0x41 c ∧ Names c 8 ∧ cmdIdx c = n ∧ 3 ≤ s.modes.modeNow ∧ s.modes.modeNow ≤ 6 ∧ par c 9 < 32 ∧
   ZeroBytes c 18 31 ∧ (endpointOf s n).paired = true ∧ (par c 10 < 128 ∨ par c 10 = 0xFF) ∧ par c 11 ≤ 5 ∧ 60 ≤ period ∧ period ≤ 3600 ∧
   period < timeout ∧ 120 ≤ timeout ∧ timeout ≤ 86400 ∧ e.role ≠ 3 ∧ par c 8 = 0 ∧ e.session = false ∧ cfgWindowOpen s c = false ∧
   txLow s n < 0xFFFFFF ∧ LinkHeld s) := by
  refine ⟨?_, ?_, ?_, ?_, ?_, ?_, ?_, ?_, ?_⟩ <;> decide +kernel

theorem witness_SessionsAndChecksEnd :
  (let s : State := held (atSecond 10 (wEndpoint inSession)); let n := 127;
   s.sessions.targets = [] ∧ (endpointOf s n).session = true ∧ (endpointOf s n).nextCheck ≤ s.clocks.sc / 2 ^ 24 ∧ LinkHeld s) ∧
  (let s : State := atSecond 9 (wEndpoint inSession); let n := 127;
   s.sessions.targets = [] ∧ (endpointOf s n).session = true ∧ s.clocks.sc / 2 ^ 24 < (endpointOf s n).nextCheck) ∧
  (let s : State := atSecond 21 (wEndpoint inSession); let n := 127;
   s.sessions.targets = [] ∧ (endpointOf s n).session = true ∧ (endpointOf s n).expires * 2 ^ 24 < s.clocks.sc ∧ LinkQuiet s ∧ s.power.phase = .ready) ∧
  (let s : State := atSecond 20 (wEndpoint inSession); let n := 127;
   s.sessions.targets = [] ∧ (endpointOf s n).session = true ∧ s.clocks.sc ≤ (endpointOf s n).expires * 2 ^ 24) ∧
  (let s : State := wNoVioPin;
   s.sessions.targets = [] ∧ s.power.vioValid = false) ∧
  (let s : State := wEndpoint inSession; let level := false;
   s.sessions.targets = [] ∧ s.power.vioValid = true ∧ level = false) ∧
  (let s : State := wEndpoint inSession; let level := true; let n := 127; let e := inSession;
   s.sessions.targets = [] ∧ s.power.vioValid = true ∧ level = true ∧ s.power.phase = .ready ∧ LinkQuiet s ∧ s.sessions.endpoints = [(n, e)] ∧
   e.session = true ∧ e.useWinPin = true) ∧
  (let s : State := wEndpoint noPin; let level := true; let n := 127; let e := noPin;
   s.sessions.targets = [] ∧ s.power.vioValid = true ∧ level = true ∧ s.power.phase = .ready ∧ LinkQuiet s ∧ s.sessions.endpoints = [(n, e)] ∧
   e.session = true) ∧
  (let s : State := wCheck (check 1 1); let k := check 1 1;
   s.sessions.targets = [] ∧ s.sessions.checks = [k] ∧ s.link.txs = [] ∧ s.link.hostRx = none ∧ watching s = false ∧ s.pathS.job ≠ none ∧
   s.pathS.fe.state = .cal ∧ NoneDue s ∧ Memory.wf s.cellar.shadow = true ∧ k.ep < 128 ∧ (k.windowOpen = false ∨ s.clocks.sc < k.until_)) ∧
  (let s : State := wCheck (check 1 0); let k := check 1 0;
   s.sessions.targets = [] ∧ s.sessions.checks = [k] ∧ s.link.txs = [] ∧ s.link.hostRx = none ∧ watching s = false ∧ s.pathS.job ≠ none ∧
   s.pathS.fe.state = .cal ∧ NoneDue s ∧ Memory.wf s.cellar.shadow = true ∧ k.ep < 128 ∧ k.windowOpen = true ∧ k.until_ ≤ s.clocks.sc ∧ k.fail = 0 ∧
   k.tries + 1 < k.limit) ∧
  (let s : State := wCheck (check 2 0); let k := check 2 0;
   s.sessions.targets = [] ∧ s.sessions.checks = [k] ∧ s.link.txs = [] ∧ s.link.hostRx = none ∧ watching s = false ∧ s.pathS.job ≠ none ∧
   s.pathS.fe.state = .cal ∧ NoneDue s ∧ Memory.wf s.cellar.shadow = true ∧ k.ep < 128 ∧ k.windowOpen = true ∧ k.until_ ≤ s.clocks.sc ∧ k.fail = 0 ∧
   k.limit ≤ k.tries + 1 ∧ k.purpose = .periodic) := by
  refine ⟨?_, ?_, ?_, ?_, ?_, ?_, ?_, ?_, ?_, ?_, ?_⟩ <;> decide +kernel

theorem witness_ReleasesFollowTheirSchedule :
  (let s : State := flying noTargets [cStart 126 0 100 600]; let k : Nat := 3; let x := targetOf s k; let seq := 4; let c := cStart 126 0 100 600;
   k < 4 ∧ MayRun s seq 0x42 c ∧ Names c 9 ∧ cmdIdx c = k ∧ 3 ≤ s.modes.modeNow ∧ s.modes.modeNow ≤ 6 ∧ par c 8 < 128 ∧ par c 9 < 2 ∧ par c 10 ≤ 100 ∧
   par c 11 = 0 ∧ (parN c 12 2 = 0 ∨ (60 ≤ parN c 12 2 ∧ parN c 12 2 ≤ 600)) ∧ ZeroBytes c 14 31 ∧ (endpointOf s (par c 8)).paired = true ∧
   (endpointOf s (par c 8)).role = 3 ∧ s.modes.epochOk = true ∧ txLow s (par c 8) < 0xFFFFFF ∧
   (∀ j, j < 4 → j ≠ k → armed (targetOf s j) = true → (targetOf s j).ep ≠ par c 8) ∧ armed x = false ∧ par c 9 = 0) ∧
  (let s : State := flying (nearDue 1 noTargets) [cStart 126 0 100 0]; let k : Nat := 3; let x := targetOf s k; let seq := 4;
   let c := cStart 126 0 100 0;
   k < 4 ∧ MayRun s seq 0x42 c ∧ Names c 9 ∧ cmdIdx c = k ∧ 3 ≤ s.modes.modeNow ∧ s.modes.modeNow ≤ 6 ∧ par c 8 < 128 ∧ par c 9 < 2 ∧ par c 10 ≤ 100 ∧
   par c 11 = 0 ∧ (parN c 12 2 = 0 ∨ (60 ≤ parN c 12 2 ∧ parN c 12 2 ≤ 600)) ∧ ZeroBytes c 14 31 ∧ (endpointOf s (par c 8)).paired = true ∧
   (endpointOf s (par c 8)).role = 3 ∧ s.modes.epochOk = true ∧ txLow s (par c 8) < 0xFFFFFF ∧
   (∀ j, j < 4 → j ≠ k → armed (targetOf s j) = true → (targetOf s j).ep ≠ par c 8) ∧ armed x = false ∧ par c 9 = 0) ∧
  (let s : State := flying (nearDue 0 noTargets) [cStart 126 0 100 0]; let k : Nat := 3; let x := targetOf s k; let seq := 4;
   let c := cStart 126 0 100 0;
   k < 4 ∧ MayRun s seq 0x42 c ∧ Names c 9 ∧ cmdIdx c = k ∧ 3 ≤ s.modes.modeNow ∧ s.modes.modeNow ≤ 6 ∧ par c 8 < 128 ∧ par c 9 < 2 ∧ par c 10 ≤ 100 ∧
   par c 11 = 0 ∧ (parN c 12 2 = 0 ∨ (60 ≤ parN c 12 2 ∧ parN c 12 2 ≤ 600)) ∧ ZeroBytes c 14 31 ∧ (endpointOf s (par c 8)).paired = true ∧
   (endpointOf s (par c 8)).role = 3 ∧ s.modes.epochOk = true ∧ txLow s (par c 8) < 0xFFFFFF ∧
   (∀ j, j < 4 → j ≠ k → armed (targetOf s j) = true → (targetOf s j).ep ≠ par c 8) ∧ armed x = false ∧ par c 9 = 0) ∧
  (let s : State := flying noTargets [cStart 126 1 100 60]; let k : Nat := 3; let x := targetOf s k; let seq := 4; let c := cStart 126 1 100 60;
   k < 4 ∧ MayRun s seq 0x42 c ∧ Names c 9 ∧ cmdIdx c = k ∧ 3 ≤ s.modes.modeNow ∧ s.modes.modeNow ≤ 6 ∧ par c 8 < 128 ∧ par c 9 < 2 ∧ par c 10 ≤ 100 ∧
   par c 11 = 0 ∧ (parN c 12 2 = 0 ∨ (60 ≤ parN c 12 2 ∧ parN c 12 2 ≤ 600)) ∧ ZeroBytes c 14 31 ∧ (endpointOf s (par c 8)).paired = true ∧
   (endpointOf s (par c 8)).role = 3 ∧ s.modes.epochOk = true ∧ txLow s (par c 8) < 0xFFFFFF ∧
   (∀ j, j < 4 → j ≠ k → armed (targetOf s j) = true → (targetOf s j).ep ≠ par c 8) ∧ armed x = false ∧ par c 9 = 1 ∧ activeSessions s = []) ∧
  (let s : State := flying (wTargets (target .sending)) [cStart 126 0 0 60]; let k : Nat := 3; let x := targetOf s k; let seq := 4;
   let c := cStart 126 0 0 60;
   k < 4 ∧ MayRun s seq 0x42 c ∧ Names c 9 ∧ cmdIdx c = k ∧ 3 ≤ s.modes.modeNow ∧ s.modes.modeNow ≤ 6 ∧ par c 8 < 128 ∧ par c 9 < 2 ∧ par c 10 ≤ 100 ∧
   par c 11 = 0 ∧ (parN c 12 2 = 0 ∨ (60 ≤ parN c 12 2 ∧ parN c 12 2 ≤ 600)) ∧ ZeroBytes c 14 31 ∧ (endpointOf s (par c 8)).paired = true ∧
   (endpointOf s (par c 8)).role = 3 ∧ s.modes.epochOk = true ∧ txLow s (par c 8) < 0xFFFFFF ∧
   (∀ j, j < 4 → j ≠ k → armed (targetOf s j) = true → (targetOf s j).ep ≠ par c 8) ∧ x.state = .sending ∧ par c 9 = 0 ∧
   s.sessions.targets = [(k, x)] ∧ LinkQuiet s) ∧
  (let s : State := flying (wTargets (target .waiting)) [cStop 0]; let k : Nat := 3; let x := targetOf s k; let seq := 4; let c := cStop 0;
   k < 4 ∧ MayRun s seq 0x43 c ∧ Names c 9 ∧ cmdIdx c = k ∧ 3 ≤ s.modes.modeNow ∧ s.modes.modeNow ≤ 6 ∧ ZeroBytes c 9 31 ∧
   (par c 8 = 0 ∨ (par c 8 = 1 ∧ armed x = false)) ∧ LinkQuiet s) ∧
  (let s : State := flying (held (wTargets (target .waiting))) [cStop 1]; let k : Nat := 3; let x := targetOf s k; let seq := 4; let c := cStop 1;
   k < 4 ∧ MayRun s seq 0x43 c ∧ Names c 9 ∧ cmdIdx c = k ∧ 3 ≤ s.modes.modeNow ∧ s.modes.modeNow ≤ 6 ∧ ZeroBytes c 9 31 ∧ par c 8 = 1 ∧
   armed x = true ∧ LinkHeld s) ∧
  (let s : State := held (nearDue 0 (wTargets (target .sending))); let k : Nat := 3; let x := targetOf s k;
   k < 4 ∧ x.state = .sending ∧ x.retry = false ∧ x.denied = false ∧ LinkHeld s ∧ x.nextDue ≤ s.clocks.sc + microsCounts 20000) ∧
  (let s : State := held (nearDue 1 (wTargets (target .sending))); let k : Nat := 3; let x := targetOf s k;
   k < 4 ∧ x.state = .sending ∧ x.retry = false ∧ x.denied = false ∧ LinkHeld s ∧ s.clocks.sc + microsCounts 20000 < x.nextDue) ∧
  (let s : State := held (wTargets retrying); let k : Nat := 3; let x := targetOf s k;
   k < 4 ∧ x.state = .sending ∧ x.retry = true ∧ x.retryAt ≤ s.clocks.sc ∧ LinkHeld s) ∧
  (let s : State := wTargets (target .sending); let k : Nat := 3; let x := targetOf s k;
   k < 4 ∧ x.state = .sending ∧ (x.retry = false ∨ s.clocks.sc < x.retryAt)) ∧
  (let s : State := nearDue (2 ^ 24) (wTargets (target .sending)); let k : Nat := 3; let x := targetOf s k;
   k < 4 ∧ x.state = .sending ∧ s.clocks.sc < x.nextDue + x.interval * 2 ^ 24 / 2) ∧
  (let s : State := atSecond 90 (wTargets retrying); let k : Nat := 3; let x := targetOf s k; let j := 2;
   k < 4 ∧ x.state = .sending ∧ x.nextDue + x.interval * 2 ^ 24 / 2 ≤ s.clocks.sc ∧ LinkQuiet s ∧ 0 < x.interval ∧ s.power.phase = .ready ∧ j ≠ k) ∧
  (let s : State := wTargets (target .waiting); let k : Nat := 3; let x := targetOf s k;
   k < 4 ∧ x.state ≠ .sending) := by
  refine ⟨?_, ?_, ?_, ?_, ?_, ?_, ?_, ?_, ?_, ?_, ?_, ?_, ?_, ?_⟩ <;> decide +kernel

theorem witness_PortCommandsConfigureRunAndStop :
  (let s : State := wSap [cSap 0x48] (unused (sap .stopped)); let p : Nat := 1; let x := sapOf s p; let seq := 4; let c := cSap 0x48;
   p < 2 ∧ Names c 10 ∧ cmdIdx c = p ∧ ZeroBytes c 8 31 ∧ s.modes.modeNow = 5 ∧ MayRun s seq 0x48 c ∧
   firstFail (configFields x.cfg (cfgCkDiv s p x.cfg)) = none ∧ firstFail (micFields s x.cfg) = none ∧ ratesAgree s p x.cfg = true ∧
   (p = 0 ∨ x.cfg.shareFs = false ∨ sharedAgree s x.cfg = true) ∧ sapRuns x = false) ∧
  (let s : State := { wShared [cSap0 0x48] (sap .stopped) (sap .stopped) with pdm := {} }; let p : Nat := 0; let x := sapOf s p; let seq := 4;
   let c := cSap0 0x48;
   p < 2 ∧ Names c 10 ∧ cmdIdx c = p ∧ ZeroBytes c 8 31 ∧ s.modes.modeNow = 5 ∧ MayRun s seq 0x48 c ∧
   firstFail (configFields x.cfg (cfgCkDiv s p x.cfg)) = none ∧ firstFail (micFields s x.cfg) = none ∧ ratesAgree s p x.cfg = true ∧
   (p = 0 ∨ x.cfg.shareFs = false ∨ sharedAgree s x.cfg = true) ∧ sapRuns x = false) ∧
  (let s : State := wSap [cSap 0x48] (sap .running); let p : Nat := 1; let x := sapOf s p; let seq := 4; let c := cSap 0x48;
   p < 2 ∧ Names c 10 ∧ cmdIdx c = p ∧ ZeroBytes c 8 31 ∧ s.modes.modeNow = 5 ∧ MayRun s seq 0x48 c ∧
   firstFail (configFields x.cfg (cfgCkDiv s p x.cfg)) = none ∧ firstFail (micFields s x.cfg) = none ∧ ratesAgree s p x.cfg = true ∧
   (p = 0 ∨ x.cfg.shareFs = false ∨ sharedAgree s x.cfg = true) ∧ sapRuns x = true ∧ withMaps x.used x.cfg = x.cfg) ∧
  (let s : State := wSap [cSap 0x49] (sap .stopped); let p : Nat := 1; let x := sapOf s p; let shared := (sapOf s 1).used.shareFs; let seq := 4;
   let edge := 1; let c := cSap 0x49; let joins := p = 1 ∧ shared = true;
   let stamp := if joins then ((frameClock s 0).edge (nextFrame s 0)).toNat / 3750 else max edge s.clocks.sc; let q := 0;
   p < 2 ∧ Names c 10 ∧ cmdIdx c = p ∧ ZeroBytes c 8 31 ∧ s.modes.modeNow = 5 ∧ MayRun s seq 0x49 c ∧ x.configOk = true ∧ sapRuns x = false ∧
   (p = 0 ∨ x.used.shareFs = false ∨ sapRuns (sapOf s 0) = true) ∧ playoutOk s x.used = true ∧ q ≠ p ∧ s.clocks.sc < stamp) ∧
  (let s : State := wSap [cSap 0x49] (sap .stopped); let p : Nat := 1; let x := sapOf s p; let shared := (sapOf s 1).used.shareFs; let seq := 4;
   let edge := 0; let c := cSap 0x49; let joins := p = 1 ∧ shared = true;
   let stamp := if joins then ((frameClock s 0).edge (nextFrame s 0)).toNat / 3750 else max edge s.clocks.sc; let q := 0;
   p < 2 ∧ Names c 10 ∧ cmdIdx c = p ∧ ZeroBytes c 8 31 ∧ s.modes.modeNow = 5 ∧ MayRun s seq 0x49 c ∧ x.configOk = true ∧ sapRuns x = false ∧
   (p = 0 ∨ x.used.shareFs = false ∨ sapRuns (sapOf s 0) = true) ∧ playoutOk s x.used = true ∧ q ≠ p ∧ stamp ≤ s.clocks.sc) ∧
  (let s : State := wShared [cSap 0x49] (sap .running) (sap .stopped); let p : Nat := 1; let x := sapOf s p; let shared := (sapOf s 1).used.shareFs;
   let seq := 4; let edge := 0; let c := cSap 0x49; let joins := p = 1 ∧ shared = true;
   let stamp := if joins then ((frameClock s 0).edge (nextFrame s 0)).toNat / 3750 else max edge s.clocks.sc; let q := 0;
   p < 2 ∧ Names c 10 ∧ cmdIdx c = p ∧ ZeroBytes c 8 31 ∧ s.modes.modeNow = 5 ∧ MayRun s seq 0x49 c ∧ x.configOk = true ∧ sapRuns x = false ∧
   (p = 0 ∨ x.used.shareFs = false ∨ sapRuns (sapOf s 0) = true) ∧ playoutOk s x.used = true ∧ q ≠ p ∧ s.clocks.sc < stamp) ∧
  (let s : State := wSap [cSap 0x4A] (sap .running); let p : Nat := 1; let x := sapOf s p; let shared := (sapOf s 1).used.shareFs; let seq := 4;
   let c := cSap 0x4A;
   p < 2 ∧ Names c 10 ∧ cmdIdx c = p ∧ ZeroBytes c 8 31 ∧ s.modes.modeNow = 5 ∧ MayRun s seq 0x4A c ∧ (x.state = .starting ∨ x.state = .running) ∧
   (p = 1 ∨ shared = false)) ∧
  (let s : State := wSap [cSap 0x4A] (sap .starting); let p : Nat := 1; let x := sapOf s p; let shared := (sapOf s 1).used.shareFs; let seq := 4;
   let c := cSap 0x4A;
   p < 2 ∧ Names c 10 ∧ cmdIdx c = p ∧ ZeroBytes c 8 31 ∧ s.modes.modeNow = 5 ∧ MayRun s seq 0x4A c ∧ (x.state = .starting ∨ x.state = .running) ∧
   (p = 1 ∨ shared = false)) ∧
  (let s : State := wShared [cSap0 0x4A] (sap .running) (sap .starting); let p : Nat := 0; let x := sapOf s p; let shared := (sapOf s 1).used.shareFs;
   let seq := 4; let c := cSap0 0x4A;
   p < 2 ∧ Names c 10 ∧ cmdIdx c = p ∧ ZeroBytes c 8 31 ∧ s.modes.modeNow = 5 ∧ MayRun s seq 0x4A c ∧ (x.state = .starting ∨ x.state = .running) ∧
   p = 0 ∧ shared = true ∧ ((sapOf s 1).state = .starting ∨ (sapOf s 1).state = .running)) ∧
  (let s : State := wSap [cSap 0x4A] (sap .stopping); let p : Nat := 1; let x := sapOf s p; let shared := (sapOf s 1).used.shareFs; let seq := 4;
   let c := cSap 0x4A;
   p < 2 ∧ Names c 10 ∧ cmdIdx c = p ∧ ZeroBytes c 8 31 ∧ s.modes.modeNow = 5 ∧ MayRun s seq 0x4A c ∧ x.state = .stopping ∧ (p = 1 ∨ shared = false)) ∧
  (let s : State := wSap [cSap 0x4A] (sap .stopped); let p : Nat := 1; let x := sapOf s p; let seq := 4; let c := cSap 0x4A;
   p < 2 ∧ Names c 10 ∧ cmdIdx c = p ∧ ZeroBytes c 8 31 ∧ s.modes.modeNow = 5 ∧ MayRun s seq 0x4A c ∧ sapRuns x = false) ∧
  (let s : State := wSap [] (sap .running); let p : Nat := 1;
   p < 2 ∧ lastFrame s p = none) ∧
  (let s : State := wSap [] fallSap; let p : Nat := 1; let f := 480;
   p < 2 ∧ lastFrame s p = some f ∧ (unitsNow s : Int) < (frameClock s p).edge (f + 1)) ∧
  (let s : State := scrubbed (later (wSap [running (cSap 0x4A)] fallSap)); let p : Nat := 1; let x := sapOf s p;
   let shared := (sapOf s 1).used.shareFs; let f := 480; let c := running (cSap 0x4A); let q := 0;
   p < 2 ∧ lastFrame s p = some f ∧ (frameClock s p).edge (f + 1) ≤ (unitsNow s : Int) ∧ (p = 1 ∨ shared = false) ∧
   runningOf s 0x4A (0xA000 + p) = some c ∧ q ≠ p ∧ x.frames = []) ∧
  (let s : State := scrubbed (later (wSap [running (cSap 0x4A)] (sentSap fallSap false))); let p : Nat := 1; let shared := (sapOf s 1).used.shareFs;
   let f := 480; let c := running (cSap 0x4A); let q := 0;
   p < 2 ∧ lastFrame s p = some f ∧ (frameClock s p).edge (f + 1) ≤ (unitsNow s : Int) ∧ (p = 1 ∨ shared = false) ∧
   runningOf s 0x4A (0xA000 + p) = some c ∧ q ≠ p) := by
  refine ⟨?_, ?_, ?_, ?_, ?_, ?_, ?_, ?_, ?_, ?_, ?_, ?_, ?_, ?_, ?_⟩ <;> decide +kernel

theorem witness_PortsCaptureAndCount :
  (let s : State := wSap [] (sap .stopped); let p : Nat := 1; let x := sapOf s p; let n := x.used.framesPerBlock;
   p < 2 ∧ (sapRuns x = false ∨ x.frames.length ≤ n)) ∧
  (let s : State := wSap [] (sap .running); let p : Nat := 1; let x := sapOf s p; let n := x.used.framesPerBlock;
   p < 2 ∧ (sapRuns x = false ∨ x.frames.length ≤ n)) ∧
  (let s : State := wSap [] (sentSap (sap .running) true); let p : Nat := 1; let x := sapOf s p; let n := x.used.framesPerBlock; let q := 0;
   p < 2 ∧ sapRuns x = true ∧ n < x.frames.length ∧ capQueued x < x.poolBlocks ∧ q ≠ p) ∧
  (let s : State := wSap [] (sentSap fullSap true); let p : Nat := 1; let x := sapOf s p; let n := x.used.framesPerBlock; let q := 0;
   p < 2 ∧ sapRuns x = true ∧ n < x.frames.length ∧ x.poolBlocks ≤ capQueued x ∧ s.power.phase = .ready ∧ q ≠ p) ∧
  (let s : State := wSap [] (sap .stopping); let p : Nat := 1; let x := sapOf s p;
   p < 2 ∧ x.sent = []) ∧
  (let s : State := wSap [] (sentSap (sap .running) true); let p : Nat := 1; let x := sapOf s p; let f := frameOf true; let fs := [frameOf false];
   p < 2 ∧ x.sent = f :: fs ∧ f.zero = true) ∧
  (let s : State := wSap [] (sentSap (sap .running) false); let p : Nat := 1; let x := sapOf s p; let f := frameOf false; let fs := [frameOf false];
   let g := frameOf false; let gs := List.replicate 16 (frameOf false); let q := 0;
   p < 2 ∧ x.sent = f :: fs ∧ f.zero = false ∧ x.frames = gs ++ [g] ∧ q ≠ p ∧ s.power.phase = .ready) ∧
  (let s : State := wSap [] micSap; let p : Nat := 1; let pin := 3; let k := 9; let clocked := if pin / 2 = 0 then s.pdm.clkA else s.pdm.clkB;
   p < 2 ∧ (4 ≤ pin ∨ k = 0 ∨ clocked = false ∨ planHolds s = true)) ∧
  (let s : State := wMics (noPlan (wSap [] micSap)); let p : Nat := 1; let pin := 4; let k := 9;
   let clocked := if pin / 2 = 0 then s.pdm.clkA else s.pdm.clkB;
   p < 2 ∧ (4 ≤ pin ∨ k = 0 ∨ clocked = false ∨ planHolds s = true)) ∧
  (let s : State := wMics (noPlan (wSap [] micSap)); let p : Nat := 1; let x := sapOf s p; let pin := 3; let k := 9;
   let clocked := if pin / 2 = 0 then s.pdm.clkA else s.pdm.clkB; let m := 7;
   p < 2 ∧ pin < 4 ∧ 0 < k ∧ clocked = true ∧ planHolds s = false ∧ m / 2 = pin ∧ sapRuns x = true ∧ takesSource x (512 + m) = true) ∧
  (let s : State := wMics (noPlan (wSap [] micSap)); let p : Nat := 1; let pin := 2; let k := 9;
   let clocked := if pin / 2 = 0 then s.pdm.clkA else s.pdm.clkB;
   p < 2 ∧ pin < 4 ∧ 0 < k ∧ clocked = true ∧ planHolds s = false) ∧
  (let s : State := wMics State.reset; let p : Nat := 1; let u := 0;
   p < 2 ∧ s.pdm.settlingA = some u ∧ u ≤ s.clocks.sc ∧ s.pdm.settlingB = some u) ∧
  (let s : State := State.reset; let p : Nat := 1;
   p < 2 ∧ s.pdm.settlingA = none ∧ s.pdm.settlingB = none) := by
  refine ⟨?_, ?_, ?_, ?_, ?_, ?_, ?_, ?_, ?_, ?_, ?_, ?_, ?_⟩ <;> decide +kernel

theorem witness_RecordCommandsReadAndWrite :
  (let s : State := wCellar [cPut 0x0FFF] [protect 1] []; let seq : Nat := 4; let c : Cmd := cPut 0x0FFF; let key := 0x0FFF; let len := parN c 10 2;
   let src := parN c 12 3;
   WritesClear s ∧ cmdObj c = 0xB000 ∧ parN c 8 2 = key ∧ keyClass key = .host ∧ MayRun s seq 0x50 c ∧ 1 ≤ len ∧ len ≤ 1024 ∧
   inScratch src len = true ∧ ZeroBytes c 15 31 ∧ key < protectedBelow false (fraction s.cellar 0)) ∧
  (let s : State := wCellar [cPut 0x1000] [protect 1] [password 0 1]; let seq : Nat := 4; let c : Cmd := cPut 0x1000; let key := 0x1000;
   let len := parN c 10 2; let src := parN c 12 3;
   WritesClear s ∧ cmdObj c = 0xB000 ∧ parN c 8 2 = key ∧ keyClass key = .host ∧ MayRun s seq 0x50 c ∧ 1 ≤ len ∧ len ≤ 1024 ∧
   inScratch src len = true ∧ ZeroBytes c 15 31 ∧ protectedBelow false (fraction s.cellar 0) ≤ key ∧ locked s.cellar 0 1 = true) ∧
  (let s : State := wFull; let seq : Nat := 4; let c : Cmd := cPut 0x3FFF; let key := 0x3FFF; let len := parN c 10 2; let src := parN c 12 3;
   WritesClear s ∧ cmdObj c = 0xB000 ∧ parN c 8 2 = key ∧ keyClass key = .host ∧ MayRun s seq 0x50 c ∧ 1 ≤ len ∧ len ≤ 1024 ∧
   inScratch src len = true ∧ ZeroBytes c 15 31 ∧ protectedBelow false (fraction s.cellar 0) ≤ key ∧ locked s.cellar 0 1 = false ∧
   s.cellar.reclaim = none ∧ cellarFull s.cellar false key len = true) ∧
  (let s : State := wCellar [cPut 0x3FFF] [] []; let seq : Nat := 4; let c : Cmd := cPut 0x3FFF; let key := 0x3FFF; let len := parN c 10 2;
   let src := parN c 12 3;
   WritesClear s ∧ cmdObj c = 0xB000 ∧ parN c 8 2 = key ∧ keyClass key = .host ∧ MayRun s seq 0x50 c ∧ 1 ≤ len ∧ len ≤ 1024 ∧
   inScratch src len = true ∧ ZeroBytes c 15 31 ∧ protectedBelow false (fraction s.cellar 0) ≤ key ∧ locked s.cellar 0 1 = false ∧
   RoomFor s.cellar key len) ∧
  (let s : State := wCellar [cGet 0x3FFF] [] [password 0 0]; let seq : Nat := 4; let c : Cmd := cGet 0x3FFF; let key := 0x3FFF;
   let len := parN c 10 2; let src := parN c 12 3;
   WritesClear s ∧ cmdObj c = 0xB000 ∧ parN c 8 2 = key ∧ keyClass key = .host ∧ MayRun s seq 0x51 c ∧ len ≤ 1024 ∧ inScratch src len = true ∧
   ZeroBytes c 15 31 ∧ locked s.cellar 0 0 = true) ∧
  (let s : State := wCellar [cGet 0x3FFF] [] []; let seq : Nat := 4; let c : Cmd := cGet 0x3FFF; let key := 0x3FFF; let len := parN c 10 2;
   let src := parN c 12 3;
   WritesClear s ∧ cmdObj c = 0xB000 ∧ parN c 8 2 = key ∧ keyClass key = .host ∧ MayRun s seq 0x51 c ∧ len ≤ 1024 ∧ inScratch src len = true ∧
   ZeroBytes c 15 31 ∧ locked s.cellar 0 0 = false ∧ keyContent s.cellar key = none) ∧
  (let s : State := scrubbed (wCellar [cGet 0x3FFF] [recOf 0x3FFF [1, 2, 3]] []); let seq : Nat := 4; let c : Cmd := cGet 0x3FFF; let key := 0x3FFF;
   let len := parN c 10 2; let src := parN c 12 3; let v := 4; let b : List Byte := [1, 2, 3];
   WritesClear s ∧ cmdObj c = 0xB000 ∧ parN c 8 2 = key ∧ keyClass key = .host ∧ MayRun s seq 0x51 c ∧ len ≤ 1024 ∧ inScratch src len = true ∧
   ZeroBytes c 15 31 ∧ locked s.cellar 0 0 = false ∧ keyContent s.cellar key = some (v, b)) ∧
  (let s : State := wCellar [cErase 0x0FFF] [protect 1] []; let seq : Nat := 4; let c : Cmd := cErase 0x0FFF; let key := 0x0FFF;
   WritesClear s ∧ cmdObj c = 0xB000 ∧ parN c 8 2 = key ∧ keyClass key = .host ∧ MayRun s seq 0x52 c ∧ ZeroBytes c 10 31 ∧
   key < protectedBelow false (fraction s.cellar 0)) ∧
  (let s : State := wCellar [cErase 0x3FFF] [] [password 0 1]; let seq : Nat := 4; let c : Cmd := cErase 0x3FFF; let key := 0x3FFF;
   WritesClear s ∧ cmdObj c = 0xB000 ∧ parN c 8 2 = key ∧ keyClass key = .host ∧ MayRun s seq 0x52 c ∧ ZeroBytes c 10 31 ∧
   protectedBelow false (fraction s.cellar 0) ≤ key ∧ locked s.cellar 0 1 = true) ∧
  (let s : State := wCellar [cErase 0x3FFF] [] []; let seq : Nat := 4; let c : Cmd := cErase 0x3FFF; let key := 0x3FFF;
   WritesClear s ∧ cmdObj c = 0xB000 ∧ parN c 8 2 = key ∧ keyClass key = .host ∧ MayRun s seq 0x52 c ∧ ZeroBytes c 10 31 ∧
   protectedBelow false (fraction s.cellar 0) ≤ key ∧ locked s.cellar 0 1 = false ∧ keyContent s.cellar key = none) ∧
  (let s : State := wCellar [cErase 0x3FFF] [recOf 0x3FFF [1, 2, 3]] []; let seq : Nat := 4; let c : Cmd := cErase 0x3FFF; let key := 0x3FFF;
   WritesClear s ∧ cmdObj c = 0xB000 ∧ parN c 8 2 = key ∧ keyClass key = .host ∧ MayRun s seq 0x52 c ∧ ZeroBytes c 10 31 ∧
   protectedBelow false (fraction s.cellar 0) ≤ key ∧ locked s.cellar 0 1 = false ∧ keyContent s.cellar key ≠ none ∧ RoomFor s.cellar key 0) := by
  refine ⟨?_, ?_, ?_, ?_, ?_, ?_, ?_, ?_, ?_, ?_, ?_⟩ <;> decide +kernel

theorem witness_ShadowCommandsReadAndWrite :
  (let s : State := wShadow [cShadow 0x53 0x13FE 64 0]; let seq : Nat := 4; let c : Cmd := cShadow 0x53 0x13FE 64 0; let addr := parN c 8 2;
   let len := parN c 10 2; let ptr := parN c 12 3; let spot (i : Nat) : Nat := if par c 15 = 1 then addr + i else addr / 64 * 64 + (addr + i) % 64;
   let i := 0; let a := 0x1400;
   WritesClear s ∧ cmdObj c = 0xB001 ∧ par c 15 < 2 ∧ ZeroBytes c 16 31 ∧ inScratch ptr len = true ∧ 1 ≤ len ∧ (par c 15 = 0 → len ≤ 64) ∧
   MayRun s seq 0x53 c ∧ addr < 0x1400 ∧ len ≤ 5120 ∧ (par c 15 = 1 → addr + len ≤ 0x1400) ∧
   (∀ i, i < len → protectedBelow true (fraction s.cellar 1) ≤ spot i) ∧ locked s.cellar 1 1 = false ∧ Memory.wf s.cellar.shadow = true ∧ i < len ∧
   (∀ i, i < len → a ≠ spot i)) ∧
  (let s : State := wShadow [cShadow 0x53 0 64 1]; let seq : Nat := 4; let c : Cmd := cShadow 0x53 0 64 1; let addr := parN c 8 2;
   let len := parN c 10 2; let ptr := parN c 12 3; let spot (i : Nat) : Nat := if par c 15 = 1 then addr + i else addr / 64 * 64 + (addr + i) % 64;
   let i := 0; let a := 0x1400;
   WritesClear s ∧ cmdObj c = 0xB001 ∧ par c 15 < 2 ∧ ZeroBytes c 16 31 ∧ inScratch ptr len = true ∧ 1 ≤ len ∧ (par c 15 = 0 → len ≤ 64) ∧
   MayRun s seq 0x53 c ∧ addr < 0x1400 ∧ len ≤ 5120 ∧ (par c 15 = 1 → addr + len ≤ 0x1400) ∧
   (∀ i, i < len → protectedBelow true (fraction s.cellar 1) ≤ spot i) ∧ locked s.cellar 1 1 = false ∧ Memory.wf s.cellar.shadow = true ∧ i < len ∧
   (∀ i, i < len → a ≠ spot i)) ∧
  (let s : State := wShadow [cShadow 0x53 0x13FE 2 1]; let seq : Nat := 4; let c : Cmd := cShadow 0x53 0x13FE 2 1; let addr := parN c 8 2;
   let len := parN c 10 2; let ptr := parN c 12 3; let spot (i : Nat) : Nat := if par c 15 = 1 then addr + i else addr / 64 * 64 + (addr + i) % 64;
   let i := 1; let a := 0x1400;
   WritesClear s ∧ cmdObj c = 0xB001 ∧ par c 15 < 2 ∧ ZeroBytes c 16 31 ∧ inScratch ptr len = true ∧ 1 ≤ len ∧ (par c 15 = 0 → len ≤ 64) ∧
   MayRun s seq 0x53 c ∧ addr < 0x1400 ∧ len ≤ 5120 ∧ (par c 15 = 1 → addr + len ≤ 0x1400) ∧
   (∀ i, i < len → protectedBelow true (fraction s.cellar 1) ≤ spot i) ∧ locked s.cellar 1 1 = false ∧ Memory.wf s.cellar.shadow = true ∧ i < len ∧
   (∀ i, i < len → a ≠ spot i)) ∧
  (let s : State := scrubbed (wShadow [cShadow 0x54 0x1FFF 64 0]); let seq : Nat := 4; let c : Cmd := cShadow 0x54 0x1FFF 64 0;
   let addr := parN c 8 2; let len := parN c 10 2; let ptr := parN c 12 3;
   WritesClear s ∧ cmdObj c = 0xB001 ∧ par c 15 < 2 ∧ ZeroBytes c 16 31 ∧ inScratch ptr len = true ∧ 1 ≤ len ∧ (par c 15 = 0 → len ≤ 64) ∧
   MayRun s seq 0x54 c ∧ addr < 0x2000 ∧ len ≤ 8192 ∧ (par c 15 = 1 → addr + len ≤ 0x2000) ∧ locked s.cellar 1 0 = false ∧ s.cellar.written = 0) ∧
  (let s : State := scrubbed (wWritten (1#128 <<< 79) false [cShadow 0x54 0x13FE 3074 1]); let seq : Nat := 4;
   let c : Cmd := cShadow 0x54 0x13FE 3074 1; let addr := parN c 8 2; let len := parN c 10 2; let ptr := parN c 12 3;
   WritesClear s ∧ cmdObj c = 0xB001 ∧ par c 15 < 2 ∧ ZeroBytes c 16 31 ∧ inScratch ptr len = true ∧ 1 ≤ len ∧ (par c 15 = 0 → len ≤ 64) ∧
   MayRun s seq 0x54 c ∧ addr < 0x2000 ∧ len ≤ 8192 ∧ (par c 15 = 1 → addr + len ≤ 0x2000) ∧ locked s.cellar 1 0 = false ∧
   s.cellar.written.getLsbD (addr / 64) = true) ∧
  (let s : State := wWritten 0 false [cStore]; let seq : Nat := 4; let c : Cmd := cStore;
   WritesClear s ∧ cmdObj c = 0xB001 ∧ MayRun s seq 0x55 c ∧ ZeroBytes c 8 31 ∧ s.cellar.dirty = false) ∧
  (let s : State := wWritten 0 true [cStore]; let seq : Nat := 4; let c : Cmd := cStore;
   WritesClear s ∧ cmdObj c = 0xB001 ∧ MayRun s seq 0x55 c ∧ ZeroBytes c 8 31 ∧ s.cellar.dirty = true) := by
  refine ⟨?_, ?_, ?_, ?_, ?_, ?_, ?_⟩ <;> decide +kernel

theorem witness_ProtectionCommandsLockAndUnlock :
  (let s : State := wCellar [cProtect 2 3] [] [password 2 1]; let seq : Nat := 4; let c : Cmd := cProtect 2 3; let r := cmdIdx c;
   WritesClear s ∧ Names c 11 ∧ MayRun s seq 0x56 c ∧ par c 8 < 4 ∧ (r = 2 → par c 8 = 0 ∨ par c 8 = 3) ∧ par c 9 < 2 ∧ ZeroBytes c 10 31 ∧
   locked s.cellar r 1 = true) ∧
  (let s : State := wCellar [cProtect 1 2] [protect 0x31] []; let seq : Nat := 4; let c : Cmd := cProtect 1 2; let r := cmdIdx c;
   WritesClear s ∧ Names c 11 ∧ MayRun s seq 0x56 c ∧ par c 8 < 4 ∧ (r = 2 → par c 8 = 0 ∨ par c 8 = 3) ∧ par c 9 < 2 ∧ ZeroBytes c 10 31 ∧
   locked s.cellar r 1 = false ∧ RoomFor s.cellar 0x4001 1) ∧
  (let s : State := wCellar [cUnlock 0 1 []] [] []; let seq : Nat := 4; let c : Cmd := cUnlock 0 1 []; let r := cmdIdx c;
   WritesClear s ∧ Names c 11 ∧ MayRun s seq 0x57 c ∧ par c 8 < 2 ∧ ZeroBytes c 17 31 ∧ keyContent s.cellar (0x8200 + 2 * r + par c 8) = none) ∧
  (let s : State := wCellar [cUnlock 2 1 [1, 2, 3, 4, 5, 6, 7, 8]] [] [password 2 1]; let seq : Nat := 4;
   let c : Cmd := cUnlock 2 1 [1, 2, 3, 4, 5, 6, 7, 8]; let r := cmdIdx c; let v := 1; let pw : List Byte := [1, 2, 3, 4, 5, 6, 7, 8];
   WritesClear s ∧ Names c 11 ∧ MayRun s seq 0x57 c ∧ par c 8 < 2 ∧ ZeroBytes c 17 31 ∧
   keyContent s.cellar (0x8200 + 2 * r + par c 8) = some (v, pw) ∧ (c.desc.drop 9).take 8 = pw) ∧
  (let s : State := wCellar [cUnlock 2 1 [1, 2, 3, 4, 5, 6, 7, 9]] [] [password 2 1]; let seq : Nat := 4;
   let c : Cmd := cUnlock 2 1 [1, 2, 3, 4, 5, 6, 7, 9]; let r := cmdIdx c; let v := 1; let pw : List Byte := [1, 2, 3, 4, 5, 6, 7, 8];
   WritesClear s ∧ Names c 11 ∧ MayRun s seq 0x57 c ∧ par c 8 < 2 ∧ ZeroBytes c 17 31 ∧
   keyContent s.cellar (0x8200 + 2 * r + par c 8) = some (v, pw) ∧ (c.desc.drop 9).take 8 ≠ pw ∧ Memory.wf s.cellar.shadow = true) := by
  refine ⟨?_, ?_, ?_, ?_, ?_⟩ <;> decide +kernel

theorem witness_FlashOperationsFinishTheirWork :
  (let s : State := State.reset;
   NoneDue s ∧ s.cellar.write = none ∧ s.cellar.reclaim = none ∧ s.cellar.store = none) ∧
  (let s : State := wWriting (cPut 0x100) (writeOf 0x100 .torn 1 false); let w := writeOf 0x100 .torn 1 false;
   NoneDue s ∧ s.cellar.write = some w ∧ w.keyArea = decide (0x8000 ≤ w.rec_.key) ∧ w.rec_.stage = .torn ∧ 0 < w.opsLeft) ∧
  (let s : State := wWriting (cPut 0x100) (writeOf 0x100 .torn 0 false); let w := writeOf 0x100 .torn 0 false;
   NoneDue s ∧ s.cellar.write = some w ∧ w.keyArea = decide (0x8000 ≤ w.rec_.key) ∧ w.rec_.stage = .torn ∧ w.opsLeft = 0) ∧
  (let s : State := wWriting (cPut 0x100) (writeOf 0x100 .opened 2 false); let w := writeOf 0x100 .opened 2 false;
   NoneDue s ∧ s.cellar.write = some w ∧ w.keyArea = decide (0x8000 ≤ w.rec_.key) ∧ w.rec_.stage = .opened ∧ 1 < w.opsLeft) ∧
  (let s : State := wWriting (cPut 0x100) (writeOf 0x100 .opened 1 false); let w := writeOf 0x100 .opened 1 false;
   NoneDue s ∧ s.cellar.write = some w ∧ w.keyArea = decide (0x8000 ≤ w.rec_.key) ∧ w.rec_.stage = .opened ∧ w.opsLeft ≤ 1) ∧
  (let s : State := wWriting (cPut 0x100) (writeOf 0x100 .payload 2 false); let w := writeOf 0x100 .payload 2 false;
   NoneDue s ∧ s.cellar.write = some w ∧ w.keyArea = decide (0x8000 ≤ w.rec_.key) ∧ w.rec_.stage = .payload ∧ 1 < w.opsLeft) ∧
  (let s : State := wWriting (cPut 0x100) (writeOf 0x100 .payload 1 false); let w := writeOf 0x100 .payload 1 false;
   NoneDue s ∧ s.cellar.write = some w ∧ w.keyArea = decide (0x8000 ≤ w.rec_.key) ∧ w.rec_.stage = .payload ∧ w.opsLeft ≤ 1) ∧
  (let s : State := wWriting (cPut 0x100) (writeOf 0x100 .crc 0 false); let w := writeOf 0x100 .crc 0 false;
   let live := liveRec (logOf s.cellar w.keyArea) w.rec_.key;
   NoneDue s ∧ s.cellar.write = some w ∧ w.keyArea = decide (0x8000 ≤ w.rec_.key) ∧ w.rec_.stage = .crc ∧ live ≠ none) ∧
  (let s : State := wWriting (cPut 0x100) (writeOf 0x100 .committed 0 false); let w := writeOf 0x100 .committed 0 false;
   let live := liveRec (logOf s.cellar w.keyArea) w.rec_.key; let c := running (cPut 0x100); let q := 4; let k := 0x200;
   NoneDue s ∧ s.cellar.write = some w ∧ w.keyArea = decide (0x8000 ≤ w.rec_.key) ∧
   (w.rec_.stage = .committed ∨ (w.rec_.stage = .crc ∧ live = none)) ∧ w.rec_.superseded = false ∧ w.rec_.key < 0xF000 ∧ w.seq = some q ∧
   findCmd s q = some c ∧ cmdOp c = 0x50 ∧ k ≠ w.rec_.key) ∧
  (let s : State := wWriting (cPut 0x300) (writeOf 0x300 .crc 0 false); let w := writeOf 0x300 .crc 0 false;
   let live := liveRec (logOf s.cellar w.keyArea) w.rec_.key; let c := running (cPut 0x300); let q := 4; let k := 0x200;
   NoneDue s ∧ s.cellar.write = some w ∧ w.keyArea = decide (0x8000 ≤ w.rec_.key) ∧
   (w.rec_.stage = .committed ∨ (w.rec_.stage = .crc ∧ live = none)) ∧ w.rec_.superseded = false ∧ w.rec_.key < 0xF000 ∧ w.seq = some q ∧
   findCmd s q = some c ∧ cmdOp c = 0x50 ∧ k ≠ w.rec_.key) ∧
  (let s : State := wWriting (cErase 0x100) (writeOf 0x8101 .committed 0 false); let w := writeOf 0x8101 .committed 0 false;
   let live := liveRec (logOf s.cellar w.keyArea) w.rec_.key; let c := running (cErase 0x100); let q := 4; let k := 0x200;
   NoneDue s ∧ s.cellar.write = some w ∧ w.keyArea = decide (0x8000 ≤ w.rec_.key) ∧
   (w.rec_.stage = .committed ∨ (w.rec_.stage = .crc ∧ live = none)) ∧ w.rec_.superseded = false ∧ w.rec_.key < 0xF000 ∧ w.seq = some q ∧
   findCmd s q = some c ∧ cmdOp c = 0x52 ∧ k ≠ w.rec_.key) ∧
  (let s : State := wWriting (cPut 0x100) (writeOf 0x100 .crc 0 true); let w := writeOf 0x100 .crc 0 true; let q := 4;
   NoneDue s ∧ s.cellar.write = some w ∧ w.keyArea = decide (0x8000 ≤ w.rec_.key) ∧ w.retried = true ∧ w.seq = some q) ∧
  (let s : State := wStoring 2; let k := storeOf 2; let q := 4;
   NoneDue s ∧ s.cellar.write = none ∧ s.cellar.reclaim = none ∧ s.cellar.store = some k ∧ k.seq = some q ∧ s.power.phase = .ready ∧ 1 < k.opsLeft) ∧
  (let s : State := wStoring 1; let k := storeOf 1; let q := 4;
   NoneDue s ∧ s.cellar.write = none ∧ s.cellar.reclaim = none ∧ s.cellar.store = some k ∧ k.seq = some q ∧ s.power.phase = .ready ∧ k.opsLeft ≤ 1) ∧
  (let s : State := wReclaim 11; let keyArea : Bool := true; let l := logOf s.cellar keyArea;
   NoneDue s ∧ (4 < freeSectors keyArea l ∨ l.ring.length < 2 ∨ s.cellar.write ≠ none ∨ s.cellar.reclaim ≠ none ∨ s.power.phase ≠ .ready)) ∧
  (let s : State := wReclaim 12; let keyArea : Bool := true; let l := logOf s.cellar keyArea; let o := 16; let h := 17;
   let rest := (List.range 10).map (· + 18);
   NoneDue s ∧ s.power.phase = .ready ∧ s.cellar.write = none ∧ s.cellar.reclaim = none ∧ freeSectors keyArea l ≤ 4 ∧ l.ring = o :: h :: rest ∧
   (∀ r ∈ l.recs, recLive r = true → r.sector ≠ o)) ∧
  (let s : State := wErasing; let keyArea : Bool := true; let l := logOf s.cellar keyArea; let o := 16; let rest := (List.range 11).map (· + 17);
   let r := { keyArea := true, sector := 16, erasing := true, forWrite := false };
   NoneDue s ∧ s.cellar.write = none ∧ s.cellar.reclaim = some r ∧ r.keyArea = keyArea ∧ r.erasing = true ∧ l.ring = o :: rest ∧
   (∀ x ∈ l.recs, recLive x = true → x.sector ≠ o)) := by
  refine ⟨?_, ?_, ?_, ?_, ?_, ?_, ?_, ?_, ?_, ?_, ?_, ?_, ?_, ?_, ?_, ?_, ?_⟩ <;> decide +kernel

theorem witness_BarriersAndAbortsComplete :
  (let s : State := wOne (cBarrierAt 4); let c : Cmd := cBarrierAt 4;
   Names c 0 ∧ MayRun s c.seq 0x01 c ∧ par c 8 < 2 ∧ ZeroBytes c 9 31 ∧ earlier s.rings.inflight c.seq = []) ∧
  (let s : State := flying State.reset [running (cmdOf 3 0x38 0x7000 []), cBarrierAt 4]; let c : Cmd := cBarrierAt 4;
   Names c 0 ∧ MayRun s c.seq 0x01 c ∧ par c 8 < 2 ∧ ZeroBytes c 9 31 ∧ earlier s.rings.inflight c.seq ≠ []) ∧
  (let s : State := flying State.reset [cmdOf 3 0x38 0x7000 [], cAbort]; let c : Cmd := cAbort; let b := cmdOf 3 0x38 0x7000 [];
   Names c 0 ∧ MayRun s c.seq 0x02 c ∧ par c 8 < 4 ∧ par c 9 = 0 ∧ ZeroBytes c 12 31 ∧ LinkQuiet s ∧ s.clocks.stage = .idle ∧
   s.rings.inflight = [b, c] ∧ b.seq ≠ c.seq ∧ b.phase = .waiting ∧ cmdOp b ≠ 0x02 ∧ selects c b = true) ∧
  (let s : State := wOne cAbort; let c : Cmd := cAbort;
   Names c 0 ∧ MayRun s c.seq 0x02 c ∧ par c 8 < 4 ∧ par c 9 = 0 ∧ ZeroBytes c 12 31 ∧ LinkQuiet s ∧ s.clocks.stage = .idle ∧ s.rings.inflight = [c]) := by
  refine ⟨?_, ?_, ?_, ?_⟩ <;> decide +kernel

theorem witness_StepsKeepTheBooks :
  (let s : State := wRings; let t : State := (match step wRings with | .next u => u | _ => wRings);
   BooksBalance s ∧ IssueOrder s.rings ∧ MemoryOk s ∧ step s = .next t) := by
  refine ⟨by decide +kernel, by decide +kernel, by decide +kernel, ?_⟩
  have h : (match step wRings with | .next _ => true | _ => false) = true := by decide +kernel
  show step wRings = .next (match step wRings with | .next u => u | _ => wRings)
  revert h
  cases step wRings <;> simp

end Sys2Proof.Tests
end

/-!
PROOFS. The bits of the port's status registers: a byte written as a weighted sum of flags shows its flags as its bits, so HP_STATUS [6]
(Table 20-4) and WIN_STATUS [4:0] (Table 20-5) can be read off and compared (R76).
-/
namespace Sys2Proof.Machine

theorem flagNat_eq_toNat (b : Bool) : flagNat b = b.toNat := by
  cases b <;> rfl

/-- Eight flags weighted by the powers of two are the byte with those bits. -/
theorem lowByte_flags (b0 b1 b2 b3 b4 b5 b6 b7 : Bool) :
    lowByte (flagNat b0 + 2 * flagNat b1 + 4 * flagNat b2 + 8 * flagNat b3 + 16 * flagNat b4 + 32 * flagNat b5 + 64 * flagNat b6
      + 128 * flagNat b7) = BitVec.ofBoolListLE [b0, b1, b2, b3, b4, b5, b6, b7] := by
  apply BitVec.eq_of_toNat_eq
  have := b0.toNat_lt; have := b1.toNat_lt; have := b2.toNat_lt; have := b3.toNat_lt
  have := b4.toNat_lt; have := b5.toNat_lt; have := b6.toNat_lt; have := b7.toNat_lt
  simp only [flagNat_eq_toNat, lowByte, BitVec.toNat_ofNat, BitVec.ofBoolListLE, BitVec.toNat_concat, List.length_nil,
    Nat.zero_mod]
  omega

theorem hpStatus_eq_flags (s : State) :
    hpStatus s = BitVec.ofBoolListLE [ready s, s.scrub.next < 8064, s.port.cellarRecovered, s.power.holdLow, s.power.pfPending,
      s.power.phase == .decanting, winError s.port, s.modes.target.isSome] :=
  lowByte_flags ..

theorem winStatus_eq_flags (s : State) :
    winStatus s = BitVec.ofBoolListLE [s.port.wsPrivate, s.port.wsUnmapped, s.port.wsCrossed, s.port.wsHalted, s.port.wsRoWrite,
      scrubWait s, false, false] :=
  lowByte_flags _ _ _ _ _ _ false false

/-- HP_STATUS [6] is WIN_ERROR (Table 20-4). -/
theorem regValue_hpStatus_winError (s : State) : (regValue s 0x03).getLsbD 6 = winError s.port := by
  rw [show regValue s 0x03 = hpStatus s from rfl, hpStatus_eq_flags, BitVec.getLsbD_ofBoolListLE]
  rfl

/-- WIN_STATUS [4:0] are the five kinds of error of the window (Table 20-5). -/
theorem regValue_winStatus_errors (s : State) (k : Nat) (hk : k ≤ 4) :
    (regValue s 0x0D).getLsbD k =
      [s.port.wsPrivate, s.port.wsUnmapped, s.port.wsCrossed, s.port.wsHalted, s.port.wsRoWrite].getD k false := by
  rw [show regValue s 0x0D = winStatus s from rfl, winStatus_eq_flags, BitVec.getLsbD_ofBoolListLE]
  match k, hk with
  | 0, _ | 1, _ | 2, _ | 3, _ | 4, _ => rfl

/-- Some one of five flags is 1 exactly when their disjunction is. -/
theorem exists_le_four_getD_iff (b0 b1 b2 b3 b4 : Bool) :
    (∃ k, k ≤ 4 ∧ [b0, b1, b2, b3, b4].getD k false = true) ↔ (b0 || b1 || b2 || b3 || b4) = true := by
  simp only [← Nat.lt_succ_iff, Nat.exists_lt_succ_left, List.getD_cons_zero, List.getD_cons_succ, Nat.not_lt_zero, false_and,
    exists_false, or_false, Bool.or_eq_true, or_assoc]

/-- Settles O3: WIN_ERROR is the disjunction of the five flags that WIN_STATUS [4:0] shows. -/
theorem winErrorSummarisesWinStatus : Obligations.WinErrorSummarisesWinStatus := by
  intro s
  have hbits : (∃ k, k ≤ 4 ∧ (regValue s 0x0D).getLsbD k = true) ↔ winError s.port = true := by
    rw [winError, ← exists_le_four_getD_iff]
    exact exists_congr fun k => and_congr_right fun hk => by rw [regValue_winStatus_errors s k hk]
  rw [regValue_hpStatus_winError, hbits]

end Sys2Proof.Machine

/-!
PROOFS. The books at the port: a write of a live port is applied and acknowledged, and so CC_CONS_L, CC_CONS_H and BOOKS_SNAP are (R90, R93).
-/
namespace Sys2Proof.Machine

/-- A live port applies a write and acknowledges it (Table 3-6). -/
theorem writeCycle_live {s : State} (h : PortLive s) (off : Nat) (v : Byte) : writeCycle off v s = acked true (writeReg off v s) := by
  obtain ⟨hvio, hphase⟩ := h
  simp only [writeCycle, answer, hvio, hphase, Bool.not_true, Bool.false_eq_true, if_false]

theorem raise_ringFault_ready {s : State} (h : s.power.phase = .ready) :
    raise .ringFault s = { s with port := { s.port with irqStat0 := s.port.irqStat0 ||| 0x02 } } := by
  simp only [raise, ready, h]
  rfl

/-- A write of CC_CONS_H, in terms of the index it names and the number of completions up to it (R90). -/
theorem freeWrite_eq (s : State) (v : Byte) {idx m : Nat} (hidx : v.toNat % 2 * 256 + s.port.stagedCcConsL.toNat = idx)
    (hm : (idx + 512 - s.rings.ccCons) % 512 = m) :
    freeWrite s v = if m ≤ s.rings.unread then
      { s with rings := { s.rings with ccCons := idx, credits := s.rings.credits + m, unread := s.rings.unread - m } }
    else raise .ringFault s := by
  subst hidx hm
  rfl

/-- Settles O12: the port is live, so each of the three writes is applied and acknowledged, and what it applies is `freeWrite`'s and
`snapBooks`' one step. -/
theorem freedCompletionsBecomeCredits : Obligations.FreedCompletionsBecomeCredits := by
  refine ⟨fun s v hs => ⟨?_, ?_⟩, fun s v hs => ⟨_, rfl, writeCycle_live hs 0x16 v, fun hbooks => ?_⟩⟩
  · exact congrArg _ (writeCycle_live hs 0x14 v)
  · have hwrite : exec (.ccConsHWrite v) s = .next (acked true (freeWrite s v)) := congrArg _ (writeCycle_live hs 0x15 v)
    rw [hwrite, freeWrite_eq s v rfl rfl]
    refine ⟨fun hm => ?_, fun hm => ?_⟩
    · rw [if_pos hm]
      rfl
    · rw [if_neg (Nat.not_le.mpr hm), raise_ringFault_ready hs.2]
      rfl
  · rw [writeCycle_live hs]
    exact hbooks

end Sys2Proof.Machine

/-!
PROOFS. What every command of the table keeps (R92): the ring books, the commands in the order of their issue (R79) and the canonical form of the
memory, row by row from the operations that a row is made of; then the step keeps them (O60).
-/
namespace Sys2Proof.Machine

/-- Where an outcome goes on, it goes on to a state whose books and memory are sound. -/
def KeepsBooks (o : Host.Outcome State Fault Refusal) : Prop := ∀ t, o = .next t → Kept t

theorem KeepsBooks.next {t : State} (h : Kept t) : KeepsBooks (.next t) := by
  rintro _ ⟨⟩
  exact h

theorem KeepsBooks.ite {c : Prop} [Decidable c] {a b : Host.Outcome State Fault Refusal} (ha : KeepsBooks a) (hb : KeepsBooks b) :
    KeepsBooks (if c then a else b) := by
  split
  · exact ha
  · exact hb

section
variable {s : State} (h : Kept s)
include h

/-! The ring's own commands and the paths -/

theorem execBarrier_keepsBooks (seq : Nat) : KeepsBooks (execBarrier seq s) := by
  unfold execBarrier
  split
  · exact .next h
  · split
    · exact .next (complete_kept _ _ _ _ h)
    · exact .next (ite_kept _ _ (complete_kept _ _ _ _ h) h)

theorem execTune_keepsBooks (seq : Nat) : KeepsBooks (execTune seq s) := by
  unfold execTune
  split
  · exact .next (ite_kept _ _ h (startCmd_kept _ _ _ _ _ runTune_kept h))
  · exact .next h

theorem execLockWindow_keepsBooks (path count : Nat) : KeepsBooks (execLockWindow path count s) := by
  have hy (f : Synth → Synth) : Kept (modSynth s path f) := modSynth_kept _ _ _ h
  unfold execLockWindow
  refine .ite (.ite (.next h) ?_) (.ite ?_ (.next h))
  · split
    · exact .next (hy _)
    · exact .next (afterPath_kept _ _ (lockDone_kept _ _ (hy _)))
    · exact .next (afterPath_kept _ _ (lockFailed_kept _ _ (hy _)))
  · dsimp only
    split
    · exact .next (afterPath_kept _ _ (checkWindow_kept _ _ _ (ite_kept _ _ h (hy _))))
    · exact .next (ite_kept _ _ h (hy _))

theorem execLockLost_keepsBooks (path : Nat) : KeepsBooks (execLockLost path s) := by
  have hr (f : Synth → Synth) : Kept (raise .clockEvent (modSynth s path f)) := raise_kept _ _ (modSynth_kept _ _ _ h)
  exact .ite (.ite (.next (modSynth_kept _ _ _ (hr _)))
    (.next (afterPath_kept _ _ (relockNow_kept _ _ (ite_kept _ _ (cutTransmission_kept _ (hr _)) (hr _)))))) (.next h)

theorem execOffsetAcquire_keepsBooks (path count : Nat) : KeepsBooks (execOffsetAcquire path count s) := by
  have hf (f : FrontEnd → FrontEnd) : Kept (modFe s path f) := modFe_kept _ _ _ h
  unfold execOffsetAcquire
  refine .ite (.next h) ?_
  split
  · exact .next (ite_kept _ _ (afterPath_kept _ _ (enterRun_kept _ _ (hf _))) (hf _))
  · exact .next (afterPath_kept _ _ (enterRun_kept _ _ h))
  · exact .next (afterPath_kept _ _ (settled_kept _ _ (hf _)))
  · exact .next (afterPath_kept _ _ (settled_kept _ _ (hf _)))
  · exact .next h

theorem execAgcPeriod_keepsBooks (path : Nat) (samples : List (Int × Int)) : KeepsBooks (execAgcPeriod path samples s) := by
  unfold execAgcPeriod
  refine .ite (.next (afterPath_kept _ _ (agcApply_kept _ _ _ _ (modFe_kept _ _ _ ?_)))) (.next h)
  exact dbLevel_kept _ _ _ _ (runLoop_kept _ _ _ h)

theorem execSynRecal_keepsBooks (path : Nat) (band : Option Nat) : KeepsBooks (execSynRecal path band s) := by
  unfold execSynRecal
  refine .ite ?_ (.next h)
  have hc (f : CalPart → CalPart) (g : Synth → Synth) :
      Kept (modCal (modSynth (touchLanes path 1 (modSynth s path takeTable)) path g) path f) :=
    modCal_kept _ _ _ (modSynth_kept _ _ _ (touchLanes_kept _ _ _ (modSynth_kept _ _ _ h)))
  dsimp only
  split
  · exact .next (modSynth_kept _ _ _ (hc _ _))
  · exact .next (raise_kept _ _ (modCal_kept _ _ _ (draw_kept _ _ (hc _ _))))

/-! The home link and the sessions -/

theorem execLinkRxEnd_keepsBooks : KeepsBooks (execLinkRxEnd s) := by
  unfold execLinkRxEnd
  split
  · exact .next (ite_kept _ _ (endRx_kept _ _ h) h)
  · exact .next h

theorem execLbtListenEnd_keepsBooks (rssi : Int) : KeepsBooks (execLbtListenEnd rssi s) := by
  have ha (f : TxJob → TxJob) : Kept (setActive f s) := setActive_kept _ _ h
  unfold execLbtListenEnd
  split
  · refine .ite (.next h) (.ite (.next (serve_kept _ (readyToSend_kept _ (ha _)))) ?_)
    split
    · exact .next (serve_kept _ (stopTx_kept _ _ _ (removeActive_kept _ (ha _))))
    · exact .ite (.next (serve_kept _ (endActive_kept _ _ _ (ha _)))) (.next (serve_kept _ (startBackoff_kept _ (ha _))))
  · exact .next h

theorem execLbtBackoff_keepsBooks : KeepsBooks (execLbtBackoff s) := by
  unfold execLbtBackoff
  split
  · exact .next (ite_kept _ _ (startListen_kept _ h) h)
  · exact .next h

theorem execAtStart_keepsBooks : KeepsBooks (execAtStart s) := by
  unfold execAtStart
  split
  · exact .ite (.next (ite_kept _ _ (goOnAir_kept _ _ h) h)) (.next (tooLate_kept _ _ h))
  · exact .next h

theorem execRxAfter_keepsBooks : KeepsBooks (execRxAfter s) := by
  unfold execRxAfter
  split
  · exact .next (ite_kept _ _ (endAfter_kept _ _ h) h)
  · exact .next h

theorem execPacket_keepsBooks (pkt : Option RxPacket) : KeepsBooks (execPacket pkt s) := by
  unfold execPacket
  split
  · exact .next (ite_kept _ _ (setFe_kept _ _ _ h) h)
  · exact .ite (.next (packetOver_kept _ _ (takePacket_kept _ _ (setFe_kept _ _ _ h)))) (.next h)

theorem execResponseTimeout_keepsBooks : KeepsBooks (execResponseTimeout s) := by
  unfold execResponseTimeout
  split
  · exact .next (ite_kept _ _ (serve_kept _ (windowEnds_kept _ h)) h)
  · exact .next h

theorem execReleaseSkip_keepsBooks (target : Nat) : KeepsBooks (execReleaseSkip target s) := by
  unfold execReleaseSkip
  refine .ite (.next (serve_kept _ (raise_kept _ _ (nextDueTime_kept _ _ (fields_kept ?_))))) (.next h)
  exact modTarget_kept _ _ _ (dropTx_kept _ _ h)

/-! The engines and the lanes -/

theorem execRdsGroup_keepsBooks (lane : Nat) (group : RdsGroup) : KeepsBooks (execRdsGroup lane group s) := by
  have ht (f : Analogue → Analogue) (g : Group) :
      Kept (takeGroup lane (laneOf s lane).cur.engIndex g (modAnalogue s (laneOf s lane).cur.engIndex f)) :=
    takeGroup_kept _ _ _ _ (modAnalogue_kept _ _ _ h)
  exact .ite (.ite (.next (ite_kept _ _ (ht _ _) (modAnalogue_kept _ _ _ (ht _ _)))) (.next (modAnalogue_kept _ _ _ h))) (.next h)

theorem execLfSecond_keepsBooks (lane : Nat) (meas : LfMeas) : KeepsBooks (execLfSecond lane meas s) := by
  unfold execLfSecond
  refine .ite ?_ (.next h)
  dsimp only
  split
  · exact .next h
  · exact .next (lfReport_kept _ _ (modLf_kept _ _ _ h))
  · exact .next (lfReport_kept _ _ (modLf_kept _ _ _ h))
  · exact .next (lfReport_kept _ _ (lfCollect_kept _ _ _ _ (modLf_kept _ _ _ h)))

theorem execDrmFrame_keepsBooks (lane : Nat) (frame : DrmFrame) : KeepsBooks (execDrmFrame lane frame s) := by
  unfold execDrmFrame
  refine .ite (.next (unitEnd_kept _ _ _ _ (drmDrift_kept _ _ (drmMsc_kept _ _ _ (drmSdc_kept _ _ _ _ ?_))))) (.next h)
  exact takeFacFrame_kept _ _ _ (reportResidual_kept _ _ (modEng_kept _ _ _ _ h))

theorem execDabFrame_keepsBooks (lane : Nat) (frame : DabFrame) : KeepsBooks (execDabFrame lane frame s) := by
  unfold execDabFrame
  refine .ite (.next (unitEnd_kept _ _ _ _ (checkDrift_kept _ _ _ (settleDabFrame_kept _ _ _ _ ?_)))) (.next h)
  exact forAll_kept _ _ _ (takeCif_kept _ _ _ _) (reportResidual_kept _ _ (modEng_kept _ _ _ _ (modDab_kept _ _ _ h)))

/-- The draws behind a block's record keep the books. `blockRec` is unfolded unapplied and `blockStamp` stands as a variable, since the kernel
would otherwise compute with the stamp's arithmetic. -/
theorem blockRec_kept (x : Lane) (flags firstSc : Nat) (outs : List OutSample) : Kept (blockRec x flags firstSc outs s).2.2 := by
  obtain ⟨record, erecord⟩ : ∃ f, blockRec = f := ⟨_, rfl⟩
  obtain ⟨stampOf, estamp, hstamp⟩ : ∃ f, blockStamp = f ∧ ∀ p y n t, Kept t → Kept (f p y n t).2 := ⟨_, rfl, blockStamp_kept⟩
  rw [erecord]
  delta blockRec at erecord
  rw [estamp] at erecord
  rw [← erecord]
  have hlevel (xs e) : Kept (envOf e (rmsOf xs (peakOf xs (stampOf x.path x.cur firstSc s).2).2).2).2 :=
    envOf_kept _ _ (rmsOf_kept _ _ (peakOf_kept _ _ (hstamp _ _ _ _ h)))
  dsimp only
  split
  · exact hlevel _ _
  · exact qualOf_kept _ _ _ (hlevel _ _)

/-- A block's row: first begun where it is the lane's first, counted where it is shed, recorded, told, and taken by its engine. As in
`blockRec_kept`, what the kernel would compute with stands as a variable. -/
theorem execLaneBlock_keepsBooks (lane : Nat) (meas : BlockMeas) : KeepsBooks (execLaneBlock lane meas s) := by
  have hcounted (t : State) (ht : Kept t) : Kept (if (laneOf t lane).shed then countShed (laneOf t lane).path t else t) :=
    ite_kept _ _ (countShed_kept _ _ ht) ht
  have hbegun := hcounted _ (ite_kept (c := (laneTakes s lane && (laneOf s lane).idle) = true) _ _ (beginFirst_kept lane _ h) h)
  obtain ⟨record, erecord, hrecord⟩ : ∃ f, blockRec = f ∧ ∀ x k n outs t, Kept t → Kept (f x k n outs t).2.2 :=
    ⟨_, rfl, fun x k n outs _ ht => blockRec_kept ht x k n outs⟩
  obtain ⟨outputs, eoutputs⟩ : ∃ f, blockOutputs = f := ⟨_, rfl⟩
  unfold execLaneBlock
  rw [erecord, eoutputs]
  refine .ite ?_ (.next h)
  extract_lets counted flags
  split
  next chain outs _ =>
  extract_lets x
  split
  next r env drawn e =>
  have hdrawn : Kept drawn := by simpa only [e] using hrecord x flags meas.firstSc outs counted hbegun
  split
  next y event _ =>
  have hset := setLane_kept _ lane y hdrawn
  extract_lets _ told _ tasted
  have htold : Kept told := by
    dsimp only [told]
    split
    · exact ite_kept _ _ (deliverEvent_kept _ _ _ hset) hset
    · exact hset
  have htasted : Kept tasted := tasteWindow_kept _ _ _ (engineBlock_kept _ _ _ _ _ htold)
  exact .next (ite_kept _ _ htasted (boundary_kept _ _ htasted))

/-! The fabric and the ports -/

theorem execShedRaise_keepsBooks (path fill : Nat) : KeepsBooks (execShedRaise path fill s) := by
  unfold execShedRaise
  dsimp only
  exact .ite (.next (raiseIf_kept _ _ _ h)) (.next h)

theorem execSapStopRampEnd_keepsBooks (port : Nat) : KeepsBooks (execSapStopRampEnd port s) := by
  unfold execSapStopRampEnd
  split
  · refine .ite ?_ (.next h)
    extract_lets shared closed
    have hclosed : Kept closed := closePort_kept _ _ (ite_kept _ _ (closePort_kept _ _ h) h)
    refine .next ?_
    split
    · exact complete_kept _ _ _ _ hclosed
    · exact hclosed
  · exact .next h

theorem execUnderrun_keepsBooks (port : Nat) : KeepsBooks (execUnderrun port s) := by
  unfold execUnderrun
  split
  · exact .ite (.next h) (.next (raise_kept _ _ (modSap_kept _ _ _ h)))
  · exact .next h

theorem execPdmOverrun_keepsBooks (pin runs : Nat) : KeepsBooks (execPdmOverrun pin runs s) := by
  unfold execPdmOverrun
  split
  refine .ite (.next (forAll_kept _ _ _ (fun t m k => muteSource_kept _ _ _ _ _ k) (forAll_kept _ _ _ (fun t port k => ?_) h))) (.next h)
  exact ite_kept _ _ (setSap_kept _ _ _ k) k

/-! Tasting, slots and time -/

theorem execTastingStart_keepsBooks (entry : Nat) : KeepsBooks (execTastingStart entry s) := by
  unfold execTastingStart
  refine .ite ?_ (.next h)
  split
  · exact .next (beginTasting_kept _ _ _ _ _ _ h)
  · exact .next h

theorem execIdTimeout_keepsBooks (lane : Nat) : KeepsBooks (execIdTimeout lane s) := by
  unfold execIdTimeout
  split
  · exact .ite (.next (endTasting_kept _ _ _ h)) (.next h)
  · exact .next h

theorem execDwellMax_keepsBooks (lane : Nat) : KeepsBooks (execDwellMax lane s) := by
  unfold execDwellMax
  split
  · exact .ite (.next (endTasting_kept _ _ _ h)) (.next h)
  · exact .next h

theorem execSwitchOver_keepsBooks (lane stamp : Nat) : KeepsBooks (execSwitchOver lane stamp s) := by
  unfold execSwitchOver
  split
  · exact .next h
  · refine .ite (.next h) (.next (settleSwitch_kept _ _ _ (foldl_kept _ _ _ (fun t m k => rackItem_kept _ _ _ _ k) ?_)))
    exact deliverItem_kept _ _ _ (countSwitch_kept _ _ _ _ _ _ (switchLanes_kept _ _ _ _ (draw_kept _ _ h)))

theorem execSdeVerify_keepsBooks : KeepsBooks (execSdeVerify s) := by
  unfold execSdeVerify
  split
  · exact .next h
  · exact .ite (.next (settleEnvelope_kept _ _ h)) (.next h)

/-! The clocks and the modes -/

theorem execTuneCpll_keepsBooks (seq : Nat) : KeepsBooks (execTuneCpll seq s) := by
  unfold execTuneCpll
  split
  · exact .next h
  · refine .ite (.next h) ?_
    split
    · exact .next (complete_kept _ _ _ _ (dropStage_kept _ _ h))
    · exact .ite (.next h) (.next (runTuneCpll_kept _ _ h))

theorem execPhaseStepsApplied_keepsBooks (ck steps : Nat) : KeepsBooks (execPhaseStepsApplied ck steps s) := by
  have hsteps (n : Nat) : Kept (applySteps ck n s) := applySteps_kept _ _ _ h
  unfold execPhaseStepsApplied
  split
  · refine .ite ?_ (.next h)
    split
    · exact .next (complete_kept _ _ _ _ (modCk_kept _ _ _ (hsteps _)))
    · exact .next (ite_kept _ _ (complete_kept _ _ _ _ (hsteps _)) (hsteps _))
  · exact .next h

theorem execCpllLock_keepsBooks (ok : Bool) : KeepsBooks (execCpllLock ok s) := by
  unfold execCpllLock
  split
  · exact .ite (.next (serve_kept _ (relockAll_kept _ _ _ (cpllLocked_kept _ h)))) (.next h)
  · exact .ite (.next (serve_kept _ (relockAll_kept _ _ _ (cpllLocked_kept _ h))))
      (.next (serve_kept _ (complete_kept _ _ _ _ (cpllFault_kept _ h))))
  · exact .ite (.next (serve_kept _ (afterStart_kept _ (cpllLocked_kept _ h)))) (.next h)
  · exact .next (serve_kept _ (afterStart_kept _ (ite_kept _ _ (cpllLocked_kept _ h) (cpllFault_kept _ h))))
  · exact .next h

theorem execCounterMinute_keepsBooks : KeepsBooks (execCounterMinute s) := by
  unfold execCounterMinute
  exact .ite (.next (fields_kept (ageBins_kept _ h))) (.next h)

theorem execKeeptimeListen_keepsBooks : KeepsBooks (execKeeptimeListen s) := by
  unfold execKeeptimeListen
  dsimp only
  split
  · exact .ite (.next h) (.next h)
  · exact .next h

theorem execKtListenEnd_keepsBooks : KeepsBooks (execKtListenEnd s) := by
  unfold execKtListenEnd
  split
  · exact .ite (.next (fields_kept (pathOff_kept _ _ (stopLane_kept _ _ h)))) (.next h)
  · exact .next h

theorem execModeChangeComplete_keepsBooks : KeepsBooks (execModeChangeComplete s) := by
  unfold execModeChangeComplete
  split
  · exact .ite (.next h) (.next (ite_kept _ _ (stopUnrun_kept _ _ h) (moveMode_kept _ _ (stopUnrun_kept _ _ h))))
  · exact .next h

/-! Calibration, self-test and the cellar -/

theorem execCalRun_keepsBooks (seq : Nat) : KeepsBooks (execCalRun seq s) := by
  unfold execCalRun
  split
  · exact .next h
  · split
    · exact .next (complete_kept _ _ _ _ h)
    · exact .next (ite_kept _ _ h (startJob_kept _ _ (setPhase_kept _ _ _ h)))

theorem execCalItemEnd_keepsBooks (obj : Nat) (meas : CalMeas) : KeepsBooks (execCalItemEnd obj meas s) := by
  unfold execCalItemEnd
  split
  · exact .next h
  next job _ =>
    split
    · exact .next h
    next b i rest _ =>
      have hw : Kept (writeItem obj job.typ b i meas s) := writeItem_kept _ _ _ _ _ _ h
      refine .ite (.next h) (.ite (.next (calFailed_kept _ _ _ _ _ _ h)) ?_)
      dsimp only
      split
      · exact .next (complete_kept _ _ _ _ (releaseObject_kept _ _ (endSynthCal_kept _ _ _ hw)))
      · exact .next (ite_kept _ _ (calDone_kept _ _ _ hw) (setObjectJob_kept _ _ _ hw))

theorem execSelftest_keepsBooks (seq : Nat) : KeepsBooks (execSelftest seq s) := by
  unfold execSelftest
  split
  · exact .next h
  · split
    · exact .next (complete_kept _ _ _ _ h)
    · exact .next (ite_kept _ _ h (startTest_kept _ _ (setPhase_kept _ _ _ h)))

theorem execSelftestEnd_keepsBooks (seq : Nat) (meas : TestMeas) : KeepsBooks (execSelftestEnd seq meas s) := by
  unfold execSelftestEnd
  split
  · exact .ite (.next (ite_kept _ _ (complete_kept _ _ _ _ (endTest_kept _ _ h)) (complete_kept _ _ _ _ (endTest_kept _ _ h)))) (.next h)
  · exact .next h

theorem execReclaim_keepsBooks (area : Nat) : KeepsBooks (execReclaim area s) := by
  unfold execReclaim
  refine .ite ?_ (.next h)
  split
  · exact .next h
  · exact .next h

theorem execFlashOperationEnd_keepsBooks (ok : Bool) : KeepsBooks (execFlashOperationEnd ok s) := by
  unfold execFlashOperationEnd
  split
  · exact .next (writeStep_kept _ _ _ h)
  · exact .next (eraseStep_kept _ _ _ h)
  · exact .next (storeStep_kept _ _ _ h)
  · exact .next h

/-! Power, resets and the scrub -/

theorem execPowerGood_keepsBooks (kept : Bool) : KeepsBooks (execPowerGood kept s) := by
  unfold execPowerGood
  refine .ite (.next h) ?_
  dsimp only
  split
  · exact .next h
  · exact .next h
  · exact .next h
  · exact .next h

theorem execRemoval_keepsBooks : KeepsBooks (execRemoval s) := by
  unfold execRemoval
  dsimp only
  split
  · exact .next (beginDecant_kept _ h)
  · exact .next (beginDecant_kept _ h)
  · exact .next h
  · exact .next h
  · exact .next h
  · exact .next h

theorem execPinReset_keepsBooks : KeepsBooks (execPinReset s) := by
  unfold execPinReset
  exact .ite (.next (fields_kept (settleCellar_kept _ (halt_kept _ _ h)))) (.next h)

theorem execScrub_keepsBooks : KeepsBooks (execScrub s) := by
  unfold execScrub
  exact .ite (.next (fields_kept (ite_kept _ _ h (memPuts_kept _ _ _ h)))) (.next h)

end

/-! The dispatch and the step -/

/-- Whatever the command, what it does keeps the books, the order of issue and the memory's form. -/
theorem exec_keepsBooks {s : State} (h : Kept s) (i : Instr) : KeepsBooks (exec i s) :=
  match i with
  | .barrier seq => execBarrier_keepsBooks h seq
  | .abort _ => .next (startCmd_kept _ _ _ _ _ runAbort_kept h)
  | .tune seq => execTune_keepsBooks h seq
  | .tuneCpll seq => execTuneCpll_keepsBooks h seq
  | .laneBind _ => .next (startCmd_kept _ _ _ _ _ runLaneBind_kept h)
  | .laneSet _ => .next (startCmd_kept _ _ _ _ _ runLaneSet_kept h)
  | .laneSync _ _ => .next (startCmd_kept _ _ _ _ _ (runLaneSync_kept _) h)
  | .engineAttach _ => .next (startCmd_kept _ _ _ _ _ runEngineAttach_kept h)
  | .tasteArm _ => .next (startCmd_kept _ _ _ _ _ runTasteArm_kept h)
  | .tasteView _ => .next (startCmd_kept _ _ _ _ _ runTasteView_kept h)
  | .slotOpen _ => .next (startCmd_kept _ _ _ _ _ runSlotOpen_kept h)
  | .slotClose _ => .next (startCmd_kept _ _ _ _ _ runSlotClose_kept h)
  | .dateSet _ => .next (startCmd_kept _ _ _ _ _ runDateSet_kept h)
  | .timeVoteCfg _ => .next (startCmd_kept _ _ _ _ _ runTimeVoteCfg_kept h)
  | .calRun seq => execCalRun_keepsBooks h seq
  | .selftest seq => execSelftest_keepsBooks h seq
  | .linkRx _ => .next (startCmd_kept _ _ _ _ _ runLinkRx_kept h)
  | .linkTx _ _ => .next (startCmd_kept _ _ _ _ _ (fun _ _ hk => serve_kept _ (pushTx_kept _ _ hk)) h)
  | .pair _ _ => .next (startCmd_kept _ _ _ _ _ (runPair_kept _) h)
  | .sessionCfg _ _ => .next (startCmd_kept _ _ _ _ _ (runSessionCfg_kept _) h)
  | .releaseStart _ => .next (startCmd_kept _ _ _ _ _ runReleaseStart_kept h)
  | .releaseStop _ _ => .next (startCmd_kept _ _ _ _ _ (runReleaseStop_kept _) h)
  | .sapCfg _ => .next (startCmd_kept _ _ _ _ _ runSapCfg_kept h)
  | .sapStart _ _ => .next (startCmd_kept _ _ _ _ _ (runSapStart_kept _) h)
  | .sapStop _ => .next (startCmd_kept _ _ _ _ _ runSapStop_kept h)
  | .cellarPut _ => .next (startDue_kept _ (startCmd_kept _ _ _ _ _ runCellarPut_kept h))
  | .cellarGet _ => .next (startCmd_kept _ _ _ _ _ runCellarGet_kept h)
  | .cellarEraseKey _ => .next (startDue_kept _ (startCmd_kept _ _ _ _ _ runCellarEraseKey_kept h))
  | .shadowWrite _ => .next (startDue_kept _ (startCmd_kept _ _ _ _ _ runShadowWrite_kept h))
  | .shadowRead _ => .next (startCmd_kept _ _ _ _ _ runShadowRead_kept h)
  | .shadowStore _ => .next (startDue_kept _ (startCmd_kept _ _ _ _ _ runShadowStore_kept h))
  | .protectSet _ => .next (startDue_kept _ (startCmd_kept _ _ _ _ _ runProtectSet_kept h))
  | .unlock _ => .next (startCmd_kept _ _ _ _ _ runUnlock_kept h)
  | .doorbell _ | .ccConsHWrite _ | .booksSnap _ | .scLatch _ | .winAddrHWrite _ | .winDataWrite _ | .slotConsWrite _
  | .capConsWrite _ | .profileWrite _ | .pfCtrlWrite _ | .modeReq _ | .softReset _ => .next (writeCycle_kept _ _ _ h)
  | .cqConsLRead | .cqConsHRead | .ccProdLRead | .ccProdHRead | .tempLRead | .tempHRead | .winDataRead | .slotProdRead
  | .statisticsRead | .paceMinRead | .fillHwRead => .next (readCycle_kept _ _ h)
  | .irqStatWrite _ _ | .irqEnWrite _ _ | .registerWrite _ _ => .next (ite_kept _ _ (writeCycle_kept _ _ _ h) h)
  | .modeChangeComplete => execModeChangeComplete_keepsBooks h
  | .powerGood kept => execPowerGood_keepsBooks h kept
  | .boot _ => .next (ite_kept _ _ (boot_kept _ _ _ h) h)
  | .removal => execRemoval_keepsBooks h
  | .powerFail => .next (ite_kept _ _ (beginDecant_kept _ h) h)
  | .pfWarning => .next (ite_kept _ _ h (raise_kept _ _ h))
  | .brownOut => .ite (.next (ite_kept _ _ (beginDecant_kept _ h) (brownOutReset_kept _ h))) (.next h)
  | .decantExhausted => .next (ite_kept _ _ (endDecant_kept _ _ h) h)
  | .decantReturn _ => .next (ite_kept _ _ h h)
  | .pinReset => execPinReset_keepsBooks h
  | .holdOk => .next (ite_kept _ _ (raise_kept _ _ h) h)
  | .powerGoodFall | .presNMake | .pfPendingClear | .vioLoss | .vioReturn | .x32Start | .voteLife _ | .micSettle _ => .next h
  | .blankInRise => .next (ite_kept _ _ (beginBlank_kept _ _ h) h)
  | .blankInEnd => .next (ite_kept _ _ (endBlank_kept _ _ h) h)
  | .lanesync _ _ => .ite (.next (forAll_kept _ _ _ (syncLane_kept _) (forAll_kept _ _ _ (syncLane_kept _) h))) (.next h)
  | .winOpen _ => .ite (.next (ite_kept _ _ (serve_kept _ (endSessions_kept _ _ _ h)) h)) (.next h)
  | .x32Stop => .next (ite_kept _ _ (leaveLow_kept _ h) h)
  | .refCheck _ => .ite (.next (raiseIf_kept _ _ _ h)) (.next h)
  | .paceWindow _ _ => .ite (.next (takeSample_kept _ _ h)) (.next h)
  | .governorTick _ => .ite (.next h) (.next h)
  | .shedRaise path fill => execShedRaise_keepsBooks h path fill
  | .shedLower _ _ => .ite (.next h) (.next h)
  | .pathDrops _ => .ite (.next (raise_kept _ _ (touchLanes_kept _ _ _ h))) (.next h)
  | .synRecal path band => execSynRecal_keepsBooks h path band
  | .lockWindow path count => execLockWindow_keepsBooks h path count
  | .timedLock _ => .ite (.next (afterPath_kept _ _ (lockDone_kept _ _ (modSynth_kept _ _ _ h)))) (.next h)
  | .lockLost path => execLockLost_keepsBooks h path
  | .offsetAcquire path count => execOffsetAcquire_keepsBooks h path count
  | .agcPeriod path samples => execAgcPeriod_keepsBooks h path samples
  | .laneBlock lane meas => execLaneBlock_keepsBooks h lane meas
  | .gap _ => .ite (.next (lossEvent_kept _ _ _ _ _ (modEng_kept _ _ _ _ (toSearch_kept _ _ (modEng_kept _ _ _ _ h))))) (.next h)
  | .rdsGroup lane group => execRdsGroup_keepsBooks h lane group
  | .lfSecond lane meas => execLfSecond_keepsBooks h lane meas
  | .drmFrame lane frame => execDrmFrame_keepsBooks h lane frame
  | .dabFrame lane frame => execDabFrame_keepsBooks h lane frame
  | .leapHold => .ite (.next (setCause_kept _ _ h)) (.next h)
  | .counterHoldEnd _ => .ite (.ite (.next h) (.next (dropVotes_kept _ (invalidate_kept _ _ h)))) (.next h)
  | .counterMinute => execCounterMinute_keepsBooks h
  | .keeptimeListen => execKeeptimeListen_keepsBooks h
  | .ktListenEnd => execKtListenEnd_keepsBooks h
  | .sdeVerify => execSdeVerify_keepsBooks h
  | .tastingStart entry => execTastingStart_keepsBooks h entry
  | .idTimeout lane => execIdTimeout_keepsBooks h lane
  | .dwellMax lane => execDwellMax_keepsBooks h lane
  | .switchOver lane stamp => execSwitchOver_keepsBooks h lane stamp
  | .lbtBackoff => execLbtBackoff_keepsBooks h
  | .atStart => execAtStart_keepsBooks h
  | .transmissionEnd _ => .next (ite_kept _ _ (forAll_kept _ _ _ txStep_kept h) h)
  | .rxAfter => execRxAfter_keepsBooks h
  | .linkRxEnd => execLinkRxEnd_keepsBooks h
  | .qualTimeout => .next (ite_kept _ _ h h)
  | .sfdTimeout => .next (ite_kept _ _ (packetOver_kept _ _ (countDropped_kept _ (setFe_kept _ _ _ h))) h)
  | .packet pkt => execPacket_keepsBooks h pkt
  | .responseTimeout => execResponseTimeout_keepsBooks h
  | .sessionCheck _ _ => .ite (.next (serve_kept _ (checkRecordOf_kept _ _ _ _ (modEndpoint_kept _ _ _ h)))) (.next h)
  | .sessionTimeout _ => .next (ite_kept _ _ (serve_kept _ (endSession_kept _ _ _ h)) h)
  | .releaseDue _ _ => .ite (.next (serve_kept _ (pushTx_kept _ _ h))) (.next h)
  | .releaseRetry _ => .ite (.next (serve_kept _ (pushTx_kept _ _ (modTarget_kept _ _ _ h)))) (.next h)
  | .releaseSkip target => execReleaseSkip_keepsBooks h target
  | .captureBlock _ => .ite (.next (writeBlock_kept _ _ _ h)) (.next h)
  | .underrun port => execUnderrun_keepsBooks h port
  | .pdmOverrun pin runs => execPdmOverrun_keepsBooks h pin runs
  | .sapStopRampEnd port => execSapStopRampEnd_keepsBooks h port
  | .scrub => execScrub_keepsBooks h
  | .reclaim area => execReclaim_keepsBooks h area
  | .cpllLock ok => execCpllLock_keepsBooks h ok
  | .flashOperationEnd ok => execFlashOperationEnd_keepsBooks h ok
  | .calItemEnd obj meas => execCalItemEnd_keepsBooks h obj meas
  | .selftestEnd seq meas => execSelftestEnd_keepsBooks h seq meas
  | .phaseStepsApplied ck steps => execPhaseStepsApplied_keepsBooks h ck steps
  | .lbtListenEnd rssi => execLbtListenEnd_keepsBooks h rssi
  | .counterSecond _ => .ite (.next (takeSample_kept _ _ h)) (.next h)
  | .calRange => .ite (.next (setCause_kept _ _ h)) (.next h)

/-- A step is its front command on the rest of the queue, or a tick: either keeps the books, the order of issue and the memory's form. -/
theorem step_keepsBooks {s : State} (h : Kept s) : KeepsBooks (step s) := by
  unfold step
  split
  · exact exec_keepsBooks (fields_kept h) _
  · exact .next (passTime_kept _ h)

/-- Books that balance leave room for every unread completion in the ring of 512 (R92). -/
theorem unread_le_of_booksBalance {s : State} (h : BooksBalance s) : s.rings.unread ≤ 512 :=
  h ▸ Nat.le_add_left _ _

/-- Settles O60: the reset state balances, and what `Kept` says of a state is what every step keeps. -/
theorem stepsKeepTheBooks : Obligations.StepsKeepTheBooks := by
  refine ⟨rfl, fun s t hbooks horder hmem hstep => ?_⟩
  obtain ⟨hbooks', hmem', horder'⟩ := (kept_iff t).mp (step_keepsBooks ((kept_iff s).mpr ⟨hbooks, hmem, horder⟩) t hstep)
  exact ⟨hbooks', unread_le_of_booksBalance hbooks', horder', hmem'⟩

end Sys2Proof.Machine

/-!
PROOFS. Step 2 of a mode change leaves what Table 6-1 says of the modes alone: nothing that stops commands, tastings and ports, or serves path S
again, writes the part `modes` of the state. One lemma per operation, in the order of the model; an operation of one record update is true by `rfl`.
-/
namespace Sys2Proof.Machine

/-! Completions and the paths -/

theorem RingFrame.modes_eq {s t : State} (h : RingFrame s t) : t.modes = s.modes := by rw [h]

theorem LaneFrame.modes_eq {s t : State} (h : LaneFrame s t) : t.modes = s.modes := by rw [h]

/-- A fold of operations that leave the modes leaves the modes. -/
theorem forAll_modes {α : Type} {f : State → α → State} (hf : ∀ t x, (f t x).modes = t.modes) (xs : List α) (s : State) :
    (forAll xs f s).modes = s.modes := by
  unfold forAll
  induction xs generalizing s with
  | nil => rfl
  | cons x xs ih => exact (ih _).trans (hf s x)

@[simp] theorem raise_modes (q : Irq) (s : State) : (raise q s).modes = s.modes := by rw [raise_frame]

@[simp] theorem complete_modes (seq status : Nat) (result : List Byte) (s : State) : (complete seq status result s).modes = s.modes :=
  (complete_frame seq status result s).modes_eq

@[simp] theorem tuneBoundary_modes (p : Nat) (s : State) : (tuneBoundary p s).modes = s.modes := (tuneBoundary_frame p s).modes_eq

@[simp] theorem tuneDone_modes (p status : Nat) (result : List Byte) (s : State) : (tuneDone p status result s).modes = s.modes :=
  (tuneDone_frame p status result s).modes_eq

@[simp] theorem trackZeros_modes (p : Nat) (s : State) : (trackZeros p s).modes = s.modes := modFe_modes ..

@[simp] theorem setFe_modes (p : Nat) (st : FeState) (s : State) : (setFe p st s).modes = s.modes := by
  rw [(setFe_spec p st s).modes_eq, trackZeros_modes, modFe_modes]

@[simp] theorem noLock_modes (p code : Nat) (s : State) : (noLock p code s).modes = s.modes := by simp [noLock]

@[simp] theorem beginLock_modes (p : Nat) (s : State) : (beginLock p s).modes = s.modes := by
  unfold beginLock
  split
  · exact noLock_modes ..
  split
  · exact modSynth_modes ..
  split
  · exact noLock_modes ..
  · exact modSynth_modes ..

@[simp] theorem startPath_modes (p : Nat) (s : State) : (startPath p s).modes = s.modes := by simp [startPath]

@[simp] theorem retunePath_modes (p : Nat) (s : State) : (retunePath p s).modes = s.modes := by
  unfold retunePath
  split <;> simp

@[simp] theorem pathOff_modes (p : Nat) (s : State) : (pathOff p s).modes = s.modes := by simp [pathOff]

@[simp] theorem placeS_modes (f : Nat) (s : State) : (placeS f s).modes = s.modes := by
  unfold placeS
  dsimp only
  split
  · simp
  · simp
  · split <;> simp

@[simp] theorem serveWindows_modes (s : State) : (serveWindows s).modes = s.modes := by
  unfold serveWindows
  split
  · rfl
  split
  · split
    · rfl
    · exact placeS_modes ..
  · split
    · rfl
    · exact pathOff_modes ..

/-! Cellar writes that wait -/

@[simp] theorem modCmd_modes (s : State) (seq : Nat) (f : Cmd → Cmd) : (modCmd s seq f).modes = s.modes := rfl

@[simp] theorem startWrite_modes (s : State) (seq : Nat) (w : DueWrite) : (startWrite s seq w).modes = s.modes := by
  unfold startWrite
  dsimp only
  split
  · rfl
  split
  · exact complete_modes ..
  split
  · rfl
  split
  · rfl
  · exact complete_modes ..

theorem startDueN_modes (n : Nat) (s : State) : (startDueN n s).modes = s.modes := by
  induction n generalizing s with
  | zero => rfl
  | succ n ih =>
    unfold startDueN
    split
    · rw [ih, startWrite_modes]
    · rfl

@[simp] theorem startDue_modes (s : State) : (startDue s).modes = s.modes := startDueN_modes ..

/-! Sessions and release targets -/

@[simp] theorem dropTx_modes (p : TxJob → Bool) (s : State) : (dropTx p s).modes = s.modes := rfl
@[simp] theorem pushTx_modes (j : TxJob) (s : State) : (pushTx j s).modes = s.modes := rfl

@[simp] theorem refreshTarget_modes (k : Nat) (s : State) : (refreshTarget k s).modes = s.modes := by
  unfold refreshTarget
  dsimp only
  split
  · split
    · split <;> simp
    · simp
  · simp [startSchedule]
  · rfl

@[simp] theorem refreshDemand_modes (s : State) : (refreshDemand s).modes = s.modes := forAll_modes (fun t k => refreshTarget_modes k t) _ s

@[simp] theorem endSession_modes (n cause : Nat) (s : State) : (endSession n cause s).modes = s.modes := by
  unfold endSession
  split <;> simp

@[simp] theorem targetFault_modes (k reason : Nat) (s : State) : (targetFault k reason s).modes = s.modes := by simp [targetFault]

@[simp] theorem releaseReply_modes (op k status : Nat) (result : List Byte) (s : State) : (releaseReply op k status result s).modes = s.modes := by
  unfold releaseReply
  split <;> simp

@[simp] theorem exhaustCounter_modes (n : Nat) (s : State) : (exhaustCounter n s).modes = s.modes := by
  unfold exhaustCounter
  refine (forAll_modes (fun t k => ?_) _ _).trans (by simp)
  split
  · dsimp only
    split <;> simp
  · rfl

@[simp] theorem nextDueTime_modes (k : Nat) (s : State) : (nextDueTime k s).modes = s.modes := rfl

@[simp] theorem attemptEnds_modes (k : Nat) (stop byCommand : Bool) (status : Nat) (result : List Byte) (phr cost : Nat) (s : State) :
    (attemptEnds k stop byCommand status result phr cost s).modes = s.modes := by
  simp only [attemptEnds, retryDelay, trng]
  split <;> simp [apply_ite State.modes]

/-! Presence checks -/

@[simp] theorem kickCheck_modes (s : State) : (kickCheck s).modes = s.modes := by
  unfold kickCheck
  split
  · rfl
  · split <;> rfl

@[simp] theorem popCheck_modes (s : State) : (popCheck s).modes = s.modes := kickCheck_modes _

@[simp] theorem beginSession_modes (n : Nat) (m : CheckMeas) (s : State) : (beginSession n m s).modes = s.modes := by
  simp [beginSession, takeResponse]

@[simp] theorem writePairing_modes (c : Cmd) (tries : Nat) (rtt rssi : Int) (key : List Byte) (s : State) :
    (writePairing c tries rtt rssi key s).modes = s.modes := by
  unfold writePairing
  split <;> simp [issueWrite]

@[simp] theorem serveCheck_modes (c : Check) (status : Nat) (result : List Byte) (m : Option CheckMeas) (s : State) :
    (serveCheck c status result m s).modes = s.modes := by
  unfold serveCheck
  split
  · split
    · split <;> simp
    · rfl
  · simp [apply_ite State.modes]
  · simp
  · split <;> simp [takeResponse]
  · simp
  · simp
  · simp
  · rfl

@[simp] theorem recordCheck_modes (n status : Nat) (m : Option CheckMeas) (s : State) : (recordCheck n status m s).modes = s.modes := rfl

@[simp] theorem finishCheck_modes (status : Nat) (result : List Byte) (m : Option CheckMeas) (s : State) :
    (finishCheck status result m s).modes = s.modes := by
  unfold finishCheck
  split <;> simp

@[simp] theorem tryEnds_modes (status why : Nat) (m : Option CheckMeas) (s : State) : (tryEnds status why m s).modes = s.modes := by
  unfold tryEnds
  split
  · rfl
  · simp [apply_ite State.modes, countFail, countNoResp, epSet]

@[simp] theorem windowNoLock_modes (s : State) : (windowNoLock s).modes = s.modes := by
  unfold windowNoLock windowEnds
  split
  · split
    · simp
    · split
      · rfl
      · split <;> simp
    · rfl
  · rfl

@[simp] theorem abortCheck_modes (seq cause : Nat) (s : State) : (abortCheck seq cause s).modes = s.modes := by
  unfold abortCheck
  simp only [kickCheck_modes, complete_modes]
  split <;> simp

/-! Transmissions -/

@[simp] theorem countRefusal_modes (band status : Nat) (s : State) : (countRefusal band status s).modes = s.modes := rfl

@[simp] theorem txEnds_modes (j : TxJob) (status : Nat) (result : List Byte) (s : State) : (txEnds j status result s).modes = s.modes := by
  unfold txEnds
  dsimp only
  split <;> simp

@[simp] theorem endActive_modes (status : Nat) (result : List Byte) (s : State) : (endActive status result s).modes = s.modes := by
  unfold endActive
  split <;> simp [removeActive]

@[simp] theorem stopTx_modes (j : TxJob) (cause : Nat) (s : State) : (stopTx j cause s).modes = s.modes := by
  unfold stopTx
  dsimp only
  split
  · simp
  · split <;> simp
  · simp

@[simp] theorem maskCheck_modes (k : Nat) (j : TxJob) (s : State) : (maskCheck k j s).1.modes = s.modes := by
  unfold maskCheck
  split
  · rfl
  · split <;> rfl

@[simp] theorem beginTx_modes (j : TxJob) (s : State) : (beginTx j s).modes = s.modes := by
  unfold beginTx
  extract_lets j late
  split
  · exact txEnds_modes ..
  split
  · exact txEnds_modes ..
  split
  · exact txEnds_modes ..
  split
  · exact txEnds_modes ..
  dsimp only
  split
  · rw [txEnds_modes, maskCheck_modes]
  split
  · rw [txEnds_modes, maskCheck_modes]
  split
  · rw [stopTx_modes, maskCheck_modes]
  · rw [placeS_modes, pushTx_modes, maskCheck_modes]

@[simp] theorem beginBlank_modes (tx : Bool) (s : State) : (beginBlank tx s).modes = s.modes := by
  simp only [beginBlank, tuneBoundary_modes]
  exact (forAll_modes (fun t p => by simp [touchLanes]) _ _).trans rfl

@[simp] theorem countOfdm_modes (j : TxJob) (s : State) : (countOfdm j s).modes = s.modes := by
  unfold countOfdm
  split <;> rfl

@[simp] theorem countFrame_modes (j : TxJob) (s : State) : (countFrame j s).modes = s.modes := by
  unfold countFrame
  split <;> rfl

@[simp] theorem counterEnds_modes (j : TxJob) (s : State) : (counterEnds j s).modes = s.modes := by
  unfold counterEnds
  split
  · split <;> simp
  · rfl

@[simp] theorem goOnAir_modes (phr : Option Nat) (s : State) : (goOnAir phr s).modes = s.modes := by
  unfold goOnAir
  split <;> simp [setActive, charge, ageBins]

/-! Path S serves what waits -/

theorem linkStep_modes {s t : State} (h : linkStep s = some t) : t.modes = s.modes := by
  unfold linkStep at h
  dsimp only at h
  repeat' split at h
  all_goals cases h
  all_goals simp [setActive]

theorem linkSteps_modes (n : Nat) (s : State) : (linkSteps n s).modes = s.modes := by
  induction n generalizing s with
  | zero => rfl
  | succ n ih =>
    unfold linkSteps
    split
    next t h => rw [ih, linkStep_modes h]
    · rfl

@[simp] theorem trackPause_modes (s : State) : (trackPause s).modes = s.modes := by
  unfold trackPause
  dsimp only
  split <;> rfl

@[simp] theorem serve_modes (s : State) : (serve s).modes = s.modes := by simp [serve, linkSteps_modes]

/-! Commands that are asked to stop -/

@[simp] theorem abortNow_modes (seq cause : Nat) (s : State) : (abortNow seq cause s).modes = s.modes := complete_modes ..

@[simp] theorem stopDue_modes (cause : Nat) (c : Cmd) (s : State) : (stopDue cause c s).modes = s.modes := by
  unfold stopDue
  split <;> simp

@[simp] theorem stopCheck_modes (cause : Nat) (c : Cmd) (s : State) : (stopCheck cause c s).modes = s.modes := by
  unfold stopCheck
  split
  · dsimp only
    split <;> simp
  · simp

@[simp] theorem stopLinkRx_modes (cause : Nat) (c : Cmd) (s : State) : (stopLinkRx cause c s).modes = s.modes := by
  unfold stopLinkRx
  split
  · split
    · rfl
    · split <;> simp
  · rfl

@[simp] theorem stopLinkTx_modes (cause : Nat) (c : Cmd) (s : State) : (stopLinkTx cause c s).modes = s.modes := by
  unfold stopLinkTx
  split
  · rfl
  · split <;> simp

@[simp] theorem stopRelease_modes (cause : Nat) (c : Cmd) (s : State) : (stopRelease cause c s).modes = s.modes := by
  unfold stopRelease
  dsimp only
  split <;> simp

@[simp] theorem stopCmd_modes (cause : Nat) (s : State) (c : Cmd) : (stopCmd cause s c).modes = s.modes := by
  unfold stopCmd stopSteps
  split
  · split
    · rfl
    · dsimp only
      split <;> simp
  · split <;> simp
  all_goals simp

@[simp] theorem stopUnrun_modes (m : Nat) (s : State) : (stopUnrun m s).modes = s.modes := forAll_modes (stopCmd_modes 3) _ s

/-! Tastings and ports that end -/

@[simp] theorem releaseEngine_modes (kind idx : Nat) (s : State) : (releaseEngine kind idx s).modes = s.modes := by
  unfold releaseEngine
  split <;> rfl

@[simp] theorem endTasting_modes (cause lane : Nat) (s : State) : (endTasting cause lane s).modes = s.modes := by
  unfold endTasting
  split
  · rfl
  · simp [freeLane, capShed, abandonLane, countAbandoned]

@[simp] theorem endTastings_modes (cause : Nat) (p : Nat → Tasting → Bool) (s : State) : (endTastings cause p s).modes = s.modes :=
  forAll_modes (fun t lane => endTasting_modes cause lane t) _ s

@[simp] theorem rampDown_modes (port : Nat) (s : State) : (rampDown port s).modes = s.modes := by
  simp [rampDown, setSap, apply_ite State.modes]

/-- Step 2 towards a mode above KEEPTIME leaves the modes as step 1 wrote them. -/
theorem leaveMode_modes {m : Nat} (h : 3 ≤ m) (s : State) : (leaveMode m s).modes = s.modes := by
  simp [leaveMode, Nat.not_lt.mpr h, apply_ite State.modes, releasePins]

end Sys2Proof.Machine

/-!
PROOFS. A write of MODE_REQ (R121 to R123, O16): who applies it, and what each of its answers does.
-/
namespace Sys2Proof.Machine

/-- The port applies cycles only while READY is 1 (Table 3-6). -/
theorem ready_of_answer_full {s : State} (h : answer s = .full) : s.power.phase = .ready := by
  unfold answer at h
  split at h
  · cases h
  split at h
  next hready => exact hready
  · cases h
  · split at h <;> cases h
  all_goals cases h

/-- Before READY and in a decant a write changes nothing but the acknowledge (R58, R121). -/
theorem writeCycle_not_ready {s : State} (h : s.power.phase ≠ .ready) (off : Nat) (v : Byte) : ∃ a, writeCycle off v s = acked a s := by
  unfold writeCycle
  split
  · exact ⟨false, rfl⟩
  · exact ⟨true, rfl⟩
  next hfull => exact absurd (ready_of_answer_full hfull) h

/-- A live port applies a write of MODE_REQ and acknowledges it. -/
theorem exec_modeReq_live {s : State} (h : PortLive s) (v : Byte) : exec (.modeReq v) s = .next (acked true (writeModeReq v s)) :=
  congrArg _ (writeCycle_live h 0x05 v)

theorem writeModeReq_ignored {v : Byte} (h : v.toNat % 8 = 0 ∨ v.toNat % 8 = 7) (s : State) : writeModeReq v s = s := by
  simp [writeModeReq, h]

theorem writeModeReq_code {v : Byte} {m : Nat} (hv : v.toNat % 8 = m) (h0 : m ≠ 0) (h7 : m ≠ 7) (s : State) :
    writeModeReq v s = takeModeReq m s := by
  simp [writeModeReq, hv, h0, h7]

theorem takeModeReq_underWay {s : State} {x : Nat} (h : s.modes.target = some x) (m : Nat) :
    takeModeReq m s = { s with modes := { s.modes with modeReq := m, queued := some m } } := by
  simp [takeModeReq, h]

/-- With no change under way the code in force is kept in MODE_REQ, and any other is a request. -/
theorem takeModeReq_idle {s : State} (h : s.modes.target = none) (m : Nat) :
    takeModeReq m s =
      let t := { s with modes := { s.modes with modeReq := m } }
      if m = s.modes.modeNow then t else requestMode m t := by
  simp [takeModeReq, h, modeNow]

theorem refuseMode_ready {s : State} (h : s.power.phase = .ready) (code : Nat) :
    refuseMode code s =
      { s with modes := { s.modes with modeErr := code }, port := { s.port with irqStat0 := s.port.irqStat0 ||| 0x04 } } := by
  simp only [refuseMode, raise, ready, h]
  rfl

/-- Without the oscillator PARKED and KEEPTIME are refused with MODE_ERR 1 and MODE_EVENT (R122, R127). -/
theorem requestMode_refused {m : Nat} (hm : m < 3) {s : State} (hready : s.power.phase = .ready) (hx32 : s.modes.x32Ok = false) :
    requestMode m s =
      { s with modes := { s.modes with modeErr := 1 }, port := { s.port with irqStat0 := s.port.irqStat0 ||| 0x04 } } := by
  rw [← refuseMode_ready hready]
  simp [requestMode, hm, hx32]

/-- A request for a mode above KEEPTIME is accepted: the change is under way and MODE_ERR is clear (R122). -/
theorem requestMode_modes {m : Nat} (hm : 3 ≤ m) (s : State) :
    (requestMode m s).modes = { s.modes with target := some m, modeErr := 0 } := by
  have h2 : m ≠ 2 := by omega
  simp [requestMode, Nat.not_lt.mpr hm, h2, leaveMode_modes hm]

/-- Settles O16: a live port hands the code to `takeModeReq`, whose cases are a change under way, the mode in force, a refusal without the
oscillator, and an acceptance, whose step 2 leaves the modes as step 1 wrote them. -/
theorem modeRequests : Obligations.ModeRequests := by
  refine ⟨fun s v => ⟨fun hs => ?_, fun hs hv => ?_, fun hs h0 h7 hnow hidle => ?_⟩,
    fun s v m hs hv h1 h6 => ?_⟩
  · obtain ⟨a, ha⟩ := writeCycle_not_ready hs 0x05 v
    exact ⟨a, congrArg _ ha⟩
  · rw [exec_modeReq_live hs, writeModeReq_ignored hv]
    rfl
  · rw [exec_modeReq_live hs, writeModeReq_code rfl h0 h7, takeModeReq_idle hidle, if_pos hnow]
    rfl
  · have hexec : exec (.modeReq v) s = .next (acked true (takeModeReq m s)) := by
      rw [exec_modeReq_live hs, writeModeReq_code hv (by omega) (by omega)]
    rw [hexec]
    refine ⟨fun x hx => ?_, fun hidle hparked hnow hx32 => ?_, fun hidle h3 hnow => ⟨_, rfl, ?_⟩⟩
    · rw [takeModeReq_underWay hx]
      rfl
    · subst hparked
      rw [takeModeReq_idle hidle, if_neg (Ne.symm hnow), requestMode_refused (by decide)]
      · rfl
      · exact hs.2
      · exact hx32
    · rw [takeModeReq_idle hidle, if_neg hnow]
      exact requestMode_modes h3 _

end Sys2Proof.Machine

/-!
PROOFS. The port (O1, O4, O5): a step takes the queue's front, a live port's reads and writes, the pairs' holding bytes, the interrupt bits.
-/
namespace Sys2Proof.Machine

/-- Settles O1: the queue is the state's own field, and the step's first branch is the statement. -/
theorem stepRunsTheFrontCommand : Obligations.StepRunsTheFrontCommand := fun _ _ _ => rfl

theorem answer_live {s : State} (h : PortLive s) : answer s = .full := by
  obtain ⟨hvio, hphase⟩ := h
  simp only [answer, hvio, hphase, Bool.not_true, Bool.false_eq_true, if_false]

/-- A live port answers a read with what the register holds and acknowledges it (Table 3-6). -/
theorem readCycle_live {s : State} (h : PortLive s) (off : Nat) :
    readCycle off s = acked true { (readReg off s).2 with port := { (readReg off s).2.port with data := (readReg off s).1 } } := by
  simp only [readCycle, answer_live h]

/-- While a pair is not armed its _H reads live, and nothing changes (R8). -/
theorem readReg_cqConsH_unarmed {s : State} (h : s.port.holdCqCons = none) : readReg 0x11 s = (byteOf s.rings.cqCons 1, s) := by
  simp only [readReg, h, Option.getD_none]
  rw [← h]
  rfl

@[inherit_doc readReg_cqConsH_unarmed]
theorem readReg_ccProdH_unarmed {s : State} (h : s.port.holdCcProd = none) : readReg 0x13 s = (byteOf s.rings.ccProd 1, s) := by
  simp only [readReg, h, Option.getD_none]
  rw [← h]
  rfl

@[inherit_doc readReg_cqConsH_unarmed]
theorem readReg_tempH_unarmed {s : State} (h : s.port.holdTemp = none) : readReg 0x2D s = (byteOf (twos 2 s.cal.temp) 1, s) := by
  simp only [readReg, h, Option.getD_none]
  rw [← h]
  rfl

/-- Settles O4: the port is live, and each offset of a pair has a row of its own in `readReg`. -/
theorem pairReadsArmAndDisarm : Obligations.PairReadsArmAndDisarm := by
  intro s hs
  have read (off : Nat) := congrArg (Host.Outcome.next (φ := Fault) (ρ := Refusal)) (readCycle_live hs off)
  refine ⟨⟨read 0x10, read 0x12, read 0x2C⟩, fun h hh => ?_, fun h hh => ?_, fun h hh => ?_, fun hh => ?_, fun hh => ?_, fun hh => ?_⟩
  · exact (read 0x11).trans (by simp only [readReg, hh]; rfl)
  · exact (read 0x13).trans (by simp only [readReg, hh]; rfl)
  · exact (read 0x2D).trans (by simp only [readReg, hh]; rfl)
  · exact (read 0x11).trans (by rw [readReg_cqConsH_unarmed hh]; rfl)
  · exact (read 0x13).trans (by rw [readReg_ccProdH_unarmed hh]; rfl)
  · exact (read 0x2D).trans (by rw [readReg_tempH_unarmed hh]; rfl)

/-- A write cycle to a live port, as the rows that are writes run it. -/
theorem next_writeCycle_live {s : State} (h : PortLive s) (off : Nat) (v : Byte) :
    (.next (writeCycle off v s) : Host.Outcome State Fault Refusal) = .next (acked true (writeReg off v s)) :=
  congrArg _ (writeCycle_live h off v)

/-- A byte is not zero just where one of its eight bits is 1. -/
theorem byte_ne_zero_iff (b : Byte) : (b != 0) = true ↔ ∃ k, k < 8 ∧ b.getLsbD k = true := by
  rw [bne_iff_ne]
  refine ⟨fun h => ?_, fun ⟨k, _, hk⟩ h => by simp [h] at hk⟩
  refine Classical.byContradiction fun hc => h (BitVec.eq_of_getLsbD_eq fun k hk => ?_)
  exact (Bool.eq_false_iff.mpr fun hset => hc ⟨k, hk, hset⟩).trans BitVec.getLsbD_zero.symm

/-- Two registers meet just where some bit is 1 in both. -/
theorem byte_and_ne_zero_iff (a b : Byte) :
    ((a &&& b) != 0) = true ↔ ∃ k, k < 8 ∧ (a.getLsbD k = true ∧ b.getLsbD k = true) := by
  simp only [byte_ne_zero_iff, BitVec.getLsbD_and, Bool.and_eq_true]

/-- While the port is live IRQ_N is asserted just where an enabled interrupt bit is 1 (R69). -/
theorem irqAsserted_live {s : State} (h : PortLive s) :
    irqAsserted s = true ↔ ∃ k, k < 8 ∧
      ((s.port.irqStat0.getLsbD k = true ∧ s.port.irqEn0.getLsbD k = true) ∨ (s.port.irqStat1.getLsbD k = true ∧ s.port.irqEn1.getLsbD k = true) ∨
        (s.port.irqStat2.getLsbD k = true ∧ s.port.irqEn2.getLsbD k = true)) := by
  obtain ⟨hvio, hphase⟩ := h
  simp only [irqAsserted, ready, hvio, hphase, beq_self_eq_true, Bool.true_and, Bool.or_eq_true, byte_and_ne_zero_iff, and_or_left,
    exists_or, or_assoc]

theorem irqPin_live {s : State} (h : PortLive s) : irqPin s = (if irqAsserted s then (if s.port.irqPol then .high else .low) else .released) := by
  obtain ⟨hvio, hphase⟩ := h
  simp only [irqPin, hvio, hphase, Bool.not_true, Bool.false_eq_true, if_false]

theorem irqPin_without_vio {s : State} (h : s.power.vioValid = false) : irqPin s = .highZ := by
  simp only [irqPin, h, Bool.not_false, if_true]

/-- R449: before READY and in a decant no interrupt bit is set. -/
theorem raise_not_ready {s : State} (h : s.power.phase ≠ .ready) (q : Irq) : raise q s = s := by
  simp [raise, ready, h]

/-- Settles O5: a live port's write is the register's row of `writeReg`; the pin is read off its definition; `raise` sets the bit that
`irqPlace` names, source by source. -/
theorem interruptBitsAndEnables : Obligations.InterruptBitsAndEnables := by
  refine ⟨fun s v hs => ?_, fun s => irqPin_without_vio, fun q s => ⟨fun h => raise_not_ready h q, fun h => ?_⟩⟩
  · have write (off : Nat) := next_writeCycle_live hs off v
    exact ⟨write 0x1D, write 0x1E, write 0x1F, write 0x20, write 0x21, write 0x22, irqAsserted_live hs, irqPin_live hs⟩
  · cases q <;> simp [raise, ready, h, orBit, irqPlace]

end Sys2Proof.Machine

/-!
PROOFS. The window (O6, O9, O10): what an access inside a region moves on, what one at a region's end does, and the reads of the object blocks
that clear or latch.
-/
namespace Sys2Proof.Machine

/-! The pointer -/

/-- An access that stands between `s` and `u` leaves the window's pointer and controls, and writes nothing but the port, the working SRAM and
the scrub's record. -/
def WindowFrame (s u : State) : Prop :=
  u = { s with mem := u.mem, scrub := u.scrub, port := u.port } ∧ u.port.ptr = s.port.ptr ∧ u.port.winInc = s.port.winInc ∧
    u.port.winRing = s.port.winRing ∧ u.port.winEdge = s.port.winEdge ∧ u.port.wsHalted = s.port.wsHalted

theorem raiseIf_frame (b : Bool) (q : Irq) (s : State) :
    raiseIf b q s = { s with port := { s.port with irqStat0 := (raiseIf b q s).port.irqStat0, irqStat1 := (raiseIf b q s).port.irqStat1,
                                                   irqStat2 := (raiseIf b q s).port.irqStat2 } } := by
  cases b
  · rfl
  · exact raise_frame q s

theorem flagPrivate_windowFrame (s : State) : WindowFrame s (flagPrivate s) := by
  unfold flagPrivate
  rw [raiseIf_frame]
  exact ⟨rfl, rfl, rfl, rfl, rfl, rfl⟩

theorem flagUnmapped_windowFrame (s : State) : WindowFrame s (flagUnmapped s) := by
  unfold flagUnmapped
  rw [raiseIf_frame]
  exact ⟨rfl, rfl, rfl, rfl, rfl, rfl⟩

theorem flagRoWrite_windowFrame (s : State) : WindowFrame s (flagRoWrite s) := by
  unfold flagRoWrite
  rw [raiseIf_frame]
  exact ⟨rfl, rfl, rfl, rfl, rfl, rfl⟩

theorem touchRow_windowFrame (s : State) (a : Nat) : WindowFrame s (touchRow s a) := by
  rw [touchRow_frame]
  exact ⟨rfl, rfl, rfl, rfl, rfl, rfl⟩

theorem devPuts_windowFrame (s : State) (a : Nat) (bs : List Byte) : WindowFrame s (devPuts s a bs) := by
  rw [devPuts_frame]
  exact ⟨rfl, rfl, rfl, rfl, rfl, rfl⟩

/-- No object block stands below 0x200000 or from 0x301000 on. -/
theorem blockRead_outside {a : Nat} (h : a < 0x200000 ∨ 0x301000 ≤ a) (s : State) : blockRead s a = none := by
  unfold blockRead
  simp only [Bool.and_eq_true, decide_eq_true_eq]
  rcases h with h | h
  · rw [if_pos h]
  · repeat rw [if_neg (by omega)]

theorem windowRead_outside {a : Nat} (h : a < 0x200000 ∨ 0x301000 ≤ a) (s : State) : WindowFrame s (windowRead s a).2 := by
  unfold windowRead
  split
  · exact flagPrivate_windowFrame s
  · split
    · exact touchRow_windowFrame s a
    · rw [blockRead_outside h]
      exact flagUnmapped_windowFrame s

theorem windowWrite_outside {a : Nat} (h : a < 0x200000 ∨ 0x301000 ≤ a) (s : State) (v : Byte) : WindowFrame s (windowWrite s a v) := by
  unfold windowWrite
  split
  · exact flagRoWrite_windowFrame s
  split
  · exact flagPrivate_windowFrame s
  split
  · exact flagRoWrite_windowFrame s
  split
  · exact devPuts_windowFrame s a [v]
  split
  · exact flagRoWrite_windowFrame s
  · rw [blockRead_outside h]
    exact flagUnmapped_windowFrame s

/-- The bus after an acknowledged cycle that shows `d`. -/
def shown (d : Byte) (s : State) : State := { s with port := { s.port with ack := true, data := d } }

/-- A WIN_DATA access outside the object blocks: something that leaves the pointer and its controls, and then the pointer's increment. -/
theorem exec_window_outside {s : State} {i : Instr} (hs : PortLive s) (hhalt : s.port.wsHalted = false)
    (ha : s.port.ptr < 0x200000 ∨ 0x301000 ≤ s.port.ptr) (hi : i = .winDataRead ∨ ∃ v, i = .winDataWrite v) :
    ∃ u d, WindowFrame s u ∧ exec i s = .next (shown d (movePointer u)) := by
  rcases hi with rfl | ⟨v, rfl⟩
  · refine ⟨_, (windowRead s s.port.ptr).1, windowRead_outside ha s, congrArg Host.Outcome.next ?_⟩
    rw [readCycle_live hs, show readReg 0x0B s = winDataRead s from rfl, winDataRead, hhalt]
    rfl
  · refine ⟨_, (movePointer (windowWrite s s.port.ptr v)).port.data, windowWrite_outside ha s v, congrArg Host.Outcome.next ?_⟩
    rw [writeCycle_live hs, show writeReg 0x0B v s = winDataWrite s v from rfl, winDataWrite, hhalt]
    rfl

/-- The increment inside a region (R66). -/
theorem movePointer_inside {s : State} (hinc : s.port.winInc = true) (hring : s.port.winRing = false)
    (hlast : s.port.ptr ≠ regionLast s.port.ptr) : movePointer s = { s with port := { s.port with ptr := s.port.ptr + 1 } } := by
  simp only [movePointer, hinc, hring, Bool.not_true, Bool.false_eq_true, if_false, bne_iff_ne, ne_eq, hlast, not_false_eq_true, if_true]

/-- At the end of a ring that RING turns back the pointer goes to the ring's first byte (R67). -/
theorem movePointer_round {s : State} {a : Nat} (hinc : s.port.winInc = true) (hring : s.port.winRing = true)
    (hstart : ringStart s s.port.ptr = some a) : movePointer s = { s with port := { s.port with ptr := a } } := by
  simp only [movePointer, hinc, hring, hstart, Bool.not_true, Bool.false_eq_true, if_false, if_true]

/-- At a region's last byte that RING does not turn back, WIN_EDGE chooses between CROSSED and HALTED (R66). -/
theorem movePointer_last {s : State} (hinc : s.port.winInc = true) (hlast : s.port.ptr = regionLast s.port.ptr)
    (hring : s.port.winRing = true → ringStart s s.port.ptr = none) :
    movePointer s = if s.port.winEdge then flagHalted s
      else flagCrossed { s with port := { s.port with ptr := (s.port.ptr + 1) % 2 ^ 24 } } := by
  have hnone : (if s.port.winRing = true then ringStart s s.port.ptr else none) = none := by
    split
    next h => exact hring h
    · rfl
  have hne : (s.port.ptr != regionLast s.port.ptr) = false := by simpa using hlast
  simp only [movePointer, hinc, hnone, hne, Bool.not_true, Bool.false_eq_true, if_false]

theorem flagCrossed_port (s : State) : (flagCrossed s).port.wsCrossed = true ∧ (flagCrossed s).port.wsHalted = s.port.wsHalted ∧
    (flagCrossed s).port.ptr = s.port.ptr ∧ flagCrossed s = { s with port := (flagCrossed s).port } := by
  unfold flagCrossed
  rw [raiseIf_frame]
  exact ⟨rfl, rfl, rfl, rfl⟩

theorem flagHalted_port (s : State) : (flagHalted s).port.wsHalted = true ∧ (flagHalted s).port.ptr = s.port.ptr ∧
    flagHalted s = { s with port := (flagHalted s).port } := by
  unfold flagHalted
  rw [raiseIf_frame]
  exact ⟨rfl, rfl, rfl⟩

/-- The ends of the regions (Table 3-5). -/
theorem regionLast_outside {a : Nat} (h : a = regionLast a) : a < 0x200000 ∨ 0x301000 ≤ a := by
  unfold regionLast at h
  repeat' split at h
  all_goals omega

/-- Where the ring starts again depends on the slots alone. -/
theorem ringStart_windowFrame {s u : State} (h : WindowFrame s u) (a : Nat) : ringStart u a = ringStart s a := by
  rw [h.1]
  rfl

/-- An access at the end of a ring that RING turns back goes to the ring's first byte. -/
theorem exec_window_round {s : State} {i : Instr} {a : Nat} (hs : PortLive s) (hinc : s.port.winInc = true)
    (hi : i = .winDataRead ∨ ∃ v, i = .winDataWrite v) (hhalt : s.port.wsHalted = false) (hring : s.port.winRing = true)
    (ha : s.port.ptr < 0x200000) (hstart : ringStart s s.port.ptr = some a) : ∃ t, exec i s = .next t ∧ t.port.ptr = a := by
  obtain ⟨u, d, hu, hexec⟩ := exec_window_outside hs hhalt (Or.inl ha) hi
  refine ⟨_, hexec, ?_⟩
  obtain ⟨-, hptr, hinc', hring', -, -⟩ := id hu
  rw [movePointer_round (a := a) (hinc'.trans hinc) (hring'.trans hring) (by rw [hptr, ringStart_windowFrame hu, hstart])]
  rfl

/-- An access at the end of a region that RING does not turn back crosses over or halts (R66, R67). -/
theorem exec_window_last {s : State} {i : Instr} (hs : PortLive s) (hinc : s.port.winInc = true)
    (hi : i = .winDataRead ∨ ∃ v, i = .winDataWrite v) (hhalt : s.port.wsHalted = false) (hlast : s.port.ptr = regionLast s.port.ptr)
    (hring : s.port.winRing = true → ringStart s s.port.ptr = none) : ∃ t, exec i s = .next t ∧
      t = { s with mem := t.mem, scrub := t.scrub, port := t.port } ∧
      (s.port.winEdge = false → t.port.wsCrossed = true ∧ t.port.wsHalted = false ∧ t.port.ptr = (s.port.ptr + 1) % 2 ^ 24) ∧
      (s.port.winEdge = true → t.port.wsHalted = true ∧ t.port.ptr = s.port.ptr) := by
  obtain ⟨u, d, hu, hexec⟩ := exec_window_outside hs hhalt (regionLast_outside hlast) hi
  refine ⟨_, hexec, ?_⟩
  obtain ⟨hframe, hptr, hinc', hring', hedge', hhalt'⟩ := id hu
  rw [movePointer_last (hinc'.trans hinc) (by rw [hptr]; exact hlast)
    (by rw [hptr, hring', ringStart_windowFrame hu]; exact hring), hedge']
  cases hedge : s.port.winEdge
  · obtain ⟨h1, h2, h3, h4⟩ := flagCrossed_port { u with port := { u.port with ptr := (u.port.ptr + 1) % 2 ^ 24 } }
    refine ⟨?_, fun _ => ⟨h1, h2.trans (hhalt'.trans hhalt), h3.trans (by rw [hptr])⟩, nofun⟩
    simp only [Bool.false_eq_true, if_false, shown]
    rw [h4, hframe]
  · obtain ⟨h1, h2, h3⟩ := flagHalted_port u
    refine ⟨?_, nofun, fun _ => ⟨h1, h2.trans hptr⟩⟩
    simp only [if_true, shown]
    rw [h3, hframe]

/-- While HALTED is 1 an access moves nothing (R67). -/
theorem exec_window_halted {s : State} (hs : PortLive s) (hhalt : s.port.wsHalted = true) (v : Byte) :
    exec .winDataRead s = .next { s with port := { s.port with ack := true, data := 0 } } ∧
      exec (.winDataWrite v) s = .next { s with port := { s.port with ack := true } } := by
  refine ⟨congrArg Host.Outcome.next ?_, congrArg Host.Outcome.next ?_⟩
  · rw [readCycle_live hs, show readReg 0x0B s = winDataRead s from rfl, winDataRead, hhalt]
    rfl
  · rw [writeCycle_live hs, show writeReg 0x0B v s = winDataWrite s v from rfl, winDataWrite, hhalt]
    rfl

/-- The last byte of the only slot's ring is followed by its first. -/
theorem ringStart_slot {s : State} {n : Nat} {x : Slot} {a : Nat} (hslot : s.slots.slots = [(n, x)]) (hopen : x.isOpen = true)
    (ha : a < 0x100000) (hend : a + 1 = x.ringBase + ringSize x) : ringStart s a = some x.ringBase := by
  have h1 : a ≠ 0x1FBFFF := by omega
  have h2 : a ≠ 0x1FDFFF := by omega
  simp only [ringStart, h1, h2, if_false, ha, if_true, hslot, List.find?, hopen, hend, beq_self_eq_true, Bool.true_and, Option.map]

/-- Settles O6: the staged writes and the load are rows of `writeReg`; an access is `exec_window_last` or `exec_window_round` by where the
pointer stands. -/
theorem windowPointerLoadsAndStops : Obligations.WindowPointerLoadsAndStops := by
  refine ⟨fun s v hs => ?_, fun s i hs hinc _ hi => ⟨fun hhalt hlast hring => exec_window_last hs hinc hi hhalt hlast hring, fun hhalt hring => ?_⟩,
    fun s v hs hhalt => exec_window_halted hs hhalt v⟩
  · have write (off : Nat) := next_writeCycle_live hs off v
    exact ⟨write 0x08, write 0x09, write 0x0A, rfl, rfl, rfl⟩
  · have round (a : Nat) := exec_window_round (a := a) hs hinc hi hhalt hring
    refine ⟨fun hp => round _ (by omega) ?_, fun hp => round _ (by omega) ?_, fun n x hslot hopen hp hend => round _ (by omega) ?_⟩
    · rw [hp]; rfl
    · rw [hp]; rfl
    · exact ringStart_slot hslot hopen hp hend

/-! The object blocks -/

/-- An access inside an object block that leaves the port shows the byte and moves the pointer on. -/
theorem readCycle_block {s : State} {a : Nat} {b : Byte} (h : WindowAt s a) (ha : 0x200000 ≤ a) (hb : blockRead s a = some b)
    (hport : (afterBlockRead a s).port = s.port) : readCycle 0x0B s = stepped (afterBlockRead a s) b := by
  obtain ⟨hs, hptr, hhalt, hinc, hring, hlast⟩ := h
  have hread : windowRead s s.port.ptr = (b, afterBlockRead a s) := by
    rw [hptr, windowRead, if_neg (by simp; omega), if_neg (by omega), hb]
  have hmove : movePointer (afterBlockRead a s) = { afterBlockRead a s with port := { s.port with ptr := s.port.ptr + 1 } } := by
    rw [movePointer_inside] <;> simp only [hport, hptr, hinc, hring, hlast, ne_eq, not_false_eq_true]
  rw [readCycle_live hs, show readReg 0x0B s = winDataRead s from rfl, winDataRead, hhalt]
  simp only [Bool.false_eq_true, if_false, hread, hmove, stepped, acked, hport]

/-- A write inside an object block whose field takes it. -/
theorem writeCycle_block {s t : State} {a : Nat} {b v : Byte} (h : WindowAt s a) (ha : 0x200000 ≤ a) (hb : blockRead s a = some b)
    (hw : blockWrite s a v = some t) (hport : t.port = s.port) :
    writeCycle 0x0B v s = { t with port := { s.port with ack := true, ptr := s.port.ptr + 1 } } := by
  obtain ⟨hs, hptr, hhalt, hinc, hring, hlast⟩ := h
  have hwrite : windowWrite s s.port.ptr v = t := by
    rw [hptr, windowWrite]
    repeat rw [if_neg (by omega)]
    rw [hb]
    simp only [hw]
  have hmove : movePointer t = { t with port := { s.port with ptr := s.port.ptr + 1 } } := by
    rw [movePointer_inside] <;> simp only [hport, hptr, hinc, hring, hlast, ne_eq, not_false_eq_true]
  rw [writeCycle_live hs, show writeReg 0x0B v s = winDataWrite s v from rfl, winDataWrite, hhalt]
  simp only [Bool.false_eq_true, if_false, hwrite, hmove, acked]

theorem byteOf_zero (n : Nat) : byteOf n 0 = lowByte n := by simp [byteOf, lowByte]

/-- A lane's statistics block stands at 0x300000 + 0x40 a lane. -/
theorem blockRead_statistics {n o : Nat} (hn : n < 64) (ho : o < 0x40) (s : State) :
    blockRead s (0x300000 + 0x40 * n + o) = some (statByte s n o) := by
  unfold blockRead
  simp only [Bool.and_eq_true, decide_eq_true_eq]
  repeat rw [if_neg (by omega)]
  rw [if_pos (by omega), show (0x300000 + 0x40 * n + o - 0x300000) / 0x40 = n by omega, show (0x300000 + 0x40 * n + o) % 0x40 = o by omega]

/-- The read of byte 0x00 latches the block's first 0x30 bytes (R245). -/
theorem afterBlockRead_statistics {n : Nat} (hn : n < 64) (s : State) : afterBlockRead (0x300000 + 0x40 * n) s =
    { s with statLatch := { lane := some n, bytes := (List.range 0x30).map (fieldByte (statFields s n)) } } := by
  unfold afterBlockRead
  simp only [Bool.and_eq_true, decide_eq_true_eq]
  rw [if_pos (by omega), show (0x300000 + 0x40 * n - 0x300000) / 0x40 = n by omega]

/-- A latched byte is read from the latch, whatever the lane does (R245). -/
theorem statByte_latched {u s : State} {n o : Nat} (h0 : 0 < o) (ho : o < 0x30)
    (hl : u.statLatch = { lane := some n, bytes := (List.range 0x30).map (fieldByte (statFields s n)) }) :
    statByte u n o = fieldByte (statFields s n) o := by
  have hcond : (u.statLatch.lane = some n && 1 ≤ o && o < 0x30) = true := by simp [hl, ho, Nat.one_le_iff_ne_zero]; omega
  rw [statByte, if_pos hcond, hl]
  simp [List.getD_eq_getElem?_getD, ho]

/-- Settles O9: the three clearing fields stand at one address each, and byte 0x00 of a statistics block is the block's latch. -/
theorem blockReadsClearAndLatch : Obligations.BlockReadsClearAndLatch := by
  refine ⟨fun s => ⟨fun h => ?_, fun h => ?_, fun h => ?_⟩, fun s n hn h => ?_⟩
  · rw [← byteOf_zero]
    exact congrArg _ (readCycle_block h (by decide) rfl rfl)
  · exact congrArg _ (readCycle_block h (by decide) rfl rfl)
  · exact congrArg _ (readCycle_block h (by decide) rfl rfl)
  · have hlatch := afterBlockRead_statistics hn s
    have hread := readCycle_block h (by omega) (blockRead_statistics hn (o := 0) (by decide) s) (by rw [hlatch])
    refine ⟨_, congrArg Host.Outcome.next hread, ?_⟩
    rw [hlatch]
    have hgen : statByte s n 0 = lowByte (laneOf s n).last.gen := by
      rw [← byteOf_zero, statByte, if_neg (by simp)]
      rfl
    refine ⟨rfl, hgen, rfl, fun u o h0 ho hu => ?_⟩
    rw [blockRead_statistics hn (by omega), statByte_latched h0 ho hu]

/-- A live port whose window stands at the first byte of slot 0's PROD, with a latch that no run builds: it holds a byte of its own for that
place, where `afterBlockRead` latches the three bytes above it alone. -/
def prodLatchState : State :=
  { port := { ptr := 0x240014 }, slots := { latch := some { slot := 0, bytes := [(0x14, 1)] } } }

/-- Refutes O10: the statement takes every state, and in one whose PROD latch holds a byte for offset 0x14 itself that byte is read, 1, where
PROD's first byte is 0. -/
theorem not_consumerPointersStayInTheirRings : ¬ Obligations.ConsumerPointersStayInTheirRings := by
  intro h
  have hat : WindowAt prodLatchState (0x240000 + 0x40 * 0 + 0x14) := by decide
  obtain ⟨t, hexec, hdata, -⟩ := (h.1 prodLatchState 0 (by decide)).1 hat
  have hread : readCycle 0x0B prodLatchState = t := Host.Outcome.next.inj hexec
  have hone : (readCycle 0x0B prodLatchState).port.data = 1 := by
    rw [readCycle_block hat (b := 1) (by decide) rfl rfl]
    rfl
  rw [hread, hdata] at hone
  exact absurd hone (by decide)

end Sys2Proof.Machine

/-!
PROOFS. The supply and presence rows (O18), and the state right after reset (O59).
-/
namespace Sys2Proof.Machine

/-- Settles O18: each row writes its own bits of `power`; the two that raise an interrupt do so while READY is 1. -/
theorem supplyEventsChangeTheirBits : Obligations.SupplyEventsChangeTheirBits := by
  refine fun s v => ⟨rfl, rfl, rfl, rfl, fun h => ⟨?_, ?_⟩, rfl, fun h => ?_, fun h hready => ?_, fun h => next_writeCycle_live h 0x2F v,
    fun hlow hcharging hready => ?_, fun hlow => ?_⟩
  · simp only [exec, execPowerGood, h]
    simp
  · simp only [exec, execPowerGood, h]
    simp
  · simp only [exec, execPfWarning, h, if_true]
  · simp only [exec, execPfWarning, h, Bool.false_eq_true, if_false, raise, ready, hready]
    rfl
  · simp only [exec, execHoldOk, hlow, hcharging, Bool.and_self, if_true, raise, ready, hready]
    rfl
  · simp only [exec, execHoldOk, hlow, Bool.false_and, Bool.false_eq_true, if_false]

/-- Settles O59: no command has been issued, and the working SRAM holds no cell. -/
theorem invariantAtReset : Obligations.InvariantAtReset :=
  ⟨rfl, rfl, rfl, rfl, ⟨List.Pairwise.nil, fun _ h => nomatch h⟩, rfl⟩

end Sys2Proof.Machine

/-!
PROOFS. What every row of the command ring but TUNE does at its first two checks, and that it waits where its command may not start (O14, O15).
-/
namespace Sys2Proof.Machine

/-- The first two checks of a ring command (R81, R6): its object is of a kind that the opcode accepts, and FLAGS has no reserved bit. -/
structure FirstChecks (check : State → Cmd → Option Reply) (obj : Nat) : Prop where
  unknownKind : ∀ s c, cmdKind c = 15 → check s c = some (0x11, [])
  reservedFlag : ∀ s c, cmdObj c = obj → 8 ≤ cmdFlags c → check s c = some (0x12, [3])

/-- A row of the ring: it waits where its command may not start, and a failing check completes it. -/
def RingRow (i : Instr) (seq op obj : Nat) : Prop :=
  ∃ check, FirstChecks check obj ∧ (∀ s, startable s seq op = none → exec i s = .next (rowEnd i s)) ∧
    ∀ s c r, startable s seq op = some c → check s c = some r → exec i s = .next (rowEnd i (complete seq r.1 r.2 s))

theorem needHeader_reserved {c : Cmd} (h : 8 ≤ cmdFlags c) (rest : List (Option Reply)) :
    firstFail (needHeader c ++ rest) = some (0x12, [3]) := by
  simp [needHeader, needField, Nat.not_lt.mpr h, failUnless, lowByte]

/-- A check that asks for the object first and for FLAGS next. -/
theorem FirstChecks.of_shape {check : State → Cmd → Option Reply} {obj : Nat} (first : Cmd → Option Reply)
    (shape : ∀ s c, ∃ rest, check s c = firstFail (first c :: (needHeader c ++ rest)))
    (h15 : ∀ c, cmdKind c = 15 → first c = some (0x11, [])) (hobj : ∀ c, cmdObj c = obj → first c = none) : FirstChecks check obj where
  unknownKind s c hc := by
    obtain ⟨rest, hrest⟩ := shape s c
    rw [hrest, h15 c hc, firstFail_some]
  reservedFlag s c hc hflags := by
    obtain ⟨rest, hrest⟩ := shape s c
    rw [hrest, hobj c hc, firstFail_none, needHeader_reserved hflags]

theorem needObject_fails {kinds : List Nat} {c : Cmd} (h : kinds.contains (cmdKind c) = false) : needObject kinds c = some (0x11, []) := by
  simp only [needObject, objectOk, h, Bool.false_and, failUnless_false]

theorem needObject_passes {kinds : List Nat} {c : Cmd} {obj : Nat} (hc : cmdObj c = obj)
    (h : (kinds.contains (obj / 4096) && decide (obj % 4096 < objectCount (obj / 4096))) = true) : needObject kinds c = none := by
  subst hc
  exact congrArg (failUnless · (0x11, [])) h

theorem FirstChecks.of_kinds {check : State → Cmd → Option Reply} {obj : Nat} {kinds : List Nat}
    (shape : ∀ s c, ∃ rest, check s c = firstFail (needObject kinds c :: (needHeader c ++ rest)))
    (h15 : kinds.contains 15 = false)
    (hobj : (kinds.contains (obj / 4096) && decide (obj % 4096 < objectCount (obj / 4096))) = true) : FirstChecks check obj :=
  .of_shape (needObject kinds) shape (fun _ hc => needObject_fails (by rw [hc]; exact h15)) fun _ hc => needObject_passes hc hobj

/-- Most rows: the general start of a command (R81 to R88). -/
theorem RingRow.of_startCmd {i : Instr} {seq op obj : Nat} {check : State → Cmd → Option Reply} (run : State → Cmd → State)
    (hexec : ∀ s, exec i s = .next (rowEnd i (startCmd s seq op check run))) (h : FirstChecks check obj) : RingRow i seq op obj :=
  ⟨check, h, fun s hs => by rw [hexec, startCmd_waits run hs], fun s c r hs hr => by rw [hexec, startCmd_fails run hs hr]⟩

theorem recordArea_first : (∀ c, cmdKind c = 15 → needRecordArea c = some (0x11, [])) ∧ ∀ c, cmdObj c = 0xB000 → needRecordArea c = none := by
  refine ⟨fun c hc => ?_, fun c hc => ?_⟩
  · have : cmdObj c ≠ 0xB000 := fun h => by simp [cmdKind, h] at hc
    simp [needRecordArea, this, failUnless]
  · simp [needRecordArea, hc, failUnless]

theorem shadowArray_first : (∀ c, cmdKind c = 15 → needShadowArray c = some (0x11, [])) ∧ ∀ c, cmdObj c = 0xB001 → needShadowArray c = none := by
  refine ⟨fun c hc => ?_, fun c hc => ?_⟩
  · have : cmdObj c ≠ 0xB001 := fun h => by simp [cmdKind, h] at hc
    simp [needShadowArray, this, failUnless]
  · simp [needShadowArray, hc, failUnless]

theorem FirstChecks.of_recordArea {check : State → Cmd → Option Reply}
    (shape : ∀ s c, ∃ rest, check s c = firstFail (needRecordArea c :: (needHeader c ++ rest))) : FirstChecks check 0xB000 :=
  .of_shape needRecordArea shape recordArea_first.1 recordArea_first.2

theorem FirstChecks.of_shadowArray {check : State → Cmd → Option Reply}
    (shape : ∀ s c, ∃ rest, check s c = firstFail (needShadowArray c :: (needHeader c ++ rest))) : FirstChecks check 0xB001 :=
  .of_shape needShadowArray shape shadowArray_first.1 shadowArray_first.2

theorem execBarrier_ringRow (seq : Nat) : RingRow (.barrier seq) seq 0x01 0 := by
  refine ⟨fun _ => checkBarrier, .of_kinds (kinds := [0]) (fun s c => ⟨_, rfl⟩) rfl rfl, fun s hs => ?_, fun s c r hs hr => ?_⟩
  · simp only [exec, execBarrier, hs]
    rfl
  · simp only [exec, execBarrier, hs, hr]
    rfl

theorem execCalRun_ringRow (seq : Nat) : RingRow (.calRun seq) seq 0x30 0x2000 := by
  refine ⟨checkCalRun, .of_kinds (kinds := [2, 3, 7]) (fun s c => ⟨_, rfl⟩) rfl rfl, fun s hs => ?_, fun s c r hs hr => ?_⟩
  · simp only [exec, execCalRun, hs]
    rfl
  · simp only [exec, execCalRun, hs, hr]
    rfl

theorem execSelftest_ringRow (seq : Nat) : RingRow (.selftest seq) seq 0x31 0 := by
  refine ⟨checkSelftest, .of_kinds (kinds := [0, 1, 2, 11]) (fun s c => ⟨_, rfl⟩) rfl rfl, fun s hs => ?_, fun s c r hs hr => ?_⟩
  · simp only [exec, execSelftest, hs]
    rfl
  · simp only [exec, execSelftest, hs, hr]
    rfl

/-- LANE_SYNC asks for the path's index between the two checks. -/
theorem checkLaneSync_first : FirstChecks checkLaneSync 0x2000 where
  unknownKind s c hc := by
    simp only [checkLaneSync, needObject_fails (kinds := [2]) (c := c) (by rw [hc]; rfl), List.cons_append, firstFail_some]
  reservedFlag s c hc hflags := by
    have hidx : failUnless (decide (cmdIdx c < 2)) (0x11, []) = none := by simp [cmdIdx, hc, failUnless]
    simp only [checkLaneSync, needObject_passes (kinds := [2]) hc rfl, hidx, List.cons_append, firstFail_none, List.append_assoc,
      needHeader_reserved hflags]

/-- Each row of the ring but TUNE asks for its object and for FLAGS first, and waits where its command may not start. -/
theorem ringRows_ringRow (seq : Nat) (m : Int) (e : Nat) : ∀ r ∈ ringRows seq m e, RingRow r.1 seq r.2.1 r.2.2 := by
  simp only [ringRows, List.forall_mem_append, List.forall_mem_cons, List.not_mem_nil, false_imp_iff, implies_true, and_true]
  have start {i : Instr} {op obj : Nat} {check : State → Cmd → Option Reply} {run : State → Cmd → State} (kinds : List Nat)
      (hexec : ∀ s, exec i s = .next (rowEnd i (startCmd s seq op check run)))
      (shape : ∀ s c, ∃ rest, check s c = firstFail (needObject kinds c :: (needHeader c ++ rest))) (h15 : kinds.contains 15 = false)
      (hobj : (kinds.contains (obj / 4096) && decide (obj % 4096 < objectCount (obj / 4096))) = true) : RingRow i seq op obj :=
    .of_startCmd run hexec (.of_kinds shape h15 hobj)
  refine ⟨⟨execBarrier_ringRow seq, ?abort, ?laneBind, ?laneSet, .of_startCmd _ (fun _ => rfl) checkLaneSync_first, ?engineAttach, ?tasteArm,
    ?tasteView, ?slotOpen, ?slotClose, ?dateSet, ?timeVoteCfg, execCalRun_ringRow seq, execSelftest_ringRow seq, ?linkRx, ?linkTx⟩,
    ?pair, ?sessionCfg, ?releaseStart, ?releaseStop, ?sapCfg, ?sapStart, ?sapStop, .of_startCmd _ (fun _ => rfl) (.of_recordArea fun _ _ => ⟨_, rfl⟩),
    .of_startCmd _ (fun _ => rfl) (.of_recordArea fun _ _ => ⟨_, rfl⟩), .of_startCmd _ (fun _ => rfl) (.of_recordArea fun _ _ => ⟨_, rfl⟩),
    .of_startCmd _ (fun _ => rfl) (.of_shadowArray fun _ _ => ⟨_, rfl⟩), .of_startCmd _ (fun _ => rfl) (.of_shadowArray fun _ _ => ⟨_, rfl⟩),
    .of_startCmd _ (fun _ => rfl) (.of_shadowArray fun _ _ => ⟨_, rfl⟩), ?protectSet, ?unlock⟩
  case abort => exact start [0] (fun _ => rfl) (fun _ _ => ⟨_, by simp only [checkAbort, List.cons_append, List.append_assoc]; rfl⟩) rfl rfl
  case laneBind => exact start [1] (fun _ => rfl) (fun _ _ => ⟨_, by simp only [checkLaneBind, List.cons_append, List.append_assoc]; rfl⟩) rfl rfl
  case laneSet => exact start [1] (fun _ => rfl) (fun _ _ => ⟨_, by simp only [checkLaneSet, List.cons_append, List.append_assoc]; rfl⟩) rfl rfl
  case engineAttach => exact start [1] (fun _ => rfl) (fun _ _ => ⟨_, by simp only [checkEngineAttach, List.cons_append, List.append_assoc]; rfl⟩) rfl rfl
  case tasteArm => exact start [4] (fun _ => rfl) (fun _ _ => ⟨_, by simp only [checkTasteArm, List.cons_append, List.append_assoc]; rfl⟩) rfl rfl
  case tasteView => exact start [4] (fun _ => rfl) (fun _ _ => ⟨_, by simp only [checkTasteView, List.cons_append, List.append_assoc]; rfl⟩) rfl rfl
  case slotOpen => exact start [5] (fun _ => rfl) (fun _ _ => ⟨_, by simp only [checkSlotOpen, List.cons_append]; rfl⟩) rfl rfl
  case slotClose => exact start [5] (fun _ => rfl) (fun _ _ => ⟨_, by simp only [checkSlotClose, List.cons_append, List.append_assoc]; rfl⟩) rfl rfl
  case dateSet => exact start [6] (fun _ => rfl) (fun _ _ => ⟨_, by simp only [checkDateSet, List.cons_append, List.append_assoc]; rfl⟩) rfl rfl
  case timeVoteCfg => exact start [6] (fun _ => rfl) (fun _ _ => ⟨_, by simp only [checkTimeVoteCfg, List.cons_append, List.append_assoc]; rfl⟩) rfl rfl
  case linkRx => exact start [7] (fun _ => rfl) (fun _ _ => ⟨_, by simp only [checkLinkRx, List.cons_append, List.append_assoc]; rfl⟩) rfl rfl
  case linkTx => exact start (run := fun s c => serve (pushTx (newTx (.host c.seq) (some m)) s)) [7] (fun _ => rfl) (fun _ _ => ⟨_, by simp only [checkLinkTx, List.cons_append, List.append_assoc]; rfl⟩) rfl rfl
  case pair => exact start [8] (fun _ => rfl) (fun _ _ => ⟨_, by simp only [checkPair, List.cons_append, List.append_assoc]; rfl⟩) rfl rfl
  case sessionCfg => exact start [8] (fun _ => rfl) (fun _ _ => ⟨_, by simp only [checkSessionCfg, List.cons_append, List.append_assoc]; rfl⟩) rfl rfl
  case releaseStart => exact start [9] (fun _ => rfl) (fun _ _ => ⟨_, by simp only [checkReleaseStart, List.cons_append, List.append_assoc]; rfl⟩) rfl rfl
  case releaseStop => exact start [9] (fun _ => rfl) (fun _ _ => ⟨_, by simp only [checkReleaseStop, List.cons_append, List.append_assoc]; rfl⟩) rfl rfl
  case sapCfg => exact start [10] (fun _ => rfl) (fun _ _ => ⟨_, by simp only [checkSapCfg, List.cons_append, List.append_assoc]; rfl⟩) rfl rfl
  case sapStart => exact start [10] (fun _ => rfl) (fun _ _ => ⟨_, by simp only [checkSapStart, List.cons_append, List.append_assoc]; rfl⟩) rfl rfl
  case sapStop => exact start [10] (fun _ => rfl) (fun _ _ => ⟨_, by simp only [checkSapStop, List.cons_append, List.append_assoc]; rfl⟩) rfl rfl
  case protectSet => exact start [11] (fun _ => rfl) (fun _ _ => ⟨_, by simp only [checkProtectSet, List.cons_append, List.append_assoc]; rfl⟩) rfl rfl
  case unlock => exact start [11] (fun _ => rfl) (fun _ _ => ⟨_, by simp only [checkUnlock, List.cons_append, List.append_assoc]; rfl⟩) rfl rfl

theorem RingRow.of_mem {seq : Nat} {m : Int} {e : Nat} {i : Instr} {op obj : Nat} (h : (i, op, obj) ∈ ringRows seq m e) :
    RingRow i seq op obj := ringRows_ringRow seq m e _ h

/-- Settles O14: the row's own check answers with its first failure, with which the command completes. -/
theorem firstFailureIsReported : Obligations.FirstFailureIsReported := by
  intro s seq c m e i obj hi hc
  obtain ⟨check, hfirst, -, hfails⟩ := RingRow.of_mem hi
  exact ⟨fun h => hfails s c (0x11, []) hc (hfirst.unknownKind s c h), fun hobj h => hfails s c (0x12, [3]) hc (hfirst.reservedFlag s c hobj h)⟩

/-! Commands that may not start -/

/-- What keeps a command but ABORT from starting (R84 to R86). -/
theorem mayStart_held {before : List Cmd} {c : Cmd} (hop : cmdOp c ≠ 0x02)
    (h : (cmdObj c ≠ 0 ∧ ∃ b, b ∈ before ∧ cmdObj b = cmdObj c) ∨ (cmdOrder c = 2 ∧ before ≠ []) ∨
      ∃ b, b ∈ before ∧ cmdOp b = 0x01 ∧ b.phase = .waiting ∧ bit (par b 8) 0 = true) : mayStart before c = false := by
  have hop' : (cmdOp c == 0x02) = false := by simpa using hop
  simp only [mayStart, hop', Bool.false_or]
  rcases h with ⟨hobj, b, hb, hbc⟩ | ⟨horder, hne⟩ | ⟨b, hb, hbop, hbphase, hbit⟩
  · have : objectFree before c = false := by
      simp only [objectFree, hop', Bool.false_or, Bool.or_eq_false_iff, Bool.not_eq_false', List.any_eq_true, beq_iff_eq]
      exact ⟨by simpa using hobj, b, hb, hbc⟩
    simp only [this, Bool.false_and, Bool.and_false]
  · have : orderFree before c = false := by simpa [orderFree, horder] using hne
    simp only [this, Bool.false_and, Bool.and_false]
  · have : notHeld before = false := by
      simp only [notHeld, Bool.not_eq_false', List.any_eq_true, Bool.and_eq_true, beq_iff_eq]
      exact ⟨b, hb, ⟨hbop, hbphase⟩, hbit⟩
    simp only [this, Bool.false_and, Bool.and_false]

/-- A command that is held does not start, whatever opcode its row has. -/
theorem startable_held {s : State} {seq op : Nat} (h : ∀ c, findCmd s seq = some c → cmdOp c = op → mayStart (earlier s.rings.inflight seq) c = false) :
    startable s seq op = none := by
  rcases hc : startable s seq op with _ | c
  · rfl
  · obtain ⟨hfind, -, hop, hmay⟩ := startable_spec hc
    rw [h c hfind hop] at hmay
    cases hmay

theorem startable_not_ready {s : State} {seq op : Nat} (h : s.power.phase ≠ .ready) : startable s seq op = none := by
  rcases hc : startable s seq op with _ | c
  · rfl
  · exact absurd (by simpa [ready] using (startable_spec hc).2.1) h

/-- Settles O15: each of the listed conditions leaves the command not startable, and then its row waits. -/
theorem heldCommandsDoNotStart : Obligations.HeldCommandsDoNotStart := by
  intro s seq m e op obj i hi h
  obtain ⟨-, -, hwaits, -⟩ := RingRow.of_mem hi
  apply hwaits
  rcases h with hnone | hready | ⟨hop, c, hc, hobj, hb⟩ | ⟨hop, c, hc, horder⟩ | ⟨hop, hb⟩
  · exact startable_held fun c hc => by rw [hnone] at hc; cases hc
  · exact startable_not_ready hready
  · refine startable_held fun d hd hdop => mayStart_held (by rwa [hdop]) (.inl ?_)
    obtain rfl : c = d := Option.some.inj (hc.symm.trans hd)
    exact ⟨hobj, hb⟩
  · refine startable_held fun d hd hdop => mayStart_held (by rwa [hdop]) (.inr (.inl ?_))
    obtain rfl : c = d := Option.some.inj (hc.symm.trans hd)
    exact horder
  · exact startable_held fun d _ hdop => mayStart_held (by rwa [hdop]) (.inr (.inr hb))

end Sys2Proof.Machine

/-!
PROOFS. BARRIER and ABORT (O58): what posting a completion leaves of the rings and the memory, and the sweep after an ABORT of a command that has
not started.
-/
namespace Sys2Proof.Machine

@[simp] theorem devPuts_mem (s : State) (a : Nat) (bs : List Byte) : (devPuts s a bs).mem = cellPuts s.mem a bs := by
  rw [devPuts, touchRows_frame]
  rfl

@[simp] theorem devPuts_rings (s : State) (a : Nat) (bs : List Byte) : (devPuts s a bs).rings = s.rings := by
  rw [devPuts_frame]

theorem raiseIf_mem (b : Bool) (q : Irq) (s : State) : (raiseIf b q s).mem = s.mem := by
  rw [raiseIf_frame]

/-- A posted completion takes the next entry of the ring and its command out of flight (R78, R94). -/
theorem post_rings (s : State) (c : Cmd) (status : Nat) (result : List Byte) :
    (post s c status result).rings = { s.rings with
      ccProd := (s.rings.ccProd + 1) % 512, unread := s.rings.unread + 1,
      inflight := (s.rings.inflight.eraseP fun d => d.seq == c.seq).map (tellAborts c.seq (status == 0x20)) } := by
  simp only [post, raiseIf_rings, devPuts_rings]

theorem post_mem (s : State) (c : Cmd) (status : Nat) (result : List Byte) :
    (post s c status result).mem = cellPuts s.mem (0x1FC000 + 16 * s.rings.ccProd) (entryBytes c status result) := by
  simp only [post, raiseIf_mem, devPuts_mem]

theorem sweepN_reply {n : Nat} {s : State} {c : Cmd} {r : Reply} (h : nextRingReply [] s.rings.inflight = some (c, r)) :
    sweepN (n + 1) s = sweepN n (post s c r.1 r.2) := by
  simp only [sweepN, h]

/-! Checks that pass -/

/-- A command passes its checks where each of them passes (R88). -/
theorem firstFail_eq_none {xs : List (Option Reply)} : firstFail xs = none ↔ ∀ x ∈ xs, x = none := by
  induction xs with
  | nil => simp
  | cons x xs ih => cases x <;> simp [ih]

@[simp] theorem failUnless_eq_none {ok : Bool} {r : Reply} : failUnless ok r = none ↔ ok = true := by cases ok <;> simp

@[simp] theorem needField_eq_none {k : Nat} {ok : Bool} : needField k ok = none ↔ ok = true := failUnless_eq_none

@[simp] theorem needState_eq_none {k : Nat} {ok : Bool} : needState ok k = none ↔ ok = true := failUnless_eq_none

@[simp] theorem needLimit_eq_none {k : Nat} {ok : Bool} : needLimit ok k = none ↔ ok = true := failUnless_eq_none

@[simp] theorem needIdle_eq_none {k : Nat} {ok : Bool} : needIdle ok k = none ↔ ok = true := failUnless_eq_none

@[simp] theorem needAccess_eq_none {r : List Byte} {ok : Bool} : needAccess ok r = none ↔ ok = true := failUnless_eq_none

@[simp] theorem needMode_eq_none {s : State} {modes : List Nat} : needMode s modes = none ↔ s.modes.modeNow ∈ modes := by
  simp [needMode, modeNow]

theorem needHeader_none {c : Cmd} (h : HeaderOk c) : ∀ x ∈ needHeader c, x = none := by
  rw [← firstFail_eq_none, ← List.append_nil (needHeader c), firstFail_needHeader h, firstFail_nil]

/-- A ring command with a sound object and header passes its checks where the rest of them pass. -/
theorem checks_pass {kinds : List Nat} {k : Nat} {c : Cmd} {rest : List (Option Reply)} (hn : Names c k) (hk : kinds.contains k = true)
    (hh : HeaderOk c) (hrest : ∀ x ∈ rest, x = none) : firstFail (needObject kinds c :: (needHeader c ++ rest)) = none := by
  rw [needObject_none hn hk, firstFail_none, firstFail_needHeader hh, firstFail_eq_none]
  exact hrest

/-- One zero byte, as the checks of a range ask for it. -/
theorem zeroBytes_single {c : Cmd} {k : Nat} (h : par c k = 0) : ZeroBytes c k k := fun i hi hle => by
  obtain rfl : i = k := by have := List.mem_range.mp hi; omega
  exact h

theorem checkBarrier_none {c : Cmd} (hn : Names c 0) (hh : HeaderOk c) (h8 : par c 8 < 2) (hz : ZeroBytes c 9 31) : checkBarrier c = none := by
  simp only [checkBarrier, List.cons_append, List.append_assoc]
  refine checks_pass hn rfl hh ?_
  simpa [h8] using needZeros_none hz

theorem checkAbort_none {c : Cmd} (hn : Names c 0) (hh : HeaderOk c) (h8 : par c 8 < 4) (h9 : par c 9 = 0) (hz : ZeroBytes c 12 31)
    (s : State) : checkAbort s c = none := by
  simp only [checkAbort, List.cons_append, List.append_assoc]
  refine checks_pass hn rfl hh ?_
  simp only [List.nil_append, List.forall_mem_cons, List.forall_mem_append, needField_eq_none, decide_eq_true_eq]
  exact ⟨h8, needZeros_none (zeroBytes_single h9), needZeros_none hz⟩

/-! The two commands -/

theorem execBarrier_starts {s : State} {c : Cmd} (hn : Names c 0) (hr : MayRun s c.seq 0x01 c) (h8 : par c 8 < 2) (hz : ZeroBytes c 9 31) :
    exec (.barrier c.seq) s = .next (if (earlier s.rings.inflight c.seq).isEmpty then complete c.seq 0x00 [] s else s) := by
  obtain ⟨hstart, hh⟩ := hr
  simp only [exec, execBarrier, hstart, checkBarrier_none hn hh h8 hz]

theorem execAbort_starts {s : State} {c : Cmd} (hn : Names c 0) (hr : MayRun s c.seq 0x02 c) (h8 : par c 8 < 4) (h9 : par c 9 = 0)
    (hz : ZeroBytes c 12 31) : exec (.abort c.seq) s = .next (runAbort (runs s c.seq) c) :=
  congrArg Host.Outcome.next (startCmd_runs runAbort hr.1 (checkAbort_none hn hr.2 h8 h9 hz s))

/-- The ABORT as it stands in flight while it runs, with the commands it waits for. -/
def abortRunning (c : Cmd) (waitFor : List Nat) : Cmd :=
  { c with phase := .running, selected := waitFor.length, abortedCount := 0, waitFor := waitFor }

/-- A state whose rings hold these commands, and which is `s` elsewhere. -/
def withFlight (s : State) (cs : List Cmd) : State := { s with rings := { s.rings with inflight := cs } }

/-- An ABORT whose commands have all been told completes with its two counts (R94, R95). -/
theorem ringReply_abort {c : Cmd} (before : List Cmd) (hop : cmdOp c = 0x02) (hphase : c.phase = .running) (hwait : c.waitFor = [])
    {r : List Byte} (hr : leBytes c.selected 2 ++ leBytes c.abortedCount 2 = r) : ringReply before c = some (0x00, r) := by
  simp only [ringReply, hphase, hop, hwait, beq_self_eq_true, List.isEmpty_nil, Bool.and_self, if_true, hr]

/-- The only command in flight completes, and then none is left. -/
theorem sweep_last {s : State} {c : Cmd} {r : Reply} (hflight : s.rings.inflight = [c]) (hr : ringReply [] c = some r) :
    sweep s = post s c r.1 r.2 := by
  rw [sweep, hflight]
  exact sweepN_reply (by simp only [hflight, nextRingReply, hr])

theorem sweep_two {s : State} {b c : Cmd} {r q : Reply} (hflight : s.rings.inflight = [b, c])
    (hr : ringReply [] b = some r) (hq : ringReply [] (tellAborts b.seq (r.1 == 0x20) c) = some q) :
    sweep s = post (post s b r.1 r.2) (tellAborts b.seq (r.1 == 0x20) c) q.1 q.2 := by
  have hleft : (post s b r.1 r.2).rings.inflight = [tellAborts b.seq (r.1 == 0x20) c] := by
    rw [post_rings]
    simp [hflight]
  rw [sweep, hflight, List.length_cons, List.length_singleton, sweepN_reply (by simp only [hflight, nextRingReply, hr]; rfl)]
  exact sweepN_reply (by simp only [hleft, nextRingReply, hq])

/-- A command that has been asked to stop before its start completes ABORTED with cause 0x01 where nothing stands before it (R95). -/
theorem ringReply_abortWaiting {b : Cmd} (hphase : b.phase = .abortWaiting) : ringReply [] b = some (0x20, [1]) := by
  simp [ringReply, hphase, objectFree, writesDone, noEarlierWrite]

/-- What an ABORT leaves in flight before the sweep: the command it selects asked to stop, and itself waiting for it. -/
theorem runAbort_one {s : State} {b c : Cmd} (hidle : s.clocks.stage = .idle) (hflight : s.rings.inflight = [b, c]) (hne : b.seq ≠ c.seq)
    (hphase : b.phase = .waiting) (hsel : selects c b = true) : runAbort (runs s c.seq) c =
      serve (sweep (withFlight s [{ b with phase := .abortWaiting }, abortRunning c [b.seq]])) := by
  have hne' : ¬ c.seq = b.seq := fun h => hne h.symm
  simp [runAbort, runs, setPhase, modCmd, hflight, hne, hne', earlier, hsel, forAll, abortOne, hphase, dropStage, hidle, withFlight, abortRunning]

theorem runAbort_none {s : State} {c : Cmd} (hflight : s.rings.inflight = [c]) :
    runAbort (runs s c.seq) c = serve (sweep (withFlight s [abortRunning c []])) := by
  simp [runAbort, runs, setPhase, modCmd, hflight, earlier, forAll, withFlight, abortRunning]

/-- A state with no command in flight, which posting completions made of a quiet one, is served as it is. -/
theorem serve_of_ringFrame {s t : State} (h : LinkQuiet s) (hf : RingFrame s t) (hnone : t.rings.inflight = []) : serve t = t :=
  serve_quiet (h.of_ringFrame (by intro c hc; rw [hnone] at hc; cases hc) hf)

/-- The ABORT once the command it waited for has told it that it was aborted. -/
theorem tellAborts_abortRunning (c : Cmd) (k : Nat) :
    tellAborts k true (abortRunning c [k]) = { abortRunning c [] with selected := 1, abortedCount := 1 } := by
  simp [tellAborts, abortRunning]

/-- What is left once the ABORT itself completes, with its entry's bytes. -/
theorem abort_completed {s u : State} {c d : Cmd} {r : List Byte} (hq : LinkQuiet s) (hf : RingFrame s u) (hflight : u.rings.inflight = [d])
    (hseq : d.seq = c.seq) (hdesc : d.desc = c.desc) :
    ∃ t, serve (post u d 0x00 r) = t ∧ t.rings.inflight = [] ∧ t.rings.unread = u.rings.unread + 1 ∧
      t.mem = cellPuts u.mem (0x1FC000 + 16 * u.rings.ccProd) (entryBytes c 0x00 r) ∧ RingFrame s t := by
  have hnone : (post u d 0x00 r).rings.inflight = [] := by
    rw [post_rings]
    simp [hflight]
  have hframe : RingFrame s (post u d 0x00 r) := hf.trans (post_frame _ _ _ _)
  refine ⟨_, serve_of_ringFrame hq hframe hnone, hnone, by rw [post_rings], ?_, hframe⟩
  rw [post_mem]
  simp only [entryBytes, cmdOp, cmdObj, hseq, hdesc]

/-- Settles O58: the sweep completes the command asked to stop, which the ABORT then counts, and completes the ABORT itself. -/
theorem barriersAndAbortsComplete : Obligations.BarriersAndAbortsComplete := by
  refine fun s c hn => ⟨fun hr h8 hz => ⟨fun h => ?_, fun h => ?_⟩, fun hr h8 h9 hz hq hidle => ?_⟩
  · rw [execBarrier_starts hn hr h8 hz, h]
    rfl
  · rw [execBarrier_starts hn hr h8 hz, if_neg (by simpa using h)]
  have hop : cmdOp c = 0x02 := (startable_spec hr.1).2.2.1
  refine ⟨fun b hflight hne hphase _ hsel => ?_, fun hflight => ?_⟩
  · have hreply : ringReply [] (tellAborts b.seq true (abortRunning c [b.seq])) = some (0x00, [1, 0, 1, 0]) := by
      rw [tellAborts_abortRunning]
      exact ringReply_abort (c := { abortRunning c [] with selected := 1, abortedCount := 1 }) [] hop rfl rfl (by change leBytes 1 2 ++ leBytes 1 2 = _; decide)
    have hsweep := sweep_two (s := withFlight s [{ b with phase := .abortWaiting }, abortRunning c [b.seq]]) rfl
      (r := (0x20, [1])) (ringReply_abortWaiting rfl) (q := (0x00, [1, 0, 1, 0])) hreply
    have htold : tellAborts ({ b with phase := .abortWaiting } : Cmd).seq (((0x20, [1]) : Reply).1 == 0x20) (abortRunning c [b.seq]) =
      { abortRunning c [] with selected := 1, abortedCount := 1 } := tellAborts_abortRunning c b.seq
    rw [htold] at hsweep
    have hfirst : RingFrame s (post (withFlight s [{ b with phase := .abortWaiting }, abortRunning c [b.seq]])
        { b with phase := .abortWaiting } 0x20 [1]) := RingFrame.trans rfl (post_frame _ _ _ _)
    obtain ⟨t, ht, hleft, hunread, hmem, hframe⟩ := abort_completed (c := c) (r := [1, 0, 1, 0]) hq hfirst
      (d := { abortRunning c [] with selected := 1, abortedCount := 1 })
      (by rw [post_rings, ← tellAborts_abortRunning c b.seq]; simp [withFlight]) rfl rfl
    refine ⟨t, ?_, hleft, ?_, ?_, hframe⟩
    · rw [execAbort_starts hn hr h8 h9 hz, runAbort_one hidle hflight hne hphase hsel, hsweep, ← ht]
    · rw [hunread, post_rings]
      rfl
    · rw [hmem, post_mem, post_rings]
      rfl
  · have hsweep := sweep_last (s := withFlight s [abortRunning c []]) rfl (r := (0x00, [0, 0, 0, 0]))
      (ringReply_abort (c := abortRunning c []) [] hop rfl rfl (by change leBytes 0 2 ++ leBytes 0 2 = _; decide))
    obtain ⟨t, ht, hleft, hunread, hmem, hframe⟩ := abort_completed (c := c) (d := abortRunning c []) (r := [0, 0, 0, 0]) hq
      (u := withFlight s [abortRunning c []]) rfl rfl rfl rfl
    refine ⟨t, ?_, hleft, hunread, hmem, hframe⟩
    rw [execAbort_starts hn hr h8 h9 hz, runAbort_none hflight, hsweep, ← ht]

end Sys2Proof.Machine

/-!
PROOFS. The doorbell (O11): what the fetch of k descriptors and the sweep after it leave of the rings and of memory.
-/
namespace Sys2Proof.Machine

/-- The bytes of the two rings in working SRAM (Table 3-5): memory outside them reads as before. -/
def OnlyRingBytes (s t : State) : Prop := ∀ a, a < 0x1F8000 ∨ 0x1FE000 ≤ a → memGet t a = memGet s a

theorem OnlyRingBytes.trans {s t u : State} (h : OnlyRingBytes s t) (k : OnlyRingBytes t u) : OnlyRingBytes s u :=
  fun a ha => (k a ha).trans (h a ha)

/-- Bytes written inside the rings change nothing outside them. -/
theorem onlyRingBytes_of_mem {s t : State} {a : Nat} {bs : List Byte} (hmem : t.mem = cellPuts s.mem a bs) (hlo : 0x1F8000 ≤ a)
    (hhi : a + bs.length ≤ 0x1FE000) : OnlyRingBytes s t := fun c hc => by
  rw [memGet, hmem]
  exact cellGet_cellPuts_out bs s.mem a c (by omega)

/-- What completing commands leaves of the rings: the command ring and the credits stand, and each completion moves one command from those in
flight to the unread completions. -/
structure Swept (s t : State) : Prop where
  cqProd : t.rings.cqProd = s.rings.cqProd
  cqCons : t.rings.cqCons = s.rings.cqCons
  credits : t.rings.credits = s.rings.credits
  nextSeq : t.rings.nextSeq = s.rings.nextSeq
  ccCons : t.rings.ccCons = s.rings.ccCons
  count : t.rings.inflight.length + t.rings.unread = s.rings.inflight.length + s.rings.unread
  mem : OnlyRingBytes s t

theorem Swept.refl (s : State) : Swept s s := ⟨rfl, rfl, rfl, rfl, rfl, rfl, fun _ _ => rfl⟩

theorem Swept.trans {s t u : State} (h : Swept s t) (k : Swept t u) : Swept s u :=
  ⟨k.cqProd.trans h.cqProd, k.cqCons.trans h.cqCons, k.credits.trans h.credits, k.nextSeq.trans h.nextSeq, k.ccCons.trans h.ccCons,
    k.count.trans h.count, h.mem.trans k.mem⟩

theorem entryBytes_length (c : Cmd) (status : Nat) (result : List Byte) : (entryBytes c status result).length ≤ 16 := by
  simp only [entryBytes, leBytes, List.length_append, List.length_take, List.length_cons, List.length_nil]
  omega

theorem post_swept {s : State} {c : Cmd} (status : Nat) (result : List Byte) (hc : c ∈ s.rings.inflight) (hprod : s.rings.ccProd < 512) :
    Swept s (post s c status result) := by
  have hmem := onlyRingBytes_of_mem (post_mem s c status result) (by omega) (by have := entryBytes_length c status result; omega)
  refine ⟨?_, ?_, ?_, ?_, ?_, ?_, hmem⟩
  all_goals rw [post_rings]
  have hlen : (s.rings.inflight.eraseP fun d => d.seq == c.seq).length = s.rings.inflight.length - 1 :=
    List.length_eraseP_of_mem hc (by simp)
  have hpos : 0 < s.rings.inflight.length := List.length_pos_of_mem hc
  simp only [List.length_map, hlen]
  omega

theorem sweepN_swept (n : Nat) {s : State} (h : s.rings.ccProd < 512) : Swept s (sweepN n s) := by
  induction n generalizing s with
  | zero => exact .refl s
  | succ n ih =>
    unfold sweepN
    split
    next c r hr =>
      exact (post_swept _ _ (nextRingReply_mem _ _ _ _ hr) h).trans (ih (by rw [post_rings]; exact Nat.mod_lt _ (by decide)))
    · exact .refl s

/-- Takes the descriptor at CQ_CONS into flight (R79, R80). -/
def fetchOne (s : State) : State :=
  let r := s.rings
  let c : Cmd := { seq := r.nextSeq, desc := ringEntry s r.cqCons, phase := .waiting, selected := 0, abortedCount := 0, waitFor := [], result := [] }
  let t := { s with rings := { r with cqCons := (r.cqCons + 1) % 512, nextSeq := r.nextSeq + 1, inflight := r.inflight ++ [c] } }
  if cmdOp c == 0x57 then devPuts t (0x1F8000 + 32 * r.cqCons + 9) (List.replicate 8 0) else t

theorem fetch_succ (k : Nat) (s : State) : fetch (k + 1) s = fetch k (fetchOne s) := rfl

/-- What fetching k descriptors leaves: k commands more in flight, with the next issue sequences, and CQ_CONS past them. -/
structure Fetched (k : Nat) (s t : State) : Prop where
  cqProd : t.rings.cqProd = s.rings.cqProd
  cqCons : t.rings.cqCons = (s.rings.cqCons + k) % 512
  credits : t.rings.credits = s.rings.credits
  nextSeq : t.rings.nextSeq = s.rings.nextSeq + k
  ccCons : t.rings.ccCons = s.rings.ccCons
  ccProd : t.rings.ccProd = s.rings.ccProd
  unread : t.rings.unread = s.rings.unread
  length : t.rings.inflight.length = s.rings.inflight.length + k
  mem : OnlyRingBytes s t
  frame : RingFrame s t

theorem fetchOne_fetched {s : State} (h : s.rings.cqCons < 512) : Fetched 1 s (fetchOne s) := by
  unfold fetchOne
  extract_lets r c t
  have ht : Fetched 1 s t := ⟨rfl, rfl, rfl, rfl, rfl, rfl, rfl, by simp [t, r], fun _ _ => rfl, rfl⟩
  split
  · obtain ⟨h1, h2, h3, h4, h5, h6, h7, h8, h9, h10⟩ := ht
    refine ⟨by simpa using h1, by simpa using h2, by simpa using h3, by simpa using h4, by simpa using h5, by simpa using h6,
      by simpa using h7, by simpa using h8, ?_, h10.trans ?_⟩
    · exact onlyRingBytes_of_mem (s := s) (devPuts_mem t _ _) (by omega) (by simp only [List.length_replicate, r]; omega)
    · unfold RingFrame
      rw [devPuts_frame]
  · exact ht

theorem fetch_fetched (k : Nat) {s : State} (h : s.rings.cqCons < 512) : Fetched k s (fetch k s) := by
  induction k generalizing s with
  | zero => exact ⟨rfl, (Nat.mod_eq_of_lt h).symm, rfl, rfl, rfl, rfl, rfl, rfl, fun _ _ => rfl, rfl⟩
  | succ k ih =>
    rw [fetch_succ]
    have hone := fetchOne_fetched h
    have hrest := ih (s := fetchOne s) (by rw [hone.cqCons]; exact Nat.mod_lt _ (by decide))
    refine ⟨hrest.cqProd.trans hone.cqProd, ?_, hrest.credits.trans hone.credits, ?_, hrest.ccCons.trans hone.ccCons,
      hrest.ccProd.trans hone.ccProd, hrest.unread.trans hone.unread, ?_, hone.mem.trans hrest.mem, hone.frame.trans hrest.frame⟩
    · rw [hrest.cqCons, hone.cqCons]; omega
    · rw [hrest.nextSeq, hone.nextSeq]; omega
    · rw [hrest.length, hone.length]; omega

/-- A write of CQ_PROD_H, in terms of the index it names and the number of descriptors up to it (R78). -/
theorem doorbellWrite_eq (s : State) (v : Byte) {idx k : Nat} (hidx : v.toNat % 2 * 256 + s.port.stagedCqProdL.toNat = idx)
    (hk : (idx + 512 - s.rings.cqProd) % 512 = k) :
    doorbellWrite s v = if k ≤ s.rings.credits then sweep (fetch k { s with rings := { s.rings with cqProd := idx, credits := s.rings.credits - k } })
      else raise .ringFault s := by
  subst hidx hk
  rfl

/-- Settles O11: an accepted doorbell is the fetch of its k descriptors and a sweep; a refused one is RING_FAULT alone. -/
theorem doorbellIsAcceptedWhole : Obligations.DoorbellIsAcceptedWhole := by
  intro s v hs hcons hprod idx k
  have hexec : exec (.doorbell v) s = .next (acked true (doorbellWrite s v)) := congrArg _ (writeCycle_live hs 0x0F v)
  rw [hexec, doorbellWrite_eq s v (idx := idx) (k := k) rfl rfl]
  refine ⟨fun hk => ?_, fun hk => ?_⟩
  · rw [if_pos hk]
    have hf := fetch_fetched k (s := { s with rings := { s.rings with cqProd := idx, credits := s.rings.credits - k } }) hcons
    generalize hu : fetch k { s with rings := { s.rings with cqProd := idx, credits := s.rings.credits - k } } = u at hf
    have hw : Swept u (sweep u) := sweepN_swept _ (by rw [hf.ccProd]; exact hprod)
    have hframe : RingFrame s (sweep u) := RingFrame.trans (RingFrame.trans rfl hf.frame) (sweepN_frame _ u)
    refine ⟨_, rfl, hw.cqProd.trans hf.cqProd, hw.credits.trans hf.credits, hw.cqCons.trans hf.cqCons, hw.nextSeq.trans hf.nextSeq,
      hw.ccCons.trans hf.ccCons, ?_, hf.mem.trans hw.mem, ?_⟩
    · have hcount := hw.count
      have hunread := hf.unread
      have hlen := hf.length
      simp only [acked] at *
      omega
    · rw [hframe]
      rfl
  · rw [if_neg (Nat.not_le.mpr hk), raise_ringFault_ready hs.2]
    rfl

end Sys2Proof.Machine

/-!
PROOFS. While the part is not READY and no command is in flight, what stops or starts its engines posts nothing and raises nothing: it leaves the
port, the supplies, the rings, the cellar, the working SRAM, the mode and the fabric's two speeds alone.
-/
namespace Sys2Proof.Machine

/-- What a halt and a boot leave alone while they stop and start the engines. -/
structure RestView where
  port : Port
  power : Power
  rings : Rings
  cellar : Cellar
  mem : List Host.Cell
  modeNow : Nat
  pace : Nat
  vcore : Nat

def restView (s : State) : RestView :=
  { port := s.port, power := s.power, rings := s.rings, cellar := s.cellar, mem := s.mem, modeNow := s.modes.modeNow, pace := s.fabric.pace,
    vcore := s.fabric.vcore }

/-- The part is not READY, no command is in flight, and the state shows `v`. -/
def Resting (v : RestView) (s : State) : Prop := restView s = v ∧ v.rings.inflight = [] ∧ v.power.phase ≠ .ready

/-- Writing anything outside the view changes nothing of it. -/
theorem Resting.of_view {v : RestView} {s t : State} (h : Resting v s) (e : restView t = restView s) : Resting v t := ⟨e.trans h.1, h.2⟩

section
variable {v : RestView} {s : State} (h : Resting v s)
include h

theorem Resting.inflight : s.rings.inflight = [] := by
  obtain ⟨rfl, hflight, -⟩ := h
  exact hflight

theorem Resting.phase : s.power.phase ≠ .ready := by
  obtain ⟨rfl, -, hphase⟩ := h
  exact hphase

/-! Nothing is posted and nothing raised -/

theorem complete_resting (seq status : Nat) (result : List Byte) : Resting v (complete seq status result s) := by
  have hnone : findCmd s seq = none := by simp [findCmd, h.inflight]
  simpa only [complete, hnone] using h

theorem raise_resting (q : Irq) : Resting v (raise q s) := by rwa [raise_not_ready h.phase]

theorem forAll_resting {α : Type} {f : State → α → State} (hf : ∀ t x, Resting v t → Resting v (f t x)) (xs : List α) :
    Resting v (forAll xs f s) := by
  unfold forAll
  induction xs generalizing s with
  | nil => exact h
  | cons x xs ih => exact ih (hf s x h)

/-! The paths -/

theorem setPath_resting (p : Nat) (x : Path) : Resting v (setPath s p x) := by
  unfold setPath
  split <;> exact h

theorem modFe_resting (p : Nat) (f : FrontEnd → FrontEnd) : Resting v (modFe s p f) := setPath_resting h _ _

theorem modSynth_resting (p : Nat) (f : Synth → Synth) : Resting v (modSynth s p f) := setPath_resting h _ _

theorem modCal_resting (p : Nat) (f : CalPart → CalPart) : Resting v (modCal s p f) := setPath_resting h _ _

theorem tuneBoundary_resting (p : Nat) : Resting v (tuneBoundary p s) := by
  unfold tuneBoundary
  split
  · split
    · exact complete_resting h _ _ _
    · exact h
  · exact h

theorem tuneDone_resting (p status : Nat) (result : List Byte) : Resting v (tuneDone p status result s) := by
  unfold tuneDone
  split
  · exact complete_resting h _ _ _
  · exact h

theorem touchState_resting (p : Nat) (st : FeState) : Resting v (touchState p st s) := by
  unfold touchState
  split <;> exact h

theorem trackZeros_resting (p : Nat) : Resting v (trackZeros p s) := modFe_resting h _ _

theorem setFe_resting (p : Nat) (st : FeState) : Resting v (setFe p st s) := by
  have hset : ∀ f, Resting v (trackZeros p (touchState p st (modFe (touchState p (pathOf s p).fe.state s) p f))) := fun f =>
    trackZeros_resting (touchState_resting (modFe_resting (touchState_resting h _ _) _ _) _ _) _
  unfold setFe
  dsimp only
  split
  · exact hset _
  · exact hset _
  · exact hset _
  · exact tuneBoundary_resting (hset _) _

theorem pathOff_resting (p : Nat) : Resting v (pathOff p s) :=
  tuneDone_resting (tuneBoundary_resting (setFe_resting (modSynth_resting (modFe_resting h _ _) _ _) _ _) _) _ _ _

theorem noLock_resting (p code : Nat) : Resting v (noLock p code s) := tuneDone_resting (setFe_resting (modSynth_resting h _ _) _ _) _ _ _

theorem beginLock_resting (p : Nat) : Resting v (beginLock p s) := by
  unfold beginLock
  split
  · exact noLock_resting h _ _
  split
  · exact modSynth_resting h _ _
  split
  · exact noLock_resting h _ _
  · exact modSynth_resting h _ _

theorem startPath_resting (p : Nat) : Resting v (startPath p s) := beginLock_resting (setFe_resting (modFe_resting h _ _) _ _) _

/-! Lanes, engines, tastings and slots -/

theorem releaseEngine_resting (kind idx : Nat) : Resting v (releaseEngine kind idx s) := by
  unfold releaseEngine
  split <;> exact h

theorem freeLane_resting (n : Nat) : Resting v (freeLane n s) := (releaseEngine_resting h _ _).of_view (by rfl)

theorem endTasting_resting (cause lane : Nat) : Resting v (endTasting cause lane s) := by
  unfold endTasting
  split
  · exact h
  · exact freeLane_resting (h.of_view (by rfl)) _

theorem endTastings_resting (cause : Nat) (p : Nat → Tasting → Bool) : Resting v (endTastings cause p s) :=
  forAll_resting h (fun _ _ ht => endTasting_resting ht _ _) _

theorem followBroken_resting (n : Nat) : Resting v (followBroken n s) := by
  unfold followBroken
  split
  · exact endTastings_resting h _ _
  · exact h

theorem unbindNow_resting (n : Nat) : Resting v (unbindNow n s) := freeLane_resting (followBroken_resting h _) _

theorem stopLane_resting (n : Nat) : Resting v (stopLane n s) := by
  unfold stopLane
  split
  · exact unbindNow_resting h _
  · dsimp only
    split <;> exact h

theorem stopLanes_resting (p : Nat → Bool) : Resting v (stopLanes p s) := forAll_resting h (fun _ _ ht => stopLane_resting ht _) _

theorem dropEnvelope_resting (e : SdeEnv) : Resting v (dropEnvelope s e) := forAll_resting h (fun _ _ ht => ht.of_view (by rfl)) _

theorem discardEnvelopes_resting : Resting v (discardEnvelopes s) :=
  (forAll_resting h (fun _ e ht => dropEnvelope_resting ht e) _).of_view (by rfl)

/-! The link, the ports and the jobs -/

theorem endBlank_resting (tx : Bool) : Resting v (endBlank tx s) := by
  unfold endBlank
  dsimp only
  split
  · exact forAll_resting (h.of_view (by rfl)) (fun _ _ ht => (trackZeros_resting ht _).of_view (by rfl)) _
  · exact h.of_view (by rfl)

theorem stopLink_resting : Resting v (stopLink s) := by
  unfold stopLink
  extract_lets t
  have ht : Resting v t := by
    dsimp only [t]
    split
    · exact endBlank_resting h _
    · exact h
  exact ht.of_view (by rfl)

theorem stopJobs_resting : Resting v (stopJobs s) := by
  unfold stopJobs
  extract_lets tested t u
  have ht : Resting v t := forAll_resting h (fun _ _ hx => freeLane_resting hx _) _
  have hu : Resting v u := forAll_resting ht (fun _ _ hx => setPath_resting hx _ _) _
  exact hu.of_view (by rfl)

theorem stopPort_resting (port : Nat) : Resting v (stopPort port s) := h.of_view (by rfl)

theorem stopPorts_resting : Resting v (stopPorts s) := stopPort_resting (stopPort_resting h 0) 1

theorem stopAudio_resting : Resting v (stopAudio s) := by
  unfold stopAudio
  extract_lets empty t
  have ht : Resting v t := stopPorts_resting h
  exact forAll_resting (ht.of_view (by rfl)) (fun _ _ hx => hx.of_view (by rfl)) _

theorem clearShed_resting : Resting v (clearShed s) := h.of_view (by rfl)

theorem stopRadio_resting : Resting v (stopRadio s) := by
  unfold stopRadio
  extract_lets t c rest
  have ht : Resting v t := forAll_resting h (fun _ _ hx => pathOff_resting hx _) _
  clear_value t
  exact ht.of_view (by rfl)

end

/-- The state of a halt before its engines stop: the phase it leads to, no change of mode, the rings and the port cleared. -/
def haltStart (ph : Phase) (s : State) : State :=
  let s := { s with power := { s.power with phase := ph }, modes := { s.modes with target := none, queued := none, ktNext := none, ktEnd := none } }
  let s := ringsReset s
  { s with port := portReset s.port }

/-- What a halt leaves: the phase it leads to, empty rings, the port's reset values and VCORE at step 20; the rest of the view stands. -/
theorem halt_restView {ph : Phase} (hph : ph ≠ .ready) (s : State) :
    restView (halt ph s) = { restView s with port := portReset (ringsReset s).port, power := { s.power with phase := ph }, rings := {}, vcore := 20 } := by
  have hstart : Resting (restView (haltStart ph s)) (haltStart ph s) := ⟨rfl, rfl, hph⟩
  have hview : restView (halt ph s) = { restView (haltStart ph s) with vcore := 20 } := by
    unfold halt
    extract_lets power modes started emptied s3 s4 s5 s6
    have h3 : Resting (restView (haltStart ph s)) s3 := hstart
    clear_value s3
    have h4 : Resting (restView (haltStart ph s)) s4 := discardEnvelopes_resting ((endTastings_resting h3 _ _).of_view (by rfl))
    clear_value s4
    have h5 : Resting (restView (haltStart ph s)) s5 := stopLanes_resting (stopAudio_resting (stopLink_resting (stopJobs_resting h4))) _
    clear_value s5
    have h6 : Resting (restView (haltStart ph s)) s6 := clearShed_resting (stopRadio_resting h5)
    clear_value s6
    exact congrArg (fun v : RestView => { v with vcore := 20 }) h6.1
  rw [hview]
  rfl

end Sys2Proof.Machine

/-!
PROOFS. Decants, resets and the return (O19, O20): a halt empties the rings and clears the port, and what is left to do is in the cellar.
-/
namespace Sys2Proof.Machine

/-- What a halt leaves, field by field. -/
theorem halt_fields {ph : Phase} (hph : ph ≠ .ready) (s : State) :
    (halt ph s).port = portReset (ringsReset s).port ∧ (halt ph s).power = { s.power with phase := ph } ∧ (halt ph s).rings = {} ∧
      (halt ph s).cellar = s.cellar ∧ (halt ph s).mem = s.mem ∧ (halt ph s).modes.modeNow = s.modes.modeNow ∧
      (halt ph s).fabric.vcore = 20 := by
  have h := halt_restView hph s
  generalize halt ph s = t at h ⊢
  exact ⟨congrArg RestView.port h, congrArg RestView.power h, congrArg RestView.rings h, congrArg RestView.cellar h, congrArg RestView.mem h,
    congrArg RestView.modeNow h, congrArg RestView.vcore h⟩

/-! The cellar at a cut -/

theorem setLog_store (c : Cellar) (keyArea : Bool) (l : Log) : (setLog c keyArea l).store = c.store ∧ (setLog c keyArea l).write = c.write ∧
    (setLog c keyArea l).dirty = c.dirty ∧ (setLog c keyArea l).decantSkips = c.decantSkips := by
  cases keyArea <;> exact ⟨rfl, rfl, rfl, rfl⟩

/-- A cut reclaim touches the logs alone. -/
theorem cutReclaim_fields (c : Cellar) : (cutReclaim c).store = c.store ∧ (cutReclaim c).write = c.write ∧
    (cutReclaim c).dirty = c.dirty ∧ (cutReclaim c).decantSkips = c.decantSkips := by
  unfold cutReclaim
  split
  · exact ⟨rfl, rfl, rfl, rfl⟩
  · dsimp only
    split
    · exact setLog_store _ _ _
    · exact ⟨rfl, rfl, rfl, rfl⟩

theorem settleWrite_idle {c : Cellar} (h : c.write = none) : settleWrite c = c := by simp only [settleWrite, h]

theorem settleStore_idle {c : Cellar} (h : c.store = none) : settleStore c = c := by simp only [settleStore, h]

theorem cutWrite_fields (s : State) : (cutWrite s).cellar.write = none ∧ (cutWrite s).power = s.power ∧ (cutWrite s).rings = s.rings := by
  unfold cutWrite
  split
  next h => exact ⟨h, rfl, rfl⟩
  · exact ⟨rfl, rfl, rfl⟩

/-! Decants -/

/-- What a decant that finds no flash operation under way leaves (R46, R97, R130, R437). -/
theorem beginDecant_spec {s : State} (hwrite : s.cellar.write = none) (hstore : s.cellar.store = none) :
    let t := beginDecant s
    t.rings = {} ∧ t.port = portReset (ringsReset s).port ∧ t.modes.modeNow = s.modes.modeNow ∧ t.power.present = s.power.present ∧
      (s.cellar.dirty = true → t.power.phase = .decanting ∧ t.cellar.store.isSome = true ∧ t.fabric.vcore = 20) ∧
      (s.cellar.dirty = false → t.power.phase = .decantHold ∧ t.cellar.store = none ∧
        t.cellar.decantSkips = min 65535 (s.cellar.decantSkips + 1)) := by
  intro t
  have hne : Phase.decanting ≠ .ready := by decide
  obtain ⟨hcs, -, hcd, hck⟩ := cutReclaim_fields s.cellar
  have ht : t = beginDecant s := rfl
  clear_value t
  unfold beginDecant at ht
  obtain ⟨hport, hpower, hrings, hcellar, -, hmode, hvcore⟩ := halt_fields hne s
  generalize halt .decanting s = u at *
  have hpresent : u.power.present = s.power.present := by rw [hpower]
  have hphase : u.power.phase = .decanting := by rw [hpower]
  simp only [hcellar, hstore, settleWrite_idle hwrite, settleStore_idle (hcs.trans hstore), hcd, Bool.or_false] at ht
  cases hdirty : s.cellar.dirty
  · simp only [hdirty, Bool.false_eq_true, if_false] at ht
    subst ht
    exact ⟨hrings, hport, hmode, hpresent, nofun, fun _ => ⟨rfl, hcs.trans hstore, congrArg (fun k => min 65535 (k + 1)) hck⟩⟩
  · simp only [hdirty, if_true] at ht
    subst ht
    exact ⟨hrings, hport, hmode, hpresent, fun _ => ⟨hphase, rfl, hvcore⟩, nofun⟩

/-- Settles O19: PRES_N's break, VIN's failure and a brown-out come to the same decant. -/
theorem decantStarts : Obligations.DecantStarts := by
  intro s hready hwrite hstore decants
  have decant (u : State) (hu : u = { s with power := u.power }) : decants (beginDecant u) ∧ (beginDecant u).power.present = u.power.present := by
    obtain ⟨hrings, hport, hmode, hpresent, hdirty, hclean⟩ := beginDecant_spec (s := u) (by rw [hu]; exact hwrite) (by rw [hu]; exact hstore)
    refine ⟨⟨hrings, ?_, ?_, ?_, ?_, ?_, ?_⟩, hpresent⟩
    · rw [hport]; rfl
    · rw [hport]; rfl
    · rw [hport]; rfl
    · rw [hmode, hu]
    · intro h; exact hdirty (by rw [hu]; exact h)
    · intro h; rw [hu]; rw [hu] at hclean; exact hclean h
  have hbooted : booted s = true := by simp [booted, hready]
  refine ⟨?_, fun hvin => ⟨⟨beginDecant s, ?_, (decant s rfl).1⟩, ⟨beginDecant { s with power := { s.power with vinGood := false } }, ?_, ?_⟩⟩, fun hvin => ?_⟩
  · refine ⟨beginDecant { s with power := { s.power with present := false, decantBus := false } }, ?_, decant _ rfl⟩
    simp only [exec, execRemoval, hready]
  · simp only [exec, execPowerFail, hvin, hbooted, Bool.and_self, if_true]
  · simp only [exec, execBrownOut, hvin, hbooted, if_true]
  · exact (decant { s with power := { s.power with vinGood := false } } rfl).1
  · simp only [exec, execPowerFail, hvin, Bool.false_and, Bool.false_eq_true, if_false]

/-! Resets -/

/-- A brown-out that starts no decant resets the part: it waits for its supply with nothing in flight and no flash operation (R47, R51). -/
theorem brownOutReset_spec (s : State) :
    let t := brownOutReset s
    t.power.phase = .waiting ∧ t.power.pendingKind = .brownOut ∧ t.power.vinGood = false ∧ t.rings = {} ∧ t.cellar.store = none ∧
      t.cellar.write = none := by
  obtain ⟨-, hpower, hrings, -⟩ := halt_fields (ph := .waiting) (by decide) s
  unfold brownOutReset
  generalize halt .waiting s = u at *
  obtain ⟨hwrite, hcut, hflight⟩ := cutWrite_fields u
  generalize cutWrite u = w at *
  refine ⟨?_, rfl, rfl, hflight.trans hrings, rfl, (cutReclaim_fields _).2.1.trans hwrite⟩
  exact congrArg Power.phase (hcut.trans hpower)

/-- An exhausted decant is held with HOLD_LOW 1 (R50; that HOLD_LOW is 1 is log entry 80). -/
theorem endDecant_exhausted (s : State) : endDecant true s =
    { s with fresh := s.fresh + 1,
             power := { s.power with phase := .decantHold, decantBus := false, charging := s.power.vinGood, holdLow := true } } := by
  simp [endDecant, draw]

/-- What a soft reset leaves (R74, R97): the rings empty, the port cleared but for the two bits, MODE_NOW 0 until READY. -/
theorem beginSoft_spec (s : State) :
    let t := beginSoft s
    t.power = { s.power with phase := .softBoot, savedMode := s.modes.modeNow, pendingKind := .soft } ∧
      t.port = { portReset (ringsReset s).port with resetCause := 4 } ∧ t.rings = {} ∧ t.modes.modeNow = 0 ∧ t.mem = s.mem := by
  obtain ⟨hport, hpower, hrings, -, hmem, hmode, -⟩ := halt_fields (ph := .softBoot) (by decide) s
  unfold beginSoft settleCellar
  generalize halt .softBoot s = u at *
  refine ⟨?_, congrArg (fun p : Port => { p with resetCause := 4 }) hport, hrings, rfl, hmem⟩
  rw [← hmode]
  exact congrArg (fun p : Power => { p with savedMode := u.modes.modeNow, pendingKind := .soft }) hpower

/-- Settles O20: each reset is a halt with what its row adds. -/
theorem resetsAndReturns : Obligations.ResetsAndReturns := by
  refine ⟨fun s kept => ⟨fun hready hvin => ?_, fun hready => ?_, fun hdec => ?_, fun hhold hvin hpres => ?_⟩, fun s v hs => ?_⟩
  · refine ⟨brownOutReset s, ?_, brownOutReset_spec s⟩
    simp only [exec, execBrownOut, booted, hready, hvin]
    rfl
  · obtain ⟨-, hpower, hrings, -, hmem, -⟩ := halt_fields (ph := .pinHeld) (by decide) s
    simp only [exec, execPinReset, booted, hready, settleCellar]
    generalize halt .pinHeld s = u at *
    exact ⟨_, rfl, congrArg Power.phase hpower, rfl, hrings, hmem⟩
  · simp only [exec, execDecantExhausted, hdec, beq_self_eq_true, if_true, endDecant_exhausted]
  · simp only [exec, execDecantReturn, hhold, hvin, hpres, beq_self_eq_true, Bool.and_self, if_true]
  · have hexec : exec (.softReset v) s = .next (acked true (writeHpCtrl v s)) := congrArg _ (writeCycle_live hs 0x04 v)
    rw [hexec]
    refine ⟨fun h => ?_, fun h => ?_⟩
    · simp only [writeHpCtrl, h, if_false]
      rfl
    · obtain ⟨hpower, hport, hrings, hmode, hmem⟩ := beginSoft_spec { s with port := { s.port with winEdge := v.getLsbD 1, irqPol := v.getLsbD 0 } }
      simp only [writeHpCtrl, h, if_true]
      generalize beginSoft { s with port := { s.port with winEdge := v.getLsbD 1, irqPol := v.getLsbD 0 } } = t at *
      refine ⟨_, rfl, ?_⟩
      simp [acked, hpower, hport, hrings, hmode, hmem, portReset, ringsReset]

end Sys2Proof.Machine

/-!
PROOFS. The boot and the scrub (O21): what a boot loads, that its engines start without a completion or an interrupt, and the scrub's rows.
-/
namespace Sys2Proof.Machine

/-! The engines start -/

section
variable {v : RestView} {s : State} (h : Resting v s)
include h

theorem checkCalDue_resting (p : Nat) : Resting v (checkCalDue s p) := by
  unfold checkCalDue
  split
  · exact raise_resting (h.of_view (by rfl)) _
  · exact h

theorem checkTherm_resting : Resting v (checkTherm s) := by
  unfold checkTherm
  extract_lets c rested
  split
  · exact raise_resting (h.of_view (by rfl)) _
  split
  · exact h.of_view (by rfl)
  · exact h

theorem takeSample_resting (temp : Int) : Resting v (takeSample temp s) := by
  unfold takeSample
  dsimp only
  refine checkTherm_resting (forAll_resting ?_ (fun _ _ ht => checkCalDue_resting ht _) _)
  have hdraw : Resting v (draw 2 s).2 := h.of_view rfl
  split
  · exact h.of_view rfl
  · exact hdraw.of_view rfl

theorem portsClockFault_resting : Resting v (portsClockFault s) := by
  refine forAll_resting h (fun t port ht => ?_) _
  split
  · exact raise_resting ((stopPort_resting ht port).of_view (by rfl)) _
  · exact ht

theorem cpllFault_resting : Resting v (cpllFault s) := by
  unfold cpllFault
  refine forAll_resting (portsClockFault_resting (raise_resting (h.of_view (by rfl)) _)) (fun t p ht => ?_) _
  split
  · exact ht
  · exact noLock_resting ht _ _

theorem startPaths_resting : Resting v (startPaths s) := by
  refine forAll_resting h (fun t p ht => ?_) _
  split
  · exact startPath_resting ht _
  · exact ht

theorem startLanes_resting : Resting v (startLanes s) := h.of_view (by rfl)

theorem suspendSlots_resting : Resting v (suspendSlots s) := h.of_view (by rfl)

theorem clearEntry_resting (e : Nat) : Resting v (clearEntry e s) := (endTastings_resting h _ _).of_view (by rfl)

theorem dropEntries_resting : Resting v (dropEntries s) := by
  unfold dropEntries
  extract_lets bad t
  have ht : Resting v t := forAll_resting h (fun _ _ hx => clearEntry_resting hx _) _
  clear_value t
  exact ht.of_view (by rfl)

theorem aoutFall_resting : Resting v (aoutFall s) := by
  unfold aoutFall
  split
  · exact h
  · exact h.of_view (by rfl)

theorem holdLanes_resting : Resting v (holdLanes s) := h.of_view (by rfl)

theorem startMode_resting (m : Nat) : Resting v (startMode m s) := by
  unfold startMode
  extract_lets modes s1 s2 s3 s4 s5
  have h1 : Resting v s1 := by
    dsimp only [s1]
    split
    · exact holdLanes_resting h
    split
    · exact h.of_view (by rfl)
    · exact h
  clear_value s1
  have h2 : Resting v s2 := stopLanes_resting h1 _
  clear_value s2
  have h3 : Resting v s3 := by
    dsimp only [s3]
    split
    · exact h2
    · exact startLanes_resting (startPaths_resting h2)
  clear_value s3
  have h4 : Resting v s4 := suspendSlots_resting (clearShed_resting h3)
  clear_value s4
  have h5 : Resting v s5 := by
    dsimp only [s5]
    split
    · exact dropEntries_resting h4
    · exact h4
  clear_value s5
  split
  · exact h5
  · exact aoutFall_resting h5

theorem setMode_resting (m : Nat) : Resting { v with modeNow := m } (setMode m s) := by
  obtain ⟨rfl, hflight, hphase⟩ := h
  refine ⟨?_, hflight, hphase⟩
  unfold setMode leaveRest
  dsimp only
  split <;> rfl

/-- A boot's mode starts without touching the view but MODE_NOW. -/
theorem bootMode_resting {mode : Nat} (h3 : 3 ≤ mode) (lock : Bool) : Resting { v with modeNow := mode } (bootMode mode lock s) := by
  unfold bootMode
  extract_lets modes s1
  have h1 : Resting v s1 := h.of_view (by rfl)
  clear_value s1
  rw [if_pos h3]
  have h2 : Resting v (if lock then counterBack (cpllLocked { s1 with clocks := { s1.clocks with fault := false } })
      else cpllFault (counterOff s1)) := by
    split
    · exact h1.of_view (by rfl)
    · exact cpllFault_resting (h1.of_view (by rfl))
  exact startMode_resting (setMode_resting h2 mode) mode

end

/-! What the boot loads -/

theorem forAll_restView {α : Type} {f : State → α → State} (hf : ∀ t x, restView (f t x) = restView t) (xs : List α) (s : State) :
    restView (forAll xs f s) = restView s := by
  unfold forAll
  induction xs generalizing s with
  | nil => rfl
  | cons x xs ih => exact (ih _).trans (hf s x)

theorem setPath_restView (s : State) (p : Nat) (x : Path) : restView (setPath s p x) = restView s := by
  unfold setPath
  split <;> rfl

theorem loadEndpoint_restView (s : State) (n : Nat) : restView (loadEndpoint s n) = restView s := by
  unfold loadEndpoint
  split
  · rfl
  · split <;> rfl

theorem loadRecords_restView (s : State) : restView (loadRecords s) = restView s :=
  (forAll_restView loadEndpoint_restView _ _).trans rfl

theorem loadPath_restView (s : State) (p : Nat) : restView (loadPath s p) = restView s := by
  unfold loadPath
  extract_lets t u
  have hu : restView u = restView s := setPath_restView _ _ _
  clear_value u
  split
  · exact (setPath_restView _ _ _).trans hu
  · exact (setPath_restView u p { pathOf u p with cal := {} }).trans hu

theorem loadResults_restView (s : State) : restView (loadResults s) = restView s := by
  have hboard (t : State) : restView (loadBoard t) = restView t := by
    unfold loadBoard
    split <;> rfl
  refine (forAll_restView loadPath_restView _ _).trans ((hboard _).trans ?_)
  split <;> rfl

/-! UNLOCKED over the cellar's recovery (R438) -/

theorem setLog_unlocked (c : Cellar) (keyArea : Bool) (l : Log) : (setLog c keyArea l).unlocked = c.unlocked := by
  cases keyArea <;> rfl

theorem makeRoom_unlocked (keyArea : Bool) (size n : Nat) (c : Cellar) : (makeRoom keyArea size n c).unlocked = c.unlocked := by
  induction n generalizing c with
  | zero => rfl
  | succ n ih =>
    unfold makeRoom
    dsimp only
    split
    · exact (ih _).trans (setLog_unlocked _ _ _)
    · rfl

theorem commitEpoch_unlocked (flashOk : Bool) (c : Cellar) : (commitEpoch flashOk c).1.unlocked = c.unlocked := by
  unfold commitEpoch
  dsimp only
  split
  · rfl
  split
  · rfl
  split
  · exact makeRoom_unlocked _ _ _ _
  · exact makeRoom_unlocked _ _ _ _

theorem loadBanks_unlocked (c : Cellar) : (loadBanks c).1.unlocked = c.unlocked := by
  unfold loadBanks setBank
  split
  · rfl
  · dsimp only
    split
    · rfl
    · split <;> rfl

/-- A boot locks every access again (R438). -/
theorem bootCellar_unlocked (k : ResetKind) (flashOk : Bool) (c : Cellar) : (bootCellar k flashOk c).1.unlocked = 0 := by
  unfold bootCellar
  extract_lets c1 c2
  have h2 : c2.unlocked = 0 := by
    dsimp only [c2]
    split <;> rfl
  clear_value c2
  have h3 : (recoverCellar c2).1.unlocked = 0 := h2
  generalize recoverCellar c2 = r at h3
  have h4 : (loadBanks r.1).1.unlocked = 0 := (loadBanks_unlocked _).trans h3
  dsimp only
  generalize loadBanks r.1 = b at h4
  refine (commitEpoch_unlocked _ _).trans ?_
  split
  · exact h4
  · exact h4

/-- What a boot has loaded before its fabric and its mode start: empty rings, the cause of its kind, every access locked, and, of a soft reset,
the two bits that it keeps. -/
theorem bootLoad_spec (k : ResetKind) (m : BootMeas) (s : State) :
    let t := bootLoad k m s
    t.rings = {} ∧ t.power.phase = s.power.phase ∧ t.port.resetCause = causeCode k ∧ t.cellar.unlocked = 0 ∧
      (k = .soft → t.port.winEdge = s.port.winEdge ∧ t.port.irqPol = s.port.irqPol) := by
  have hunlocked := bootCellar_unlocked k m.epochOk s.cellar
  unfold bootLoad
  generalize bootCellar k m.epochOk s.cellar = r at hunlocked ⊢
  obtain ⟨c, repaired, epoch⟩ := r
  dsimp -zeta only
  extract_lets start modes loaded results link duty
  have hstart : start.power.phase = s.power.phase ∧ (k = .soft → start.port.winEdge = s.port.winEdge ∧ start.port.irqPol = s.port.irqPol) := by
    dsimp only [start]
    split
    · exact ⟨rfl, fun _ => ⟨rfl, rfl⟩⟩
    next hk => exact ⟨rfl, fun h => absurd (by rw [h]; rfl) hk⟩
  clear_value start
  have hloaded : restView loaded = { restView start with cellar := c } := loadRecords_restView _
  clear_value loaded
  have hresults : restView results = { restView start with cellar := c } := by
    dsimp only [results]
    split
    · exact (forAll_restView (fun _ _ => setPath_restView _ _ _) _ _).trans hloaded
    · exact (loadResults_restView _).trans hloaded
  clear_value results
  have hduty : restView duty = { restView start with cellar := c } := by
    dsimp only [duty]
    split
    · exact hresults
    · exact hresults
  clear_value duty
  have hport : duty.port = start.port := congrArg RestView.port hduty
  have hpower : duty.power = start.power := congrArg RestView.power hduty
  have hcellar : duty.cellar = c := congrArg RestView.cellar hduty
  refine ⟨rfl, (congrArg Power.phase hpower).trans hstart.1, rfl, (congrArg Cellar.unlocked hcellar).trans hunlocked, fun h => ?_⟩
  exact ⟨(congrArg Port.winEdge hport).trans (hstart.2 h).1, (congrArg Port.irqPol hport).trans (hstart.2 h).2⟩

/-- A boot into a mode above KEEPTIME, from what it loads. -/
theorem boot_spec {k : ResetKind} {mode : Nat} (m : BootMeas) {s : State} (hmode : (if k == .soft then s.power.savedMode else 3) = mode)
    (h3 : 3 ≤ mode) (hphase : s.power.phase ≠ .ready) :
    let t := boot k m s
    let u := bootLoad k m s
    t.power.phase = .ready ∧ t.modes.modeNow = mode ∧ t.rings = {} ∧ t.port = u.port ∧ t.cellar = u.cellar ∧ t.fabric.vcore = 20 ∧
      t.fabric.pace = paceUnits 20 m.temp m.pace := by
  obtain ⟨hrings, hkept, -⟩ := bootLoad_spec k m s
  unfold boot
  generalize bootLoad k m s = u at hrings hkept ⊢
  have hu : Resting { restView u with pace := paceUnits 20 m.temp m.pace, vcore := 20 } (bootFabric m u) := by
    unfold bootFabric
    refine takeSample_resting ⟨rfl, ?_, ?_⟩ _
    · change u.rings.inflight = []
      rw [hrings]
    · exact fun h => hphase (hkept.symm.trans h)
  have hend := (bootMode_resting hu h3 m.lock).1
  have hlow : ¬ mode < 3 := by omega
  dsimp only
  rw [hmode]
  generalize bootMode mode m.lock (bootFabric m u) = w at hend
  simp only [hlow, decide_false, Bool.false_and, Bool.false_eq_true, if_false]
  exact ⟨trivial, congrArg RestView.modeNow hend, (congrArg RestView.rings hend).trans hrings, congrArg RestView.port hend,
    congrArg RestView.cellar hend, congrArg RestView.vcore hend, congrArg RestView.pace hend⟩

/-! The scrub -/

/-- Bytes zeroed read 0x00 throughout, and every byte outside them stands. -/
theorem memPuts_zeros {s : State} (h : MemoryOk s) (a n : Nat) :
    (∀ i, i < n → memGet (memPuts s a (List.replicate n 0)) (a + i) = 0) ∧
      ∀ b, b < a ∨ a + n ≤ b → memGet (memPuts s a (List.replicate n 0)) b = memGet s b := by
  refine ⟨fun i hi => ?_, fun b hb => memGet_memPuts_out s (by rwa [List.length_replicate])⟩
  refine (cellGet_cellPuts_in _ s.mem a i h (by rwa [List.length_replicate])).trans ?_
  rw [List.getD_eq_getElem?_getD, List.getElem?_replicate, if_pos hi]
  rfl

theorem hpStatus_scrubbing (s : State) : (hpStatus s).getLsbD 1 = decide (s.scrub.next < 8064) := by
  rw [hpStatus_eq_flags, BitVec.getLsbD_ofBoolListLE]
  rfl

/-- Settles O21: a boot is what it loads and then its fabric and mode; the scrub's row is one write of zeros. -/
theorem bootAndScrub : Obligations.BootAndScrub := by
  refine ⟨fun s m => ⟨fun hwait hvin hpres hkind => ?_, fun hsoft h3 => ?_, fun hwait hvin => ?_⟩, fun s hready => ⟨?_, ?_, ?_⟩⟩
  · obtain ⟨hphase, hmode, hrings, hport, hcellar, hvcore, hpace⟩ :=
      boot_spec (k := s.power.pendingKind) (mode := 3) m (s := s) (if_neg (by simpa using hkind)) (by decide) (by rw [hwait]; decide)
    obtain ⟨-, -, hcause, hunlocked, -⟩ := bootLoad_spec s.power.pendingKind m s
    refine ⟨boot s.power.pendingKind m s, ?_, hphase, ?_, hmode, hrings, hpace, hvcore, ?_⟩
    · simp only [exec, execBoot, bootStarts, hwait, hvin, hpres, Bool.and_self, if_true]
      rfl
    · rw [hport, hcause]
    · rw [hcellar, hunlocked]
  · obtain ⟨hphase, hmode, hrings, hport, -, -, -⟩ :=
      boot_spec (k := .soft) (mode := s.power.savedMode) m (s := s) (if_pos rfl) h3 (by rw [hsoft]; decide)
    obtain ⟨-, -, hcause, -, hkept⟩ := bootLoad_spec .soft m s
    refine ⟨boot .soft m s, ?_, hphase, ?_, hmode, hrings, ?_, ?_⟩
    · simp only [exec, execBoot, bootStarts, hsoft, beq_self_eq_true, if_true]
    · rw [hport, hcause]
      rfl
    · rw [hport, (hkept rfl).1]
    · rw [hport, (hkept rfl).2]
  · simp only [exec, execBoot, bootStarts, hwait, hvin, Bool.false_and, Bool.false_eq_true, if_false]
  all_goals simp only [exec, execScrub, ready, hready, beq_self_eq_true, Bool.true_and, decide_eq_true_eq]
  · intro hnext hearly hmem
    simp only [if_pos hnext, hearly, Bool.false_eq_true, if_false]
    obtain ⟨hzero, hout⟩ := memPuts_zeros hmem (scrubAddr s.scrub.next) 256
    generalize List.replicate 256 (0 : Byte) = zeros at hzero hout ⊢
    exact ⟨_, rfl, rfl, hzero, hout, rfl⟩
  · intro hnext hearly
    simp only [if_pos hnext, hearly, if_true]
    exact ⟨_, rfl, rfl, rfl, rfl⟩
  · intro hnext
    rw [if_neg (by omega), hpStatus_scrubbing, decide_eq_false (by omega)]
    exact ⟨rfl, rfl⟩

end Sys2Proof.Machine

/-!
PROOFS. Temperature samples and pace windows (O22).
-/
namespace Sys2Proof.Machine

/-! What a sample changes -/

/-- A sample writes the calibration block, the interrupt bits of IRQ_STAT0 and, for a mean between two units, one draw. -/
def SampleFrame (s t : State) : Prop :=
  t = { s with cal := t.cal, fresh := t.fresh, port := { s.port with irqStat0 := t.port.irqStat0 } }

theorem SampleFrame.trans {s t u : State} (h : SampleFrame s t) (k : SampleFrame t u) : SampleFrame s u := by
  unfold SampleFrame at *
  rw [k, h]

theorem SampleFrame.clocks {s t : State} (h : SampleFrame s t) : t.clocks = s.clocks := by rw [h]

theorem SampleFrame.fabric {s t : State} (h : SampleFrame s t) : t.fabric = s.fabric := by rw [h]

theorem SampleFrame.setCal {s t : State} (h : SampleFrame s t) (hport : t.port = s.port) (cal : Cal) :
    SampleFrame s { t with cal := cal } ∧ ({ t with cal := cal } : State).port = s.port :=
  ⟨h.trans rfl, hport⟩

/-- CAL_EVENT sets IRQ_STAT0 [6] alone (Table 20-2). -/
theorem raise_calEvent_ready {s : State} (h : s.power.phase = .ready) :
    raise .calEvent s = { s with port := { s.port with irqStat0 := s.port.irqStat0 ||| 0x40 } } := by
  simp only [raise, ready, h]
  rfl

/-- THERM_WARN sets IRQ_STAT0 [7] alone (Table 20-2). -/
theorem raise_thermWarn_ready {s : State} (h : s.power.phase = .ready) :
    raise .thermWarn s = { s with port := { s.port with irqStat0 := s.port.irqStat0 ||| 0x80 } } := by
  simp only [raise, ready, h]
  rfl

/-- PACE_SHED sets IRQ_STAT0 [4] alone (Table 20-2). -/
theorem raise_paceShed_ready {s : State} (h : s.power.phase = .ready) :
    raise .paceShed s = { s with port := { s.port with irqStat0 := s.port.irqStat0 ||| 0x10 } } := by
  simp only [raise, ready, h]
  rfl

/-- A path's calibration falls due once (R206): its bit of CAL_DUE, with CAL_EVENT, and nothing else of the calibration block. -/
theorem checkCalDue_ready {s : State} (h : s.power.phase = .ready) (p : Nat) : checkCalDue s p =
    if (tempMoved s s.cal.tempAvg (pathOf s p).cal.tCalPath && !bit s.cal.calDue p) = true then
      { s with cal := { s.cal with calDue := s.cal.calDue + 2 ^ p }, port := { s.port with irqStat0 := s.port.irqStat0 ||| 0x40 } }
    else s := by
  unfold checkCalDue
  split
  · exact raise_calEvent_ready h
  · rfl

/-- What checking one path leaves: CAL_DUE moves by that path's bit alone, and an interrupt bit that was 1 stays 1. -/
structure CalChecked (s t : State) (p : Nat) : Prop where
  frame : SampleFrame s t
  cal : t.cal = { s.cal with calDue := t.cal.calDue }
  calDue : t.cal.calDue = s.cal.calDue ∨ (bit s.cal.calDue p = false ∧ t.cal.calDue = s.cal.calDue + 2 ^ p)
  keeps : ∀ k, s.port.irqStat0.getLsbD k = true → t.port.irqStat0.getLsbD k = true

theorem checkCalDue_checked {s : State} (h : s.power.phase = .ready) (p : Nat) : CalChecked s (checkCalDue s p) p := by
  rw [checkCalDue_ready h]
  split
  next hmoved =>
    rw [Bool.and_eq_true, Bool.not_eq_true'] at hmoved
    refine ⟨rfl, rfl, .inr ⟨hmoved.2, rfl⟩, fun k hk => ?_⟩
    rw [BitVec.getLsbD_or, hk, Bool.true_or]
  · exact ⟨rfl, rfl, .inl rfl, fun _ hk => hk⟩

/-- CAL_DUE [0] is path L's alone: the checks of the other paths leave it. -/
theorem bit_zero_add_two (n : Nat) : bit (n + 2 ^ 1) 0 = bit n 0 := by simp [bit]

theorem bit_zero_add_four (n : Nat) : bit (n + 2 ^ 2) 0 = bit n 0 := by
  rw [bit, bit]
  exact congrArg (· == 1) (by omega)

/-- The checks of paths V and S leave CAL_DUE [0]. -/
theorem CalChecked.bit_zero {s t : State} {p : Nat} (h : CalChecked s t p) (hp : p = 1 ∨ p = 2) : bit t.cal.calDue 0 = bit s.cal.calDue 0 := by
  rcases h.calDue with hd | ⟨-, hd⟩ <;> rw [hd]
  rcases hp with rfl | rfl
  · exact bit_zero_add_two _
  · exact bit_zero_add_four _

/-- What the thermal check leaves: the warning and its second, and an interrupt bit that was 1 stays 1 (R205). -/
structure ThermChecked (s t : State) : Prop where
  frame : SampleFrame s t
  cal : t.cal = { s.cal with thermWarn := t.cal.thermWarn, thermSc := t.cal.thermSc }
  warns : s.cal.thermWarn = false → s.cal.thermSc = none → (8 * s.cal.thermLimit : Int) ≤ s.cal.tempAvg →
    t.cal.thermWarn = true ∧ t.port.irqStat0.getLsbD 7 = true
  keeps : ∀ k, s.port.irqStat0.getLsbD k = true → t.port.irqStat0.getLsbD k = true

theorem checkTherm_checked {s : State} (h : s.power.phase = .ready) : ThermChecked s (checkTherm s) := by
  unfold checkTherm
  extract_lets c rested
  split
  next hwarn =>
    have hraise (cal : Cal) : raise .thermWarn { s with cal := cal } =
        { s with cal := cal, port := { s.port with irqStat0 := s.port.irqStat0 ||| 0x80 } } := raise_thermWarn_ready h
    rw [hraise]
    refine ⟨rfl, rfl, fun _ _ _ => ⟨rfl, ?_⟩, fun k hk => ?_⟩
    · simp
    · rw [BitVec.getLsbD_or, hk, Bool.true_or]
  next hwarn =>
    have hno (hw : s.cal.thermWarn = false) (hs : s.cal.thermSc = none) (hle : (8 * s.cal.thermLimit : Int) ≤ s.cal.tempAvg) : False := by
      apply hwarn
      simp [rested, c, hw, hs, hle]
    split
    · exact ⟨rfl, rfl, fun hw hs hle => (hno hw hs hle).elim, fun _ hk => hk⟩
    · exact ⟨rfl, rfl, fun hw hs hle => (hno hw hs hle).elim, fun _ hk => hk⟩

theorem forAll_three (f : State → Nat → State) (s : State) : forAll [0, 1, 2] f s = f (f (f s 0) 1) 2 := rfl

/-- The samples of the second that ends now. -/
def samplesKept (temp : Int) (s : State) : List (Nat × Int) :=
  ((s.clocks.sc, temp) :: s.cal.samples).filter fun e => s.clocks.sc < e.1 + countsPerSecond

theorem takeSample_eq (temp : Int) (s : State) : takeSample temp s =
    let kept := samplesKept temp s
    let sum := kept.foldl (fun t e => t + e.2) 0
    let p := if sum % (kept.length : Int) = 0 then (0, s) else draw 2 s
    checkTherm (forAll [0, 1, 2] checkCalDue { p.2 with cal := { p.2.cal with
      temp := satInt 2 temp, samples := kept, tempAvg := satInt 2 (sum / (kept.length : Int) + (p.1 : Int)) } }) := rfl

/-- A sample takes TEMP and TEMP_AVG, then checks the three paths and the thermal limit. -/
theorem takeSample_shape (temp : Int) (s : State) : ∃ u, SampleFrame s u ∧ u.port = s.port ∧
    u.cal = { s.cal with temp := satInt 2 temp, samples := u.cal.samples, tempAvg := u.cal.tempAvg } ∧
    takeSample temp s = checkTherm (checkCalDue (checkCalDue (checkCalDue u 0) 1) 2) := by
  rw [takeSample_eq]
  generalize samplesKept temp s = kept
  dsimp only
  generalize List.foldl _ _ _ = sum
  obtain ⟨p, hp, hcase⟩ : ∃ p, ite (sum % (kept.length : Int) = 0) (0, s) (draw 2 s) = p ∧ (p = (0, s) ∨ p = draw 2 s) := by
    refine ⟨_, rfl, ?_⟩
    split
    · exact .inl rfl
    · exact .inr rfl
  rw [hp]
  obtain ⟨hframe, hport, hcal⟩ : SampleFrame s p.2 ∧ p.2.port = s.port ∧ p.2.cal = s.cal := by
    rcases hcase with hcase | hcase <;> rw [hcase] <;> exact ⟨rfl, rfl, rfl⟩
  have hset := hframe.setCal hport
  rw [forAll_three]
  refine ⟨_, (hset _).1, (hset _).2, ?_, rfl⟩
  rw [hcal]

/-- What a temperature sample does while READY is 1 (R205, R206). -/
theorem takeSample_ready {s : State} (h : s.power.phase = .ready) (temp : Int) :
    let t := takeSample temp s
    SampleFrame s t ∧ t.cal.temp = satInt 2 temp ∧
      (s.cal.thermWarn = false → s.cal.thermSc = none → (8 * s.cal.thermLimit : Int) ≤ t.cal.tempAvg →
        t.cal.thermWarn = true ∧ t.port.irqStat0.getLsbD 7 = true) ∧
      (s.cal.calDue = 0 → 8 * s.cal.tempDelta ≤ (t.cal.tempAvg - s.pathL.cal.tCalPath).natAbs →
        bit t.cal.calDue 0 = true ∧ t.port.irqStat0.getLsbD 6 = true) ∧
      (s.cal.calDue = 0 → (t.cal.tempAvg - s.pathL.cal.tCalPath).natAbs < 8 * s.cal.tempDelta → bit t.cal.calDue 0 = false) := by
  obtain ⟨u, hu, hport, hcal, ht⟩ := takeSample_shape temp s
  have hready : u.power.phase = .ready := by rw [hu]; exact h
  have h0 := checkCalDue_checked hready 0
  have h0eq := checkCalDue_ready hready 0
  generalize checkCalDue u 0 = a at h0 h0eq ht
  have h1 := checkCalDue_checked (s := a) (by rw [h0.frame]; exact hready) 1
  generalize checkCalDue a 1 = b at h1 ht
  have h2 := checkCalDue_checked (s := b) (by rw [h1.frame, h0.frame]; exact hready) 2
  generalize checkCalDue b 2 = c at h2 ht
  have h3 := checkTherm_checked (s := c) (by rw [h2.frame, h1.frame, h0.frame]; exact hready)
  rw [← ht] at h3
  generalize takeSample temp s = t at h3 ⊢
  have hc : c.cal = { u.cal with calDue := c.cal.calDue } := by rw [h2.cal, h1.cal, h0.cal]
  have htavg : t.cal.tempAvg = u.cal.tempAvg := by rw [h3.cal, hc]
  have htdue : bit t.cal.calDue 0 = bit a.cal.calDue 0 := by
    rw [h3.cal, ← h1.bit_zero (.inl rfl), ← h2.bit_zero (.inr rfl)]
  have hmoved : tempMoved u u.cal.tempAvg (pathOf u 0).cal.tCalPath = decide (8 * s.cal.tempDelta ≤ (t.cal.tempAvg - s.pathL.cal.tCalPath).natAbs) := by
    rw [htavg, tempMoved, hcal, hu]
    rfl
  have hdue (hz : s.cal.calDue = 0) : bit u.cal.calDue 0 = false ∧ u.cal.calDue = 0 := by
    have : u.cal.calDue = 0 := by rw [hcal]; exact hz
    exact ⟨by rw [this]; rfl, this⟩
  refine ⟨((hu.trans h0.frame).trans h1.frame).trans (h2.frame.trans h3.frame), by rw [h3.cal, hc, hcal], fun hw hs hle => ?_,
    fun hz hle => ?_, fun hz hlt => ?_⟩
  · apply h3.warns
    · rw [hc, hcal]; exact hw
    · rw [hc, hcal]; exact hs
    · rw [hc]
      rw [htavg] at hle
      rwa [hcal]
  · rw [hmoved, decide_eq_true hle, (hdue hz).1] at h0eq
    rw [htdue]
    refine ⟨?_, h3.keeps 6 (h2.keeps 6 (h1.keeps 6 ?_))⟩
    · rw [h0eq]
      simp [(hdue hz).2, bit]
    · rw [h0eq]
      simp
  · rw [hmoved, decide_eq_false (Nat.not_le.mpr hlt), Bool.false_and] at h0eq
    rw [htdue, h0eq]
    exact (hdue hz).1

/-! Pace windows -/

/-- PACE stays between what was counted and 255, and never below the whole minimum of Table 22-5 (R103). -/
theorem paceUnits_spec (code : Nat) (temp : Int) (units : Nat) :
    min 255 units ≤ paceUnits code temp units ∧ paceUnits code temp units ≤ 255 ∧ (minPace code temp = none → paceUnits code temp units = min 255 units) ∧
      ∀ num den, minPace code temp = some (num, den) → paceUnits code temp units = min 255 (max units (num / den)) := by
  unfold paceUnits
  rcases minPace code temp with _ | ⟨n, d⟩
  · exact ⟨Nat.le_refl _, Nat.min_le_left _ _, fun _ => rfl, nofun⟩
  · refine ⟨?_, Nat.min_le_left _ _, nofun, fun num den h => ?_⟩
    · exact Nat.le_min.mpr ⟨Nat.min_le_left _ _, Nat.le_trans (Nat.min_le_right _ _) (Nat.le_max_left _ _)⟩
    · cases h
      rfl

theorem execPaceWindow_eq (s : State) (units : Nat) (temp : Int) : exec (.paceWindow units temp) s =
    if ready s && modeNow s != 1 && s.fabric.windowStart + windowCounts ≤ s.clocks.sc then
      .next (takeSample temp { s with fabric := { s.fabric with
        pace := paceUnits s.fabric.windowLow temp units, paceMin := min s.fabric.paceMin (paceUnits s.fabric.windowLow temp units),
        windowStart := s.fabric.windowStart + windowCounts, windowLow := s.fabric.vcore } })
    else .next s := rfl

theorem execCounterSecond_eq (s : State) (temp : Int) : exec (.counterSecond temp) s =
    if ready s && modeNow s == 1 && s.clocks.secondDone < counterSeconds s then
      .next (takeSample temp { s with clocks := { s.clocks with secondDone := counterSeconds s } })
    else .next s := rfl

/-- A pace window that has passed outside PARKED (R103). -/
theorem execPaceWindow_passed {s : State} (h : s.power.phase = .ready) (hmode : s.modes.modeNow ≠ 1)
    (hdue : s.fabric.windowStart + 2 ^ 14 ≤ s.clocks.sc) (units : Nat) (temp : Int) :
    exec (.paceWindow units temp) s = .next (takeSample temp { s with fabric := { s.fabric with
      pace := paceUnits s.fabric.windowLow temp units, paceMin := min s.fabric.paceMin (paceUnits s.fabric.windowLow temp units),
      windowStart := s.fabric.windowStart + 2 ^ 14, windowLow := s.fabric.vcore } }) := by
  have hcond : (ready s && modeNow s != 1 && s.fabric.windowStart + windowCounts ≤ s.clocks.sc) = true := by
    simp only [ready, h, modeNow, beq_self_eq_true, Bool.true_and, Bool.and_eq_true, bne_iff_ne, decide_eq_true_eq]
    exact ⟨hmode, hdue⟩
  rw [execPaceWindow_eq, if_pos hcond]
  simp only [windowCounts]

theorem execPaceWindow_not_due {s : State} (h : s.modes.modeNow = 1 ∨ s.clocks.sc < s.fabric.windowStart + 2 ^ 14) (units : Nat) (temp : Int) :
    exec (.paceWindow units temp) s = .next s := by
  rw [execPaceWindow_eq]
  refine if_neg ?_
  simp only [modeNow, windowCounts, Bool.and_eq_true, bne_iff_ne]
  rintro ⟨⟨-, hmode⟩, hle⟩
  rcases h with h | h
  · exact hmode h
  · exact absurd (of_decide_eq_true hle) (Nat.not_le.mpr h)

/-- The sample of a whole second in PARKED (R459). -/
theorem execCounterSecond_passed {s : State} (h : s.power.phase = .ready) (hmode : s.modes.modeNow = 1)
    (hdue : s.clocks.secondDone < s.clocks.sc / 2 ^ 24) (temp : Int) :
    exec (.counterSecond temp) s = .next (takeSample temp { s with clocks := { s.clocks with secondDone := s.clocks.sc / 2 ^ 24 } }) := by
  have hcond : (ready s && modeNow s == 1 && s.clocks.secondDone < counterSeconds s) = true := by
    simp only [ready, h, modeNow, hmode, counterSeconds, countsPerSecond, beq_self_eq_true, Bool.true_and]
    exact decide_eq_true hdue
  rw [execCounterSecond_eq, if_pos hcond]
  simp only [counterSeconds, countsPerSecond]

/-- The sample of a second leaves the second counted. -/
theorem takeSample_second {s : State} (h : s.power.phase = .ready) (temp : Int) (sc : Nat) :
    let t := takeSample temp { s with clocks := { s.clocks with secondDone := sc } }
    t.cal.temp = satInt 2 temp ∧ t.clocks.secondDone = sc ∧ t.fabric = s.fabric ∧
      t = { s with clocks := { s.clocks with secondDone := t.clocks.secondDone }, cal := t.cal, fresh := t.fresh,
                   port := { s.port with irqStat0 := t.port.irqStat0 } } := by
  obtain ⟨hframe, htemp, -⟩ := takeSample_ready (s := { s with clocks := { s.clocks with secondDone := sc } }) h temp
  have hclocks := hframe.clocks
  refine ⟨htemp, by rw [hclocks], hframe.fabric, ?_⟩
  rw [hclocks]
  exact hframe

/-- The sample of a pace window leaves the window's values. -/
theorem takeSample_window {s : State} (h : s.power.phase = .ready) (temp : Int) (pace start : Nat) :
    let t := takeSample temp { s with fabric := { s.fabric with
      pace := pace, paceMin := min s.fabric.paceMin pace, windowStart := start, windowLow := s.fabric.vcore } }
    t.fabric = { s.fabric with pace := pace, paceMin := min s.fabric.paceMin pace, windowStart := start, windowLow := s.fabric.vcore } ∧
      t.cal.temp = satInt 2 temp ∧
      t = { s with fabric := t.fabric, cal := t.cal, fresh := t.fresh, port := { s.port with irqStat0 := t.port.irqStat0 } } := by
  obtain ⟨hframe, htemp, -⟩ := takeSample_ready (s := { s with fabric := { s.fabric with
      pace := pace, paceMin := min s.fabric.paceMin pace, windowStart := start, windowLow := s.fabric.vcore } }) h temp
  have hfabric := hframe.fabric
  refine ⟨hfabric, htemp, ?_⟩
  rw [hfabric]
  exact hframe

/-- Settles O22: the window and the second are each one sample, on the fabric that the window leaves or on the second counted. -/
theorem temperatureSamples : Obligations.TemperatureSamples := by
  refine ⟨fun s units temp h => ⟨fun hmode hdue => ?_, fun hnot => execPaceWindow_not_due hnot units temp, fun hmode hdue => ?_⟩,
    fun s units temp h hmode hdue => ?_⟩
  · rw [execPaceWindow_passed h hmode hdue]
    refine ⟨_, rfl, ?_⟩
    obtain ⟨hlow, hhigh, hnone, hsome⟩ := paceUnits_spec s.fabric.windowLow temp units
    obtain ⟨hfabric, htemp, hframe⟩ := takeSample_window h temp (paceUnits s.fabric.windowLow temp units) (s.fabric.windowStart + 2 ^ 14)
    rw [hfabric] at hframe ⊢
    exact ⟨rfl, hlow, hhigh, hnone, hsome, htemp, hframe⟩
  · rw [execCounterSecond_passed h hmode hdue]
    exact ⟨_, rfl, takeSample_second h temp _⟩
  · rw [execPaceWindow_passed h hmode hdue]
    obtain ⟨-, -, hspec⟩ := takeSample_ready (s := { s with fabric := { s.fabric with
      pace := paceUnits s.fabric.windowLow temp units, paceMin := min s.fabric.paceMin (paceUnits s.fabric.windowLow temp units),
      windowStart := s.fabric.windowStart + 2 ^ 14, windowLow := s.fabric.vcore } }) h temp
    exact ⟨_, rfl, hspec⟩

end Sys2Proof.Machine

/-!
PROOFS. The governor's tick (O23), and shedding and the drops of a path (O24).
-/
namespace Sys2Proof.Machine

/-! The governor -/

/-- A fill past a larger part of its FIFO is past a smaller one. -/
theorem fillOver_mono {f : Fills} {m n : Nat} (hmn : m ≤ n) (h : fillOver f n = true) : fillOver f m = true := by
  simp only [fillOver, List.any_eq_true, decide_eq_true_eq] at h ⊢
  obtain ⟨e, he, hlt⟩ := h
  exact ⟨e, he, Nat.lt_of_le_of_lt (Nat.mul_le_mul_right _ hmn) hlt⟩

theorem fillOver_false {f : Fills} {m n : Nat} (hmn : m ≤ n) (h : fillOver f m = false) : fillOver f n = false := by
  cases hn : fillOver f n with
  | false => rfl
  | true => exact absurd (fillOver_mono hmn hn) (by simp [h])

/-- While the plan of R117 holds no fill passes half its FIFO. -/
theorem fillsOf_plan {s : State} (h : planHolds s = true) (f : Fills) : fillOver (fillsOf s f) 4 = false := by
  simp only [fillsOf, h, if_true, fillOver, List.any_cons, List.any_nil, Bool.or_false, Bool.or_eq_false_iff, decide_eq_false_iff_not]
  omega

theorem fillsOf_no_plan {s : State} (h : planHolds s = false) (f : Fills) : fillsOf s f = f := by
  simp [fillsOf, h]

section
variable {v ceil pace floor quiet : Nat} {f : Fills}

theorem nextVcore_above (h : ceil < v) : nextVcore v ceil pace floor quiet f = v - 1 := if_pos h

theorem nextVcore_over_half (h : v ≤ ceil) (hf : fillOver f 4 = true) : nextVcore v ceil pace floor quiet f = min ceil (v + 4) := by
  rw [nextVcore, if_neg (Nat.not_lt.mpr h), if_pos hf]

theorem nextVcore_over_quarter (h : v ≤ ceil) (h4 : fillOver f 4 = false) (hf : fillOver f 2 = true ∨ pace < floor) :
    nextVcore v ceil pace floor quiet f = min ceil (v + 1) := by
  rw [nextVcore, if_neg (Nat.not_lt.mpr h), if_neg (by simp [h4]), if_pos (by simpa using hf)]

theorem nextVcore_quiet (h : v ≤ ceil) (h2 : fillOver f 2 = false) (hpace : floor + 8 ≤ pace) (hq : 16 ≤ quiet) :
    nextVcore v ceil pace floor quiet f = v - 1 := by
  have h4 := fillOver_false (show 2 ≤ 4 by decide) h2
  rw [nextVcore, if_neg (Nat.not_lt.mpr h), if_neg (by simp [h4]), if_neg (by simp [h2]; omega), if_pos (by simp [hq, hpace])]

theorem nextVcore_stands (h : v ≤ ceil) (h2 : fillOver f 2 = false) (hfloor : floor ≤ pace) (hq : quiet < 16 ∨ pace < floor + 8) :
    nextVcore v ceil pace floor quiet f = v := by
  have h4 := fillOver_false (show 2 ≤ 4 by decide) h2
  rw [nextVcore, if_neg (Nat.not_lt.mpr h), if_neg (by simp [h4]), if_neg (by simp [h2, hfloor]), if_neg (by simp; omega)]

theorem nextVcore_le_ceiling (h : v ≤ ceil) : nextVcore v ceil pace floor quiet f ≤ ceil := by
  unfold nextVcore
  repeat' split
  all_goals omega

end

theorem tickFabric_eq (f : Fabric) (l v : Nat) : noteFill 0 l (noteFill 1 v f) =
    { f with fillHwL := min 65535 (max f.fillHwL l), fillHwV := min 65535 (max f.fillHwV v) } := rfl

/-- A tick that has passed moves VCORE by `nextVcore` and leaves all but the governor's fields. -/
theorem execGovernorTick_passed {s : State} (h : s.power.phase = .ready) (hmode : 2 ≤ s.modes.modeNow)
    (hdue : s.fabric.tickStart + 2 ^ 12 ≤ s.clocks.sc) (fills : Fills) :
    exec (.governorTick fills) s = .next { s with fabric :=
      let f := fillsOf s fills
      let quiet := if fillOver f 1 then 0 else min 16 (s.fabric.quietTicks + 1)
      let v := nextVcore s.fabric.vcore (ceiling s) s.fabric.pace (paceFloor s.modes.modeNow) quiet f
      { s.fabric with
        vcore := v, quietTicks := quiet, windowLow := min s.fabric.windowLow v, tickStart := s.fabric.tickStart + 2 ^ 12,
        fillHwL := min 65535 (max s.fabric.fillHwL f.pathL), fillHwV := min 65535 (max s.fabric.fillHwV f.pathV),
        ceilTicks := bump 2 s.fabric.ceilTicks (flagNat (v == ceiling s)) } } := by
  have hcond : (ready s && 2 ≤ modeNow s && s.fabric.tickStart + tickCounts ≤ s.clocks.sc) = true := by
    simp only [ready, h, modeNow, tickCounts, beq_self_eq_true, Bool.true_and, Bool.and_eq_true]
    exact ⟨decide_eq_true hmode, decide_eq_true hdue⟩
  exact if_pos hcond

/-- Settles O23, through the cases of `nextVcore`. -/
theorem governorMovesVcore : Obligations.GovernorMovesVcore := by
  intro s fills h hmode hdue f
  refine ⟨fun hp => fillsOf_plan hp fills, fun hp => fillsOf_no_plan hp fills, _, execGovernorTick_passed h hmode hdue fills, ?_⟩
  dsimp only
  change (_ → nextVcore _ _ _ _ (if fillOver f 1 then _ else _) f = _) ∧ _
  refine ⟨nextVcore_above, fun hle => ⟨nextVcore_le_ceiling hle, nextVcore_over_half hle, nextVcore_over_quarter hle, fun h1 hq hp => ?_,
    fun h2 hfloor hor => ?_⟩, ?_, rfl⟩
  · refine nextVcore_quiet hle (fillOver_false (by decide) h1) hp ?_
    rw [h1, if_neg Bool.false_ne_true]
    omega
  · refine nextVcore_stands hle h2 hfloor ?_
    split
    · omega
    next h1 =>
      have hor := hor.resolve_left h1
      omega
  · simp [bump, satAdd, flagNat]

/-! Shedding -/

theorem shedLevel_zero {s : State} (h : s.fabric.shedLevelL = 0) : shedLevel s 0 = 0 := by
  simp [shedLevel, h]

theorem shedLevel_one {s : State} (h : s.fabric.shedLevelL = 1) (hne : shedOrder s 0 ≠ []) : shedLevel s 0 = 1 := by
  have hlen := List.length_pos_iff.mpr hne
  simp only [shedLevel, if_true, h]
  omega

/-- A raise changes nothing while the plan of R117 holds, or below three quarters of the FIFO. -/
theorem execShedRaise_stands {s : State} {fill : Nat} (h : planHolds s = true ∨ 4 * fill < 3 * 4096) : exec (.shedRaise 0 fill) s = .next s := by
  refine if_neg ?_
  simp only [Bool.and_eq_true, Bool.not_eq_true', decide_eq_true_eq]
  rintro ⟨⟨⟨⟨⟨-, hplan⟩, hfill⟩, -⟩, -⟩, -⟩
  rcases h with h | h
  · rw [h] at hplan
    exact absurd hplan (by decide)
  · exact absurd hfill (Nat.not_le.mpr h)

/-- The first raise sheds the first lane of the order (R112). -/
theorem execShedRaise_first {s : State} {fill : Nat} (h : s.power.phase = .ready) (hplan : planHolds s = false) (hlevel : s.fabric.shedLevelL = 0)
    (hfill : 3 * 4096 ≤ 4 * fill) (hceil : s.fabric.vcore = ceiling s) (hne : shedOrder s 0 ≠ []) :
    exec (.shedRaise 0 fill) s = .next (raise .paceShed { s with fabric := { noteFill 0 fill s.fabric with
      shedLevelL := 1, raiseFillL := fill, raiseWaitL := (shedOrder s 0).head? } }) := by
  have h0 := shedLevel_zero hlevel
  have hlen := List.length_pos_iff.mpr hne
  have hcond : (decide (0 < 2) && ready s && !planHolds s && decide (3 * fifoDepth 0 ≤ 4 * fill) && atCeil s &&
      decide (shedLevel s 0 < (shedOrder s 0).length) &&
      (shedLevel s 0 == 0 || (decide (s.fabric.raiseFillL < fill) && waitOver s s.fabric.raiseWaitL))) = true := by
    simp only [ready, h, hplan, atCeil, hceil, h0, hlen, beq_self_eq_true, Bool.and_true, Bool.true_or, Bool.not_false, decide_true]
    exact decide_eq_true hfill
  refine (if_pos hcond).trans ?_
  rw [h0, List.head?_eq_getElem?]
  rfl

/-- A lowering at a quarter of the FIFO resumes the one lane shed (R112, R113). -/
theorem execShedLower_last {s : State} {fill : Nat} (h : s.power.phase = .ready) (hlevel : s.fabric.shedLevelL = 1) (hne : shedOrder s 0 ≠ [])
    (hwait : s.fabric.lowerWaitL = none) (hfill : 4 * fill ≤ 4096) :
    exec (.shedLower 0 fill) s = .next { s with fabric := { s.fabric with shedLevelL := 0, lowerWaitL := (shedOrder s 0).head? } } := by
  have h1 := shedLevel_one hlevel hne
  have hcond : (decide (0 < 2) && ready s && decide (4 * fill ≤ fifoDepth 0) && decide (0 < shedLevel s 0) && waitOver s s.fabric.lowerWaitL) = true := by
    simp only [ready, h, h1, hwait, waitOver, beq_self_eq_true, Bool.and_true, decide_true, Nat.zero_lt_one]
    exact decide_eq_true hfill
  refine (if_pos hcond).trans ?_
  rw [h1, List.head?_eq_getElem?]
  rfl

theorem execShedLower_stands {s : State} {fill : Nat} (h : 4096 < 4 * fill) : exec (.shedLower 0 fill) s = .next s := by
  refine if_neg ?_
  simp only [Bool.and_eq_true, decide_eq_true_eq]
  rintro ⟨⟨⟨-, hfill⟩, -⟩, -⟩
  exact absurd hfill (Nat.not_le.mpr h)

/-! Drops -/

/-- What a cause leaves of one lane of path `p`. -/
def touchedLane (p k sc : Nat) (x : Lane) : Lane :=
  if x.path == p && x.running then { x with touched := x.touched ||| 2 ^ k, causeEnd := tabSet x.causeEnd k sc } else x

theorem touchedLane_running {p k sc : Nat} {x : Lane} (hrun : x.running = true) (hp : x.path = p) :
    (touchedLane p k sc x).touched = x.touched ||| 2 ^ k := by
  simp [touchedLane, hrun, hp]

theorem touchedLane_other {p k sc : Nat} {x : Lane} (h : x.running = false ∨ x.path ≠ p) : touchedLane p k sc x = x := by
  rcases h with h | h <;> simp [touchedLane, h]

theorem laneOf_touchLanes (p k : Nat) (s : State) (n : Nat) : laneOf (touchLanes p k s) n = touchedLane p k s.clocks.sc (laneOf s n) := by
  have hmap : (touchLanes p k s).lanes = s.lanes.map fun e => (e.1, touchedLane p k s.clocks.sc e.2) := by
    refine List.map_congr_left fun e _ => ?_
    unfold touchedLane
    split <;> rfl
  rw [laneOf, hmap]
  exact tabGet_map {} _ (touchedLane_other (.inl rfl)) s.lanes n

theorem execPathDrops_plan {s : State} (h : planHolds s = true) (p : Nat) : exec (.pathDrops p) s = .next s := by
  refine if_neg ?_
  simp [h]

/-- A discarded run of a path that runs (R114). -/
theorem execPathDrops_dropped {s : State} {p : Nat} (h : s.power.phase = .ready) (hp : p < 2) (hon : (pathOf s p).fe.state ≠ .off)
    (hplan : planHolds s = false) : exec (.pathDrops p) s = .next (raise .paceShed (touchLanes p 3
      { s with fabric := noteFill p (fifoDepth p) { s.fabric with pathDrops := bump 4 s.fabric.pathDrops 1 } })) := by
  have hcond : (decide (p < 2) && ready s && !planHolds s && (pathOf s p).fe.state != .off) = true := by
    simp [ready, h, hp, hplan, hon]
  exact if_pos hcond

/-- Settles O24: the raise and the lowering by their guards, the drop by what `touchLanes` leaves of each lane. -/
theorem sheddingAndDrops : Obligations.SheddingAndDrops := by
  refine ⟨fun s fill h => ⟨fun hplan => execShedRaise_stands (.inl hplan), fun hplan hlevel hfill hceil hne => ?_,
    fun hlow => execShedRaise_stands (.inr hlow), execShedLower_last h, execShedLower_stands⟩,
    fun s p h hp hon => ⟨fun hplan => execPathDrops_plan hplan p, fun hplan => ?_⟩⟩
  · refine ⟨_, execShedRaise_first h hplan hlevel hfill hceil hne, ?_⟩
    have hraise (f : Fabric) : raise .paceShed { s with fabric := f } =
        { s with fabric := f, port := { s.port with irqStat0 := s.port.irqStat0 ||| 0x10 } } := raise_paceShed_ready h
    rw [hraise]
    exact ⟨rfl, rfl, rfl, rfl, rfl, rfl, rfl⟩
  · refine ⟨_, execPathDrops_dropped h hp hon hplan, ?_⟩
    have hraise (f : Fabric) : raise .paceShed (touchLanes p 3 { s with fabric := f }) =
        { s with fabric := f, lanes := (touchLanes p 3 s).lanes, port := { s.port with irqStat0 := s.port.irqStat0 ||| 0x10 } } :=
      raise_paceShed_ready h
    rw [hraise]
    have hlane := laneOf_touchLanes p 3 s
    refine ⟨?_, ?_, ?_, rfl, fun n hrun hpath => ?_, fun n hn => ?_, rfl⟩
    · rcases (by omega : p = 0 ∨ p = 1) with rfl | rfl <;> rfl
    · rintro rfl
      exact ⟨rfl, rfl⟩
    · rintro rfl
      exact ⟨rfl, rfl⟩
    · exact (congrArg Lane.touched (hlane n)).trans (touchedLane_running hrun hpath)
    · exact (hlane n).trans (touchedLane_other hn)

end Sys2Proof.Machine

/-!
PROOFS. BLANK_IN (O30).
-/
namespace Sys2Proof.Machine

/-! BLANK_IN -/

theorem tuneBoundary_none {s : State} {p : Nat} (h : tuneOf s p = none) : tuneBoundary p s = s := by
  unfold tuneBoundary
  rw [h]

/-- What a path's front end is once its run of replaced samples has begun or ended (R188). -/
def zeroed (blank : Bool) (s : State) (p : Nat) (f : FrontEnd) : FrontEnd :=
  if blank && f.state != .off && clocksRun s then { f with blankFrom := some (f.blankFrom.getD s.clocks.sc) }
  else { f with blankedSamples := blankedNow s p f, blankFrom := none }

/-- The front end of a path whose run may begin: it begins where samples come. -/
theorem zeroed_begin {s : State} {p : Nat} {f : FrontEnd} (h : f.blankFrom = none) : zeroed true s p f =
    { f with blankFrom := if f.state ≠ .off ∧ clocksRun s = true then some s.clocks.sc else none } := by
  unfold zeroed
  by_cases hrun : f.state ≠ .off ∧ clocksRun s = true
  · rw [if_pos (by simpa using hrun), if_pos hrun, h]
    rfl
  · rw [if_neg (by simpa using hrun), if_neg hrun, blankedNow, h]

/-- The front end of a path whose run ends: its samples are counted. -/
theorem zeroed_end {s : State} {p b : Nat} {f : FrontEnd} (h : f.blankFrom = some b) : zeroed false s p f =
    { f with blankFrom := none, blankedSamples := min (2 ^ 32 - 1) (f.blankedSamples + (s.clocks.sc - b) * adcRate p / 2 ^ 24) } := by
  unfold zeroed
  rw [if_neg (by simp), blankedNow, h]
  rfl

/-- Both paths' lanes are touched by a blanking. -/
theorem laneOf_touchBoth (s : State) (n : Nat) : laneOf (touchLanes 1 0 (touchLanes 0 0 s)) n =
    touchedLane 1 0 s.clocks.sc (touchedLane 0 0 s.clocks.sc (laneOf s n)) := by
  rw [laneOf_touchLanes, laneOf_touchLanes]
  rfl

theorem touchBoth_running {sc : Nat} {x : Lane} (hrun : x.running = true) (hp : x.path < 2) :
    (touchedLane 1 0 sc (touchedLane 0 0 sc x)).touched = x.touched ||| 1 := by
  rcases (by omega : x.path = 0 ∨ x.path = 1) with h | h
  · rw [touchedLane_other (p := 1)]
    · exact touchedLane_running hrun h
    · refine .inr ?_
      simp [touchedLane, hrun, h]
  · rw [touchedLane_other (p := 0) (.inr (by omega))]
    exact touchedLane_running hrun h

theorem touchBoth_other {sc : Nat} {x : Lane} (h : x.running = false ∨ 2 ≤ x.path) : touchedLane 1 0 sc (touchedLane 0 0 sc x) = x := by
  have hne (p : Nat) (hp : p < 2) : x.running = false ∨ x.path ≠ p := h.imp_right fun h => by omega
  rw [touchedLane_other (p := 0) (hne 0 (by decide)), touchedLane_other (hne 1 (by decide))]

theorem touchBoth_link (s : State) (l : Link) : (touchLanes 1 0 (touchLanes 0 0 { s with link := l })).lanes = (touchLanes 1 0 (touchLanes 0 0 s)).lanes :=
  rfl

/-- A state of the link with no transmission blanking is its own. -/
theorem link_pinBlank {s : State} {b : Bool} (htx : s.link.txBlank = false) (hpin : s.link.pinBlank = b) :
    ({ s with link := { s.link with txBlank := false, pinBlank := b } } : State) = s := by
  rw [← hpin, ← htx]

theorem link_setPinBlank {s : State} (htx : s.link.txBlank = false) (b : Bool) :
    ({ s.link with txBlank := false, pinBlank := b } : Link) = { s.link with pinBlank := b } := by
  rw [← htx]

section
variable (s : State) (g : FrontEnd → FrontEnd)

theorem touchTrack_pathL : touchLanes 0 0 (trackZeros 0 (modFe s 0 g)) = { s with
    lanes := (touchLanes 0 0 s).lanes, pathL := { s.pathL with fe := zeroed (s.link.txBlank || s.link.pinBlank) s 0 (g s.pathL.fe) } } := by
  rfl

theorem touchTrack_pathV : touchLanes 1 0 (trackZeros 1 (modFe s 1 g)) = { s with
    lanes := (touchLanes 1 0 s).lanes, pathV := { s.pathV with fe := zeroed (s.link.txBlank || s.link.pinBlank) s 1 (g s.pathV.fe) } } := by
  rfl

theorem touchTrack_both : touchLanes 1 0 (trackZeros 1 (modFe (touchLanes 0 0 (trackZeros 0 (modFe s 0 g))) 1 g)) = { s with
    lanes := (touchLanes 1 0 (touchLanes 0 0 s)).lanes,
    pathL := { s.pathL with fe := zeroed (s.link.txBlank || s.link.pinBlank) s 0 (g s.pathL.fe) },
    pathV := { s.pathV with fe := zeroed (s.link.txBlank || s.link.pinBlank) s 1 (g s.pathV.fe) } } := by
  rw [touchTrack_pathV, touchTrack_pathL]
  rfl

theorem touchTrack_pinBlank (b : Bool) : touchLanes 1 0 (trackZeros 1 (modFe (touchLanes 0 0 (trackZeros 0 (modFe
      { s with link := { s.link with txBlank := false, pinBlank := b } } 0 g))) 1 g)) = { s with
    link := { s.link with txBlank := false, pinBlank := b }, lanes := (touchLanes 1 0 (touchLanes 0 0 s)).lanes,
    pathL := { s.pathL with fe := zeroed b s 0 (g s.pathL.fe) }, pathV := { s.pathV with fe := zeroed b s 1 (g s.pathV.fe) } } := by
  rw [touchTrack_both]
  rfl

end

/-- One interval more. -/
def oneInterval (f : FrontEnd) : FrontEnd := { f with blankIntervals := bump 4 f.blankIntervals 1 }

theorem beginBlank_fresh (s : State) : beginBlank false { s with link := { s.link with txBlank := false, pinBlank := false } } =
    tuneBoundary 1 (tuneBoundary 0 (touchLanes 1 0 (trackZeros 1 (modFe (touchLanes 0 0 (trackZeros 0 (modFe
      { s with link := { s.link with txBlank := false, pinBlank := true } } 0 oneInterval))) 1 oneInterval)))) := by
  rfl

theorem endBlank_last (s : State) : endBlank false { s with link := { s.link with txBlank := false, pinBlank := true } } =
    touchLanes 1 0 (trackZeros 1 (modFe (touchLanes 0 0 (trackZeros 0 (modFe
      { s with link := { s.link with txBlank := false, pinBlank := false } } 0 id))) 1 id)) := by
  rfl

/-- BLANK_IN's rise with no TUNE under way. -/
theorem execBlankInRise_eq {s : State} (hready : s.power.phase = .ready) (hvio : s.power.vioValid = true) (hpin : s.link.pinBlank = false)
    (htx : s.link.txBlank = false) (hl : tuneOf s 0 = none) (hv : tuneOf s 1 = none) :
    exec .blankInRise s = .next { s with
      link := { s.link with pinBlank := true }, lanes := (touchLanes 1 0 (touchLanes 0 0 s)).lanes,
      pathL := { s.pathL with fe := zeroed true s 0 { s.pathL.fe with blankIntervals := bump 4 s.pathL.fe.blankIntervals 1 } },
      pathV := { s.pathV with fe := zeroed true s 1 { s.pathV.fe with blankIntervals := bump 4 s.pathV.fe.blankIntervals 1 } } } := by
  have hcond : (ready s && s.power.vioValid && !s.link.pinBlank) = true := by simp [ready, hready, hvio, hpin]
  refine (congrArg Host.Outcome.next (if_pos hcond)).trans (congrArg _ ?_)
  have hblank := beginBlank_fresh s
  rw [link_pinBlank htx hpin] at hblank
  rw [hblank, touchTrack_pinBlank, link_setPinBlank htx, tuneBoundary_none (p := 0), tuneBoundary_none (p := 1)]
  · rfl
  · exact hv
  · exact hl

/-- BLANK_IN's end with no transmission blanking. -/
theorem execBlankInEnd_eq {s : State} (hpin : s.link.pinBlank = true) (htx : s.link.txBlank = false) :
    exec .blankInEnd s = .next { s with
      link := { s.link with pinBlank := false }, lanes := (touchLanes 1 0 (touchLanes 0 0 s)).lanes,
      pathL := { s.pathL with fe := zeroed false s 0 s.pathL.fe }, pathV := { s.pathV with fe := zeroed false s 1 s.pathV.fe } } := by
  refine (congrArg Host.Outcome.next (if_pos hpin)).trans (congrArg _ ?_)
  have hblank := endBlank_last s
  rw [link_pinBlank htx hpin] at hblank
  rw [hblank, touchTrack_pinBlank, link_setPinBlank htx]
  rfl

/-- Settles O30: each path's front end by `zeroed`, each lane by the two touches. -/
theorem blankInCoversBothPaths : Obligations.BlankInCoversBothPaths := by
  intro s htx hl hv
  refine ⟨fun hready hvio hpin hbl hbv => ⟨_, execBlankInRise_eq hready hvio hpin htx hl hv, rfl, ?_, ?_, ?_, rfl⟩,
    fun b c hpin hbl hbv => ⟨_, execBlankInEnd_eq hpin htx, rfl, zeroed_end hbl, zeroed_end hbv, ?_, rfl⟩⟩
  · intro p hp
    rcases (by omega : p = 0 ∨ p = 1) with rfl | rfl
    · exact zeroed_begin (f := { s.pathL.fe with blankIntervals := _ }) hbl
    · exact zeroed_begin (f := { s.pathV.fe with blankIntervals := _ }) hbv
  · exact fun n hrun hp => (congrArg Lane.touched (laneOf_touchBoth s n)).trans (touchBoth_running hrun hp)
  · exact fun n hn => (laneOf_touchBoth s n).trans (touchBoth_other hn)
  · exact fun n hrun hp => (congrArg Lane.touched (laneOf_touchBoth s n)).trans (touchBoth_running hrun hp)

end Sys2Proof.Machine

/-!
PROOFS. The calendar (O43, O44): DATE_SET, TIME_VOTE_CFG and SC_LATCH, and what the counter does to it.
-/
namespace Sys2Proof.Machine

/-! Checks -/

/-- A command with a sound object and header fails where the rest of its checks fail. -/
theorem checks_rest {kinds : List Nat} {k : Nat} {c : Cmd} (hn : Names c k) (hk : kinds.contains k = true) (hh : HeaderOk c)
    (rest : List (Option Reply)) : firstFail (needObject kinds c :: (needHeader c ++ rest)) = firstFail rest := by
  rw [needObject_none hn hk, firstFail_none, firstFail_needHeader hh]

theorem seq_of_mayRun {s : State} {seq op : Nat} {c : Cmd} (h : MayRun s seq op c) : c.seq = seq := startable_seq h.1

/-! What the calendar's operations change -/

/-- The calendar, the draws of its free choices and the interrupt bits of IRQ_STAT1 alone. -/
def TimeFrame (s t : State) : Prop := t = { s with time := t.time, fresh := t.fresh, port := { s.port with irqStat1 := t.port.irqStat1 } }

theorem TimeFrame.trans {s t u : State} (h : TimeFrame s t) (k : TimeFrame t u) : TimeFrame s u := by
  unfold TimeFrame at *
  rw [k, h]

/-- A TIME_CAUSE bit sets that bit of the calendar and, where it is new, TIME_EVENT (R341). -/
theorem setCause_eq (k : Nat) (s : State) : setCause k s = { s with
    time := { s.time with cause := orBit s.time.cause k }, port := { s.port with irqStat1 := (setCause k s).port.irqStat1 } } := by
  unfold setCause raiseIf raise
  split
  · split <;> rfl
  · rfl

theorem setCause_time (k : Nat) (s : State) : (setCause k s).time = { s.time with cause := orBit s.time.cause k } := by
  rw [setCause_eq]

theorem setCause_frame (k : Nat) (s : State) : TimeFrame s (setCause k s) := by
  unfold TimeFrame
  rw [setCause_eq]

/-! The counter -/

theorem tabGet_map_at {α : Type} (d : α) (f : α → α) (i : Nat) (hd : f d = d) (t : Tab α) (k : Nat) :
    tabGet d (t.map fun e => if e.1 = i then (e.1, f e.2) else e) k = if k = i then f (tabGet d t k) else tabGet d t k := by
  induction t with
  | nil => simp [tabGet, hd]
  | cons e t ih =>
    obtain ⟨j, v⟩ := e
    simp only [List.map_cons]
    by_cases hj : j = k
    · subst hj
      split
      next hi => simp only [tabGet, if_pos]
      next hi => simp only [tabGet, if_pos]
    · have hskip : ∀ w, tabGet d ((j, w) :: t.map fun e => if e.1 = i then (e.1, f e.2) else e) k =
          tabGet d (t.map fun e => if e.1 = i then (e.1, f e.2) else e) k := fun w => if_neg hj
      rw [show tabGet d ((j, v) :: t) k = tabGet d t k from if_neg hj, ← ih]
      split
      · exact hskip _
      · exact hskip _

/-- A vote past VOTE_LIFE is current no more (R339). -/
def aged (s : State) (v : Vote) : Vote := { v with current := voteCurrent s v }

theorem aged_current {s : State} {v : Vote} (h : voteCurrent s v = true) : aged s v = v := by
  have hc : v.current = true := by
    simp only [voteCurrent, Bool.and_eq_true] at h
    exact h.1
  rw [aged, h, ← hc]

theorem aged_past {s : State} {v : Vote} (h : voteCurrent s v = false) : aged s v = { v with current := false } := by
  rw [aged, h]

theorem execVoteLife_votes (s : State) (kind : Nat) :
    (s.time.votes.map fun e => if e.1 == kind && !voteCurrent s e.2 then (e.1, { e.2 with current := false }) else e) =
      s.time.votes.map fun e => if e.1 = kind then (e.1, aged s e.2) else e := by
  refine List.map_congr_left fun e _ => ?_
  by_cases hk : e.1 = kind
  · cases hv : voteCurrent s e.2
    · simp [hk, aged_past hv]
    · simp [aged_current hv]
  · simp [hk]

theorem execLeapHold_due {s : State} (hv : s.time.valid = true) (hp : s.time.leapPending = true)
    (h : utcCounts (s.time.leapTarget + 1) 0 ≤ calendarNow s) : ∃ votes at_, exec .leapHold s = .next (setCause 3 { s with time := { s.time with
      offset := s.time.offset - 2 ^ 24, votes := votes, leapHold := true, leapHoldEnd := at_ + countsPerSecond,
      leapPending := false, leaps := bump 2 s.time.leaps 1, leapAt := some at_ } }) := by
  have hcond : (s.time.valid && s.time.leapPending && leapMidnight s ≤ calendarNow s) = true := by
    simp only [hv, hp, leapMidnight, Bool.true_and]
    exact decide_eq_true h
  exact ⟨_, _, if_pos hcond⟩

theorem execLeapHold_early {s : State} (h : calendarNow s < utcCounts (s.time.leapTarget + 1) 0) : exec .leapHold s = .next s := by
  refine if_neg ?_
  simp only [leapMidnight, Bool.and_eq_true]
  exact fun hc => absurd (of_decide_eq_true hc.2) (Int.not_le.mpr h)

theorem execCalRange_inside {s : State} (h : mjdAt (calendarNow s) ≤ 124592) : exec .calRange s = .next s := by
  refine if_neg ?_
  simp only [Bool.and_eq_true]
  exact fun hc => absurd (of_decide_eq_true hc.2) (Nat.not_lt.mpr h)

theorem execCalRange_past {s : State} (hv : s.time.valid = true) (hr : s.time.calRange = false) (h : 124592 < mjdAt (calendarNow s)) :
    exec .calRange s = .next (setCause 2 { s with time := { s.time with calRange := true } }) := by
  have hcond : (s.time.valid && !s.time.calRange && 124592 < mjdAt (calendarNow s)) = true := by
    simp only [hv, hr, Bool.true_and, Bool.not_false]
    exact decide_eq_true h
  exact if_pos hcond

theorem execCounterHoldEnd_stands {s : State} (h : s.clocks.scHeld = false ∨ counterDriven s = false) (us : Nat) :
    exec (.counterHoldEnd us) s = .next s := by
  refine if_neg ?_
  rcases h with h | h <;> simp [h]

theorem execCounterHoldEnd_short {s : State} {us : Nat} (hheld : s.clocks.scHeld = true) (hdriven : counterDriven s = true) (h : us < 5000) :
    exec (.counterHoldEnd us) s = .next { s with
      clocks := { s.clocks with scHeld := false }, time := { s.time with scHolds := bump 2 s.time.scHolds 1 } } := by
  refine (if_pos (by rw [hheld, hdriven]; rfl)).trans ?_
  exact if_pos h

theorem execCounterHoldEnd_long {s : State} {us : Nat} (hheld : s.clocks.scHeld = true) (hdriven : counterDriven s = true) (h : 5000 ≤ us) :
    exec (.counterHoldEnd us) s = .next (dropVotes (invalidate 2 { s with clocks := { s.clocks with scHeld := false } })) := by
  refine (if_pos (by rw [hheld, hdriven]; rfl)).trans ?_
  exact if_neg (Nat.not_lt.mpr h)

/-! The minute -/

theorem minuteLag_ageBins (s : State) : minuteLag (ageBins s) = 0 := Nat.sub_self _

theorem dutyOf_foldl_tabMod (g : Nat → Duty → Duty) (b : Nat) : ∀ (bs : List Nat) (t : Tab Duty), bs.Nodup →
    tabGet {} (bs.foldl (fun t b => tabMod {} t b (g b)) t) b = if b ∈ bs then g b (tabGet {} t b) else tabGet {} t b := by
  intro bs
  induction bs with
  | nil => simp
  | cons a bs ih =>
    intro t hnd
    obtain ⟨ha, hnd⟩ := List.nodup_cons.mp hnd
    rw [List.foldl_cons, ih _ hnd]
    by_cases hab : b = a
    · subst hab
      simp [ha, tabMod]
    · simp [hab, tabMod, tabGet_tabSet_ne _ _ _ hab]

/-- The bins as they stand at a minute are what they were brought to. -/
theorem binsNow_ageBins (s : State) {b : Nat} (hb : b < 8) : binsNow (ageBins s) b = binsNow s b := by
  have hbins : (dutyOf (ageBins s) b).bins = binsNow s b := by
    refine (congrArg Duty.bins (dutyOf_foldl_tabMod (fun b d => { d with bins := binsNow s b }) b (List.range 8) s.link.duty List.nodup_range)).trans ?_
    rw [if_pos (List.mem_range.mpr hb)]
  rw [binsNow, minuteLag_ageBins, hbins]
  simp [binsNow, List.take_take]

theorem tokensHeld_ageBins (s : State) {b : Nat} (hb : b < 8) : tokensHeld (ageBins s) b = tokensHeld s b := by
  unfold tokensHeld
  rw [binsNow_ageBins s hb]
  rfl

theorem leNat_leBytes (n : Nat) : ∀ k, leNat (leBytes n k) = n % 256 ^ k := by
  intro k
  induction k generalizing n with
  | zero => simp [leBytes, leNat, Nat.mod_one]
  | succ k ih =>
    rw [leBytes, leNat, ih, BitVec.toNat_ofNat, show 256 ^ (k + 1) = 256 * 256 ^ k from Nat.pow_succ', Nat.mod_mul]

theorem length_leBytes (n k : Nat) : (leBytes n k).length = k := by
  induction k generalizing n with
  | zero => rfl
  | succ k ih => rw [leBytes, List.length_cons, ih]

theorem cellGets_eq_map (m : List Host.Cell) (a k : Nat) : cellGets m a k = (List.range k).map fun i => cellGet m (a + i) := by
  induction k generalizing a with
  | zero => rfl
  | succ k ih =>
    rw [cellGets, ih, List.range_succ_eq_map, List.map_cons, List.map_map]
    simp only [Function.comp_def, Nat.add_zero, Nat.succ_eq_add_one, Nat.add_assoc, Nat.add_comm 1]

theorem getD_of_lt {α : Type} {l : List α} {i : Nat} (d : α) (h : i < l.length) : l.getD i d = l[i] := by
  rw [List.getD_eq_getElem?_getD, List.getElem?_eq_getElem h, Option.getD_some]

/-- The bytes last put at an address are read there. -/
theorem cellGets_cellPuts {m : List Host.Cell} (hm : Memory.wf m = true) (a : Nat) (bs : List Byte) :
    cellGets (cellPuts m a bs) a bs.length = bs := by
  rw [cellGets_eq_map]
  refine List.ext_getElem (by simp) fun i h1 h2 => ?_
  rw [List.getElem_map, List.getElem_range, cellGet_cellPuts_in bs m a i hm h2, getD_of_lt 0 h2]

theorem shadowGet_shadowSet {c : Cellar} (h : Memory.wf c.shadow = true) (a k v : Nat) : shadowGet (shadowSet c a k v) a k = v % 256 ^ k := by
  rw [← leNat_leBytes]
  have := cellGets_cellPuts h a (leBytes v k)
  rw [length_leBytes] at this
  exact congrArg leNat this

theorem execCounterMinute_passed {s : State} (h : s.power.phase = .ready) (hdue : s.clocks.minuteDone < s.clocks.sc / (60 * 2 ^ 24)) :
    exec .counterMinute s = .next (
      let t := ageBins { s with clocks := { s.clocks with minuteDone := s.clocks.minuteDone + 1 } }
      { t with cellar := shadowSet t.cellar 0x1C50 4 (bump 4 (shadowGet t.cellar 0x1C50 4) 1) }) := by
  have hcond : (ready s && s.clocks.minuteDone < s.clocks.sc / (60 * countsPerSecond)) = true := by
    simp only [ready, h, beq_self_eq_true, Bool.true_and]
    exact decide_eq_true hdue
  exact if_pos hcond

/-- Settles O44, case by case of what the counter does. -/
theorem calendarFollowsTheCounter : Obligations.CalendarFollowsTheCounter := by
  refine fun s => ⟨fun kind => ⟨_, rfl, rfl, ?_⟩, fun hv hp => ⟨fun hle => ?_, execLeapHold_early⟩,
    fun hv hr => ⟨execCalRange_inside, fun hlt => ⟨_, execCalRange_past hv hr hlt, ?_⟩⟩,
    fun us => ⟨fun hn => execCounterHoldEnd_stands hn us, fun hheld hdriven => ⟨execCounterHoldEnd_short hheld hdriven, fun hle =>
      ⟨_, execCounterHoldEnd_long hheld hdriven hle, ?_⟩⟩⟩,
    fun h hdue hwf => ⟨_, execCounterMinute_passed h hdue, rfl, rfl, ?_, ?_, rfl⟩⟩
  · simp only [voteOf, execVoteLife_votes]
    have hget := tabGet_map_at {} (aged s) kind (aged_past (by rfl)) s.time.votes
    exact ⟨fun k hk => (hget k).trans (if_neg hk), (hget kind).trans (if_pos rfl)⟩
  · obtain ⟨votes, at_, heq⟩ := execLeapHold_due hv hp hle
    refine ⟨_, heq, ?_⟩
    rw [setCause_eq]
    exact ⟨rfl, rfl, rfl, rfl, hv, rfl, rfl⟩
  · rw [setCause_eq]
    exact ⟨rfl, rfl⟩
  · rw [invalidate, setCause_eq]
    exact ⟨rfl, rfl⟩
  · refine (shadowGet_shadowSet hwf _ _ _).trans ?_
    exact Nat.mod_eq_of_lt (Nat.lt_of_le_of_lt (Nat.min_le_left _ _) (by decide))
  · exact tokensHeld_ageBins { s with clocks := { s.clocks with minuteDone := s.clocks.minuteDone + 1 } } (by decide)

end Sys2Proof.Machine

/-!
PROOFS. The calendar's commands (O43): DATE_SET, TIME_VOTE_CFG and SC_LATCH.
-/
namespace Sys2Proof.Machine

@[simp] theorem needDate_true (off : Nat) : needDate off true = none := rfl
@[simp] theorem needDate_false (off : Nat) : needDate off false = some (0x13, [lowByte off]) := rfl

/-! DATE_SET (R342) -/

section
variable {c : Cmd} (hn : Names c 6) (hh : HeaderOk c) (hy : 2000 ≤ parN c 8 2 ∧ parN c 8 2 ≤ 2199)
include hn hh hy

theorem checkDateSet_month (hm : 12 < par c 10) (s : State) : checkDateSet s c = some (0x13, [10]) := by
  simp only [checkDateSet, List.cons_append, List.append_assoc]
  rw [checks_rest hn rfl hh]
  have h10 : (1 ≤ par c 10 && par c 10 ≤ 12 : Bool) = false := by simp; omega
  simp only [hy.1, hy.2, decide_true, Bool.and_self, needDate_true, h10, needDate_false, firstFail_none, firstFail_some]
  rfl

variable (hdate : 1 ≤ par c 10 ∧ par c 10 ≤ 12 ∧ 1 ≤ par c 11 ∧ par c 11 ≤ monthDays (par c 10) (parN c 8 2)) (htime : par c 12 < 24 ∧ par c 13 < 60)
include hdate htime

theorem checkDateSet_second (h14 : 61 ≤ par c 14) (s : State) : checkDateSet s c = some (0x13, [14]) := by
  obtain ⟨hm1, hm2, hd1, hd2⟩ := hdate
  simp only [checkDateSet, List.cons_append, List.append_assoc]
  rw [checks_rest hn rfl hh]
  have h14' : (par c 14 < 60 || leapSecondOk c : Bool) = false := by
    simp only [leapSecondOk, Bool.or_eq_false_iff, decide_eq_false_iff_not, Bool.and_eq_false_iff, beq_eq_false_iff_ne]
    omega
  simp only [hy.1, hy.2, hm1, hm2, hd1, hd2, htime.1, htime.2, decide_true, Bool.and_self, needDate_true, h14', needDate_false, firstFail_none,
    firstFail_some]
  rfl

theorem checkDateSet_none (h14 : par c 14 < 60 ∨ (par c 14 = 60 ∧ par c 12 = 23 ∧ par c 13 = 59 ∧ par c 11 = monthDays (par c 10) (parN c 8 2)))
    (h18 : par c 18 < 2) (h19 : par c 19 = 0) (hz : ZeroBytes c 28 31) (s : State) : checkDateSet s c = none := by
  obtain ⟨hm1, hm2, hd1, hd2⟩ := hdate
  simp only [checkDateSet, List.cons_append, List.append_assoc]
  rw [checks_rest hn rfl hh]
  have h14' : (par c 14 < 60 || leapSecondOk c : Bool) = true := by
    simp only [leapSecondOk, Bool.or_eq_true, decide_eq_true_eq, Bool.and_eq_true, beq_iff_eq]
    exact h14.imp id fun ⟨hs, hh, hm, hd⟩ => ⟨⟨⟨hs, hh⟩, hm⟩, hd⟩
  simp only [hy.1, hy.2, hm1, hm2, hd1, hd2, htime.1, htime.2, h18, h19, decide_true, Bool.and_self, needDate_true, h14', firstFail_none,
    needField_true, beq_self_eq_true, List.nil_append, firstFail_needZeros_end hz]

end

/-! TIME_VOTE_CFG (R339, R340) -/

/-- What an evaluation keeps: the settings, and that there is no vote. -/
structure Evaluated (s t : State) : Prop where
  frame : TimeFrame s t
  quorum : t.time.quorum = s.time.quorum
  consensusEn : t.time.consensusEn = s.time.consensusEn
  agreeMs : t.time.agreeMs = s.time.agreeMs
  voteLife : t.time.voteLife = s.time.voteLife
  weights : t.time.weights = s.time.weights
  votes : s.time.votes = [] → t.time.votes = []

theorem Evaluated.refl (s : State) : Evaluated s s := ⟨rfl, rfl, rfl, rfl, rfl, rfl, id⟩

theorem Evaluated.trans {s t u : State} (h : Evaluated s t) (k : Evaluated t u) : Evaluated s u :=
  ⟨h.frame.trans k.frame, k.quorum.trans h.quorum, k.consensusEn.trans h.consensusEn, k.agreeMs.trans h.agreeMs, k.voteLife.trans h.voteLife,
    k.weights.trans h.weights, k.votes ∘ h.votes⟩

theorem setCause_evaluated (k : Nat) (s : State) : Evaluated s (setCause k s) := by
  have h := setCause_time k s
  refine ⟨setCause_frame k s, ?_, ?_, ?_, ?_, ?_, fun hv => ?_⟩ <;> rw [h]
  exact hv

theorem draw_evaluated (n : Nat) (s : State) : Evaluated s (draw n s).2 := ⟨rfl, rfl, rfl, rfl, rfl, rfl, id⟩

theorem pickOne_evaluated {α : Type} (xs : List α) (s : State) : Evaluated s (pickOne xs s).2 := by
  rcases xs with _ | ⟨x, _ | ⟨y, ys⟩⟩
  · exact .refl s
  · exact .refl s
  · exact draw_evaluated (ys.length + 2) s

theorem setCauseIf_evaluated (b : Bool) (k : Nat) (s : State) : Evaluated s (setCauseIf b k s) := by
  unfold setCauseIf
  split
  · exact setCause_evaluated k s
  · exact .refl s

/-- An applied result leaves all but LEAP_PENDING and its target. -/
theorem applyLeap_settings (t : Time) (best : Vote) (announce known : Bool) :
    ∃ pending target, applyLeap t best announce known = { t with leapPending := pending, leapTarget := target } := by
  unfold applyLeap
  split
  · exact ⟨t.leapPending, t.leapTarget, rfl⟩
  · split
    · exact ⟨true, _, rfl⟩
    · exact ⟨false, t.leapTarget, rfl⟩

theorem applyBest_evaluated (s : State) (kind : Nat) (best : Vote) (g : List (Nat × Vote)) (dissent announce known : Bool) :
    Evaluated s (applyBest s kind best g dissent announce known) := by
  unfold applyBest
  have hcauses (u : State) : Evaluated u (setCauseIf dissent 4 (setCause 0 u)) := (setCause_evaluated 0 u).trans (setCauseIf_evaluated dissent 4 _)
  extract_lets t votes t'
  obtain ⟨pending, target, hleap⟩ := applyLeap_settings t' best announce known
  rw [hleap]
  refine Evaluated.trans ?_ (hcauses _)
  refine ⟨rfl, rfl, rfl, rfl, rfl, rfl, fun hv => ?_⟩
  simp only [t', votes, t, hv, List.map_nil]

theorem evaluateVotes_evaluated (s : State) : Evaluated s (evaluateVotes s).1 := by
  have hstart (votes : Tab Vote) (ignored : Nat) (h : s.time.votes = [] → votes = []) :
      Evaluated s { s with time := { s.time with votes := votes, leapIgnored := ignored } } := ⟨rfl, rfl, rfl, rfl, rfl, rfl, h⟩
  unfold evaluateVotes
  extract_lets v known announce aside t votes u part
  have hu : Evaluated s u := hstart _ _ fun hv => by simp [votes, t, hv]
  have hsets := pickOne_evaluated (agreeingSets t part) u
  generalize pickOne (agreeingSets t part) u = p at hsets ⊢
  obtain ⟨set, p⟩ := p
  dsimp only at hsets ⊢
  have hfirst := pickOne_evaluated (unbeaten (betterVote t) (set.getD [])) p
  generalize pickOne (unbeaten (betterVote t) (set.getD [])) p = q at hfirst ⊢
  obtain ⟨first, q⟩ := q
  have hq : Evaluated s q := (hu.trans hsets).trans hfirst
  split
  · split
    · exact hq.trans ⟨rfl, rfl, rfl, rfl, rfl, rfl, id⟩
    · exact hq.trans (applyBest_evaluated _ _ _ _ _ _ _)
  · exact hq.trans ⟨rfl, rfl, rfl, rfl, rfl, rfl, id⟩

/-- One setting selected or not. -/
theorem applyVoteCfg_spec (t : Time) (c : Cmd) :
    (applyVoteCfg t c).quorum = (if bit (par c 8) 0 then par c 9 else t.quorum) ∧
      (applyVoteCfg t c).consensusEn = (if bit (par c 8) 1 then bit (par c 10) 0 else t.consensusEn) ∧
      (applyVoteCfg t c).agreeMs = (if bit (par c 8) 2 then parN c 11 2 else t.agreeMs) ∧
      (applyVoteCfg t c).voteLife = (if bit (par c 8) 3 then parN c 13 4 else t.voteLife) ∧
      (applyVoteCfg t c).weights = (if bit (par c 8) 4 then [(1, par c 17), (2, par c 18), (3, par c 19), (4, par c 20)] else t.weights) ∧
      (bit (par c 8) 5 = true → (applyVoteCfg t c).votes = []) := by
  unfold applyVoteCfg
  dsimp only
  refine ⟨?_, ?_, ?_, ?_, ?_, fun h => ?_⟩
  · simp only [apply_ite Time.quorum, ite_self]
  · simp only [apply_ite Time.consensusEn, ite_self]
  · simp only [apply_ite Time.agreeMs, ite_self]
  · simp only [apply_ite Time.voteLife, ite_self]
  · simp only [apply_ite Time.weights, ite_self]
  · rw [if_pos h]

theorem checkTimeVoteCfg_none {c : Cmd} (hn : Names c 6) (hh : HeaderOk c) (hz : ZeroBytes c 21 31) (h8 : par c 8 < 64)
    (h9 : bit (par c 8) 0 = true → 1 ≤ par c 9 ∧ par c 9 ≤ 4) (h10 : bit (par c 8) 1 = true → par c 10 < 2)
    (h11 : bit (par c 8) 2 = true → 10 ≤ parN c 11 2 ∧ parN c 11 2 ≤ 10000) (h13 : bit (par c 8) 3 = true → 60 ≤ parN c 13 4 ∧ parN c 13 4 ≤ 86400)
    (h17 : bit (par c 8) 4 = true → par c 17 ≤ 15 ∧ par c 18 ≤ 15 ∧ par c 19 ≤ 15 ∧ par c 20 ≤ 15) (s : State) : checkTimeVoteCfg s c = none := by
  simp only [checkTimeVoteCfg, List.cons_append, List.append_assoc]
  rw [checks_rest hn rfl hh, firstFail_eq_none]
  simp only [List.nil_append, List.forall_mem_cons, needField_eq_none, decide_eq_true_eq, Bool.or_eq_true, Bool.and_eq_true, Bool.not_eq_true',
    ← Bool.not_eq_true, ← Decidable.imp_iff_not_or]
  exact ⟨h8, h9, h10, h11, h13, fun h => (h17 h).1, fun h => (h17 h).2.1, fun h => (h17 h).2.2.1, fun h => (h17 h).2.2.2, needZeros_none hz⟩

theorem expireVotes_evaluated (s : State) : Evaluated s (expireVotes s) :=
  ⟨rfl, rfl, rfl, rfl, rfl, rfl, fun hv => by simp only [expireVotes, hv, List.map_nil]⟩

/-- The reply's two bytes say how many votes are current and whether the calendar was set. -/
theorem runTimeVoteCfg_eq (s : State) (c : Cmd) : ∃ u a b, Evaluated { expireVotes s with time := applyVoteCfg (expireVotes s).time c } u ∧
    runTimeVoteCfg s c = complete c.seq 0x00 [a, b] u := by
  unfold runTimeVoteCfg
  have he := expireVotes_evaluated { expireVotes s with time := applyVoteCfg (expireVotes s).time c }
  dsimp only
  generalize expireVotes { expireVotes s with time := applyVoteCfg (expireVotes s).time c } = u at he ⊢
  split
  · exact ⟨_, _, _, he.trans (evaluateVotes_evaluated u), rfl⟩
  · exact ⟨_, _, _, he, rfl⟩

theorem runDateSet_eq (s : State) (c : Cmd) (h18 : par c 18 < 2) : ∃ hold,
    runDateSet s c =
      let y := parN c 8 2
      let at_ := if par c 18 = 1 then parN c 20 8 else s.clocks.sc
      let new := utcCounts (mjdOf y (par c 10) (par c 11)) (par c 12 * 3600 + par c 13 * 60 + min (par c 14) 59) + (parN c 15 3 : Int) - (at_ : Int)
      let step := if s.time.valid then satInt 4 (new - s.time.offset) else 0
      complete c.seq 0x00 (leBytes (mjdOf y (par c 10) (par c 11)) 3 ++ [0] ++ leBytes (twos 4 step) 4) (setCause 0 { s with time := { s.time with
        offset := new, valid := true, source := 5, invalidCause := 0, lastStep := step, lastSetSc := s.clocks.sc,
        leapPending := false, calRange := false, leapHold := par c 14 == 60, leapHoldEnd := hold } }) := by
  have hbit : bit (par c 18) 0 = decide (par c 18 = 1) := by
    rcases (by omega : par c 18 = 0 ∨ par c 18 = 1) with h | h <;> rw [h] <;> rfl
  unfold runDateSet
  simp only [hbit, decide_eq_true_eq]
  exact ⟨_, rfl⟩

/-! SC_LATCH (R336) -/

/-- A snapshot from MJD 51,544 on draws nothing: its first seven bytes are the day and the second. -/
theorem takeSnapshot_dated {s : State} (h : 51544 ≤ mjdAt (calendarNow s)) : ∃ bytes : List Byte,
    takeSnapshot s = { s with time := { s.time with snapshot := bytes } } ∧ bytes.take 4 = leBytes (mjdAt (calendarNow s)) 4 ∧
      (bytes.drop 4).take 3 = leBytes (sodAt (calendarNow s)) 3 ∧ bytes.length = 19 := by
  unfold takeSnapshot
  dsimp only
  generalize mjdAt (calendarNow s) = mjd at h ⊢
  rw [if_neg (Nat.not_lt.mpr h)]
  exact ⟨_, rfl, rfl, rfl, rfl⟩

theorem calendarNow_setPort (s : State) (p : Port) : calendarNow { s with port := p } = calendarNow s := rfl

theorem scLatch_live {s : State} (v : Byte) (h : PortLive s) :
    exec (.scLatch v) s = .next (acked true (takeSnapshot { s with port := { s.port with scLatch := s.clocks.sc % 2 ^ 64 } })) :=
  next_writeCycle_live h 0x23 v

/-- Settles O43: each command by its checks and by what it leaves of the calendar. -/
theorem calendarFollowsItsCommands : Obligations.CalendarFollowsItsCommands := by
  refine fun s => ⟨fun seq c hr hn hz h18 h19 => ?_, fun seq c hr hn hz h8 h9 h10 h11 h13 h17 => ?_, fun v hlive hdated => ?_⟩
  · obtain ⟨hstart, hh⟩ := hr
    intro y at_ new step hy1 hy2
    have hfails {r : Reply} (hc : checkDateSet s c = some r) : exec (.dateSet seq) s = .next (complete seq r.1 r.2 s) :=
      congrArg Host.Outcome.next (startCmd_fails runDateSet hstart hc)
    refine ⟨fun hm => hfails (checkDateSet_month hn hh ⟨hy1, hy2⟩ hm s), fun hm1 hm2 hd1 hd2 hhour hmin =>
      ⟨fun hs => hfails (checkDateSet_second hn hh ⟨hy1, hy2⟩ ⟨hm1, hm2, hd1, hd2⟩ ⟨hhour, hmin⟩ hs s), fun hs => ?_⟩⟩
    have hrun := startCmd_runs runDateSet hstart (checkDateSet_none hn hh ⟨hy1, hy2⟩ ⟨hm1, hm2, hd1, hd2⟩ ⟨hhour, hmin⟩ hs h18 h19 hz s)
    obtain ⟨hold, heq⟩ := runDateSet_eq (runs s seq) c h18
    rw [startable_seq hstart] at heq
    refine ⟨_, congrArg Host.Outcome.next (hrun.trans heq), ?_⟩
    rw [setCause_eq]
    exact ⟨rfl, rfl, rfl, rfl, rfl, rfl, rfl, rfl, rfl, rfl, rfl⟩
  · obtain ⟨hstart, hh⟩ := hr
    have hrun := startCmd_runs runTimeVoteCfg hstart (checkTimeVoteCfg_none hn hh hz h8 h9 h10 h11 h13 h17 s)
    obtain ⟨u, a, b, hu, heq⟩ := runTimeVoteCfg_eq (runs s seq) c
    rw [startable_seq hstart] at heq
    obtain ⟨hquorum, hcons, hagree, hlife, hweights, hvotes⟩ := applyVoteCfg_spec (expireVotes (runs s seq)).time c
    exact ⟨u, [a, b], congrArg Host.Outcome.next (hrun.trans heq), rfl, hu.quorum.trans hquorum, hu.consensusEn.trans hcons,
      hu.agreeMs.trans hagree, hu.voteLife.trans hlife, hu.weights.trans hweights, fun h5 => hu.votes (hvotes h5), hu.frame⟩
  · obtain ⟨bytes, heq, hday, hsec, hlen⟩ := takeSnapshot_dated (s := { s with port := { s.port with scLatch := s.clocks.sc % 2 ^ 64 } }) hdated
    rw [scLatch_live v hlive, heq]
    exact ⟨_, rfl, rfl, hday, hsec, hlen, rfl⟩

end Sys2Proof.Machine

/-!
PROOFS. A path's own steps (O26, O47 and others): what a change of its front end's state and a start of its synthesiser write, said once for the
three paths while no TUNE of the path is asked to stop.
-/
namespace Sys2Proof.Machine

/-- `t` is `s` but for path `p` and the lanes. -/
def PathFrame (p : Nat) (s t : State) : Prop := ∃ ls x, t = setPath { s with lanes := ls } p x

theorem PathFrame.refl (p : Nat) (s : State) : PathFrame p s s := by
  rcases p with _ | _ | p <;> exact ⟨s.lanes, _, rfl⟩

theorem PathFrame.trans {p : Nat} {s t u : State} (h : PathFrame p s t) (k : PathFrame p t u) : PathFrame p s u := by
  obtain ⟨ls, x, rfl⟩ := h
  obtain ⟨ls', x', rfl⟩ := k
  rcases p with _ | _ | p <;> exact ⟨ls', x', rfl⟩

theorem PathFrame.rings {p : Nat} {s t : State} (h : PathFrame p s t) : t.rings = s.rings := by
  obtain ⟨ls, x, rfl⟩ := h
  exact setPath_rings _ _ _

theorem PathFrame.clocks {p : Nat} {s t : State} (h : PathFrame p s t) : t.clocks = s.clocks := by
  obtain ⟨ls, x, rfl⟩ := h
  exact setPath_clocks _ _ _

theorem PathFrame.link {p : Nat} {s t : State} (h : PathFrame p s t) : t.link = s.link := by
  obtain ⟨ls, x, rfl⟩ := h
  exact setPath_link _ _ _

theorem PathFrame.sessions {p : Nat} {s t : State} (h : PathFrame p s t) : t.sessions = s.sessions := by
  obtain ⟨ls, x, rfl⟩ := h
  exact setPath_sessions _ _ _

theorem PathFrame.pathS {s t : State} (h : PathFrame 2 s t) : t = { s with lanes := t.lanes, pathS := t.pathS } := by
  obtain ⟨ls, x, rfl⟩ := h
  rfl

theorem setPath_pathFrame (s : State) (p : Nat) (x : Path) : PathFrame p s (setPath s p x) := ⟨s.lanes, x, rfl⟩

theorem modPath_pathFrame (s : State) (p : Nat) (f : Path → Path) : PathFrame p s (modPath s p f) := setPath_pathFrame ..

theorem modFe_pathFrame (s : State) (p : Nat) (f : FrontEnd → FrontEnd) : PathFrame p s (modFe s p f) := setPath_pathFrame ..

theorem modSynth_pathFrame (s : State) (p : Nat) (f : Synth → Synth) : PathFrame p s (modSynth s p f) := setPath_pathFrame ..

theorem lanes_pathFrame (s : State) (p : Nat) (ls : Tab Lane) : PathFrame p s { s with lanes := ls } := by
  rcases p with _ | _ | p <;> exact ⟨ls, _, rfl⟩

theorem touchState_pathFrame (p : Nat) (st : FeState) (s : State) : PathFrame p s (touchState p st s) := by
  unfold touchState
  split
  case h_7 => exact .refl p s
  all_goals exact lanes_pathFrame s p _

/-- No TUNE of the path is asked to stop. -/
def TuneStands (p : Nat) (s : State) : Prop := ∀ c, tuneOf s p = some c → stopCause s c.seq = none

theorem tuneStands_none {p : Nat} {s : State} (h : tuneOf s p = none) : TuneStands p s := fun c hc => by rw [h] at hc; cases hc

theorem TuneStands.of_rings {p : Nat} {s t : State} (h : TuneStands p s) (hr : t.rings = s.rings) : TuneStands p t := by
  unfold TuneStands tuneOf runningOf stopCause findCmd at *
  rw [hr]
  exact h

theorem tuneBoundary_stands {p : Nat} {s : State} (h : TuneStands p s) : tuneBoundary p s = s := by
  unfold tuneBoundary
  split
  next c hc => rw [h c hc]
  · rfl

/-- A change of state, with no TUNE to end at the boundary. -/
theorem setFe_pathFrame {p : Nat} {s : State} (h : TuneStands p s) (st : FeState) : PathFrame p s (setFe p st s) := by
  unfold setFe
  extract_lets old s1 s2
  have h1 : PathFrame p s s1 := (touchState_pathFrame p old s).trans (modFe_pathFrame ..)
  have h2 : PathFrame p s s2 := (h1.trans (touchState_pathFrame p st s1)).trans (modFe_pathFrame ..)
  split
  case h_4 => rw [tuneBoundary_stands (h.of_rings h2.rings)]; exact h2
  all_goals exact h2

/-- The front end that a change of state leaves, its run of replaced samples left open. -/
theorem pathOf_setFe_state (p : Nat) (st : FeState) (s : State) : ∃ n b, pathOf (setFe p st s) p =
    { pathOf s p with fe := { feAfter st (pathOf s p).fe with blankedSamples := n, blankFrom := b } } := by
  rw [pathOf_setFe, feTracked]
  split
  · exact ⟨_, _, rfl⟩
  · exact ⟨_, _, rfl⟩

theorem feAfter_starting {f : FrontEnd} (h : f.state = .off) : feAfter .starting f = { f with state := .starting, stateSamples := 0 } := by
  unfold feAfter
  rw [h]
  rfl

/-- The synthesiser of a use that starts (R156). -/
theorem startUse_some {p lo : Nat} {r : RefArr} {x : Synth} (h : tableFor x ≠ none) :
    ∃ fallback entry band, startUse p lo r x = some (startBand band { programLo p lo r { x with btFallback := fallback } with btEntry := entry }) := by
  unfold startUse
  split
  next hnone => exact absurd hnone h
  next t fallback _ => exact ⟨fallback, _, _, rfl⟩

/-- A start of the synthesiser with the CPLL locked and a valid table. -/
theorem beginLock_starts {p : Nat} {s : State} (hfault : s.clocks.fault = false) (hlock : s.clocks.locked = true)
    (ht : tableFor (pathOf s p).synth ≠ none) : ∃ fallback entry band, beginLock p s = modSynth s p fun _ =>
      startBand band { programLo p (pathOf s p).fe.loNow s.clocks.ref { (pathOf s p).synth with btFallback := fallback } with btEntry := entry } := by
  obtain ⟨fallback, entry, band, hx⟩ := startUse_some (p := p) (lo := (pathOf s p).fe.loNow) (r := s.clocks.ref) ht
  refine ⟨fallback, entry, band, ?_⟩
  simp only [beginLock, hfault, hlock, hx, Bool.false_eq_true, if_false, Bool.not_true]

/-- A path that is OFF starts (R173, R181): its front end in STARTING with START_RANGE and half the fine span, its synthesiser in the first try of
a lock at the LO in use. -/
theorem startPath_spec {p : Nat} {s : State} (hfault : s.clocks.fault = false) (hlock : s.clocks.locked = true)
    (ht : tableFor (pathOf s p).synth ≠ none) (hoff : (pathOf s p).fe.state = .off) (htune : TuneStands p s) :
    PathFrame p s (startPath p s) ∧ ∃ n b fallback entry band, pathOf (startPath p s) p = { pathOf s p with
      fe := { (pathOf s p).fe with
        used := (pathOf s p).fe.set, gainRange := min (pathOf s p).fe.set.startRange (rangeCount p - 1), gainFine := fineSpan p / 2, selPend := false,
        state := .starting, stateSamples := 0, blankedSamples := n, blankFrom := b }
      synth := startBand band { programLo p (pathOf s p).fe.loNow s.clocks.ref { (pathOf s p).synth with btFallback := fallback } with
        btEntry := entry } } := by
  unfold startPath
  extract_lets u
  have hu : PathFrame p s u := modFe_pathFrame ..
  have hup : pathOf u p = { pathOf s p with fe := { (pathOf s p).fe with
      used := (pathOf s p).fe.set, gainRange := min (pathOf s p).fe.set.startRange (rangeCount p - 1), gainFine := fineSpan p / 2, selPend := false } } :=
    pathOf_modFe_same s p _
  clear_value u
  have hset := setFe_pathFrame (htune.of_rings hu.rings) .starting
  obtain ⟨n, b, hsp⟩ := pathOf_setFe_state p .starting u
  generalize setFe p .starting u = v at hset hsp ⊢
  have hv := hu.trans hset
  rw [hup] at hsp
  obtain ⟨fallback, entry, band, hlk⟩ := beginLock_starts (p := p) (s := v) (by rw [hv.clocks]; exact hfault) (by rw [hv.clocks]; exact hlock)
    (by rw [hsp]; exact ht)
  rw [hlk]
  refine ⟨hv.trans (modSynth_pathFrame ..), n, b, fallback, entry, band, ?_⟩
  rw [pathOf_modSynth_same, hsp, hv.clocks, feAfter_starting (by exact hoff)]

/-! The TUNE of a path that is OFF -/

theorem find_map_modified {cs : List Cmd} {seq : Nat} {c : Cmd} (f : Cmd → Cmd) (h : cs.find? (fun d => d.seq == seq) = some c) :
    (cs.map fun d => if d.seq = seq then { f d with seq := seq } else d).find? (fun d => d.seq == seq) = some { f c with seq := seq } := by
  induction cs with
  | nil => cases h
  | cons b cs ih =>
    by_cases hb : b.seq = seq
    · rw [List.find?_cons_of_pos (by simpa using hb)] at h
      cases h
      simp [hb]
    · rw [List.find?_cons_of_neg (by simpa using hb)] at h
      simp [hb, ih h]

/-- A command that runs is in flight as it was, running. -/
theorem findCmd_runs {s : State} {seq : Nat} {c : Cmd} (h : findCmd s seq = some c) :
    findCmd (runs s seq) seq = some { c with phase := .running, seq := seq } := find_map_modified (fun d => { d with phase := .running }) h

theorem stopCause_runs {s : State} {seq : Nat} {c : Cmd} (h : findCmd s seq = some c) : stopCause (runs s seq) seq = none := by
  unfold stopCause
  rw [findCmd_runs h]

/-- With no earlier command of its object, a command that runs is the first of its object and opcode that does. -/
theorem find_runs_first {cs : List Cmd} {seq op obj : Nat} {c d : Cmd} (h : cs.find? (fun d => d.seq == seq) = some c) (hop : cmdOp c = op)
    (hobj : cmdObj c = obj) (hfree : ∀ b ∈ earlier cs seq, cmdObj b ≠ obj)
    (hd : (cs.map fun d => if d.seq = seq then { { d with phase := CmdPhase.running } with seq := seq } else d).find? (fun c =>
      cmdOp c == op && cmdObj c == obj && (c.phase != .waiting && c.phase != .abortWaiting)) = some d) : d.seq = seq := by
  induction cs with
  | nil => cases h
  | cons b cs ih =>
    by_cases hb : b.seq = seq
    · rw [List.find?_cons_of_pos (by simpa using hb)] at h
      cases h
      rw [List.map_cons, if_pos hb, List.find?_cons_of_pos] at hd
      · cases hd
        rfl
      · rw [Bool.and_eq_true, Bool.and_eq_true, beq_iff_eq, beq_iff_eq]
        exact ⟨⟨hop, hobj⟩, rfl⟩
    · rw [List.find?_cons_of_neg (by simpa using hb)] at h
      rw [earlier, if_neg hb] at hfree
      have hne : cmdObj b ≠ obj := hfree b (List.mem_cons_self ..)
      rw [List.map_cons, if_neg hb, List.find?_cons_of_neg (by simp [hne])] at hd
      exact ih h (fun e he => hfree e (List.mem_cons_of_mem _ he)) hd

/-- The TUNE that starts is the only one of its path, and nothing has asked it to stop (R84). -/
theorem tuneStands_runs {s : State} {seq : Nat} {c : Cmd} (h : startable s seq 0x10 = some c) (hk : cmdKind c = 2) :
    TuneStands (cmdIdx c) (runs s seq) := by
  obtain ⟨hfind, -, hop, hmay⟩ := startable_spec h
  have hobj : cmdObj c = 0x2000 + cmdIdx c := by
    simp only [cmdKind, cmdIdx] at hk ⊢
    omega
  intro d hd
  have hseq : d.seq = seq := by
    refine find_runs_first hfind hop hobj (fun b hb => ?_) hd
    simp only [mayStart, hop, Bool.and_eq_true, Bool.or_eq_true, objectFree] at hmay
    obtain ⟨-, hmay | ⟨⟨⟨hfree, -⟩, -⟩, -⟩⟩ := hmay
    · exact absurd hmay (by decide)
    · obtain (h2 | h0) | hany := hfree
      · exact absurd h2 (by decide)
      · rw [beq_iff_eq, hobj] at h0
        omega
      · rw [Bool.not_eq_true', List.any_eq_false] at hany
        simpa [hobj] using hany b hb
  rw [hseq, stopCause_runs hfind]

theorem checkTune_none {s : State} {c : Cmd} {side : Nat} (hn : Names c 2) (hh : HeaderOk c) (hz : ZeroBytes c 16 31)
    (hmode : 3 ≤ s.modes.modeNow ∧ s.modes.modeNow ≤ 6) (hcov : covered (cmdIdx c) (parN c 8 4) = true)
    (hraster : rasterOk (cmdIdx c) (parN c 12 3) = true) (h15 : par c 15 < 16) (hcode : par c 15 % 4 ≠ 3)
    (hwidth : widthOk (cmdIdx c) (par c 15 / 4) = true)
    (hside : chooseSide s (cmdIdx c) (parN c 8 4) (parN c 12 3) (par c 15 % 4) = some side) : checkTune s c = none := by
  have hmod : par c 15 / 4 % 4 = par c 15 / 4 := Nat.mod_eq_of_lt (by omega)
  simp only [checkTune, List.cons_append, List.append_assoc]
  rw [checks_rest hn rfl hh, firstFail_eq_none]
  simp only [List.nil_append, List.forall_mem_cons, List.forall_mem_append, needField_eq_none, hcov, hside, hraster, h15, hmod, hwidth,
    Option.isSome_some, Bool.or_true, Bool.and_true, decide_true, Bool.true_and, bne_iff_ne]
  exact ⟨trivial, trivial, hcode, needZeros_none hz, needMode_eq_none.mpr (by simp; omega), nofun⟩

/-- The front end of path `p` as a TUNE places it (R176). -/
def tunedFe (s : State) (p centre raster side width : Nat) : FrontEnd :=
  let f := (pathOf s p).fe
  let lo := if side = 0 then centre + raster / 2 else centre - raster / 2
  let moved := f.tuned && (f.presel != preselOf p lo centre || f.width != width)
  { f with tuned := true, loSideUsed := side, presel := preselOf p lo centre, width := width, loHz := lo, loNow := lo, centreHz := centre,
           rasterHz := raster, selPend := f.state != .off && (f.selPend || moved) }

/-- A TUNE of a path that is OFF places it, and starts it. -/
theorem tunePath_off {s : State} {p : Nat} (hoff : (pathOf s p).fe.state = .off) (centre raster side width : Nat) :
    ∃ u, PathFrame p s u ∧ pathOf u p = { pathOf s p with fe := tunedFe s p centre raster side width } ∧
      tunePath p centre raster side width s = startPath p u := by
  unfold tunePath
  extract_lets x fe lo presel same keep moved u v
  have hu : PathFrame p s u := modFe_pathFrame ..
  have hup : pathOf u p = { pathOf s p with fe := tunedFe s p centre raster side width } := pathOf_modFe_same ..
  have hv : PathFrame p u v := lanes_pathFrame u p _
  have hvp : pathOf v p = pathOf u p := by
    rcases p with _ | _ | p <;> rfl
  refine ⟨v, hu.trans hv, hvp.trans hup, ?_⟩
  have hstate : (pathOf v p).fe.state = .off := by
    rw [hvp, hup]
    exact hoff
  simp only [fe, hoff, retunePath, hstate]

theorem refHz_pos (k : Nat) : 0 < refHz k := by
  unfold refHz
  split <;> decide

theorem pdHz_pos (r : RefArr) : 0 < pdHz r := by
  have h : 2 ≤ refHz r.freq := by
    unfold refHz
    split <;> decide
  unfold pdHz
  split <;> omega

/-- The fractional divider is the nearest in steps of 2^-24 (R154). -/
theorem programLo_nearest (p lo : Nat) (r : RefArr) (x : Synth) :
    let y := programLo p lo r x
    let n := y.nInt * 2 ^ 24 + y.nFrac
    2 * (pdHz r * n) ≤ 2 * (lo * 2 ^ y.divLog2) * 2 ^ 24 + pdHz r ∧ 2 * (lo * 2 ^ y.divLog2) * 2 ^ 24 < 2 * (pdHz r * n) + pdHz r := by
  intro y n
  have hn : n = (2 * (lo * 2 ^ y.divLog2) * 2 ^ 24 + pdHz r) / (2 * pdHz r) := Nat.div_add_mod' _ _
  have hpos := pdHz_pos r
  clear_value n
  generalize 2 * (lo * 2 ^ y.divLog2) * 2 ^ 24 = v at hn ⊢
  have hdiv := Nat.div_add_mod (v + pdHz r) (2 * pdHz r)
  have hmod := Nat.mod_lt (v + pdHz r) (show 0 < 2 * pdHz r by omega)
  rw [← hn] at hdiv
  have hassoc : 2 * pdHz r * n = 2 * (pdHz r * n) := Nat.mul_assoc ..
  omega

theorem execTune_starts {s : State} {seq : Nat} {c : Cmd} (hstart : startable s seq 0x10 = some c) (hn : Names c 2) (hp : cmdIdx c < 2)
    (hidle : s.clocks.stage = .idle) (hfault : s.clocks.fault = false) (hc : checkTune s c = none) {side : Nat}
    (hside : chooseSide s (cmdIdx c) (parN c 8 4) (parN c 12 3) (par c 15 % 4) = some side) (h15 : par c 15 < 16) :
    exec (.tune seq) s = .next (tunePath (cmdIdx c) (parN c 8 4) (parN c 12 3) side (par c 15 / 4) (runs s seq)) := by
  have hwait : tuneWaits s c = false := by
    simp only [tuneWaits, hidle, Bool.or_eq_false_iff, Bool.and_eq_false_iff, beq_eq_false_iff_ne]
    exact ⟨rfl, .inl (by omega)⟩
  have hkind : ¬ cmdKind c = 3 := by rw [hn.1]; decide
  have hmod : par c 15 / 4 % 4 = par c 15 / 4 := Nat.mod_eq_of_lt (by omega)
  have hside' : chooseSide (runs s seq) (cmdIdx c) (parN c 8 4) (parN c 12 3) (par c 15 % 4) = some side := hside
  have hrun : runTune (runs s seq) c = tunePath (cmdIdx c) (parN c 8 4) (parN c 12 3) side (par c 15 / 4) (runs s seq) := by
    unfold runTune
    rw [if_neg (by rw [show (runs s seq).clocks.fault = false from hfault]; decide)]
    split
    next h2 => omega
    · dsimp only
      rw [hside', hmod]
      rfl
  simp only [exec, execTune, hstart, hkind, hwait, decide_false, Bool.or_self, Bool.false_eq_true, if_false, startCmd_runs runTune hstart hc, hrun]

/-- Settles O26: the TUNE places the path and starts it; the divider is the nearest by the division that gives it. -/
theorem tuneStartsAPath : Obligations.TuneStartsAPath := by
  intro s seq side c hr hn hp hz hmode1 hmode2 hidle hlock hfault hcov hraster h15 hcode hwidth hside hoff htable
  obtain ⟨hstart, hh⟩ := hr
  have hc := checkTune_none hn hh hz ⟨hmode1, hmode2⟩ hcov hraster h15 hcode hwidth hside
  refine ⟨_, execTune_starts hstart hn hp hidle hfault hc hside h15, ?_⟩
  have hstands := tuneStands_runs hstart hn.1
  have hpath : pathOf (runs s seq) (cmdIdx c) = pathOf s (cmdIdx c) := pathOf_of_ringFrame rfl _
  obtain ⟨u, hu, hup, htp⟩ := tunePath_off (by rw [hpath]; exact hoff) (parN c 8 4) (parN c 12 3) side (par c 15 / 4)
  rw [htp]
  have hclocks : u.clocks = s.clocks := hu.clocks
  obtain ⟨-, n, b, fallback, entry, band, heq⟩ := startPath_spec (p := cmdIdx c) (s := u) (by rw [hclocks]; exact hfault)
    (by rw [hclocks]; exact hlock) (by rw [hup, hpath]; exact htable) (by rw [hup]; simp only [tunedFe, hpath]; exact hoff) (hstands.of_rings hu.rings)
  rw [heq, hup, hclocks]
  exact ⟨rfl, rfl, rfl, rfl, rfl, rfl, rfl, rfl, rfl, rfl, rfl, rfl, rfl,
    programLo_nearest (cmdIdx c) _ s.clocks.ref { (pathOf (runs s seq) (cmdIdx c)).synth with btFallback := fallback }⟩

end Sys2Proof.Machine

/-!
PROOFS. LINK_RX (O47), and serving a link that has nothing to send and no check waiting.
-/
namespace Sys2Proof.Machine

/-! A link with nothing to send -/

/-- Nothing is to be sent and no check waits. -/
def LinkIdle (s : State) : Prop := s.link.txs = [] ∧ s.sessions.checks = []

theorem linkSteps_idle {s : State} (h : LinkIdle s) (n : Nat) : linkSteps n s = s := by
  cases n with
  | zero => rfl
  | succ n => simp [linkSteps, linkStep, activeTx, h.1]

theorem kickCheck_idle {s : State} (h : LinkIdle s) : kickCheck s = s := by
  simp [kickCheck, h.2]

theorem windowNoLock_locked {s : State} (h : s.pathS.fe.state ≠ .noLock) : windowNoLock s = s := if_neg h

/-- With nothing else for path S, the host's window is what it serves (R369). -/
theorem serving_host {s : State} {w : RxWindow} (h : LinkIdle s) (hw : s.link.hostRx = some w) : serving s = .host w := by
  simp [serving, h.1, h.2, hw]

/-- A window that is not paused stays so while nothing of the part's own is sent. -/
theorem trackPause_idle {s : State} {w : RxWindow} (h : LinkIdle s) (hw : s.link.hostRx = some w) (hp : w.pausedAt = none) : trackPause s = s := by
  have hsame : ({ s with link := { s.link with hostRx := some w } } : State) = s := by rw [← hw]
  have hbusy : ((activeTx s).isSome || (s.sessions.checks.take 1).any (·.windowOpen)) = false := by simp [activeTx, h.1, h.2]
  unfold trackPause
  rw [hw, hbusy]
  dsimp only
  rw [hp]
  exact hsame

theorem trackPause_none {s : State} (hw : s.link.hostRx = none) : trackPause s = s := by
  simp only [trackPause, hw]

theorem packetOn_off {s : State} (htx : s.link.txs = []) (hoff : s.pathS.fe.state = .off) : packetOn s = false := by
  simp [packetOn, htx, hoff]

/-- An idle link is served by its windows alone. -/
theorem serve_idle {s : State} (hdue : NoneDue s) (h : LinkIdle s) (hlock : s.pathS.fe.state ≠ .noLock) (hkeep : LinkIdle (serveWindows s))
    (hafter : (serveWindows s).pathS.fe.state ≠ .noLock) : serve s = trackPause (serveWindows s) := by
  simp only [serve, startDue_none hdue, windowNoLock_locked hlock, kickCheck_idle h, linkSteps_idle h, windowNoLock_locked hafter, kickCheck_idle hkeep,
    linkSteps_idle hkeep]

/-! Placing path S -/

/-- The front end of path S with the LO for a channel. -/
def placedFe (f : Nat) (x : FrontEnd) : FrontEnd :=
  { x with loNow := linkLo f, presel := if f < 900000000 then 0 else 1, tuneHolds := false,
           selPend := x.state != .off && (x.selPend || x.presel != if f < 900000000 then 0 else 1) }

theorem placeS_from_off {s : State} {f : Nat} (hoff : s.pathS.fe.state = .off) : placeS f s = startPath 2 (modFe s 2 (placedFe f)) := by
  unfold placeS
  dsimp only
  rw [hoff]
  rfl

/-- Path S goes from OFF to STARTING at the LO for a channel (R172). -/
theorem placeS_off {s : State} {f : Nat} (hoff : s.pathS.fe.state = .off) (hfault : s.clocks.fault = false) (hlock : s.clocks.locked = true)
    (ht : tableFor s.pathS.synth ≠ none) (htune : TuneStands 2 s) :
    PathFrame 2 s (placeS f s) ∧ (placeS f s).pathS.fe.state = .starting ∧ (placeS f s).pathS.fe.loNow = linkLo f ∧
      (placeS f s).pathS.fe.loHz = s.pathS.fe.loHz ∧ (placeS f s).pathS.synth.locking = true := by
  rw [placeS_from_off hoff]
  have hu : PathFrame 2 s (modFe s 2 (placedFe f)) := modFe_pathFrame ..
  have hup : pathOf (modFe s 2 (placedFe f)) 2 = { s.pathS with fe := placedFe f s.pathS.fe } := rfl
  generalize modFe s 2 (placedFe f) = u at hu hup ⊢
  obtain ⟨hframe, n, b, fallback, entry, band, hpath⟩ := startPath_spec (p := 2) (s := u) (by rw [hu.clocks]; exact hfault)
    (by rw [hu.clocks]; exact hlock) (by rw [hup]; exact ht) (by rw [hup]; exact hoff) (htune.of_rings hu.rings)
  rw [hup] at hpath
  have hS : (startPath 2 u).pathS = _ := hpath
  refine ⟨hu.trans hframe, ?_, ?_, ?_, ?_⟩ <;> simp only [hS, placedFe, startBand, startTry]

/-- Path S, OFF and free, starts for the window that has been opened. -/
theorem serve_opens {s : State} {w : RxWindow} (hdue : NoneDue s) (h : LinkIdle s) (hw : s.link.hostRx = some w) (hp : w.pausedAt = none)
    (hjob : s.pathS.job = none) (hcal : s.cal.linkJob = none) (hoff : s.pathS.fe.state = .off) (hfault : s.clocks.fault = false)
    (hlock : s.clocks.locked = true) (ht : tableFor s.pathS.synth ≠ none) (htune : TuneStands 2 s) : serve s = placeS w.channel s := by
  obtain ⟨hframe, hstate, -, -, -⟩ := placeS_off (f := w.channel) hoff hfault hlock ht htune
  have hwin : serveWindows s = placeS w.channel s := by
    simp [serveWindows, activeTx, h.1, packetOn_off h.1 hoff, hjob, hcal, servingChannel, serving_host h hw, hoff]
  have hidle : LinkIdle (placeS w.channel s) := by
    unfold LinkIdle
    rw [hframe.link, hframe.sessions]
    exact h
  rw [serve_idle hdue h (by rw [hoff]; decide) (by rw [hwin]; exact hidle) (by rw [hwin, hstate]; decide), hwin,
    trackPause_idle hidle (by rw [hframe.link]; exact hw) hp]

/-! LINK_RX (R368) -/

section
variable {s : State} {c : Cmd}

/-- A LINK_RX with sound fields is checked by its profile alone. -/
theorem checkLinkRx_eq (hn : Names c 7) (hh : HeaderOk c) (hmode : 3 ≤ s.modes.modeNow ∧ s.modes.modeNow ≤ 6) (h8 : par c 8 < 4) (h9 : par c 9 < 4)
    (hz : ZeroBytes c 22 31) (hscr : inScratch (parN c 10 3) (parN c 13 2) = true)
    (hsize : parN c 13 2 % 4 = 0 ∧ 64 ≤ parN c 13 2 ∧ parN c 13 2 ≤ 32768) (hch : parN c 16 4 ≠ 0 → covered 2 (parN c 16 4) = true)
    (hms : 1 ≤ parN c 20 2 ∧ parN c 20 2 ≤ 60000) : checkLinkRx s c = rxProfileBad s c := by
  have hch' : (parN c 16 4 == 0 || covered 2 (parN c 16 4)) = true := by
    by_cases h0 : parN c 16 4 = 0
    · simp [h0]
    · simp [hch h0]
  have hmd : needMode s [3, 4, 5, 6] = none := needMode_eq_none.mpr (by simp; omega)
  simp only [checkLinkRx, List.cons_append, List.append_assoc, List.nil_append]
  rw [checks_rest hn rfl hh]
  simp only [h8, h9, hscr, hsize, hch', hms, decide_true, beq_self_eq_true, Bool.and_self, needField_true, firstFail_none, firstFail_needZeros hz]
  cases rxProfileBad s c with
  | none => rw [firstFail_none, hmd, firstFail_none, firstFail_nil]
  | some r => rw [firstFail_some]

end

/-- With no TUNE of path S under way, none is once another command runs that would be asked to stop. -/
theorem tuneStands_of_runs {s : State} {seq p : Nat} {c : Cmd} (h : tuneOf s p = none) (hfind : findCmd s seq = some c) :
    TuneStands p (runs s seq) := by
  intro d hd
  have hmem := List.mem_of_find?_eq_some hd
  have hsat := List.find?_some hd
  obtain ⟨e, he, rfl⟩ := List.mem_map.mp hmem
  by_cases heq : e.seq = seq
  · rw [if_pos heq]
    exact stopCause_runs hfind
  · rw [if_neg heq] at hsat
    exact absurd hsat (List.find?_eq_none.mp h e he)

/-- A window opened while path S is OFF: path S starts at the LO for its channel. -/
theorem serve_newWindow {s : State} {w : RxWindow} (hdue : NoneDue s) (h : LinkIdle s) (hp : w.pausedAt = none) (hjob : s.pathS.job = none)
    (hcal : s.cal.linkJob = none) (hoff : s.pathS.fe.state = .off) (hfault : s.clocks.fault = false) (hlock : s.clocks.locked = true)
    (ht : tableFor s.pathS.synth ≠ none) (htune : TuneStands 2 s) :
    let t := serve (modFe { s with link := { s.link with hostRx := some w } } 2 fun f => { f with tuneHolds := false })
    t.pathS.fe.state = .starting ∧ t.pathS.fe.loNow = linkLo w.channel ∧ t.pathS.synth.locking = true ∧
      t.link = { s.link with hostRx := some w } ∧ t = { s with link := t.link, pathS := t.pathS, lanes := t.lanes } := by
  intro t
  have htune' := htune.of_rings (t := modFe { s with link := { s.link with hostRx := some w } } 2 fun f => { f with tuneHolds := false }) rfl
  have heq : t = placeS w.channel (modFe { s with link := { s.link with hostRx := some w } } 2 fun f => { f with tuneHolds := false }) :=
    serve_opens hdue h rfl hp hjob hcal hoff hfault hlock ht htune'
  obtain ⟨hframe, h1, h2, -, h3⟩ := placeS_off (f := w.channel)
    (s := modFe { s with link := { s.link with hostRx := some w } } 2 fun f => { f with tuneHolds := false }) hoff hfault hlock ht htune'
  rw [← heq] at hframe h1 h2 h3
  clear_value t
  have hlink : t.link = { s.link with hostRx := some w } := hframe.link
  refine ⟨h1, h2, h3, hlink, ?_⟩
  rw [hlink]
  exact hframe.pathS

/-- The window that a LINK_RX opens, and the state in which path S is to serve it. -/
def openedBy (s : State) (c : Cmd) (w : RxWindow) : Prop :=
  w.seq = c.seq ∧ w.profile = profileOf s (par c 8) ∧ w.channel = rxChannel s c ∧ w.dest = parN c 10 3 ∧ w.size = parN c 13 2 ∧
    w.until_ = s.clocks.sc + msCounts (parN c 20 2) ∧ w.records = 0 ∧ w.pausedAt = none

section
variable {s : State} {c : Cmd} {f : Nat}

theorem runLinkRx_not_permitted (hf : rxChannel s c = f) (hperm : channelPermitted s f = false) : runLinkRx s c = complete c.seq 0x42
    ([1, 0xFF] ++ leBytes (twos 2 (obwKhz (profileOf s (par c 8)) : Nat)) 2) { s with
      link := { s.link with regDenials := min (2 ^ 32 - 1) (s.link.regDenials + 1) } } := by
  subst hf
  exact if_pos (by rw [hperm]; rfl)

theorem runLinkRx_fault (hf : rxChannel s c = f) (hperm : channelPermitted s f = true) (hfault : s.clocks.fault = true) :
    runLinkRx s c = complete c.seq 0x52 [3] s := by
  subst hf
  exact (if_neg (by rw [hperm]; decide)).trans (if_pos hfault)

theorem runLinkRx_opens (hf : rxChannel s c = f) (hperm : channelPermitted s f = true) (hfault : s.clocks.fault = false) :
    ∃ w, openedBy s c w ∧ runLinkRx s c =
      serve (modFe { s with link := { s.link with hostRx := some w } } 2 fun f => { f with tuneHolds := false }) := by
  subst hf
  exact ⟨_, ⟨rfl, rfl, rfl, rfl, rfl, rfl, rfl, rfl⟩, (if_neg (by rw [hperm]; decide)).trans (if_neg (by rw [hfault]; decide))⟩

end

theorem rxProfileBad_some {s : State} {c : Cmd} {f k : Nat} (hf : rxChannel s c = f) (hk : profileBad (profileOf s (par c 8)) f = some k) :
    rxProfileBad s c = some (0x12, [lowByte (0x80 + k)]) := by
  simp only [rxProfileBad, hf, hk]

theorem rxProfileBad_none {s : State} {c : Cmd} {f : Nat} (hf : rxChannel s c = f) (hk : profileBad (profileOf s (par c 8)) f = none) :
    rxProfileBad s c = failUnless (covered 2 f) (0x12, [0x88]) := by
  simp only [rxProfileBad, hf, hk]

/-- Settles O47: the profile's check, the channel's, and the window that `serve` opens. -/
theorem linkRxOpensItsWindow : Obligations.LinkRxOpensItsWindow := by
  intro s seq c f hquiet hjob hcal hidle htune hr hn hmode1 hmode2 h8 h9 hz hscr hs4 hs1 hs2 hch hms1 hms2 p hf
  obtain ⟨hstart, hh⟩ := hr
  have hcheck := checkLinkRx_eq (s := s) hn hh ⟨hmode1, hmode2⟩ h8 h9 hz hscr ⟨hs4, hs1, hs2⟩ hch ⟨hms1, hms2⟩
  have hfails {r : Reply} (hbad : rxProfileBad s c = some r) : exec (.linkRx seq) s = .next (complete seq r.1 r.2 s) :=
    congrArg Host.Outcome.next (startCmd_fails runLinkRx hstart (hcheck.trans hbad))
  have hchan : rxChannel s c = f := hf.symm
  refine ⟨fun k hk => hfails (rxProfileBad_some hchan hk),
    fun hk hcov => hfails (r := (0x12, [0x88])) ((rxProfileBad_none hchan hk).trans (by rw [hcov]; rfl)), fun hk hcov => ?_⟩
  have hrun : exec (.linkRx seq) s = .next (runLinkRx (runs s seq) c) :=
    congrArg Host.Outcome.next (startCmd_runs runLinkRx hstart (hcheck.trans ((rxProfileBad_none hchan hk).trans (by rw [hcov]; rfl))))
  rw [hrun, ← startable_seq hstart]
  refine ⟨fun hperm => congrArg _ (runLinkRx_not_permitted (s := runs s c.seq) hchan hperm),
    fun hperm hfault => congrArg _ (runLinkRx_fault (s := runs s c.seq) hchan hperm hfault), fun hperm hfault hlock htable => ?_⟩
  obtain ⟨w, ⟨h1, h2, h3, h4, h5, h6, h7, hpause⟩, heq⟩ := runLinkRx_opens (s := runs s c.seq) hchan hperm hfault
  obtain ⟨hdue, htx, hrx, hchk, hwatch, hoff⟩ := hquiet
  have htune' : TuneStands 2 (runs s c.seq) := tuneStands_of_runs htune (by rw [startable_seq hstart]; exact (startable_spec hstart).1)
  obtain ⟨hstate, hlo, hlocking, hlink, hframe⟩ := serve_newWindow (s := runs s c.seq) (w := w) (runs_noneDue hdue c.seq) ⟨htx, hchk⟩ hpause hjob hcal
    hoff hfault hlock htable htune'
  refine ⟨_, w, congrArg _ heq, h1, h2, h3.trans hchan, h4, h5, h6, h7, hstate, ?_, hlocking, hlink, hframe⟩
  rw [hlo, h3.trans hchan]

end Sys2Proof.Machine

/-!
PROOFS. LINK_TX (O45): what serving the link does with the first transmission of an empty queue, and each refusal.
-/
namespace Sys2Proof.Machine

/-! One step of the link -/

theorem linkSteps_some {n : Nat} {s t : State} (h : linkStep s = some t) : linkSteps (n + 1) s = linkSteps n t := by
  simp only [linkSteps, h]

theorem linkSteps_none {s : State} (h : linkStep s = none) (n : Nat) : linkSteps n s = s := by
  cases n with
  | zero => rfl
  | succ n => simp only [linkSteps, h]

/-- With path S free and nothing else to send, a host's transmission begins at once. -/
theorem linkStep_first {s : State} {j : TxJob} (hq : LinkQuiet s) (hjob : s.pathS.job = none) (hcal : s.cal.linkJob = none)
    (hidle : s.clocks.stage = .idle) {q : Nat} (hhost : j.owner = .host q) (hst : j.stage = .queued) : linkStep (pushTx j s) = some (beginTx j s) := by
  obtain ⟨hdue, htx, hrx, hchk, hwatch, hoff⟩ := hq
  have htxs : (pushTx j s).link.txs = [j] := by simp [pushTx, htx]
  have hactive : activeTx (pushTx j s) = none := by simp [activeTx, htxs, txActive, hst]
  have hpacket : packetOn (pushTx j s) = false := by
    simp only [packetOn, htxs, List.any_cons, hst, List.any_nil, Bool.or_false]
    rw [show (pushTx j s).pathS.fe.state = .off from hoff]
    rfl
  have hheld : pathSHeld (pushTx j s) = false := by
    simp only [pathSHeld, pushTx, hjob, hcal, hidle]
    rfl
  have hrest : ({ pushTx j s with link := { (pushTx j s).link with txs := (pushTx j s).link.txs.erase j } } : State) = s := by
    rw [htxs, List.erase_cons_head, pushTx, ← htx]
  unfold linkStep
  extract_lets next first head
  have hnext : next = [j] := by simp [next, htxs, hst]
  have hhead : head = some j := by simp [head, first, hnext, rank, hhost]
  rw [hactive, hhead, show (pushTx j s).sessions.checks = [] from hchk]
  simp only [hpacket, hheld, hst, Bool.or_self, Bool.false_eq_true, if_false, reduceCtorEq]
  rw [hrest]

/-- What is left of serving once the first transmission has begun. -/
theorem serve_first {s t : State} {j : TxJob} (hq : LinkQuiet s) (hjob : s.pathS.job = none) (hcal : s.cal.linkJob = none)
    (hidle : s.clocks.stage = .idle) {q : Nat} (hhost : j.owner = .host q) (hst : j.stage = .queued) (ht : beginTx j s = t) :
    serve (pushTx j s) = trackPause (linkSteps 12 (kickCheck (windowNoLock (serveWindows (linkSteps 11 t))))) := by
  have hfirst := (linkStep_first hq hjob hcal hidle hhost hst).trans (congrArg some ht)
  have hdue : startDue (pushTx j s) = pushTx j s := startDue_none hq.1
  have hlock : windowNoLock (pushTx j s) = pushTx j s := windowNoLock_locked (by rw [show (pushTx j s).pathS.fe.state = .off from hq.2.2.2.2.2]; decide)
  have hkick : kickCheck (pushTx j s) = pushTx j s := by simp [kickCheck, show (pushTx j s).sessions.checks = [] from hq.2.2.2.1]
  have hlen : (pushTx j s).link.txs.length = 1 := by simp [pushTx, hq.2.1]
  simp only [serve, hdue, hlock, hkick, hlen, linkSteps_some (n := 11) hfirst]

/-- A transmission that begins and ends at once leaves the link quiet. -/
theorem serve_refused {s t : State} {j : TxJob} (hq : LinkQuiet s) (hjob : s.pathS.job = none) (hcal : s.cal.linkJob = none)
    (hidle : s.clocks.stage = .idle) {q : Nat} (hhost : j.owner = .host q) (hst : j.stage = .queued) (ht : beginTx j s = t) (htq : LinkQuiet t) :
    serve (pushTx j s) = t := by
  obtain ⟨-, htx, hrx, hchk, -, hoff⟩ := id htq
  have hwin : serveWindows t = t := by simp [serveWindows, servingChannel, serving_quiet htq, hoff]
  rw [serve_first hq hjob hcal hidle hhost hst ht, linkSteps_quiet htq, hwin, windowNoLock_locked (by rw [hoff]; decide), kickCheck_idle ⟨htx, hchk⟩,
    linkSteps_quiet htq, trackPause_none hrx]

/-- A transmission that begins and waits for path S's lock. -/
theorem serve_tuning {s t : State} {j k : TxJob} (hq : LinkQuiet s) (hjob : s.pathS.job = none) (hcal : s.cal.linkJob = none)
    (hidle : s.clocks.stage = .idle) {q : Nat} (hhost : j.owner = .host q) (hst : j.stage = .queued) (ht : beginTx j s = t)
    (htx : t.link.txs = [k]) (hk : k.stage = .tuning) (hrx : t.link.hostRx = none) (hchk : t.sessions.checks = [])
    (hstate : t.pathS.fe.state = .starting) : serve (pushTx j s) = t := by
  have hactive : activeTx t = some k := by simp [activeTx, htx, txActive, hk]
  have hstep : linkStep t = none := by
    unfold linkStep
    extract_lets next first head
    have hnext : next = [] := by simp [next, htx, hk]
    rw [hactive]
    simp [hk, hstate, hnext, mayRamp]
  have hwin : serveWindows t = t := by simp [serveWindows, hactive]
  have hkick : kickCheck t = t := by simp [kickCheck, hchk]
  rw [serve_first hq hjob hcal hidle hhost hst ht, linkSteps_none hstep, hwin, windowNoLock_locked (by rw [hstate]; decide), hkick,
    linkSteps_none hstep, trackPause_none hrx]

/-! What begins a host's transmission (Table 16-4) -/

section
variable {s : State} {j k : TxJob} {q : Nat} (hcopy : copyTx s j = k) (hhost : k.owner = .host q)
include hcopy hhost

theorem beginTx_profile {n : Nat} (hbad : profileBad k.profile k.channel = some n) :
    beginTx j s = complete q 0x12 [lowByte (0x80 + n)] s := by
  unfold beginTx txEnds
  simp only [hcopy, hbad, hhost]
  rfl

theorem beginTx_late {a : Nat} (hok : profileBad k.profile k.channel = none) (hat : k.at_ = some a) (hlate : a < s.clocks.sc + microsCounts 2000) :
    beginTx j s = complete q 0x17 [6] { s with link := { s.link with atLate := min (2 ^ 32 - 1) (s.link.atLate + 1) } } := by
  unfold beginTx txEnds counterOut txEndpoint
  simp only [hcopy, hok, hhost, hat, hlate, decide_true, Bool.false_eq_true, if_false, if_true]
  rfl

section
variable (hok : profileBad k.profile k.channel = none) (htime : ∀ a, k.at_ = some a → s.clocks.sc + microsCounts 2000 ≤ a)
include hok htime

theorem beginTx_checked : beginTx j s = match regulatoryCheck s k.profile k.channel with
      | some r => txEnds k r.1 r.2 s
      | none =>
        let band := ((subBandOf s k.channel).map (·.1)).getD 0
        let j := { k with band := band, cost := costOf k }
        let (s, ok) := maskCheck j.profileNo j s
        if !ok then
          let r := regulatory 3 band (profileOf s j.profileNo).maskMargin
          txEnds j r.1 r.2 s
        else if !costCovered s band j.cost then
          txEnds j 0x40 (leBytes band 2 ++ leBytes (tokensHeld s band) 4) s
        else match txStop s j with
          | some k => stopTx j k s
          | none => placeS j.channel (pushTx { j with stage := .tuning } s) := by
  unfold beginTx counterOut txEndpoint
  cases hat : k.at_ with
  | none =>
    simp only [hcopy, hok, hhost, hat, Bool.false_eq_true, if_false] <;> rfl
  | some a =>
    have hlate : decide (a < s.clocks.sc + microsCounts 2000) = false := decide_eq_false (Nat.not_lt.mpr (htime a hat))
    simp only [hcopy, hok, hhost, hat, hlate, Bool.false_eq_true, if_false] <;> rfl

theorem beginTx_regulatory {r : Reply} (hreg : regulatoryCheck s k.profile k.channel = some r) (h42 : r.1 = 0x42) : beginTx j s =
    complete q r.1 r.2 { s with link := { s.link with regDenials := min (2 ^ 32 - 1) (s.link.regDenials + 1) } } := by
  rw [beginTx_checked hcopy hhost hok htime, hreg]
  unfold txEnds
  simp only [hhost, h42]
  rfl

section
variable {b : Nat} {u : State} (hreg : regulatoryCheck s k.profile k.channel = none) (hband : (subBandOf s k.channel).map (·.1) = some b)
include hreg hband

theorem beginTx_masked (hmask : maskCheck k.profileNo { k with band := b, cost := costOf k } s = (u, false)) : beginTx j s =
    complete q 0x42 ([3, lowByte b] ++ leBytes (twos 2 (profileOf u k.profileNo).maskMargin) 2) { u with
      link := { u.link with regDenials := min (2 ^ 32 - 1) (u.link.regDenials + 1) } } := by
  rw [beginTx_checked hcopy hhost hok htime, hreg, hband]
  dsimp only [Option.getD_some]
  rw [hmask]
  unfold txEnds
  simp only [hhost, Bool.not_false, if_true]
  rfl

theorem beginTx_denied (hmask : maskCheck k.profileNo { k with band := b, cost := costOf k } s = (u, true))
    (hcost : costCovered u b (costOf k) = false) : beginTx j s =
    complete q 0x40 (leBytes b 2 ++ leBytes (tokensHeld u b) 4) { u with link := { u.link with
      dutyDenials := min (2 ^ 32 - 1) (u.link.dutyDenials + 1), duty := tabMod {} u.link.duty b fun d => { d with denials := bump 4 d.denials 1 } } } := by
  rw [beginTx_checked hcopy hhost hok htime, hreg, hband]
  dsimp only [Option.getD_some]
  rw [hmask]
  unfold txEnds
  simp only [hhost, hcost, Bool.not_true, Bool.false_eq_true, if_false, Bool.not_false, if_true]
  rfl

theorem beginTx_placed (hmask : maskCheck k.profileNo { k with band := b, cost := costOf k } s = (u, true))
    (hcost : costCovered u b (costOf k) = true) (hstop : stopCause u q = none) : beginTx j s =
    placeS k.channel (pushTx { k with band := b, cost := costOf k, stage := .tuning } u) := by
  rw [beginTx_checked hcopy hhost hok htime, hreg, hband]
  dsimp only [Option.getD_some]
  rw [hmask]
  simp only [hcost, Bool.not_true, Bool.false_eq_true, if_false, txStop, hhost, hstop]

end

end

end

/-! The mask check (R352) -/

/-- The link once a profile's mask check has been made. -/
def testedLink (s : State) (n st : Nat) (margin : Int) : Link :=
  { s.link with
    profiles := tabSet s.link.profiles n { profileOf s n with state := st, maskMargin := margin },
    maskChecks := min (2 ^ 32 - 1) (s.link.maskChecks + 1), maskFails := min (2 ^ 32 - 1) (s.link.maskFails + if st = 1 then 0 else 1) }

theorem satInt_two_neg {m : Int} (h : m < 0) : satInt 2 m < 0 := by
  simp only [satInt, clampInt]
  omega

theorem satInt_two_nonneg {m : Int} (h : 0 ≤ m) : 0 ≤ satInt 2 m := by
  simp only [satInt, clampInt]
  omega

section
variable {s : State} {k : TxJob} {n : Nat}

theorem maskCheck_good (h : k.profile.state = 1) : maskCheck n k s = (s, true) := if_pos h

theorem maskCheck_bad (h : k.profile.state = 2) : maskCheck n k s = (s, false) :=
  (if_neg (by rw [h]; decide)).trans (if_pos h)

theorem maskCheck_fails {m : Int} (h : k.profile.state = 0) (hm : k.margin = some m) (hneg : m < 0) :
    maskCheck n k s = ({ s with link := testedLink s n 2 (satInt 2 m), fresh := s.fresh + 1 }, false) := by
  have hok : decide (0 ≤ satInt 2 m) = false := decide_eq_false (by have := satInt_two_neg hneg; omega)
  refine (if_neg (by rw [h]; decide)).trans ((if_neg (by rw [h]; decide)).trans ?_)
  simp only [draw, hm, Option.getD_some, hok]
  rfl

theorem maskCheck_passes {m : Int} (h : k.profile.state = 0) (hm : k.margin = some m) (hpos : 0 ≤ m) :
    maskCheck n k s = ({ s with link := testedLink s n 1 (satInt 2 m), fresh := s.fresh + 1 }, true) := by
  have hok : decide (0 ≤ satInt 2 m) = true := decide_eq_true (satInt_two_nonneg hpos)
  refine (if_neg (by rw [h]; decide)).trans ((if_neg (by rw [h]; decide)).trans ?_)
  simp only [draw, hm, Option.getD_some, hok]
  rfl

end

theorem regulatoryCheck_status {s : State} {p : Profile} {f : Nat} {r : Reply} (h : regulatoryCheck s p f = some r) : r.1 = 0x42 := by
  unfold regulatoryCheck at h
  split at h
  · cases h
    rfl
  · split at h
    · cases h
      rfl
    · repeat' split at h
      all_goals cases h
      all_goals rfl

/-! LINK_TX -/

section
variable {s : State} {c : Cmd}

theorem checkLinkTx_none (hn : Names c 7) (hh : HeaderOk c) (h8 : par c 8 < 4) (h9 : par c 9 < 16) (hz15 : ZeroBytes c 15 15) (hz30 : ZeroBytes c 30 31)
    (hafter : bit (par c 9) 2 = true → 1 ≤ parN c 28 2 ∧ parN c 28 2 ≤ 2000) (hlen : 1 ≤ parN c 13 2)
    (hcw : bit (par c 9) 3 = true → s.modes.modeNow = 6 ∧ parN c 13 2 ≤ 1000)
    (hpsdu : bit (par c 9) 3 = false → 4 ≤ s.modes.modeNow ∧ s.modes.modeNow ≤ 6 ∧ inScratch (parN c 10 3) (parN c 13 2) = true ∧
      parN c 13 2 ≤ (if bit (par c 9) 0 then 2047 - fcsLen (profileOf s (par c 8)) else 2047)) : checkLinkTx s c = none := by
  simp only [checkLinkTx, List.cons_append, List.append_assoc, List.nil_append]
  rw [checks_rest hn rfl hh, firstFail_eq_none]
  have hafter' : (!bit (par c 9) 2 || (decide (1 ≤ parN c 28 2) && decide (parN c 28 2 ≤ 2000))) = true := by
    cases h2 : bit (par c 9) 2 with
    | false => rfl
    | true => simpa using hafter h2
  simp only [List.forall_mem_cons, List.forall_mem_append, needField_eq_none, needMode_eq_none, decide_eq_true_eq, Bool.and_eq_true, hafter']
  cases h3 : bit (par c 9) 3 with
  | false =>
    obtain ⟨hm1, hm2, hscr, htop⟩ := hpsdu h3
    exact ⟨h8, h9, hscr, ⟨hlen, htop⟩, needZeros_none hz15, trivial, needZeros_none hz30, by simp; omega, nofun⟩
  | true =>
    obtain ⟨hm, htop⟩ := hcw h3
    exact ⟨h8, h9, rfl, ⟨hlen, htop⟩, needZeros_none hz15, trivial, needZeros_none hz30, by simp [hm], nofun⟩

end

end Sys2Proof.Machine

/-!
PROOFS. LINK_TX (O45): a LINK_TX with path S free and OFF, from its start to its refusal or to path S's start.
-/
namespace Sys2Proof.Machine

/-- The transmission that a LINK_TX makes of its command, with everything copied (Table 16-4, step 1). -/
def hostTx (s : State) (seq : Nat) (c : Cmd) (m : Int) : TxJob :=
  let p := profileOf s (par c 8)
  let cw := bit (par c 9) 3
  let bytes := memGets s (parN c 10 3) (parN c 13 2)
  { newTx (.host seq) (some m) with
    profileNo := par c 8, profile := p, channel := if parN c 16 4 = 0 then p.channelHz else parN c 16 4,
    psdu := if cw then [] else if bit (par c 9) 0 then bytes ++ fcsBytes p bytes else bytes,
    cwMs := if cw then some (parN c 13 2) else none, at_ := if bit (par c 9) 1 then some (parN c 20 8) else none,
    rxAfterMs := if bit (par c 9) 2 then some (parN c 28 2) else none }

/-- A link that stays quiet while only its counters, its profiles and its duty bins move. -/
theorem LinkQuiet.setLink {s : State} (h : LinkQuiet s) {l : Link} (htx : l.txs = []) (hrx : l.hostRx = none) (n : Nat) :
    LinkQuiet { s with link := l, fresh := n } := ⟨h.1, htx, hrx, h.2.2.2⟩

section
variable {s : State} {seq : Nat} {c : Cmd} {m : Int}

theorem copyTx_runs (hfind : findCmd s seq = some c) (h8 : par c 8 < 4) : copyTx (runs s seq) (newTx (.host seq) (some m)) = hostTx s seq c m := by
  have hcopy : copyTx (runs s seq) (newTx (.host seq) (some m)) = copyHost (runs s seq) c (newTx (.host seq) (some m)) := by
    simp only [copyTx, newTx, findCmd_runs hfind]
    rfl
  rw [hcopy, copyHost, Nat.mod_eq_of_lt h8]
  cases hcw : bit (par c 9) 3 <;> simp only [hostTx, hcw] <;> rfl

variable (hquiet : LinkQuiet s) (hjob : s.pathS.job = none) (hcal : s.cal.linkJob = none) (hidle : s.clocks.stage = .idle)
  (hstart : startable s seq 0x39 = some c) (hcheck : checkLinkTx s c = none)
include hquiet hjob hcal hidle hstart hcheck

/-- A LINK_TX that is refused at its start completes so, and nothing else is left of it. -/
theorem linkTx_refused {status : Nat} {result : List Byte} {l : Link} {n : Nat}
    (hbegin : beginTx (newTx (.host seq) (some m)) (runs s seq) = complete seq status result { runs s seq with link := l, fresh := n })
    (htx : l.txs = []) (hrx : l.hostRx = none) :
    exec (.linkTx seq m) s = .next (complete seq status result { runs s seq with link := l, fresh := n }) := by
  have hq : LinkQuiet (runs s seq) := ⟨runs_noneDue hquiet.1 seq, hquiet.2⟩
  refine congrArg Host.Outcome.next ((startCmd_runs _ hstart hcheck).trans ?_)
  dsimp only
  rw [startable_seq hstart]
  exact serve_refused hq hjob hcal hidle (q := seq) rfl rfl hbegin ((hq.setLink htx hrx n).complete _ _ _)

variable (htune : tuneOf s 2 = none) (h8 : par c 8 < 4)
include htune h8

/-- A LINK_TX whose profile has passed: it is refused for want of tokens, or path S starts for it. -/
theorem linkTx_passed {b : Nat} {l : Link} {n : Nat} (hok : profileBad (hostTx s seq c m).profile (hostTx s seq c m).channel = none)
    (htime : ∀ a, (hostTx s seq c m).at_ = some a → s.clocks.sc + microsCounts 2000 ≤ a)
    (hreg : regulatoryCheck s (hostTx s seq c m).profile (hostTx s seq c m).channel = none)
    (hband : (subBandOf s (hostTx s seq c m).channel).map (·.1) = some b)
    (hmask : maskCheck (par c 8) { hostTx s seq c m with band := b, cost := costOf (hostTx s seq c m) } (runs s seq) =
      ({ runs s seq with link := l, fresh := n }, true))
    (htx : l.txs = []) (hrx : l.hostRx = none) (hduty : l.duty = s.link.duty ∧ l.region = s.link.region ∧ l.minute = s.link.minute)
    (hden : l.dutyDenials = s.link.dutyDenials) :
    (costCovered s b (costOf (hostTx s seq c m)) = false → ∃ u, exec (.linkTx seq m) s = .next (complete seq 0x40
        (leBytes b 2 ++ leBytes (tokensHeld s b) 4) u) ∧
      u.link = { l with dutyDenials := min (2 ^ 32 - 1) (s.link.dutyDenials + 1), duty := u.link.duty } ∧
      tokensHeld u b = tokensHeld s b ∧ u = { runs s seq with link := u.link, fresh := n }) ∧
    (costCovered s b (costOf (hostTx s seq c m)) = true → s.clocks.fault = false → s.clocks.locked = true → tableFor s.pathS.synth ≠ none → ∃ t,
      exec (.linkTx seq m) s = .next t ∧
      t.link = { l with txs := [{ hostTx s seq c m with band := b, cost := costOf (hostTx s seq c m), stage := .tuning }] } ∧
      t.pathS.fe.state = .starting ∧ t.pathS.fe.loNow = linkLo (hostTx s seq c m).channel ∧ t.pathS.fe.loHz = s.pathS.fe.loHz ∧
      t.pathS.synth.locking = true ∧
      t = { runs s seq with link := t.link, pathS := t.pathS, lanes := t.lanes, fresh := n }) := by
  have hfind := (startable_spec hstart).1
  have hcopy := copyTx_runs (m := m) hfind h8
  have hheld : tokensHeld { runs s seq with link := l, fresh := n } b = tokensHeld s b := by
    simp only [tokensHeld, bandAt, binsNow, minuteLag, dutyOf, hduty]
    rfl
  have hcov : costCovered { runs s seq with link := l, fresh := n } b = costCovered s b := by
    funext cost
    simp only [costCovered, hheld, bandAt, hduty]
  refine ⟨fun hcost => ?_, fun hcost hfault hlock htable => ?_⟩
  · have hbegin := beginTx_denied hcopy rfl hok htime hreg hband hmask (by rw [hcov]; exact hcost)
    rw [hheld] at hbegin
    refine ⟨_, linkTx_refused hquiet hjob hcal hidle hstart hcheck hbegin htx hrx, ?_, ?_, rfl⟩
    · rw [← hden]
    · simp only [tokensHeld, bandAt, binsNow, minuteLag, dutyOf, hduty, tabMod, tabGet_tabSet_same]
      rfl
  · have hbegin := beginTx_placed hcopy rfl hok htime hreg hband hmask (by rw [hcov]; exact hcost) (stopCause_runs hfind)
    have hq : LinkQuiet (runs s seq) := ⟨runs_noneDue hquiet.1 seq, hquiet.2⟩
    have hstands : TuneStands 2 (runs s seq) := tuneStands_of_runs htune hfind
    have hexec : exec (.linkTx seq m) s = .next (serve (pushTx (newTx (.host seq) (some m)) (runs s seq))) := by
      refine congrArg Host.Outcome.next ((startCmd_runs _ hstart hcheck).trans ?_)
      rw [startable_seq hstart]
    have htxs : (pushTx { hostTx s seq c m with band := b, cost := costOf (hostTx s seq c m), stage := .tuning }
        { runs s seq with link := l, fresh := n }).link =
        { l with txs := [{ hostTx s seq c m with band := b, cost := costOf (hostTx s seq c m), stage := .tuning }] } := by
      simp only [pushTx, htx, List.nil_append]
    have hframe0 : ∃ v, pushTx { hostTx s seq c m with band := b, cost := costOf (hostTx s seq c m), stage := .tuning }
        { runs s seq with link := l, fresh := n } = { runs s seq with link := v, fresh := n } := ⟨_, rfl⟩
    generalize pushTx { hostTx s seq c m with band := b, cost := costOf (hostTx s seq c m), stage := .tuning }
        { runs s seq with link := l, fresh := n } = v at hbegin htxs hframe0
    obtain ⟨l', rfl⟩ := hframe0
    obtain ⟨hframe, h1, h2, h3, h4⟩ := placeS_off (f := (hostTx s seq c m).channel) (s := { runs s seq with link := l', fresh := n })
      hquiet.2.2.2.2.2 hfault hlock htable (hstands.of_rings rfl)
    generalize placeS (hostTx s seq c m).channel { runs s seq with link := l', fresh := n } = t at hbegin hframe h1 h2 h3 h4
    have hlink := hframe.link.trans htxs
    refine ⟨t, ?_, hlink, h1, h2, h3, h4, ?_⟩
    · rw [hexec, serve_tuning hq hjob hcal hidle (q := seq) rfl rfl hbegin (by rw [hlink]) rfl (by rw [hlink]; exact hrx)
        (by rw [hframe.sessions]; exact hquiet.2.2.2.1) h1]
    · rw [hframe.link]
      exact hframe.pathS

end

/-- Settles O45: the refusals of the checks one by one, then the mask check's three outcomes. -/
theorem linkTxIsAcceptedOrDenied : Obligations.LinkTxIsAcceptedOrDenied := by
  intro s hjob hcal hidle htune seq c m f hquiet hr hn h8 h9 hz15 hz30 hafter hlen p cw hcw hpsdu hf bytes j
  obtain ⟨hstart, hh⟩ := hr
  have hcheck := checkLinkTx_none hn hh h8 h9 hz15 hz30 hafter hlen hcw hpsdu
  have hfind := (startable_spec hstart).1
  have hcopy := copyTx_runs (m := m) hfind h8
  have hj : j = hostTx s seq c m := by rw [hostTx, ← hf]
  clear_value j
  subst hj
  have hch : (hostTx s seq c m).channel = f := hf.symm
  rw [← hch]
  have hrefused {status : Nat} {result : List Byte} {l : Link} {n : Nat} := linkTx_refused (m := m) (status := status) (result := result) (l := l)
    (n := n) hquiet hjob hcal hidle hstart hcheck
  have htx := hquiet.2.1
  have hrx := hquiet.2.2.1
  refine ⟨fun k hk => ?_, fun a hok hat hlate => ?_, fun hok htime => ⟨fun r hreg => ?_, fun b hreg hband => ⟨fun hp => ?_, fun hp hneg => ?_, fun hp => ?_⟩⟩⟩
  · exact hrefused (l := s.link) (n := s.fresh) (beginTx_profile hcopy rfl hk) htx hrx
  · exact hrefused (n := s.fresh) (beginTx_late hcopy rfl hok hat hlate) htx hrx
  · exact hrefused (n := s.fresh) (beginTx_regulatory hcopy rfl hok htime hreg (regulatoryCheck_status hreg)) htx hrx
  · exact hrefused (n := s.fresh) (beginTx_masked hcopy rfl hok htime hreg hband (maskCheck_bad hp)) htx hrx
  · have hbegin := beginTx_masked hcopy rfl hok htime hreg hband (maskCheck_fails hp rfl hneg)
    have hmargin : (profileOf { runs s seq with link := testedLink (runs s seq) (par c 8) 2 (satInt 2 m), fresh := s.fresh + 1 } (par c 8)).maskMargin =
        satInt 2 m := congrArg Profile.maskMargin (tabGet_tabSet_same ..)
    rw [show (hostTx s seq c m).profileNo = par c 8 from rfl] at hbegin
    change beginTx _ _ = complete seq 0x42 ([3, lowByte b] ++ leBytes (twos 2 (profileOf { runs s seq with
      link := testedLink (runs s seq) (par c 8) 2 (satInt 2 m), fresh := s.fresh + 1 } (par c 8)).maskMargin) 2) _ at hbegin
    rw [hmargin] at hbegin
    exact hrefused (n := s.fresh + 1) hbegin htx hrx
  · intro l fresh
    have hpassed {l : Link} {n : Nat} := linkTx_passed (l := l) (n := n) hquiet hjob hcal hidle hstart hcheck htune h8 hok htime hreg hband
    by_cases h1 : p.state = 1
    · have hl : l = s.link := if_pos h1
      have hn' : fresh = s.fresh := if_pos h1
      rw [hl, hn']
      exact hpassed (maskCheck_good h1) htx hrx ⟨rfl, rfl, rfl⟩ rfl
    · obtain ⟨h0, hpos⟩ := hp.resolve_left h1
      have hl : l = testedLink s (par c 8) 1 (satInt 2 m) := if_neg h1
      have hn' : fresh = s.fresh + 1 := if_neg h1
      rw [hl, hn']
      exact hpassed (maskCheck_passes h0 rfl hpos) htx hrx ⟨rfl, rfl, rfl⟩ rfl

end Sys2Proof.Machine

/-!
PROOFS. Receiving (O48): the window's end, what path S takes in LISTEN and RX_PACKET, the records, and PROFILE_WRITE.
-/
namespace Sys2Proof.Machine

/-! Changes of path S's state that touch no lane -/

/-- The states that leave the blocks in progress of a path's lanes alone (Table 8-3). -/
def feStill : FeState → Bool
  | .cal | .starting | .acquire | .range | .retune | .noLock => false
  | _ => true

theorem touchState_still {st : FeState} (h : feStill st = true) (p : Nat) (s : State) : touchState p st s = s := by
  cases st <;> first | rfl | exact absurd h (by decide)

/-- Path S goes from one of these states to another: its front end alone changes. -/
theorem setFe_still {s : State} {st : FeState} (hold : feStill s.pathS.fe.state = true) (hst : feStill st = true) (htune : TuneStands 2 s) :
    ∃ n b, setFe 2 st s = { s with pathS := { s.pathS with
      fe := { feAfter st s.pathS.fe with blankedSamples := n, blankFrom := b } } } := by
  have hframe := setFe_pathFrame htune st
  obtain ⟨n, b, hpath⟩ := pathOf_setFe_state 2 st s
  have hlanes : (setFe 2 st s).lanes = s.lanes := by
    unfold setFe
    extract_lets old s1 s2
    have hold' : feStill old = true := hold
    have h1 : s1.lanes = s.lanes := by
      simp only [s1, modFe_lanes]
      rw [touchState_still hold']
    have h2 : s2.lanes = s.lanes := by
      simp only [s2, trackZeros, modFe_lanes]
      rw [touchState_still hst]
      exact h1
    have h2r : s2.rings = s.rings := by
      simp only [s2, s1, trackZeros, modFe_rings]
      rw [touchState_still hst, modFe_rings, touchState_still hold']
    split
    case h_4 => rw [tuneBoundary_stands (htune.of_rings h2r)]; exact h2
    all_goals exact h2
  refine ⟨n, b, hframe.pathS.trans ?_⟩
  rw [hlanes]
  have hS : (setFe 2 st s).pathS = _ := hpath
  rw [hS]
  rfl

/-! A window that path S serves at its LO -/

/-- The host's window is open and nothing else is to be sent or checked. -/
structure HostWindow (s : State) (w : RxWindow) : Prop where
  due : NoneDue s
  tune : tuneOf s 2 = none
  rx : s.link.hostRx = some w
  txs : s.link.txs = []
  checks : s.sessions.checks = []

theorem HostWindow.idle {s : State} {w : RxWindow} (h : HostWindow s w) : LinkIdle s := ⟨h.txs, h.checks⟩

theorem HostWindow.serving {s : State} {w : RxWindow} (h : HostWindow s w) : serving s = .host w := serving_host h.idle h.rx

theorem HostWindow.receiving {s : State} {w : RxWindow} (h : HostWindow s w) (hrun : s.pathS.fe.state = .run) : receiving s = true := by
  simp [Machine.receiving, hrun, activeTx, h.txs, h.serving]

theorem placedFe_loNow (f : Nat) (x : FrontEnd) : (placedFe f x).loNow = linkLo f := by simp only [placedFe]

theorem placeS_run {s : State} {f : Nat} (hrun : s.pathS.fe.state = .run) (hlo : s.pathS.fe.loNow = linkLo f) :
    placeS f s = modFe s 2 (placedFe f) := by
  have hsame : (s.pathS.fe.loNow == linkLo f) = true := by rw [hlo, beq_self_eq_true]
  unfold placeS
  dsimp only
  rw [hrun, hsame]
  rfl

/-- Path S in LISTEN at the window's LO stays there. -/
theorem serve_listens {s : State} {w : RxWindow} (h : HostWindow s w) (hpause : w.pausedAt = none) (hrun : s.pathS.fe.state = .run)
    (hlo : s.pathS.fe.loNow = linkLo w.channel) (hjob : s.pathS.job = none) (hcal : s.cal.linkJob = none) :
    ∃ f, serve s = { s with pathS := { s.pathS with fe := f } } ∧ f.state = .run ∧ f.loNow = s.pathS.fe.loNow := by
  have hpacket : packetOn s = false := by simp [packetOn, h.txs, hrun]
  have hwin : serveWindows s = if s.pathS.fe.tuneHolds then s else placeS w.channel s := by
    simp [serveWindows, activeTx, h.txs, hpacket, hjob, hcal, servingChannel, h.serving, hrun]
  have hserved : ∃ f, serveWindows s = { s with pathS := { s.pathS with fe := f } } ∧ f.state = .run ∧ f.loNow = s.pathS.fe.loNow := by
    rw [hwin, placeS_run hrun hlo]
    split
    · exact ⟨s.pathS.fe, rfl, hrun, rfl⟩
    · exact ⟨placedFe w.channel s.pathS.fe, rfl, hrun, (placedFe_loNow ..).trans hlo.symm⟩
  obtain ⟨f, heq, hfrun, hflo⟩ := hserved
  refine ⟨f, ?_, hfrun, hflo⟩
  rw [serve_idle h.due h.idle (by rw [hrun]; decide) (by rw [heq]; exact h.idle) (by rw [heq]; simp [hfrun]), heq]
  exact trackPause_idle h.idle h.rx hpause

/-- Whether path S is in LISTEN or in RX_PACKET, a change to LISTEN leaves it there at the same LO. -/
theorem setFe_listens {s : State} (hstate : s.pathS.fe.state = .run ∨ s.pathS.fe.state = .rxPacket) (htune : tuneOf s 2 = none) :
    ∃ f, setFe 2 .run s = { s with pathS := { s.pathS with fe := f } } ∧ f.state = .run ∧ f.loNow = s.pathS.fe.loNow := by
  obtain ⟨n, b, heq⟩ := setFe_still (st := .run) (by rcases hstate with h | h <;> rw [h] <;> rfl) rfl (tuneStands_none htune)
  exact ⟨_, heq, rfl, rfl⟩

/-- What is left once a packet is over: the window goes on. -/
theorem packetOver_listens {s : State} {w : RxWindow} {held : Bool} (h : HostWindow s w)
    (hopen : held = true → s.clocks.sc < w.until_ ∧ stopCause s w.seq = none) (hpause : w.pausedAt = none) (hrun : s.pathS.fe.state = .run)
    (hlo : s.pathS.fe.loNow = linkLo w.channel) (hjob : s.pathS.job = none) (hcal : s.cal.linkJob = none) :
    ∃ f, packetOver held s = { s with pathS := { s.pathS with fe := f } } ∧ f.state = .run ∧ f.loNow = s.pathS.fe.loNow := by
  have hheld : packetOver held s = serve s := by
    cases held with
    | false => rfl
    | true =>
      obtain ⟨htime, hstop⟩ := hopen rfl
      have hdue : endDueWindow s = s := by
        simp [endDueWindow, h.rx, hstop, Nat.not_le.mpr htime]
      rw [packetOver, if_pos rfl, hdue]
  rw [hheld]
  exact serve_listens h hpause hrun hlo hjob hcal

theorem countDropped_host {s : State} {w : RxWindow} (h : HostWindow s w) :
    countDropped s = { s with link := { s.link with hostRx := some { w with dropped := w.dropped + 1 } } } := by
  simp only [countDropped, h.serving]

/-! The end of the only command in flight, and path S's way to OFF -/

theorem complete_only {s : State} {c : Cmd} (hc : s.rings.inflight = [c]) (status : Nat) (result : List Byte) :
    complete c.seq status result s = post s c status result := by
  have hfind : findCmd s c.seq = some c := by simp [findCmd, hc]
  have hflight : (post s c status result).rings.inflight = [] := by
    rw [post_rings, hc]
    simp
  simp only [complete, hfind, sweep, hflight]
  rfl

/-- With one command in flight, its completion takes the next entry of the ring and leaves none in flight. -/
theorem complete_only_spec {s : State} {c : Cmd} (hc : s.rings.inflight = [c]) (status : Nat) (result : List Byte) :
    RingFrame s (complete c.seq status result s) ∧ (complete c.seq status result s).rings.inflight = [] ∧
      (complete c.seq status result s).rings.unread = s.rings.unread + 1 ∧
      (complete c.seq status result s).mem = cellPuts s.mem (0x1FC000 + 16 * s.rings.ccProd) (entryBytes c status result) := by
  refine ⟨complete_frame _ _ _ _, ?_, ?_, ?_⟩
  · rw [complete_only hc, post_rings, hc]
    simp
  · rw [complete_only hc, post_rings]
  · rw [complete_only hc, post_mem]

theorem tuneOf_none_of_empty {s : State} (h : s.rings.inflight = []) (p : Nat) : tuneOf s p = none := by
  simp [tuneOf, runningOf, h]

theorem tuneDone_none {s : State} {p : Nat} (h : tuneOf s p = none) (status : Nat) (result : List Byte) : tuneDone p status result s = s := by
  unfold tuneDone
  rw [h]

theorem tuneOf_of_rings {s t : State} {p : Nat} (h : tuneOf s p = none) (hr : t.rings = s.rings) : tuneOf t p = none := by
  unfold tuneOf runningOf at *
  rw [hr]
  exact h

/-- A path with no TUNE goes to OFF. -/
theorem pathOff_spec {s : State} {p : Nat} (h : tuneOf s p = none) : PathFrame p s (pathOff p s) ∧ (pathOf (pathOff p s) p).fe.state = .off := by
  unfold pathOff
  extract_lets t
  have hu : PathFrame p s (modSynth (modFe s p fun f => { f with selPend := false }) p stopSynth) :=
    (modFe_pathFrame ..).trans (modSynth_pathFrame ..)
  have hv := hu.trans (setFe_pathFrame (tuneStands_none (tuneOf_of_rings h hu.rings)) .off)
  have hnone := tuneOf_of_rings h hv.rings
  have ht : t = setFe p .off (modSynth (modFe s p fun f => { f with selPend := false }) p stopSynth) := tuneBoundary_none hnone
  rw [tuneDone_none (by rw [ht]; exact hnone), ht]
  refine ⟨hv, ?_⟩
  obtain ⟨n, b, hpath⟩ := pathOf_setFe_state p .off (modSynth (modFe s p fun f => { f with selPend := false }) p stopSynth)
  rw [hpath]
  rfl

/-- With nothing left to send or to receive, path S goes from LISTEN to OFF. -/
theorem serve_closes {s : State} (hdue : NoneDue s) (hidle : LinkIdle s) (hrx : s.link.hostRx = none) (hwatch : watching s = false)
    (hrun : s.pathS.fe.state = .run) (hjob : s.pathS.job = none) (hcal : s.cal.linkJob = none) (htune : tuneOf s 2 = none) :
    PathFrame 2 s (serve s) ∧ (serve s).pathS.fe.state = .off := by
  have hpacket : packetOn s = false := by simp [packetOn, hidle.1, hrun]
  have hserving : serving s = .none := by simp [serving, hidle.1, hidle.2, hrx, hwatch]
  have hwin : serveWindows s = pathOff 2 s := by
    simp [serveWindows, activeTx, hidle.1, hpacket, hjob, hcal, servingChannel, hserving, hrun, htune]
  obtain ⟨hframe, hoff⟩ := pathOff_spec htune
  have hoff' : (pathOff 2 s).pathS.fe.state = .off := hoff
  have hidle' : LinkIdle (pathOff 2 s) := by
    unfold LinkIdle
    rw [hframe.link, hframe.sessions]
    exact hidle
  rw [serve_idle hdue hidle (by rw [hrun]; decide) (by rw [hwin]; exact hidle') (by rw [hwin, hoff']; decide), hwin,
    trackPause_none (by rw [hframe.link]; exact hrx)]
  exact ⟨hframe, hoff'⟩

/-! What path S takes -/

theorem execQualTimeout_host {s : State} {w : RxWindow} (h : HostWindow s w) (hrun : s.pathS.fe.state = .run) :
    exec .qualTimeout s = .next { s with link := { s.link with qualFails := min (2 ^ 32 - 1) (s.link.qualFails + 1) } } :=
  congrArg Host.Outcome.next (if_pos (h.receiving hrun))

theorem execPacket_qualifies {s : State} {w : RxWindow} (h : HostWindow s w) (hrun : s.pathS.fe.state = .run) :
    exec (.packet none) s = .next (setFe 2 .rxPacket s) :=
  congrArg Host.Outcome.next (if_pos (h.receiving hrun))

theorem inPacket_eq (s : State) : inPacket s = decide (s.pathS.fe.state = .rxPacket) := by
  unfold inPacket
  cases s.pathS.fe.state <;> rfl

theorem not_receiving {s : State} (h : s.pathS.fe.state ≠ .run) : receiving s = false := by
  simp [receiving, h]

/-- Path S hears: it is in LISTEN or receives a packet. -/
theorem hears {s : State} {w : RxWindow} (h : HostWindow s w) (hstate : s.pathS.fe.state = .run ∨ s.pathS.fe.state = .rxPacket) :
    (receiving s || inPacket s) = true := by
  rcases hstate with hs | hs
  · rw [h.receiving hs, Bool.true_or]
  · rw [inPacket_eq, hs]
    simp

end Sys2Proof.Machine

/-!
PROOFS. Receiving (O48): each packet's way through the window, and PROFILE_WRITE.
-/
namespace Sys2Proof.Machine

/-- The window after a packet: where it ends, and what it serves, are as before. -/
def SameWindow (w w' : RxWindow) : Prop := w'.seq = w.seq ∧ w'.until_ = w.until_ ∧ w'.channel = w.channel ∧ w'.pausedAt = w.pausedAt

section
variable {s : State} {w : RxWindow} (h : HostWindow s w)
  (hstate : s.pathS.fe.state = .run ∨ (s.pathS.fe.state = .rxPacket ∧ s.clocks.sc < w.until_ ∧ stopCause s w.seq = none))
  (hlo : s.pathS.fe.loNow = linkLo w.channel) (hjob : s.pathS.job = none) (hcal : s.cal.linkJob = none) (hpause : w.pausedAt = none)
include h hstate hlo hjob hcal hpause

omit hstate hlo hjob hcal hpause in
theorem servingProfile_host : servingProfile s = w.profile := by simp only [servingProfile, h.serving]

/-- What is left of `s` once path S has heard a packet: the link, the working SRAM and path S's front end, in LISTEN at the same LO. -/
theorem packetOver_heard {w' : RxWindow} (hw : SameWindow w w') {l : Link} {m : List Host.Cell} {sc : Scrub} {f : FrontEnd}
    (hrx : l.hostRx = some w') (htx : l.txs = []) (hrun : f.state = .run) (hfe : f.loNow = s.pathS.fe.loNow) :
    ∃ g, packetOver (inPacket s) { s with link := l, mem := m, scrub := sc, pathS := { s.pathS with fe := f } } =
      { s with link := l, mem := m, scrub := sc, pathS := { s.pathS with fe := g } } ∧ g.state = .run ∧ g.loNow = s.pathS.fe.loNow := by
  obtain ⟨hseq, huntil, hch, hpa⟩ := hw
  have hu : HostWindow { s with link := l, mem := m, scrub := sc, pathS := { s.pathS with fe := f } } w' := ⟨h.due, h.tune, hrx, htx, h.checks⟩
  have hopen : inPacket s = true → s.clocks.sc < w'.until_ ∧ stopCause s w'.seq = none := fun hin => by
    rw [inPacket_eq, decide_eq_true_eq] at hin
    obtain hs | ⟨-, htime, hstop⟩ := hstate
    · rw [hs] at hin
      exact absurd hin (by decide)
    · rw [huntil, hseq]
      exact ⟨htime, hstop⟩
  obtain ⟨g, heq, hg, hglo⟩ := packetOver_listens hu hopen (hpa.trans hpause) hrun (by rw [hch, ← hlo]; exact hfe) hjob hcal
  exact ⟨g, heq, hg, hglo.trans hfe⟩

omit hlo hjob hcal hpause in
theorem hears_window : (receiving s || inPacket s) = true := hears h (hstate.imp_right fun k => k.1)

/-- An SFD missed is counted, and the packet with it (R364). -/
theorem execSfdTimeout_host : ∃ g, exec .sfdTimeout s = .next { s with
      link := { s.link with sfdMisses := min (2 ^ 32 - 1) (s.link.sfdMisses + 1), hostRx := some { w with dropped := w.dropped + 1 } }
      pathS := { s.pathS with fe := g } } ∧ g.state = .run ∧ g.loNow = s.pathS.fe.loNow := by
  let l : Link := { s.link with sfdMisses := min (2 ^ 32 - 1) (s.link.sfdMisses + 1) }
  obtain ⟨f, hset, hf, hflo⟩ := setFe_listens (s := { s with link := l }) (hstate.imp_right fun k => k.1) h.tune
  have hdrop := countDropped_host (s := { s with link := l, pathS := { s.pathS with fe := f } }) ⟨h.due, h.tune, h.rx, h.txs, h.checks⟩
  obtain ⟨g, hover, hg, hglo⟩ := packetOver_heard (w' := { w with dropped := w.dropped + 1 }) (l := { l with hostRx := some { w with dropped := w.dropped + 1 } })
    (m := s.mem) (sc := s.scrub) h hstate hlo hjob hcal hpause ⟨rfl, rfl, rfl, rfl⟩ rfl h.txs hf hflo
  refine ⟨g, ?_, hg, hglo⟩
  have hexec : exec .sfdTimeout s = .next (packetOver (inPacket s) (countDropped (setFe 2 .run { s with link := l }))) :=
    congrArg Host.Outcome.next (if_pos (hears_window h hstate))
  rw [hexec, hset, hdrop]
  exact congrArg _ hover

omit hlo hjob hcal hpause in
/-- A packet within the pull-in, as it is taken. -/
theorem execPacket_taken {k : RxPacket} (hpull : pulledIn s w.profile k = true) : ∃ f : FrontEnd, f.state = .run ∧ f.loNow = s.pathS.fe.loNow ∧
    exec (.packet (some k)) s =
      .next (packetOver (inPacket s) (takePacket (asReceived w.profile k) { s with pathS := { s.pathS with fe := f } })) := by
  obtain ⟨f, hset, hf, hflo⟩ := setFe_listens (s := s) (hstate.imp_right fun k => k.1) h.tune
  refine ⟨f, hf, hflo, ?_⟩
  have hserve := servingProfile_host h
  have hcond : ((receiving s || inPacket s) && pulledIn s (servingProfile s) k) = true := by rw [hears_window h hstate, hserve, hpull]; rfl
  have hexec : exec (.packet (some k)) s = .next (packetOver (inPacket s) (takePacket (asReceived (servingProfile s) k) (setFe 2 .run s))) :=
    if_pos hcond
  rw [hexec, hserve, hset]

end

/-- A record that the window has room for, and is not its last. -/
theorem hostTakes_room {s : State} {w : RxWindow} {k : RxPacket} (hmax : w.maxPackets = 0 ∨ w.records + 1 < w.maxPackets)
    (hroom : w.bytes + (rxRecord w.profileNo w.channel false k).length ≤ w.size) : hostTakes w false k s = { s with
      link := { s.link with hostRx := some { w with
        records := w.records + 1, bytes := w.bytes + (rxRecord w.profileNo w.channel false k).length } }
      mem := cellPuts s.mem (w.dest + w.bytes) (rxRecord w.profileNo w.channel false k)
      scrub := (devPuts s (w.dest + w.bytes) (rxRecord w.profileNo w.channel false k)).scrub } := by
  have hfull : ¬ (w.maxPackets != 0 && w.maxPackets ≤ w.records + 1) = true := by
    simp only [Bool.and_eq_true, bne_iff_ne, decide_eq_true_eq]
    omega
  unfold hostTakes
  dsimp only
  rw [if_neg (Nat.not_lt.mpr hroom), if_neg hfull, devPuts_frame, devPuts_mem]

section
variable {s : State} {w : RxWindow} (h : HostWindow s w) {k : RxPacket}
include h

/-- A PHR that fails its tests is counted, and the packet with it (R365). -/
theorem takePacket_badPhr (hphr : phrOk w.profile k = false) : takePacket k s = { s with link := { s.link with
    phrBad := min (2 ^ 32 - 1) (s.link.phrBad + 1), hostRx := some { w with dropped := w.dropped + 1 } } } := by
  have hserve := servingProfile_host h
  have hcond : (!phrOk (servingProfile s) k) = true := by rw [hserve, hphr]; rfl
  exact (if_pos hcond).trans
    (countDropped_host (s := { s with link := { s.link with phrBad := bump 4 s.link.phrBad 1 } }) ⟨h.due, h.tune, h.rx, h.txs, h.checks⟩)

/-- A packet with a good FCS makes a record behind those before it (R368, Table 16-10). -/
theorem takePacket_record (hphr : phrOk w.profile k = true) (hfcs : k.fcsOk = true) (hown : byteAt k.psdu 0 % 8 ≠ 4)
    (hmax : w.maxPackets = 0 ∨ w.records + 1 < w.maxPackets) (hroom : w.bytes + (rxRecord w.profileNo w.channel false k).length ≤ w.size) :
    ∃ sc, takePacket k s = { s with
      link := { s.link with rxPackets := min (2 ^ 32 - 1) (s.link.rxPackets + 1), hostRx := some { w with
        records := w.records + 1, bytes := w.bytes + (rxRecord w.profileNo w.channel false k).length } }
      mem := cellPuts s.mem (w.dest + w.bytes) (rxRecord w.profileNo w.channel false k), scrub := sc } := by
  have hserve := servingProfile_host h
  have hnot : isOwnFrame k = false := by simp [isOwnFrame, hown]
  have hcond : ¬ (!phrOk (servingProfile s) k) = true := by rw [hserve, hphr]; decide
  let u : State := { s with link := { s.link with rxPackets := min (2 ^ 32 - 1) (s.link.rxPackets + 1) } }
  have htake : takePacket k s = deliverPacket k u := by
    refine (if_neg hcond).trans ?_
    dsimp only
    rw [if_pos hfcs]
    rfl
  have hu : HostWindow u w := ⟨h.due, h.tune, h.rx, h.txs, h.checks⟩
  have hdeliver : deliverPacket k u = hostTakes w false k u := by
    simp only [deliverPacket, hnot, hu.serving, hfcs, Bool.not_false, Bool.true_or, Bool.and_true, if_true, Bool.false_eq_true, if_false]
  exact ⟨_, htake.trans (hdeliver.trans (hostTakes_room hmax hroom))⟩

end

/-! PROFILE_WRITE (R351) -/

theorem blockRead_profile {k o : Nat} (hk : k < 4) (ho : o < 0x80) (s : State) : ∃ b, blockRead s (0x270100 + 0x80 * k + o) = some b := by
  unfold blockRead
  simp only [Bool.and_eq_true, decide_eq_true_eq]
  repeat rw [if_neg (by omega)]
  rw [if_pos (by omega)]
  exact ⟨_, rfl⟩

theorem blockWrite_profile {k o : Nat} {v : Byte} {p : Profile} {s : State} (hk : k < 4) (ho : o < 0x80) (hp : profileByte o v (profileOf s k) = some p) :
    blockWrite s (0x270100 + 0x80 * k + o) v =
      some { s with link := { s.link with profiles := tabSet s.link.profiles k { p with state := 0 } } } := by
  unfold blockWrite
  simp only [Bool.and_eq_true, decide_eq_true_eq]
  repeat rw [if_neg (by omega)]
  rw [if_pos (by omega), show (0x270100 + 0x80 * k + o - 0x270100) / 0x80 = k by omega, show (0x270100 + 0x80 * k + o) % 0x80 = o by omega,
    profileWrite, hp]
  rfl

theorem execProfileWrite_field {k o : Nat} {v : Byte} {p : Profile} {s : State} (hk : k < 4) (ho : o < 0x80)
    (hp : profileByte o v (profileOf s k) = some p) (hat : WindowAt s (0x270100 + 0x80 * k + o)) : exec (.profileWrite v) s = .next { s with
      link := { s.link with profiles := tabSet s.link.profiles k { p with state := 0 } }
      port := { s.port with ack := true, ptr := s.port.ptr + 1 } } := by
  obtain ⟨b, hb⟩ := blockRead_profile hk ho s
  exact congrArg Host.Outcome.next (writeCycle_block hat (by omega) hb (blockWrite_profile hk ho hp) rfl)

/-- Settles O48: the window's end by `serve_closes`, each packet by what `takePacket` makes of it. -/
theorem windowsReceivePackets : Obligations.WindowsReceivePackets := by
  refine fun s hdue htune => ⟨fun w hrx htx hchk hwatch => ?_, fun hnot => ⟨?_, ?_, fun hnotrx => ⟨?_, fun k => ?_⟩⟩, fun k v hk => ⟨fun hat => ?_, ?_⟩⟩
  · have h : HostWindow s w := ⟨hdue, htune, hrx, htx, hchk⟩
    refine ⟨fun hopen => ?_, fun c htime hc hseq hrun hjob hcal => ?_, fun hrun => ⟨execQualTimeout_host h hrun, ?_⟩,
      fun hstate hlo hjob hcal hpause => ⟨?_, fun k hpull => ?_, fun k0 hpull => ⟨fun hphr => ?_, fun hphr hfcs hown hmax hroom => ?_⟩⟩⟩
    · have hcond : ¬ (w.until_ ≤ s.clocks.sc && !inPacket s) = true := by
        rw [inPacket_eq]
        simp only [Bool.and_eq_true, decide_eq_true_eq, Bool.not_eq_true', decide_eq_false_iff_not]
        rintro ⟨hle, hno⟩
        exact hopen.elim (fun hlt => absurd hle (Nat.not_le.mpr hlt)) hno
      simp only [exec, execLinkRxEnd, hrx, if_neg hcond]
    · have hcond : (w.until_ ≤ s.clocks.sc && !inPacket s) = true := by
        rw [inPacket_eq, hrun]
        simp [htime]
      obtain ⟨hframe, hflight, hunread, -⟩ := complete_only_spec (s := { s with link := { s.link with hostRx := none } }) hc 0x00 (rxResult s w 0)
      have hdone := complete_noneDue (s := { s with link := { s.link with hostRx := none } }) hdue c.seq 0x00 (rxResult s w 0)
      have hexec : exec .linkRxEnd s = .next (serve (complete c.seq 0x00 (rxResult s w 0) { s with link := { s.link with hostRx := none } })) := by
        simp only [exec, execLinkRxEnd, hrx, hcond, if_true, endRx, ← hseq]
      generalize complete c.seq 0x00 (rxResult s w 0) { s with link := { s.link with hostRx := none } } = t at hframe hflight hunread hdone hexec
      unfold RingFrame at hframe
      obtain ⟨hclosed, hoff⟩ := serve_closes hdone (by rw [hframe]; exact ⟨htx, hchk⟩) (by rw [hframe]) (by rw [hframe]; exact hwatch)
        (by rw [hframe]; exact hrun) (by rw [hframe]; exact hjob) (by rw [hframe]; exact hcal) (tuneOf_none_of_empty hflight 2)
      refine ⟨_, hexec, ?_, hoff, ?_, ?_⟩
      · rw [hclosed.link, hframe]
      · rw [hclosed.rings, hflight]
      · rw [hclosed.rings, hunread]
    · obtain ⟨n, b, heq⟩ := setFe_still (s := s) (st := .rxPacket) (by rw [hrun]; rfl) rfl (tuneStands_none htune)
      refine ⟨_, execPacket_qualifies h hrun, ?_⟩
      rw [heq]
      exact ⟨rfl, rfl⟩
    · obtain ⟨g, hexec, hg, hglo⟩ := execSfdTimeout_host h hstate hlo hjob hcal hpause
      exact ⟨_, hexec, ⟨hg, hglo, rfl⟩, rfl, rfl, rfl⟩
    · refine if_neg ?_
      rw [servingProfile_host h, hpull, Bool.and_false]
      decide
    · obtain ⟨f, hf, hflo, hexec⟩ := execPacket_taken h hstate hpull
      have hu : HostWindow { s with pathS := { s.pathS with fe := f } } w := ⟨hdue, htune, hrx, htx, hchk⟩
      obtain ⟨g, hover, hg, hglo⟩ := packetOver_heard h hstate hlo hjob hcal hpause (w' := { w with dropped := w.dropped + 1 })
        (l := { s.link with phrBad := min (2 ^ 32 - 1) (s.link.phrBad + 1), hostRx := some { w with dropped := w.dropped + 1 } })
        (m := s.mem) (sc := s.scrub) ⟨rfl, rfl, rfl, rfl⟩ rfl htx hf hflo
      rw [takePacket_badPhr hu hphr] at hexec
      exact ⟨_, hexec.trans (congrArg _ hover), ⟨hg, hglo, rfl⟩, rfl, rfl, rfl⟩
    · obtain ⟨f, hf, hflo, hexec⟩ := execPacket_taken h hstate hpull
      have hu : HostWindow { s with pathS := { s.pathS with fe := f } } w := ⟨hdue, htune, hrx, htx, hchk⟩
      obtain ⟨sc, htake⟩ := takePacket_record hu hphr hfcs hown hmax hroom
      generalize rxRecord w.profileNo w.channel false (asReceived w.profile k0) = r at htake ⊢
      obtain ⟨g, hover, hg, hglo⟩ := packetOver_heard h hstate hlo hjob hcal hpause
        (w' := { w with records := w.records + 1, bytes := w.bytes + r.length })
        (l := { s.link with rxPackets := min (2 ^ 32 - 1) (s.link.rxPackets + 1),
                            hostRx := some { w with records := w.records + 1, bytes := w.bytes + r.length } })
        (m := cellPuts s.mem (w.dest + w.bytes) r) (sc := sc) ⟨rfl, rfl, rfl, rfl⟩ rfl htx hf hflo
      rw [htake] at hexec
      exact ⟨_, hexec.trans (congrArg _ hover), ⟨hg, hglo, rfl⟩, rfl, rfl, fun a ha => cellGet_cellPuts_out r s.mem _ a ha⟩
  · exact congrArg Host.Outcome.next (if_neg (by rw [not_receiving hnot]; decide))
  · exact congrArg Host.Outcome.next (if_neg (by rw [not_receiving hnot]; decide))
  · exact congrArg Host.Outcome.next (if_neg (by rw [not_receiving hnot, inPacket_eq]; simp [hnotrx]))
  · cases k with
    | none => exact congrArg Host.Outcome.next (if_neg (by rw [not_receiving hnot]; decide))
    | some k =>
      refine if_neg ?_
      rw [not_receiving hnot, inPacket_eq]
      simp [hnotrx]
  · rw [show 0x270101 + 0x80 * k = 0x270100 + 0x80 * k + 1 by omega] at hat
    exact execProfileWrite_field hk (by decide) rfl hat
  · exact fun o p ho hp hat => execProfileWrite_field hk (by omega) hp hat

end Sys2Proof.Machine

/-!
PROOFS. A transmission alone on the link (O46): its listens, its start, the steps on air, and its end.
-/
namespace Sys2Proof.Machine

/-! One transmission -/

/-- A host's transmission is the only work of the link. -/
structure OneTx (s : State) (j : TxJob) (q : Nat) : Prop where
  due : NoneDue s
  txs : s.link.txs = [j]
  owner : j.owner = .host q
  rx : s.link.hostRx = none
  checks : s.sessions.checks = []
  watch : watching s = false

section
variable {s : State} {j : TxJob} {q : Nat} (h : OneTx s j q)
include h

theorem OneTx.active (hact : txActive j = true) : activeTx s = some j := by
  simp [activeTx, h.txs, hact]

theorem OneTx.setActive (hact : txActive j = true) (f : TxJob → TxJob) :
    setActive f s = { s with link := { s.link with txs := [f j] } } := by
  simp [Machine.setActive, h.txs, hact]

theorem OneTx.removeActive (hact : txActive j = true) : removeActive s = { s with link := { s.link with txs := [] } } := by
  simp [Machine.removeActive, h.txs, hact]

theorem OneTx.txStop : txStop s j = stopCause s q := by
  simp only [Machine.txStop, h.owner]

/-- A transmission that waits for its own time leaves the link nothing to do. -/
theorem OneTx.serve_waits (hact : txActive j = true) (hlock : s.pathS.fe.state ≠ .noLock) (hready : j.stage ≠ .ready) (htuning : j.stage ≠ .tuning) :
    serve s = s := by
  have hactive := h.active hact
  have hstep : linkStep s = none := by
    unfold linkStep
    extract_lets next first head
    have hnext : next = [] := by
      have hq : j.stage ≠ .queued ∧ j.stage ≠ .held := by
        simp only [txActive, Bool.and_eq_true, bne_iff_ne] at hact
        exact hact.1
      simp [next, h.txs, hq]
    rw [hactive]
    simp [hlock, hnext, hready, htuning]
  have hwin : serveWindows s = s := by simp [serveWindows, hactive]
  have hkick : kickCheck s = s := by simp [kickCheck, h.checks]
  simp only [serve, startDue_none h.due, windowNoLock_locked hlock, hkick, linkSteps_none hstep, hwin, trackPause_none h.rx]

end

/-- A transmission that has taken another form is still the link's only work. -/
theorem OneTx.setTx {s : State} {j k : TxJob} {q : Nat} (h : OneTx s j q) (hk : k.owner = .host q) (n : Nat) :
    OneTx { s with link := { s.link with txs := [k] }, fresh := n } k q := ⟨h.due, rfl, hk, h.rx, h.checks, h.watch⟩

/-! Its end -/

/-- The command completes, and path S goes to OFF. -/
theorem serve_completed {s : State} {c : Cmd} (hdue : NoneDue s) (hidle : LinkIdle s) (hrx : s.link.hostRx = none) (hwatch : watching s = false)
    (hrun : s.pathS.fe.state = .run) (hjob : s.pathS.job = none) (hcal : s.cal.linkJob = none) (hc : s.rings.inflight = [c])
    (status : Nat) (result : List Byte) :
    let t := serve (complete c.seq status result s)
    t.link = s.link ∧ t.pathS.fe.state = .off ∧ t.rings.inflight = [] ∧ t.rings.unread = s.rings.unread + 1 ∧
      t.mem = cellPuts s.mem (0x1FC000 + 16 * s.rings.ccProd) (entryBytes c status result) := by
  obtain ⟨hframe, hflight, hunread, hmem⟩ := complete_only_spec hc status result
  have hdone := complete_noneDue hdue c.seq status result
  generalize complete c.seq status result s = v at hframe hflight hunread hmem hdone
  unfold RingFrame at hframe
  obtain ⟨hclosed, hoff⟩ := serve_closes hdone (by rw [hframe]; exact hidle) (by rw [hframe]; exact hrx) (by rw [hframe]; exact hwatch)
    (by rw [hframe]; exact hrun) (by rw [hframe]; exact hjob) (by rw [hframe]; exact hcal) (tuneOf_none_of_empty hflight 2)
  refine ⟨?_, hoff, ?_, ?_, ?_⟩
  · rw [hclosed.link, hframe]
  · rw [hclosed.rings, hflight]
  · rw [hclosed.rings, hunread]
  · rw [hclosed.pathS]
    exact hmem

/-! The blanking -/

theorem touchTrack_fields (s : State) (g : FrontEnd → FrontEnd) : ∃ ls x y,
    touchLanes 1 0 (trackZeros 1 (modFe (touchLanes 0 0 (trackZeros 0 (modFe s 0 g))) 1 g)) = { s with lanes := ls, pathL := x, pathV := y } :=
  ⟨_, _, _, touchTrack_both s g⟩

/-- A blanking that begins writes the link's two causes, paths L and V and their lanes. -/
theorem beginBlank_tx {s : State} (h0 : tuneOf s 0 = none) (h1 : tuneOf s 1 = none) : ∃ ls x y, beginBlank true s =
    { s with link := { s.link with txBlank := true }, lanes := ls, pathL := x, pathV := y } := by
  have hlink : ({ s.link with txBlank := s.link.txBlank || true, pinBlank := s.link.pinBlank || !true } : Link) = { s.link with txBlank := true } := by
    rw [Bool.or_true, Bool.not_true, Bool.or_false]
  obtain ⟨g, heq⟩ : ∃ g, beginBlank true s = tuneBoundary 1 (tuneBoundary 0 (touchLanes 1 0 (trackZeros 1 (modFe (touchLanes 0 0 (trackZeros 0 (modFe
      { s with link := { s.link with txBlank := s.link.txBlank || true, pinBlank := s.link.pinBlank || !true } } 0 g))) 1 g)))) := ⟨_, rfl⟩
  obtain ⟨ls, x, y, htouch⟩ := touchTrack_fields { s with link := { s.link with txBlank := true } } g
  rw [heq, hlink, htouch, tuneBoundary_none (p := 0), tuneBoundary_none (p := 1)]
  · exact ⟨ls, x, y, rfl⟩
  · exact h1
  · exact h0

/-- The transmission's part of a blanking ends (R185, R186). -/
theorem endBlank_tx (s : State) : ∃ ls x y, endBlank true s =
    { s with link := { s.link with txBlank := false }, lanes := ls, pathL := x, pathV := y } := by
  have hlink : ({ s.link with txBlank := s.link.txBlank && !true, pinBlank := s.link.pinBlank && true } : Link) = { s.link with txBlank := false } := by
    rw [Bool.and_true, Bool.not_true, Bool.and_false]
  unfold endBlank
  dsimp only
  split
  · rw [hlink]
    have heq : (forAll [0, 1] (fun s p => touchLanes p 0 (trackZeros p s)) { s with link := { s.link with txBlank := false } }) =
        touchLanes 1 0 (trackZeros 1 (modFe (touchLanes 0 0 (trackZeros 0 (modFe { s with link := { s.link with txBlank := false } } 0 id))) 1 id)) := by
      rfl
    rw [heq]
    exact touchTrack_fields _ _
  · rw [hlink]
    exact ⟨_, _, _, rfl⟩

/-! On air -/

theorem charge_link (b cost : Nat) (s : State) : ∃ l : Link, charge b cost s = { s with link := l } ∧ l.txs = s.link.txs ∧ l.hostRx = s.link.hostRx ∧
    l.txPackets = min (2 ^ 32 - 1) (s.link.txPackets + 1) ∧ l.txTokens = min (2 ^ 32 - 1) (s.link.txTokens + cost) :=
  ⟨_, rfl, rfl, rfl, rfl, rfl⟩

theorem countOfdm_link (j : TxJob) (s : State) : ∃ n, countOfdm j s = { s with link := { s.link with ofdmSeed := n } } := by
  unfold countOfdm
  split
  · exact ⟨_, rfl⟩
  · exact ⟨s.link.ofdmSeed, rfl⟩

/-- What a transmission on air is, its PHR beginning at `a`. -/
def onAirTx (j : TxJob) (a : Nat) : TxJob :=
  { j with stage := .onAir, phrStamp := if j.cwMs.isSome then 0 else a, endStamp := a + bodyCount j, psdu := j.psdu }

/-- Step 7 of a host's transmission (Table 16-4): it is charged, and the paths are blanked. -/
theorem goOnAir_spec {s : State} {j : TxJob} {q : Nat} (h : OneTx s j q) (hact : txActive j = true) (h0 : tuneOf s 0 = none) (h1 : tuneOf s 1 = none)
    (phr : Option Nat) : OneTx (goOnAir phr s) (onAirTx j (phr.getD (earliestPhr s j))) q ∧ (goOnAir phr s).link.txBlank = true ∧
      (goOnAir phr s).link.txPackets = min (2 ^ 32 - 1) (s.link.txPackets + 1) ∧
      (goOnAir phr s).link.txTokens = min (2 ^ 32 - 1) (s.link.txTokens + j.cost) ∧
      goOnAir phr s = { s with link := (goOnAir phr s).link, pathL := (goOnAir phr s).pathL, pathV := (goOnAir phr s).pathV,
                               lanes := (goOnAir phr s).lanes } := by
  have hend : ∀ t, counterEnds j t = t := fun t => by simp only [counterEnds, txEndpoint, h.owner]
  have hcount : ∀ t, countFrame j t = t := fun t => by simp only [countFrame, txEndpoint, h.owner]
  have hrender : ∀ t, renderFrame t j = j.psdu := fun t => by simp only [renderFrame, txEndpoint, h.owner]
  have hphr : phrCount s j phr = phr.getD (earliestPhr s j) := by simp only [phrCount, earliestPhr, h.owner]
  obtain ⟨l, hcharge, htxs, hrx, hpackets, htokens⟩ := charge_link j.band j.cost s
  have hair : goOnAir phr s = beginBlank true (countOfdm j { s with link := { l with txs := [onAirTx j (phr.getD (earliestPhr s j))] } }) := by
    simp only [goOnAir, h.active hact, hend, hcount, hrender, hphr, hcharge]
    rw [OneTx.setActive (s := { s with link := l }) (q := q) ⟨h.due, htxs.trans h.txs, h.owner, hrx.trans h.rx, h.checks, h.watch⟩ hact]
    rfl
  obtain ⟨n, hofdm⟩ := countOfdm_link j { s with link := { l with txs := [onAirTx j (phr.getD (earliestPhr s j))] } }
  obtain ⟨ls, x, y, hblank⟩ := beginBlank_tx (s := { s with link := { l with txs := [onAirTx j (phr.getD (earliestPhr s j))], ofdmSeed := n } }) h0 h1
  rw [hair, hofdm, hblank]
  exact ⟨⟨h.due, rfl, h.owner, hrx.trans h.rx, h.checks, h.watch⟩, rfl, hpackets, htokens, rfl⟩

end Sys2Proof.Machine

/-!
PROOFS. The rows of a transmission (O46): LBT_LISTEN_END, LBT_BACKOFF, AT_START, TRANSMISSION_END and RX_AFTER, and the statement.
-/
namespace Sys2Proof.Machine

/-- What the end of the link's only transmission leaves: its command's completion alone in the ring, and path S OFF. -/
def EndedWith (s : State) (c : Cmd) (status : Nat) (result : List Byte) (t : State) : Prop :=
  t.link.txs = [] ∧ t.pathS.fe.state = .off ∧ t.rings.inflight = [] ∧ t.rings.unread = s.rings.unread + 1 ∧
    t.mem = cellPuts s.mem (0x1FC000 + 16 * s.rings.ccProd) (entryBytes c status result)

/-- What going on air at `a` leaves. -/
def OnAirAt (s : State) (j : TxJob) (a : Nat) (t : State) : Prop :=
  (∃ k, t.link.txs = [k] ∧ k.stage = .onAir ∧ k.psdu = j.psdu ∧ k.phrStamp = (if j.cwMs.isSome then 0 else a) ∧ k.endStamp = a + bodyCount j) ∧
    t.link.txBlank = true ∧ t.link.txPackets = min (2 ^ 32 - 1) (s.link.txPackets + 1) ∧
    t.link.txTokens = min (2 ^ 32 - 1) (s.link.txTokens + j.cost) ∧
    t = { s with link := t.link, pathL := t.pathL, pathV := t.pathV, lanes := t.lanes }

section
variable {s : State} {j : TxJob} {q : Nat} (h : OneTx s j q) (hjob : s.pathS.job = none) (hcal : s.cal.linkJob = none)

section
include h hjob hcal

/-- The transmission is taken off the link and its command completes. -/
theorem serve_ended {c : Cmd} {l : Link} {f : FrontEnd} {status : Nat} {result : List Byte} {t : State} (htx : l.txs = []) (hrx : l.hostRx = none)
    (hrun : f.state = .run) (hc : s.rings.inflight = [c]) (hseq : c.seq = q)
    (ht : serve (complete q status result { s with link := l, pathS := { s.pathS with fe := f } }) = t) :
    EndedWith s c status result t ∧ t.link = l := by
  subst hseq
  obtain ⟨hlink, hoff, hflight, hunread, hmem⟩ := serve_completed (s := { s with link := l, pathS := { s.pathS with fe := f } }) h.due ⟨htx, h.checks⟩ hrx
    h.watch hrun hjob hcal hc status result
  rw [ht] at hlink hoff hflight hunread hmem
  exact ⟨⟨by rw [hlink]; exact htx, hoff, hflight, hunread, hmem⟩, hlink⟩

end

/-! LBT_LISTEN_END and LBT_BACKOFF (R358) -/

/-- The transmission once a try has been counted. -/
def triedTx (j : TxJob) (rssi : Int) : TxJob := { j with tries := j.tries + 1, rssi := max j.rssi rssi }

section
variable (hst : j.stage = .listen) (hrun : s.pathS.fe.state = .run) (hstop : stopCause s q = none) {rssi : Int}
include h hst

theorem execLbtListenEnd_early (hlt : s.clocks.sc < j.until_) : exec (.lbtListenEnd rssi) s = .next s := by
  have hact : txActive j = true := by simp [txActive, hst]
  simp [exec, execLbtListenEnd, h.active hact, hst, hlt]

variable (hdue : j.until_ ≤ s.clocks.sc)
include hdue

theorem execLbtListenEnd_free (hfree : rssi < 4 * lbtThreshold s j) :
    exec (.lbtListenEnd rssi) s = .next (serve (readyToSend { s with link := { s.link with txs := [triedTx j rssi] } })) := by
  have hact : txActive j = true := by simp [txActive, hst]
  have hcond : ¬ (j.stage != .listen || s.clocks.sc < j.until_) = true := by simp [hst, hdue]
  simp only [exec, execLbtListenEnd, h.active hact, h.setActive hact, if_neg hcond]
  exact if_pos hfree

variable (hbusy : 4 * lbtThreshold s j ≤ rssi)
include hbusy hstop

theorem execLbtListenEnd_busy : exec (.lbtListenEnd rssi) s = .next (
    if j.at_.isSome || s.link.lbtTries ≤ j.tries + 1 then
      serve (endActive 0x41 (lowByte (j.tries + 1) :: leBytes (twos 2 (max j.rssi rssi)) 2)
        { s with link := { s.link with txs := [triedTx j rssi] } })
    else serve (startBackoff { s with link := { s.link with txs := [triedTx j rssi] } })) := by
  have hact : txActive j = true := by simp [txActive, hst]
  have hcond : ¬ (j.stage != .listen || s.clocks.sc < j.until_) = true := by simp [hst, hdue]
  have hnostop : txStop { s with link := { s.link with txs := [triedTx j rssi] } } j = none := by
    simp only [txStop, h.owner]
    exact hstop
  simp only [exec, execLbtListenEnd, h.active hact, h.setActive hact, if_neg hcond]
  refine (if_neg (Int.not_lt.mpr hbusy)).trans ?_
  change (match txStop { s with link := { s.link with txs := [triedTx j rssi] } } j with
    | some k => _
    | none => _) = _
  rw [hnostop]
  exact (apply_ite Host.Outcome.next _ _ _).symm

end

end

/-- A transmission that ends for good: its refusal is counted and its command completes. -/
theorem OneTx.endActive {s : State} {k : TxJob} {q : Nat} (h : OneTx s k q) (hact : txActive k = true) (status : Nat) (result : List Byte) :
    endActive status result s = complete q status result (countRefusal k.band status { s with link := { s.link with txs := [] } }) := by
  simp only [Machine.endActive, h.active hact, h.removeActive hact, txEnds, h.owner]

section
variable {s : State} {j : TxJob} {q : Nat} (h : OneTx s j q)
include h

/-- A busy try with tries left waits a random time (R358). -/
theorem startBackoff_spec (hact : txActive j = true) : ∃ us, us ≤ (bandAt s j.band).backoffMax ∧ 
    startBackoff s = { s with
      fresh := s.fresh + 1, link := { s.link with txs := [{ j with stage := .backoff, until_ := s.clocks.sc + microsCounts us }] } } := by
  refine ⟨Config.random s.fresh % 2 ^ 64 % ((bandAt s j.band).backoffMax + 1), Nat.le_of_lt_succ (Nat.mod_lt _ (Nat.succ_pos _)), ?_⟩
  have h' : OneTx { s with fresh := s.fresh + 1 } j q := ⟨h.due, h.txs, h.owner, h.rx, h.checks, h.watch⟩
  exact h'.setActive hact _

/-- A try begins: the longer of the two minima, and a random part (R358). -/
theorem startListen_spec (hact : txActive j = true) (hat : j.at_ = none) : ∃ us, us ≤ (bandAt s j.band).listenRand ∧ 
    startListen s = { s with
      fresh := s.fresh + 1
      link := { s.link with txs := [{ j with
        stage := .listen, until_ := s.clocks.sc + microsCounts (max (bandAt s j.band).listenMin s.link.lbtListenUs + us) }] } } := by
  refine ⟨Config.random s.fresh % 2 ^ 64 % ((bandAt s j.band).listenRand + 1), Nat.le_of_lt_succ (Nat.mod_lt _ (Nat.succ_pos _)), ?_⟩
  have h' : OneTx { s with fresh := s.fresh + 1 } j q := ⟨h.due, h.txs, h.owner, h.rx, h.checks, h.watch⟩
  refine (h'.setActive hact _).trans ?_
  rw [hat]
  rfl

theorem execLbtBackoff_due (hst : j.stage = .backoff) (hdue : j.until_ ≤ s.clocks.sc) : exec .lbtBackoff s = .next (startListen s) := by
  have hact : txActive j = true := by simp [txActive, hst]
  have hcond : (j.stage = .backoff && j.until_ ≤ s.clocks.sc) = true := by simp [hst, hdue]
  simp only [exec, execLbtBackoff, h.active hact]
  exact congrArg _ (if_pos hcond)

theorem execLbtBackoff_stands (hn : j.stage ≠ .backoff ∨ s.clocks.sc < j.until_) : exec .lbtBackoff s = .next s := by
  have hcond : ¬ (j.stage = .backoff && j.until_ ≤ s.clocks.sc) = true := by
    simp only [Bool.and_eq_true, decide_eq_true_eq]
    exact fun hboth => hn.elim (fun hne => hne hboth.1) fun hlt => absurd hboth.2 (Nat.not_le.mpr hlt)
  cases hact : txActive j with
  | true =>
    simp only [exec, execLbtBackoff, h.active hact]
    exact congrArg _ (if_neg hcond)
  | false =>
    have hnone : activeTx s = none := by simp [activeTx, h.txs, hact]
    simp only [exec, execLbtBackoff, hnone]

/-- The second check of the cost passes (R356). -/
theorem readyToSend_covered (hact : txActive j = true) (hstop : stopCause s q = none) (hcost : costCovered s j.band j.cost = true) :
    (∀ a, j.at_ = some a → readyToSend s = { s with link := { s.link with txs := [{ j with stage := .timed }] } }) ∧
      (j.at_ = none → s.pathS.fe.state = .run → s.clocks.stage = .idle → readyToSend s = goOnAir none s) := by
  have hnostop : txStop s j = none := h.txStop.trans hstop
  have hpre : readyToSend s = match j.at_ with
      | some _ => setActive (fun j => { j with stage := .timed }) s
      | none => if mayRamp s then goOnAir none s else setActive (fun j => { j with stage := .ready }) s := by
    simp only [readyToSend, h.active hact, hnostop, hcost, Bool.not_true, Bool.false_eq_true, if_false] <;> rfl
  refine ⟨fun a hat => ?_, fun hat hrun hidle => ?_⟩
  · have htimed : readyToSend s = setActive (fun j => { j with stage := .timed }) s := by rw [hpre, hat]
    exact htimed.trans (h.setActive hact _)
  · have hramp : mayRamp s = true := by simp [mayRamp, hrun, hidle]
    rw [hpre, hat]
    exact if_pos hramp

/-! AT_START (R361) -/

theorem find_at {a : Nat} (hat : j.at_ = some a) (hst : j.stage = .timed) :
    s.link.txs.find? (fun j => j.at_.isSome && notOnAir j) = some j := by
  simp [h.txs, hat, notOnAir, hst]

theorem execAtStart_none (hat : j.at_ = none) : exec .atStart s = .next s := by
  have hfind : s.link.txs.find? (fun j => j.at_.isSome && notOnAir j) = none := by simp [h.txs, hat]
  simp only [exec, execAtStart, hfind]

theorem execAtStart_starts {a : Nat} (hat : j.at_ = some a) (hst : j.stage = .timed) (hrun : s.pathS.fe.state = .run) (hidle : s.clocks.stage = .idle)
    (hle : earliestPhr s j ≤ a) : exec .atStart s = .next (goOnAir (some a) s) := by
  have hramp : mayRamp s = true := by simp [mayRamp, hrun, hidle]
  simp only [exec, execAtStart, find_at h hat hst, hat, Option.getD_some, if_pos hle, hst, hramp]
  rfl

theorem execAtStart_late {a : Nat} (hat : j.at_ = some a) (hst : j.stage = .timed) (hlt : a < earliestPhr s j) : exec .atStart s =
    .next (serve (complete q 0x17 [6] { s with link := { s.link with atLate := min (2 ^ 32 - 1) (s.link.atLate + 1), txs := [] } })) := by
  have herase : s.link.txs.erase j = [] := by rw [h.txs, List.erase_cons_head]
  simp only [exec, execAtStart, find_at h hat hst, hat, Option.getD_some, if_neg (Nat.not_le.mpr hlt), tooLate, herase, txEnds, h.owner]
  rfl

end

/-! TRANSMISSION_END (Table 8-8) -/

theorem execTransmissionEnd_in {k : Nat} (h2 : 2 ≤ k) (h6 : k ≤ 6) (s : State) :
    exec (.transmissionEnd k) s = .next (forAll ((List.range (k - 1)).map (· + 2)) txStep s) := by
  refine congrArg Host.Outcome.next (if_pos ?_)
  simp [h2, h6]

theorem execTransmissionEnd_out {k : Nat} (hk : k < 2 ∨ 6 < k) (s : State) : exec (.transmissionEnd k) s = .next s := by
  refine congrArg Host.Outcome.next (if_neg ?_)
  simp only [Bool.and_eq_true, decide_eq_true_eq]
  omega

section
variable {s : State} {j : TxJob} {q : Nat} (h : OneTx s j q) (hst : j.stage = .onAir)
include h hst

theorem onAir_any : (s.link.txs.any fun j => j.stage == .onAir) = true := by simp [h.txs, hst]

theorem txStep_lead (hrun : s.pathS.fe.state = .run) : txStep s 2 = setFe 2 .txRampUp s := by
  simp only [txStep, hrun]
  exact if_pos (onAir_any h hst)

end

/-- The steps before the state's own change nothing. -/
theorem txStep_two {s : State} (h : s.pathS.fe.state ≠ .run) : txStep s 2 = s := by
  unfold txStep
  split
  next hs => exact absurd hs h
  all_goals first | omega | rfl

theorem txStep_three {s : State} (h : s.pathS.fe.state ≠ .txRampUp) : txStep s 3 = s := by
  unfold txStep
  split
  case h_2 hs => exact absurd hs h
  all_goals first | omega | rfl

theorem txStep_four {s : State} (h : s.pathS.fe.state ≠ .tx) : txStep s 4 = s := by
  unfold txStep
  split
  case h_3 hs => exact absurd hs h
  all_goals first | omega | rfl

theorem txStep_five {s : State} (h : s.pathS.fe.state ≠ .txRampDown) : txStep s 5 = s := by
  unfold txStep
  split
  case h_4 hs => exact absurd hs h
  all_goals first | omega | rfl

/-- One step of Table 8-8 between states that leave the lanes alone. -/
theorem setFe_step {s : State} {st : FeState} (hold : feStill s.pathS.fe.state = true) (hst : feStill st = true) (htune : tuneOf s 2 = none) :
    (setFe 2 st s).pathS.fe.state = st ∧ setFe 2 st s = { s with pathS := { s.pathS with fe := (setFe 2 st s).pathS.fe } } := by
  obtain ⟨n, b, heq⟩ := setFe_still hold hst (tuneStands_none htune)
  rw [heq]
  exact ⟨rfl, rfl⟩

section
variable {s : State} {j : TxJob} {q : Nat} (h : OneTx s j q) (hst : j.stage = .onAir)
include h hst

theorem transmissionEnd_two (hrun : s.pathS.fe.state = .run) : exec (.transmissionEnd 2) s = .next (setFe 2 .txRampUp s) := by
  rw [execTransmissionEnd_in (by decide) (by decide)]
  exact congrArg _ (txStep_lead h hst hrun)

end

theorem transmissionEnd_three {s : State} (hup : s.pathS.fe.state = .txRampUp) : exec (.transmissionEnd 3) s = .next (setFe 2 .tx s) := by
  have h2 : txStep s 2 = s := txStep_two (by simp [hup])
  have h3 : txStep s 3 = setFe 2 .tx s := by simp only [txStep, hup]
  rw [execTransmissionEnd_in (by decide) (by decide)]
  change Host.Outcome.next (txStep (txStep s 2) 3) = _
  rw [h2, h3]

theorem transmissionEnd_four {s : State} (htx : s.pathS.fe.state = .tx) : exec (.transmissionEnd 4) s = .next (setFe 2 .txRampDown s) := by
  have h2 : txStep s 2 = s := txStep_two (by simp [htx])
  have h3 : txStep s 3 = s := txStep_three (by simp [htx])
  have h4 : txStep s 4 = setFe 2 .txRampDown s := by simp only [txStep, htx]
  rw [execTransmissionEnd_in (by decide) (by decide)]
  change Host.Outcome.next (txStep (txStep (txStep s 2) 3) 4) = _
  rw [h2, h3, h4]

theorem transmissionEnd_five {s : State} (hdown : s.pathS.fe.state = .txRampDown) : exec (.transmissionEnd 5) s = .next (amplifierOff s) := by
  have h2 : txStep s 2 = s := txStep_two (by simp [hdown])
  have h3 : txStep s 3 = s := txStep_three (by simp [hdown])
  have h4 : txStep s 4 = s := txStep_four (by simp [hdown])
  have h5 : txStep s 5 = amplifierOff s := by simp only [txStep, hdown]
  rw [execTransmissionEnd_in (by decide) (by decide)]
  change Host.Outcome.next (txStep (txStep (txStep (txStep s 2) 3) 4) 5) = _
  rw [h2, h3, h4, h5]

/-- The blanking's own step, with no transmission on air. -/
theorem transmissionEnd_six {s : State} (hair : ∀ j ∈ s.link.txs, j.stage ≠ .onAir) (hup : s.pathS.fe.state ≠ .txRampUp) (htx : s.pathS.fe.state ≠ .tx)
    (hdown : s.pathS.fe.state ≠ .txRampDown) (hcal : s.cal.linkJob = none) :
    exec (.transmissionEnd 6) s = .next (if s.link.txBlank then endBlank true s else s) := by
  have hany : (s.link.txs.any fun j => j.stage == .onAir) = false := by
    rw [List.any_eq_false]
    exact fun j hj => by simp [hair j hj]
  have h2 : txStep s 2 = s := by
    unfold txStep
    split
    · simp [hany]
    all_goals first | omega | rfl
  have h3 : txStep s 3 = s := txStep_three hup
  have h4 : txStep s 4 = s := txStep_four htx
  have h5 : txStep s 5 = s := txStep_five hdown
  have h6 : txStep s 6 = if s.link.txBlank then endBlank true s else s := by
    simp [txStep, emitting, hany, hcal]
  rw [execTransmissionEnd_in (by decide) (by decide)]
  change Host.Outcome.next (txStep (txStep (txStep (txStep (txStep s 2) 3) 4) 5) 6) = _
  rw [h2, h3, h4, h5, h6]

end Sys2Proof.Machine

/-!
PROOFS. The end of a transmission (O46): the amplifier off, RX_AFTER, and the statement.
-/
namespace Sys2Proof.Machine

section
variable {s : State} {j : TxJob} {q : Nat} (h : OneTx s j q)
include h

/-- With the lock held, path S is in LISTEN again and the transmission is off the link. -/
theorem amplifierOff_eq (hst : j.stage = .onAir) (hdown : s.pathS.fe.state = .txRampDown) (hlock : s.pathS.synth.locked = true)
    (htune : tuneOf s 2 = none) : ∃ f : FrontEnd, f.state = .run ∧ f.loNow = s.pathS.fe.loNow ∧ amplifierOff s =
      serve (if j.cut then txEnds j 0x52 [2] { s with link := { s.link with txs := [] }, pathS := { s.pathS with fe := f } }
        else sentWhole j { s with link := { s.link with txs := [] }, pathS := { s.pathS with fe := f } }) := by
  have hact : txActive j = true := by simp [txActive, hst]
  have hremove := h.removeActive hact
  obtain ⟨f, hset, hf, hflo⟩ : ∃ f : FrontEnd, setFe 2 .run (removeActive s) =
      { s with link := { s.link with txs := [] }, pathS := { s.pathS with fe := f } } ∧ f.state = .run ∧ f.loNow = s.pathS.fe.loNow := by
    rw [hremove]
    obtain ⟨n, b, hset⟩ := setFe_still (s := { s with link := { s.link with txs := [] } }) (st := .run) (by rw [hdown]; rfl) rfl
      (tuneStands_none htune)
    exact ⟨_, hset, rfl, rfl⟩
  have hlock' : (removeActive s).pathS.synth.locked = true := by
    rw [hremove]
    exact hlock
  refine ⟨f, hf, hflo, ?_⟩
  have hback : (if (removeActive s).pathS.synth.locked then setFe 2 .run (removeActive s) else relockBand 2 (setFe 2 .retune (removeActive s))) =
      { s with link := { s.link with txs := [] }, pathS := { s.pathS with fe := f } } := (if_pos hlock').trans hset
  unfold amplifierOff
  rw [h.active hact]
  dsimp only
  rw [hback]

theorem txEnds_host {status : Nat} {result : List Byte} (t : State) (hstatus : status ≠ 0x40 ∧ status ≠ 0x41 ∧ status ≠ 0x42) :
    txEnds j status result t = complete q status result t := by
  obtain ⟨h1, h2, h3⟩ := hstatus
  simp only [txEnds, countRefusal, h.owner, if_neg h1, if_neg h2, if_neg h3]

theorem sentWhole_done (t : State) (hafter : j.rxAfterMs = none) : sentWhole j t = complete q 0x00 (txResult j) t := by
  simp only [sentWhole, h.owner, hafter]

theorem sentWhole_after {ms : Nat} (t : State) (htx : t.link.txs = []) (hafter : j.rxAfterMs = some ms) : sentWhole j t = { t with link := { t.link with
    txs := [{ j with stage := .after, until_ := j.endStamp + microsCounts (24 + 1000 * ms) }] } } := by
  simp only [sentWhole, h.owner, hafter, pushTx, htx, List.nil_append]

/-! RX_AFTER (R362) -/

theorem find_after (hst : j.stage = .after) : s.link.txs.find? (fun j => j.stage == .after) = some j := by simp [h.txs, hst]

theorem execRxAfter_over (hst : j.stage = .after) (hrun : s.pathS.fe.state = .run) (hdue : j.until_ ≤ s.clocks.sc) : exec .rxAfter s =
    .next (serve (complete q 0x00 (txResult j) { s with link := { s.link with txs := [] } })) := by
  have hcond : (j.until_ ≤ s.clocks.sc && !inPacket s) = true := by
    rw [inPacket_eq, hrun]
    simp [hdue]
  have hfilter : s.link.txs.filter (fun k => k.stage != .after) = [] := by simp [h.txs, hst]
  simp only [exec, execRxAfter, find_after h hst, hcond, if_true, endAfter, h.owner, hfilter]

theorem execRxAfter_early (hst : j.stage = .after) (hlt : s.clocks.sc < j.until_) : exec .rxAfter s = .next s := by
  have hcond : ¬ (j.until_ ≤ s.clocks.sc && !inPacket s) = true := by
    simp only [Bool.and_eq_true, decide_eq_true_eq]
    omega
  simp only [exec, execRxAfter, find_after h hst, if_neg hcond]

/-- A transmission whose window is open: path S serves its channel, where it listens already. -/
theorem serve_after (hst : j.stage = .after) (hrun : s.pathS.fe.state = .run) (hlo : s.pathS.fe.loNow = linkLo j.channel)
    (hjob : s.pathS.job = none) (hcal : s.cal.linkJob = none) :
    ∃ f : FrontEnd, f.state = .run ∧ serve s = { s with pathS := { s.pathS with fe := f } } := by
  have hactive (t : State) (ht : t.link = s.link) : activeTx t = none := by simp [activeTx, ht, h.txs, txActive, hst]
  have hstep (t : State) (ht : t.link = s.link) (n : Nat) : linkSteps n t = t := by
    refine linkSteps_none ?_ n
    unfold linkStep
    extract_lets next first head
    have hnext : next = [] := by simp [next, ht, h.txs, hst]
    have hhead : head = none := by simp [head, first, hnext]
    rw [hactive t ht, hhead]
  have hpacket : packetOn s = false := by simp [packetOn, h.txs, hst, hrun]
  have hserving : serving s = .after j := by simp [serving, h.checks, h.txs, hst]
  have hwin : serveWindows s = if s.pathS.fe.tuneHolds then s else placeS j.channel s := by
    simp [serveWindows, hactive s rfl, hpacket, hjob, hcal, servingChannel, hserving, hrun]
  have hserved : ∃ f : FrontEnd, f.state = .run ∧ serveWindows s = { s with pathS := { s.pathS with fe := f } } := by
    rw [hwin, placeS_run hrun hlo]
    split
    · exact ⟨s.pathS.fe, hrun, rfl⟩
    · exact ⟨placedFe j.channel s.pathS.fe, hrun, rfl⟩
  obtain ⟨f, hf, heq⟩ := hserved
  refine ⟨f, hf, ?_⟩
  have hkick (t : State) (ht : t.sessions = s.sessions) : kickCheck t = t := by simp [kickCheck, ht, h.checks]
  simp only [serve, startDue_none h.due, windowNoLock_locked (show s.pathS.fe.state ≠ .noLock by rw [hrun]; decide), hkick s rfl, hstep s rfl, heq]
  generalize hu : ({ s with pathS := { s.pathS with fe := f } } : State) = u
  rw [windowNoLock_locked (by rw [← hu]; simp [hf]), hkick u (by rw [← hu]), hstep u (by rw [← hu]), trackPause_none (by rw [← hu]; exact h.rx)]

end

section
variable {s : State} {j : TxJob} {q : Nat} (h : OneTx s j q) (h0 : tuneOf s 0 = none) (h1 : tuneOf s 1 = none)
include h h0 h1

theorem goOnAir_at (hact : txActive j = true) (phr : Option Nat) : OnAirAt s j (phr.getD (earliestPhr s j)) (goOnAir phr s) := by
  obtain ⟨hone, hblank, hpackets, htokens, hframe⟩ := goOnAir_spec h hact h0 h1 phr
  exact ⟨⟨_, hone.txs, rfl, rfl, rfl, rfl⟩, hblank, hpackets, htokens, hframe⟩

/-- A free try of a transmission without a time goes on air at once. -/
theorem serve_goOnAir (hact : txActive j = true) (hrun : s.pathS.fe.state = .run) : serve (goOnAir none s) = goOnAir none s := by
  obtain ⟨hone, -, -, -, hframe⟩ := goOnAir_spec h hact h0 h1 none
  refine hone.serve_waits rfl ?_ (by simp [onAirTx]) (by simp [onAirTx])
  rw [hframe]
  simp [hrun]

end

/-- The last busy listen counts its refusal. -/
theorem OneTx.endActive_busy {s : State} {k : TxJob} {q : Nat} (h : OneTx s k q) (hact : txActive k = true) (result : List Byte) :
    Machine.endActive 0x41 result s =
      complete q 0x41 result { s with link := { s.link with txs := [], busyDenials := min (2 ^ 32 - 1) (s.link.busyDenials + 1) } } :=
  h.endActive hact 0x41 result

section
variable {s : State} {j : TxJob} {q : Nat} (h : OneTx s j q) (hrun : s.pathS.fe.state = .run)
include h hrun

section
variable (hst : j.stage = .listen) (hstop : stopCause s q = none) (hdue : j.until_ ≤ s.clocks.sc) {rssi : Int}
include hst hstop hdue

omit hrun hst hstop hdue in
theorem OneTx.tried : OneTx { s with link := { s.link with txs := [triedTx j rssi] } } (triedTx j rssi) q := h.setTx (k := triedTx j rssi) h.owner s.fresh

theorem listen_backsOff (hbusy : 4 * lbtThreshold s j ≤ rssi) (hat : j.at_ = none) (htries : j.tries + 1 < s.link.lbtTries) :
    ∃ us, us ≤ (bandAt s j.band).backoffMax ∧ exec (.lbtListenEnd rssi) s = .next { s with fresh := s.fresh + 1, link := { s.link with
      txs := [{ triedTx j rssi with stage := .backoff, until_ := s.clocks.sc + microsCounts us }] } } := by
  have hu := h.tried (rssi := rssi)
  obtain ⟨us, hus, heq⟩ := startBackoff_spec hu (by simp [txActive, triedTx, hst])
  refine ⟨us, hus, ?_⟩
  rw [execLbtListenEnd_busy h hst hstop hdue hbusy, if_neg (by simp [hat]; omega), heq]
  exact congrArg _ (OneTx.serve_waits (hu.setTx (k := { triedTx j rssi with stage := .backoff, until_ := s.clocks.sc + microsCounts us }) h.owner
    (s.fresh + 1)) rfl (by simp [hrun]) (by simp) (by simp))

theorem listen_denied (hjob : s.pathS.job = none) (hcal : s.cal.linkJob = none) {c : Cmd} (hbusy : 4 * lbtThreshold s j ≤ rssi)
    (hlast : j.at_.isSome = true ∨ s.link.lbtTries ≤ j.tries + 1) (hc : s.rings.inflight = [c]) (hseq : c.seq = q) : ∃ t,
      exec (.lbtListenEnd rssi) s = .next t ∧ EndedWith s c 0x41 (lowByte (j.tries + 1) :: leBytes (twos 2 (max j.rssi rssi)) 2) t ∧
      t.link.busyDenials = min (2 ^ 32 - 1) (s.link.busyDenials + 1) := by
  have hu := h.tried (rssi := rssi)
  have hexec := execLbtListenEnd_busy h hst hstop hdue hbusy
  rw [if_pos (by simpa using hlast), hu.endActive_busy (by simp [txActive, triedTx, hst])] at hexec
  generalize lowByte (j.tries + 1) :: leBytes (twos 2 (max j.rssi rssi)) 2 = result at hexec ⊢
  refine ⟨_, hexec, ?_⟩
  obtain ⟨hdone, hlink⟩ := serve_ended (l := { s.link with txs := [], busyDenials := min (2 ^ 32 - 1) (s.link.busyDenials + 1) }) (f := s.pathS.fe)
    (status := 0x41) (result := result) h hjob hcal rfl h.rx hrun hc hseq rfl
  exact ⟨hdone, congrArg Link.busyDenials hlink⟩

theorem listen_free (h0 : tuneOf s 0 = none) (h1 : tuneOf s 1 = none) (hidle : s.clocks.stage = .idle) (hfree : rssi < 4 * lbtThreshold s j)
    (hcost : costCovered s j.band j.cost = true) :
    (j.at_.isSome = true → exec (.lbtListenEnd rssi) s = .next { s with link := { s.link with txs := [{ triedTx j rssi with stage := .timed }] } }) ∧
      (j.at_ = none → ∃ t, exec (.lbtListenEnd rssi) s = .next t ∧ OnAirAt s j (earliestPhr s j) t) := by
  have hact : txActive (triedTx j rssi) = true := by simp [txActive, triedTx, hst]
  have hu := h.tried (rssi := rssi)
  obtain ⟨htimed, hnow⟩ := readyToSend_covered hu hact hstop hcost
  have hexec := execLbtListenEnd_free h hst hdue hfree
  refine ⟨fun hat => ?_, fun hat => ?_⟩
  · obtain ⟨a, ha⟩ := Option.isSome_iff_exists.mp hat
    rw [hexec, htimed a ha]
    exact congrArg _ (OneTx.serve_waits (hu.setTx (k := { triedTx j rssi with stage := .timed }) h.owner s.fresh) rfl (by simp [hrun]) (by simp) (by simp))
  · rw [hexec, hnow hat hrun hidle, serve_goOnAir hu h0 h1 hact hrun]
    exact ⟨_, rfl, goOnAir_at hu h0 h1 hact none⟩

end

theorem atStart_late {c : Cmd} {a : Nat} (hjob : s.pathS.job = none) (hcal : s.cal.linkJob = none) (hat : j.at_ = some a) (hst : j.stage = .timed)
    (hlt : a < earliestPhr s j) (hc : s.rings.inflight = [c]) (hseq : c.seq = q) : ∃ t, exec .atStart s = .next t ∧ EndedWith s c 0x17 [6] t ∧
      t.link.atLate = min (2 ^ 32 - 1) (s.link.atLate + 1) := by
  obtain ⟨hdone, hlink⟩ := serve_ended (l := { s.link with atLate := min (2 ^ 32 - 1) (s.link.atLate + 1), txs := [] }) (f := s.pathS.fe)
    (status := 0x17) (result := [6]) h hjob hcal rfl h.rx hrun hc hseq rfl
  exact ⟨_, execAtStart_late h hat hst hlt, hdone, congrArg Link.atLate hlink⟩

theorem rxAfter_ends {c : Cmd} (hjob : s.pathS.job = none) (hcal : s.cal.linkJob = none) (hst : j.stage = .after) (hdue : j.until_ ≤ s.clocks.sc)
    (hc : s.rings.inflight = [c]) (hseq : c.seq = q) : ∃ t, exec .rxAfter s = .next t ∧ EndedWith s c 0x00 (txResult j) t := by
  obtain ⟨hdone, -⟩ := serve_ended (l := { s.link with txs := [] }) (f := s.pathS.fe) (status := 0x00) (result := txResult j) h hjob hcal rfl h.rx hrun
    hc hseq rfl
  exact ⟨_, execRxAfter_over h hst hrun hdue, hdone⟩

end

section
variable {s : State} {j : TxJob} {q : Nat} (h : OneTx s j q) (hst : j.stage = .onAir) (hdown : s.pathS.fe.state = .txRampDown)
  (hlock : s.pathS.synth.locked = true) (htune : tuneOf s 2 = none) (hjob : s.pathS.job = none) (hcal : s.cal.linkJob = none)
include h hst hdown hlock htune hjob hcal

theorem amplifierOff_cut {c : Cmd} (hcut : j.cut = true) (hc : s.rings.inflight = [c]) (hseq : c.seq = q) : ∃ t,
    exec (.transmissionEnd 5) s = .next t ∧ EndedWith s c 0x52 [2] t := by
  obtain ⟨f, hf, hflo, heq⟩ := amplifierOff_eq h hst hdown hlock htune
  rw [if_pos hcut, txEnds_host h _ (by decide)] at heq
  obtain ⟨hdone, -⟩ := serve_ended (l := { s.link with txs := [] }) (f := f) (status := 0x52) (result := [2]) h hjob hcal rfl h.rx hf hc hseq rfl
  exact ⟨_, (transmissionEnd_five hdown).trans (congrArg _ heq), hdone⟩

theorem amplifierOff_sent {c : Cmd} (hcut : j.cut = false) (hafter : j.rxAfterMs = none) (hc : s.rings.inflight = [c]) (hseq : c.seq = q) : ∃ t,
    exec (.transmissionEnd 5) s = .next t ∧ EndedWith s c 0x00 (txResult j) t ∧ t.link.txBlank = s.link.txBlank := by
  obtain ⟨f, hf, hflo, heq⟩ := amplifierOff_eq h hst hdown hlock htune
  rw [if_neg (by rw [hcut]; decide), sentWhole_done h _ hafter] at heq
  obtain ⟨hdone, hlink⟩ := serve_ended (l := { s.link with txs := [] }) (f := f) (status := 0x00) (result := txResult j) h hjob hcal rfl h.rx hf hc hseq rfl
  refine ⟨_, (transmissionEnd_five hdown).trans (congrArg _ heq), hdone, ?_⟩
  rw [hlink]

theorem amplifierOff_window {ms : Nat} (hcut : j.cut = false) (hafter : j.rxAfterMs = some ms) (hlo : s.pathS.fe.loNow = linkLo j.channel) : ∃ t,
    exec (.transmissionEnd 5) s = .next t ∧
      t.link = { s.link with txs := [{ j with stage := .after, until_ := j.endStamp + microsCounts (24 + 1000 * ms) }] } ∧
      t.pathS.fe.state = .run ∧ t = { s with link := t.link, pathS := { s.pathS with fe := t.pathS.fe } } := by
  obtain ⟨f, hf, hflo, heq⟩ := amplifierOff_eq h hst hdown hlock htune
  rw [if_neg (by rw [hcut]; decide), sentWhole_after h _ rfl hafter] at heq
  obtain ⟨g, hg, hserve⟩ := serve_after (s := { s with
      link := { s.link with txs := [{ j with stage := .after, until_ := j.endStamp + microsCounts (24 + 1000 * ms) }] }
      pathS := { s.pathS with fe := f } }) (j := { j with stage := .after, until_ := j.endStamp + microsCounts (24 + 1000 * ms) }) (q := q)
    ⟨h.due, rfl, h.owner, h.rx, h.checks, h.watch⟩ rfl hf (hflo.trans hlo) hjob hcal
  exact ⟨_, (transmissionEnd_five hdown).trans (congrArg _ (heq.trans hserve)), rfl, hg, rfl⟩

end

/-- Settles O46, row by row. -/
theorem transmissionsGoStepByStep : Obligations.TransmissionsGoStepByStep := by
  refine fun s hdue hjob hcal hidle ht0 ht1 ht2 => ⟨fun j q htxs howner hrx hchk hwatch => ?_, fun hair hup htx hdown => ?_,
    fun k hk => execTransmissionEnd_out hk s⟩
  · have h : OneTx s j q := ⟨hdue, htxs, howner, hrx, hchk, hwatch⟩
    refine ⟨fun hst hrun hstop rssi => ⟨execLbtListenEnd_early h hst, fun hdue' => ⟨listen_backsOff h hrun hst hstop hdue',
        fun c hbusy hlast hc hseq => listen_denied h hrun hst hstop hdue' hjob hcal hbusy hlast hc hseq,
        listen_free h hrun hst hstop hdue' ht0 ht1 hidle⟩⟩,
      fun hst hdue' hat => ?_, execLbtBackoff_stands h, fun a hat hst hrun =>
        ⟨fun hle => ⟨_, execAtStart_starts h hat hst hrun hidle hle, goOnAir_at h ht0 ht1 (by simp [txActive, hst]) (some a)⟩,
        fun c hlt hc hseq => atStart_late h hrun hjob hcal hat hst hlt hc hseq⟩,
      execAtStart_none h, fun hst => ⟨fun hrun => ?_, fun hup => ?_, fun htx => ?_, fun c hdown hlock hc hseq hstop =>
        ⟨fun hcut hafter => amplifierOff_sent h hst hdown hlock ht2 hjob hcal hcut hafter hc hseq,
        fun hcut => amplifierOff_cut h hst hdown hlock ht2 hjob hcal hcut hc hseq,
        fun ms hcut hafter hlo => amplifierOff_window h hst hdown hlock ht2 hjob hcal hcut hafter hlo⟩⟩,
      fun hst hrun => ⟨fun c hdue' hc hseq => rxAfter_ends h hrun hjob hcal hst hdue' hc hseq, execRxAfter_early h hst⟩⟩
    · obtain ⟨us, hus, heq⟩ := startListen_spec h (by simp [txActive, hst]) hat
      exact ⟨us, hus, (execLbtBackoff_due h hst hdue').trans (congrArg _ heq)⟩
    · exact ⟨_, transmissionEnd_two h hst hrun, setFe_step (by rw [hrun]; rfl) rfl ht2⟩
    · exact ⟨_, transmissionEnd_three hup, setFe_step (by rw [hup]; rfl) rfl ht2⟩
    · exact ⟨_, transmissionEnd_four htx, setFe_step (by rw [htx]; rfl) rfl ht2⟩
  · rw [transmissionEnd_six hair hup htx hdown hcal]
    refine ⟨fun hb => by rw [hb]; rfl, fun hb => ?_⟩
    obtain ⟨ls, x, y, heq⟩ := endBlank_tx s
    rw [hb, if_pos rfl, heq]
    exact ⟨_, rfl, rfl, rfl⟩

end Sys2Proof.Machine

/-!
PROOFS. The slot commands (O41): SLOT_OPEN and SLOT_CLOSE for a source lane whose engine is no DAB engine.
-/
namespace Sys2Proof.Machine

/-! Fields of a descriptor, byte by byte -/

theorem fieldAt_succ (bs : List Byte) (i k : Nat) : fieldAt bs i (k + 1) = byteAt bs i + 256 * fieldAt bs (i + 1) k := by
  by_cases h : i < bs.length
  · rw [fieldAt, List.drop_eq_getElem_cons h, List.take_succ_cons, leNat, byteAt, getD_of_lt 0 h]
    rfl
  · rw [Nat.not_lt] at h
    simp only [fieldAt, byteAt, List.drop_eq_nil_of_le h, List.drop_eq_nil_of_le (Nat.le_trans h (Nat.le_succ i)), List.take_nil, leNat,
      List.getD_eq_getElem?_getD, List.getElem?_eq_none h, Option.getD_none]
    rfl

theorem parN_succ (c : Cmd) (i k : Nat) : parN c i (k + 1) = par c i + 256 * parN c (i + 1) k := fieldAt_succ _ _ _

@[simp] theorem parN_zero (c : Cmd) (i : Nat) : parN c i 0 = 0 := by simp [parN, fieldAt, leNat]

/-- The upper bytes of a field of four below 2^20. -/
theorem par_of_parN_lt {c : Cmd} {i : Nat} (h : parN c i 4 < 2 ^ 20) : par c (i + 2) < 16 ∧ par c (i + 3) = 0 := by
  simp only [parN_succ, parN_zero, Nat.add_assoc, Nat.reduceAdd] at h
  omega

/-! The checks of SLOT_OPEN (Table 14-1) -/

theorem firstFail_single (x : Option Reply) : firstFail [x] = x := by cases x <;> rfl

/-- The parameters of a SLOT_OPEN of slot `n` that pass every check but the last. -/
structure OpenParams (s : State) (c : Cmd) (n : Nat) : Prop where
  mode : 3 ≤ s.modes.modeNow ∧ s.modes.modeNow ≤ 6
  policy : par c 8 < 64 ∧ bit (par c 8) 3 = false ∧ par c 8 % 4 ≠ 3
  lane : par c 9 < 64
  zeros : par c 19 = 0 ∧ par c 31 = 0
  raw : par c 8 % 4 = 0 → parN c 12 4 ≠ 0 ∧ parN c 12 4 < 2 ^ 20 ∧ (par c 10 = 0xFF → ∀ k, k ≤ 18 → 15 ≤ k → bit (parN c 12 4) k = false)
  issuers : par c 8 % 4 ≠ 0 → parN c 22 2 ≠ 0
  log2 : 8 ≤ par c 27 ∧ par c 27 ≤ 20
  base : parN c 24 3 % 2 ^ par c 27 = 0 ∧ parN c 24 3 + 2 ^ par c 27 ≤ 0x100000
  apart : ∀ e ∈ s.slots.slots, e.1 ≠ n → e.2.isOpen = true →
    parN c 24 3 + 2 ^ par c 27 ≤ e.2.ringBase ∨ e.2.ringBase + 2 ^ e.2.ringLog2 ≤ parN c 24 3

theorem slotMode_mem {s : State} (h : 3 ≤ s.modes.modeNow ∧ s.modes.modeNow ≤ 6) : s.modes.modeNow ∈ slotModes := by
  simp only [slotModes, List.mem_cons, List.not_mem_nil, or_false]
  omega

section
variable {s : State} {c : Cmd} (h : OpenParams s c (cmdIdx c))
include h

theorem OpenParams.raw_stream : (par c 8 % 4 == 0 && [15, 16, 17, 18].any (bit (parN c 12 4)) && par c 10 == 0xFF) = false := by
  refine Bool.eq_false_iff.mpr fun hne => ?_
  simp only [Bool.and_eq_true, beq_iff_eq] at hne
  obtain ⟨⟨hraw, hany⟩, hstream⟩ := hne
  obtain ⟨-, -, hbits⟩ := h.raw hraw
  simp [hbits hstream] at hany

theorem OpenParams.noOverlap :
    (s.slots.slots.any fun e => e.1 != cmdIdx c && e.2.isOpen && ringsMeet (parN c 24 3) (par c 27) e.2) = false := by
  simp only [List.any_eq_false, Bool.and_eq_true, bne_iff_ne, not_and, ringsMeet, runsMeet, ringSize, decide_eq_true_eq]
  rintro e he ⟨hne, hopen⟩ hlt
  have := of_decide_eq_true hlt
  have := h.apart e he hne hopen
  omega

theorem checkSlotOpen_eq (hn : Names c 5) (hh : HeaderOk c) : checkSlotOpen s c = needState (!(slotOf s (cmdIdx c)).isOpen) 1 := by
  have hmask : par c 8 % 4 = 0 → par c 14 < 16 ∧ par c 15 = 0 := fun hraw => par_of_parN_lt (h.raw hraw).2.1
  simp only [checkSlotOpen, List.cons_append, checks_rest (kinds := [5]) hn rfl hh]
  rw [h.raw_stream, h.noOverlap, needMode_eq_none.mpr (slotMode_mem h.mode)]
  obtain ⟨hpolicy, hbit, hthree⟩ := h.policy
  obtain ⟨hlow, hhigh⟩ := h.log2
  obtain ⟨halign, hend⟩ := h.base
  have h12 : (par c 8 % 4 != 0 || parN c 12 4 != 0) = true := by simpa [Decidable.or_iff_not_imp_left] using fun hr => (h.raw hr).1
  have h14 : (par c 8 % 4 != 0 || decide (par c 14 < 16)) = true := by simpa [Decidable.or_iff_not_imp_left] using fun hr => (hmask hr).1
  have h15 : (par c 8 % 4 != 0 || par c 15 == 0) = true := by simpa [Decidable.or_iff_not_imp_left] using fun hr => (hmask hr).2
  have h22 : (par c 8 % 4 == 0 || parN c 22 2 != 0) = true := by simpa [Decidable.or_iff_not_imp_left] using h.issuers
  have h8 : (par c 8 % 4 != 3 && decide (par c 8 < 64) && !bit (par c 8) 3) = true := by simp [hthree, hpolicy, hbit]
  simp [h8, h12, h14, h15, h22, h.lane, h.zeros, halign, hend, hlow, hhigh, needField, failUnless_true, firstFail_single]

end

/-! The two commands -/

theorem admitOn_other {lane : Nat} {s : State} (h : (laneOf s lane).cur.engKind ≠ 3) : admitOn lane s = s := by
  simp [admitOn, h]

theorem execSlotOpen_open {s : State} {seq : Nat} {c : Cmd} (hr : MayRun s seq 0x20 c) (hn : Names c 5) (h : OpenParams s c (cmdIdx c))
    (hopen : (slotOf s (cmdIdx c)).isOpen = true) : exec (.slotOpen seq) s = .next (complete seq 0x17 [1] s) := by
  refine congrArg Host.Outcome.next (startCmd_fails (r := (0x17, [1])) runSlotOpen hr.1 ?_)
  rw [checkSlotOpen_eq h hn hr.2, hopen]
  rfl

theorem execSlotOpen_closed {s : State} {seq : Nat} {c : Cmd} (hr : MayRun s seq 0x20 c) (hn : Names c 5) (h : OpenParams s c (cmdIdx c))
    (hclosed : (slotOf s (cmdIdx c)).isOpen = false) (hkind : (laneOf s (par c 9)).cur.engKind ≠ 3) : exec (.slotOpen seq) s = .next (
      complete seq 0x00 [lowByte (holdCode (laneOf s (par c 9)).hold), lowByte (laneOf s (par c 9)).cur.engKind]
        (modSlot (runs s seq) (cmdIdx c) (openedSlot (runs s seq) c))) := by
  refine congrArg Host.Outcome.next ((startCmd_runs runSlotOpen hr.1 ?_).trans ?_)
  · rw [checkSlotOpen_eq h hn hr.2, hclosed]
    rfl
  · rw [runSlotOpen, admitOn_other (by exact hkind), seq_of_mayRun hr]
    rfl

theorem execSlotClose_runs {s : State} {seq : Nat} {c : Cmd} (hr : MayRun s seq 0x21 c) (hn : Names c 5)
    (hmode : 3 ≤ s.modes.modeNow ∧ s.modes.modeNow ≤ 6) (hz : ZeroBytes c 8 31) :
    exec (.slotClose seq) s = .next (runSlotClose (runs s seq) c) := by
  refine congrArg Host.Outcome.next (startCmd_runs runSlotClose hr.1 ?_)
  simp only [checkSlotClose, List.cons_append, List.append_assoc]
  refine checks_pass hn rfl hr.2 (List.forall_mem_append.mpr ⟨needZeros_none hz, ?_⟩)
  simpa using slotMode_mem hmode

/-- What a SLOT_CLOSE leaves of the slots: its own is closed, and of a closed one nothing changes (R319). -/
theorem runSlotClose_spec {s : State} {c : Cmd} (hkind : (laneOf s (slotOf s (cmdIdx c)).srcLane).cur.engKind ≠ 3) : ∃ u,
    runSlotClose s c = complete c.seq 0x00 (leBytes (slotOf s (cmdIdx c)).prod 4 ++ leBytes (slotOf s (cmdIdx c)).rseqNext 4) u ∧
      (slotOf u (cmdIdx c)).isOpen = false ∧ (∀ k, k ≠ cmdIdx c → slotOf u k = slotOf s k) ∧ u = { s with slots := u.slots } ∧
      ((slotOf s (cmdIdx c)).isOpen = false → u = s) := by
  by_cases hopen : (slotOf s (cmdIdx c)).isOpen = true
  · refine ⟨dropUnnamed (modSlot s (cmdIdx c) fun x => { x with isOpen := false, suspended := false }), ?_, ?_, fun k hk => ?_, rfl, fun h => ?_⟩
    · rw [runSlotClose, if_pos hopen, admitOn_other (by exact hkind)]
    · simp [slotOf, dropUnnamed, modSlot, tabMod]
    · simp [slotOf, dropUnnamed, modSlot, tabMod, tabGet_tabSet_ne _ _ _ hk]
    · rw [hopen] at h
      cases h
  · exact ⟨s, by rw [runSlotClose, if_neg hopen], by simpa using hopen, fun _ _ => rfl, rfl, fun _ => rfl⟩

/-- Settles O41. -/
theorem slotCommandsOpenAndClose : Obligations.SlotCommandsOpenAndClose := by
  rintro s seq c n hn rfl hm3 hm6
  refine ⟨fun hr h8 hbit hthree h9 h19 h31 hraw hiss hlow hhigh halign hend hapart => ?_, fun hr hz hkind => ?_⟩
  · have h : OpenParams s c (cmdIdx c) := ⟨⟨hm3, hm6⟩, ⟨h8, hbit, hthree⟩, h9, ⟨h19, h31⟩, hraw, hiss, ⟨hlow, hhigh⟩, ⟨halign, hend⟩, hapart⟩
    exact ⟨execSlotOpen_open hr hn h, fun hclosed hkind => execSlotOpen_closed hr hn h hclosed hkind⟩
  · obtain ⟨u, hu, hrest⟩ := runSlotClose_spec (s := runs s seq) (c := c) hkind
    exact ⟨u, by rw [execSlotClose_runs hr hn ⟨hm3, hm6⟩ hz, hu, seq_of_mayRun hr]; rfl, hrest⟩

end Sys2Proof.Machine

/-!
PROOFS. The start of a tasting (O39), with what binding a lane leaves of the others (R214, R301).
-/
namespace Sys2Proof.Machine

/-! Binding a lane (R214) -/

/-- A bound lane holds the set given as its first pending generation, and no other lane changes. -/
theorem bindLane_spec (n : Nat) (hold : Hold) (p : Nat) (set : LaneSet) (s : State) :
    (laneOf (bindLane n hold p set s) n).hold = hold ∧ (laneOf (bindLane n hold p set s) n).path = p ∧
      (laneOf (bindLane n hold p set s) n).running = modeRuns s n ∧ (laneOf (bindLane n hold p set s) n).genPending = 1 ∧
      (laneOf (bindLane n hold p set s) n).pending = some set ∧ (∀ k, k ≠ n → laneOf (bindLane n hold p set s) k = laneOf s k) ∧
      bindLane n hold p set s = { s with lanes := (bindLane n hold p set s).lanes, fresh := (bindLane n hold p set s).fresh } := by
  have h := laneOf_setLane_same (s := (drawAny (draw (2 ^ 32) s).2).2) (n := n)
  exact ⟨congrArg Lane.hold (h _), congrArg Lane.path (h _), congrArg Lane.running (h _), congrArg Lane.genPending (h _),
    congrArg Lane.pending (h _), fun k hk => laneOf_setLane_ne _ _ hk, rfl⟩

theorem modeRuns_follow {s : State} (h : s.modes.modeNow = 4 ∨ s.modes.modeNow = 5) (n : Nat) : modeRuns s n = true := by
  rcases h with h | h <;> simp [modeRuns, modeNow, h]

/-! The row (R301) -/

section
variable {s : State} {e : Nat} (hready : s.power.phase = .ready) (hmode : s.modes.modeNow = 4 ∨ s.modes.modeNow = 5)
  (hvalid : (followOf s e).valid = true) (hlane : followable s (followOf s e).lane = true)
  (hkind : (laneOf s (followOf s e).lane).cur.engKind = (followOf s e).kind) (hroom : tastingsOf s e < (followOf s e).perFollow)
  (hmax : s.taste.tastings.length < s.taste.maxTaste) (hjob : (pathOf s (laneOf s (followOf s e).lane).path).job = none)
include hready hmode hvalid hlane hkind hroom hmax hjob

theorem execTastingStart_eq : exec (.tastingStart e) s =
    match nextCandidate s e, borrowable s (followOf s e).kind with
    | some (i, hz), some (n, idx) => .next (beginTasting e n idx i hz s)
    | _, _ => .next s := by
  have hmode' : modeNow s = 4 ∨ modeNow s = 5 := hmode
  have hcond : (ready s && [4, 5].contains (modeNow s) && (followOf s e).valid && followable s (followOf s e).lane &&
      (laneOf s (followOf s e).lane).cur.engKind == (followOf s e).kind && decide (tastingsOf s e < (followOf s e).perFollow) &&
      decide (s.taste.tastings.length < s.taste.maxTaste) && pathFree s (laneOf s (followOf s e).lane).path) = true := by
    simp [ready, hready, hmode', hvalid, hlane, hkind, hroom, hmax, pathFree, hjob]
  simp only [exec, execTastingStart, hcond, if_true] <;> rfl

end

theorem beginTasting_follow (s : State) (e n idx i hz : Nat) :
    (followOf (beginTasting e n idx i hz s) e).nextCand = (i + 1) % (candidateList s (followOf s e)).length := by
  simp [beginTasting, followOf, modFollow, tabMod]

/-- Settles O39. -/
theorem tastingsStart : Obligations.TastingsStart := by
  intro s e i hz m idx hready hmode f hvalid hlane hkind hroom hmax hjob
  have hexec := execTastingStart_eq hready hmode hvalid hlane hkind hroom hmax hjob
  refine ⟨fun hnone => by rw [hexec, hnone], fun hcand hborrow => ⟨beginTasting e m idx i hz s, ?_, ?_⟩⟩
  · rw [hexec, hcand, show borrowable s (followOf s e).kind = some (m, idx) from hborrow]
  obtain ⟨hhold, hpath, hrun, hgen, hpending, hother, hframe⟩ := bindLane_spec m .tasting (laneOf s f.lane).path
    { freqHz := hz, rate := (laneOf s f.lane).cur.rate, preset := (laneOf s f.lane).cur.preset, blockLen := (laneOf s f.lane).cur.blockLen,
      detSrc := (laneOf s f.lane).cur.detSrc, engKind := f.kind, engIndex := idx, params := tasteParams s f (laneOf s f.lane).cur } s
  exact ⟨rfl, rfl, beginTasting_follow s e m idx i hz, hhold, hpath, hrun.trans (modeRuns_follow hmode m), hgen, ⟨_, hpending, rfl, rfl, rfl⟩,
    hother, rfl⟩

end Sys2Proof.Machine

/-!
PROOFS. How a cellar write that a starting command issues begins, or ends with CELLAR_FULL (R87, R426, R429), for the commands of O49, O54 and O56.
-/
namespace Sys2Proof.Machine

/-! The place in the order of writes (R87) -/

/-- The first command whose write waits is the one that has issued it, where no write before it is incomplete. -/
theorem dueCmd_first {cs : List Cmd} {seq : Nat} {c : Cmd} {w : DueWrite} (hfind : (cs.find? fun d => d.seq == seq) = some c) (hdue : c.due = some w)
    (hnone : ∀ d ∈ earlier cs seq, d.due = none) : ∀ before, noEarlierWrite (before ++ earlier cs seq) = true → dueCmd before cs = some (c, w) := by
  induction cs with
  | nil => cases hfind
  | cons d ds ih =>
    intro before hwrite
    by_cases hd : d.seq = seq
    · simp only [List.find?_cons_of_pos (p := fun d : Cmd => d.seq == seq) (beq_iff_eq.mpr hd), Option.some.injEq] at hfind
      subst hfind
      simp only [earlier, if_pos hd, List.append_nil] at hwrite
      simp only [dueCmd, hdue, hwrite, if_true]
    · rw [List.find?_cons_of_neg (p := fun d : Cmd => d.seq == seq) (by simpa using hd)] at hfind
      simp only [earlier, if_neg hd, List.forall_mem_cons] at hnone hwrite
      simp only [dueCmd, hnone.1]
      exact ih hfind hnone.2 _ (by simpa using hwrite)

/-- Changing a command leaves those before it. -/
theorem earlier_modCmd (s : State) (seq : Nat) (f : Cmd → Cmd) : earlier (modCmd s seq f).rings.inflight seq = earlier s.rings.inflight seq := by
  simp only [modCmd]
  induction s.rings.inflight with
  | nil => rfl
  | cons d ds ih =>
    by_cases hd : d.seq = seq
    · simp [earlier, hd]
    · simp only [List.map_cons, if_neg hd, earlier, ih]

theorem findCmd_modCmd (s : State) (seq : Nat) (f : Cmd → Cmd) :
    findCmd (modCmd s seq f) seq = (findCmd s seq).map fun c => { f c with seq := seq } := by
  have hp : ((fun c : Cmd => c.seq == seq) ∘ fun d : Cmd => if d.seq = seq then { f d with seq := seq } else d) = fun c => c.seq == seq := by
    funext d
    by_cases hd : d.seq = seq <;> simp [hd]
  rw [findCmd, modCmd, List.find?_map, hp, findCmd]
  cases hc : s.rings.inflight.find? fun c => c.seq == seq with
  | none => rfl
  | some c => simp [show c.seq = seq by simpa using List.find?_some hc]

theorem findCmd_modCmd_some {s : State} {seq : Nat} {c : Cmd} (h : findCmd s seq = some c) (f : Cmd → Cmd) :
    findCmd (modCmd s seq f) seq = some { f c with seq := seq } := by rw [findCmd_modCmd, h, Option.map_some]

theorem modCmd_of_none {s : State} {seq : Nat} (h : findCmd s seq = none) (f : Cmd → Cmd) : modCmd s seq f = s := by
  have hmap : (s.rings.inflight.map fun d => if d.seq = seq then { f d with seq := seq } else d) = s.rings.inflight := by
    refine (List.map_congr_left (g := id) fun d hd => if_neg ?_).trans (List.map_id _)
    simpa using List.find?_eq_none.mp h d hd
  rw [modCmd, hmap]

theorem earlier_mem {cs : List Cmd} {seq : Nat} {d : Cmd} (h : d ∈ earlier cs seq) : d ∈ cs := by
  induction cs with
  | nil => cases h
  | cons e es ih =>
    rw [earlier] at h
    split at h
    · cases h
    · exact (List.mem_cons.mp h).elim (fun he => he ▸ List.mem_cons_self) fun he => List.mem_cons_of_mem _ (ih he)

/-- No cellar write is in flight before a command that is due to write (R87). -/
def MayWrite (s : State) (seq : Nat) : Prop := (∃ c, findCmd s seq = some c) ∧ noEarlierWrite (earlier s.rings.inflight seq) = true

theorem MayWrite.of_startable {s : State} {seq op : Nat} {c : Cmd} (h : startable s seq op = some c)
    (hop : [0x50, 0x52, 0x53, 0x55, 0x56, 0x51, 0x54].contains op = true) : MayWrite s seq := by
  obtain ⟨hfind, -, hop', hmay⟩ := startable_spec h
  have hwaits : waitsForWrites c = true := by simp only [waitsForWrites, hop', hop, Bool.true_or]
  have hne : (op == 0x02) = false := by
    refine Bool.eq_false_iff.mpr fun hne => ?_
    rw [beq_iff_eq] at hne
    rw [hne] at hop
    exact absurd hop (by decide)
  simp only [mayStart, hop', hne, Bool.false_or, Bool.and_eq_true, writesDone, hwaits, Bool.not_true] at hmay
  exact ⟨⟨c, hfind⟩, hmay.2.2⟩

theorem MayWrite.runs {s : State} {seq : Nat} (h : MayWrite s seq) : MayWrite (runs s seq) seq := by
  obtain ⟨⟨c, hc⟩, hw⟩ := h
  exact ⟨⟨_, findCmd_modCmd_some hc _⟩, by rw [Machine.runs, setPhase, earlier_modCmd, hw]⟩

section
variable {s : State} {seq : Nat} (h : MayWrite s seq) (hdue : NoneDue s) (key : Nat) (tomb : Bool) (payload : List Byte)
include h hdue

/-- The write that a command issues is the one whose place in the order has come. -/
theorem dueCmd_issueWrite : ∃ c, c.seq = seq ∧
    dueCmd [] (issueWrite s seq key tomb payload).rings.inflight = some (c, { key := key, tomb := tomb, payload := payload }) := by
  obtain ⟨⟨c, hc⟩, hw⟩ := h
  refine ⟨_, rfl, dueCmd_first (findCmd_modCmd_some hc _) rfl (fun d hd => ?_) [] ?_⟩
  · rw [earlier_modCmd] at hd
    exact hdue d (earlier_mem hd)
  · rwa [earlier_modCmd]

/-- What starting the due writes does where the issued one leaves none waiting. -/
theorem startDue_issueWrite
    (hnone : NoneDue (startWrite (issueWrite s seq key tomb payload) seq { key := key, tomb := tomb, payload := payload })) :
    startDue (issueWrite s seq key tomb payload) =
      startWrite (issueWrite s seq key tomb payload) seq { key := key, tomb := tomb, payload := payload } := by
  obtain ⟨c, hseq, hcmd⟩ := dueCmd_issueWrite h hdue key tomb payload
  have hlen : ∃ n, (issueWrite s seq key tomb payload).rings.inflight.length = n + 1 := by
    cases hcs : (issueWrite s seq key tomb payload).rings.inflight with
    | nil => rw [hcs] at hcmd; cases hcmd
    | cons d ds => exact ⟨_, rfl⟩
  obtain ⟨n, hn⟩ := hlen
  rw [startDue, hn, startDueN, hcmd]
  simp only [hseq]
  exact startDueN_none hnone n

end

/-! A write with room begins (R426) -/

theorem modCmd_issueWrite {s : State} (hdue : NoneDue s) (seq key : Nat) (tomb : Bool) (payload : List Byte) :
    modCmd (issueWrite s seq key tomb payload) seq (fun d => { d with due := none }) = s := by
  have hmap : (issueWrite s seq key tomb payload).rings.inflight.map (fun d => if d.seq = seq then { d with due := none, seq := seq } else d) =
      s.rings.inflight := by
    rw [issueWrite, modCmd, List.map_map]
    refine (List.map_congr_left (g := id) fun d hd => ?_).trans (List.map_id _)
    have hd' := hdue d hd
    by_cases hseq : d.seq = seq
    · subst hseq
      simp only [Function.comp_apply, if_true, id_eq]
      rw [← hd']
    · simp only [Function.comp_apply, if_neg hseq, id_eq]
  rw [modCmd, hmap]
  rfl

/-- Taking room at a head that has it leaves every record (R429). -/
theorem place_fits {l : Log} {size : Nat} (h : headFits l size = true) (keyArea : Bool) : ∃ m sec off,
    place keyArea l size = some (m, sec, off) ∧ m.recs = l.recs := by
  have hlast : ∃ k, l.ring.getLast? = some k := by
    cases hk : l.ring.getLast? with
    | none => simp [headFits, hk] at h
    | some k => exact ⟨k, rfl⟩
  obtain ⟨k, hk⟩ := hlast
  exact ⟨modSector l k fun x => { x with fill := x.fill + size }, k, (sectorOf l k).fill, by simp only [place, h, if_true, hk], rfl⟩

/-- What the header operation of a record write leaves of the cellar. -/
theorem beginRec_fits {c : Cellar} {keyArea : Bool} {key : Nat} {payload : List Byte} (h : headFits (logOf c keyArea) (recSize payload.length) = true)
    (seq : Option Nat) (version : Nat) (tomb retried : Bool) : ∃ d, beginRec c seq keyArea key version tomb payload retried = some d ∧
      (∃ w, d.write = some w ∧ w.seq = seq ∧ w.keyArea = keyArea ∧ w.retried = retried ∧ w.rec_.key = key ∧ w.rec_.tomb = tomb ∧
        w.rec_.payload = payload ∧ w.rec_.stage = .torn ∧ w.rec_.version = version) ∧
      d.recLog.recs = c.recLog.recs ∧ d.keyLog.recs = c.keyLog.recs ∧ d = { c with recLog := d.recLog, keyLog := d.keyLog, write := d.write } := by
  obtain ⟨m, sec, off, hplace, hrecs⟩ := place_fits h keyArea
  simp only [beginRec, hplace]
  refine ⟨_, rfl, ⟨_, rfl, rfl, rfl, rfl, rfl, rfl, rfl, rfl, rfl⟩, ?_⟩
  cases keyArea with
  | false => exact ⟨hrecs, rfl, rfl⟩
  | true => exact ⟨rfl, hrecs, rfl⟩

/-- A record's write begins where the cellar has room for it (R426). -/
theorem startDue_begins {s : State} {seq key : Nat} {payload : List Byte} (h : MayWrite s seq) (hdue : NoneDue s)
    (hroom : RoomFor s.cellar key payload.length) (tomb : Bool) : ∃ t, startDue (issueWrite s seq key tomb payload) = t ∧
      t = { s with cellar := t.cellar } ∧ WriteBegun s.cellar t.cellar seq key tomb payload := by
  obtain ⟨hreclaim, hfull, hfits, hfree⟩ := hroom
  obtain ⟨d, hbegin, hbegun⟩ := beginRec_fits (key := key) hfits (some seq) (nextVersion (logOf s.cellar (0x8000 ≤ key)) key) tomb false
  have hneed : needsRoom (0x8000 ≤ key) (logOf s.cellar (0x8000 ≤ key)) (recSize payload.length) = false := by
    simp only [needsRoom, hfits, if_true, Nat.sub_zero, decide_eq_false_iff_not, Nat.not_lt, hfree]
  have hstart : startWrite (issueWrite s seq key tomb payload) seq { key := key, tomb := tomb, payload := payload } = { s with cellar := d } := by
    have hcellar : (issueWrite s seq key tomb payload).cellar = s.cellar := rfl
    simp only [startWrite, hcellar, hreclaim, hfull, hneed, hbegin, modCmd_issueWrite hdue, Option.isSome_none, Bool.false_eq_true, if_false]
  refine ⟨{ s with cellar := d }, ?_, rfl, hbegun⟩
  rw [startDue_issueWrite h hdue, hstart]
  rw [hstart]
  exact hdue

/-! A write without room (R429) -/

/-- A command that leaves flight takes with it what it was made to wait for, in a ring whose commands stand in order. -/
theorem eraseP_modCmd (seq : Nat) (f : Cmd → Cmd) : ∀ {cs : List Cmd}, (cs.map (·.seq)).Pairwise (· < ·) →
    ((cs.map fun d => if d.seq = seq then { f d with seq := seq } else d).eraseP fun d => d.seq == seq) = cs.eraseP fun d => d.seq == seq
  | [], _ => rfl
  | d :: ds, hp => by
    simp only [List.map_cons, List.pairwise_cons, List.mem_map, forall_exists_index, and_imp, forall_apply_eq_imp_iff₂] at hp
    by_cases hd : d.seq = seq
    · have hlater : ∀ e ∈ ds, e.seq ≠ seq := fun e he => Nat.ne_of_gt (hd ▸ hp.1 e he)
      rw [List.map_cons, if_pos hd, List.eraseP_cons_of_pos (p := fun d : Cmd => d.seq == seq) (beq_self_eq_true seq),
        List.eraseP_cons_of_pos (p := fun d : Cmd => d.seq == seq) (beq_iff_eq.mpr hd)]
      exact (List.map_congr_left fun e he => if_neg (hlater e he)).trans (List.map_id _)
    · have hd' : ¬ (d.seq == seq) = true := by simpa using hd
      rw [List.map_cons, if_neg hd, List.eraseP_cons_of_neg (p := fun d : Cmd => d.seq == seq) hd',
        List.eraseP_cons_of_neg (p := fun d : Cmd => d.seq == seq) hd', eraseP_modCmd seq f hp.2]

theorem touchRow_withRings (s : State) (r : Rings) (a : Nat) : touchRow { s with rings := r } a = { touchRow s a with rings := r } := by
  unfold touchRow
  cases scrubPlace a with
  | none => rfl
  | some k =>
    by_cases h : (decide (k < s.scrub.next) || s.scrub.early.contains k) = true
    · simp only [h, if_true]
    · simp only [h]
      rfl

theorem devPuts_withRings (s : State) (r : Rings) (a : Nat) (bs : List Byte) : devPuts { s with rings := r } a bs = { devPuts s a bs with rings := r } := by
  have htouch : touchRows { s with rings := r } a bs.length = { touchRows s a bs.length with rings := r } := by
    unfold touchRows
    induction List.range (if bs.length = 0 then 0 else (a + bs.length - 1) / 256 + 1 - a / 256) generalizing s with
    | nil => rfl
    | cons k ks ih => rw [List.foldl_cons, touchRow_withRings, ih, List.foldl_cons]
  rw [devPuts, htouch]
  rfl

/-- What a completion posts does not depend on the write that its command had waiting. -/
theorem complete_issueWrite {s : State} (hp : (s.rings.inflight.map (·.seq)).Pairwise (· < ·)) (seq key : Nat) (tomb : Bool)
    (payload : List Byte) (status : Nat) (result : List Byte) :
    complete seq status result (issueWrite s seq key tomb payload) = complete seq status result s := by
  cases hfind : findCmd s seq with
  | none => rw [issueWrite, modCmd_of_none hfind]
  | some c =>
    have hseq : c.seq = seq := by simpa using List.find?_some hfind
    have herase := eraseP_modCmd seq (fun c => { c with due := some { key := key, tomb := tomb, payload := payload } }) hp
    have hpost : post (issueWrite s seq key tomb payload) { c with due := some { key := key, tomb := tomb, payload := payload }, seq := seq } status result =
        post s c status result := by
      subst hseq
      simp only [post, issueWrite, modCmd, devPuts_withRings, devPuts_rings, herase]
      rfl
    have hissue : findCmd (issueWrite s seq key tomb payload) seq = _ := findCmd_modCmd_some hfind _
    simp only [complete, hissue, hfind]
    exact congrArg sweep hpost

end Sys2Proof.Machine

/-!
PROOFS. PROTECT_SET and UNLOCK (O56).
-/
namespace Sys2Proof.Machine

theorem runs_order {s : State} (h : IssueOrder s.rings) (seq : Nat) : ((runs s seq).rings.inflight.map (·.seq)).Pairwise (· < ·) := by
  have hmap : (runs s seq).rings.inflight.map (·.seq) = s.rings.inflight.map (·.seq) := by
    rw [runs, setPhase, modCmd, List.map_map]
    refine List.map_congr_left fun d _ => ?_
    by_cases hd : d.seq = seq <;> simp [hd]
  rw [hmap]
  exact h.1

/-- Without room the write ends with CELLAR_FULL, as if it had not been issued (R429). -/
theorem startDue_full {s : State} {seq key : Nat} {tomb : Bool} {payload : List Byte} (h : MayWrite s seq) (hdue : NoneDue s)
    (hp : (s.rings.inflight.map (·.seq)).Pairwise (· < ·)) (hreclaim : s.cellar.reclaim = none)
    (hfull : cellarFull s.cellar (0x8000 ≤ key) key payload.length = true) :
    startDue (issueWrite s seq key tomb payload) = complete seq 0x32 [] s := by
  have hstart : startWrite (issueWrite s seq key tomb payload) seq { key := key, tomb := tomb, payload := payload } = complete seq 0x32 [] s := by
    have hcellar : (issueWrite s seq key tomb payload).cellar = s.cellar := rfl
    simp only [startWrite, hcellar, hreclaim, hfull, Option.isSome_none, Bool.false_eq_true, if_false, if_true, complete_issueWrite hp]
  rw [startDue_issueWrite h hdue, hstart]
  rw [hstart]
  exact complete_noneDue hdue _ _ _

/-! The rows of the cellar's writes: what the command does, then the writes whose place has come -/

section
variable {s : State} {seq op : Nat} {c : Cmd} {i : Instr} {check : State → Cmd → Option Reply} {run : State → Cmd → State}
  (hexec : exec i s = .next (startDue (startCmd s seq op check run))) (hr : startable s seq op = some c) (hdue : NoneDue s)
include hexec hr hdue

theorem exec_startDue_fails {r : Reply} (hc : check s c = some r) : exec i s = .next (complete seq r.1 r.2 s) := by
  rw [hexec, startCmd_fails run hr hc, startDue_none (complete_noneDue hdue _ _ _)]

omit hdue in
theorem exec_startDue_runs (hc : check s c = none) : exec i s = .next (startDue (run (runs s seq) c)) := by
  rw [hexec, startCmd_runs run hr hc]

/-- A record write that begins as its command starts (R426). -/
theorem exec_begins {key : Nat} {tomb : Bool} {payload : List Byte} (hop : [0x50, 0x52, 0x53, 0x55, 0x56, 0x51, 0x54].contains op = true)
    (hc : check s c = none) (hrun : run (runs s seq) c = issueWrite (runs s seq) c.seq key tomb payload) (hroom : RoomFor s.cellar key payload.length) :
    ∃ t, exec i s = .next t ∧ t = { runs s seq with cellar := t.cellar } ∧ WriteBegun s.cellar t.cellar seq key tomb payload := by
  obtain ⟨t, ht, hframe, hbegun⟩ := startDue_begins (s := runs s seq) (MayWrite.of_startable hr hop).runs (runs_noneDue hdue seq)
    (payload := payload) hroom tomb
  refine ⟨t, ?_, hframe, hbegun⟩
  rw [exec_startDue_runs hexec hr hc, hrun, startable_seq hr, ht]

end

/-! PROTECT_SET (R441) -/

theorem firstFail_append_none {xs : List (Option Reply)} (h : ∀ x ∈ xs, x = none) (ys : List (Option Reply)) :
    firstFail (xs ++ ys) = firstFail ys := by
  induction xs with
  | nil => rfl
  | cons x xs ih =>
    obtain ⟨hx, hxs⟩ := List.forall_mem_cons.mp h
    rw [List.cons_append, hx, firstFail_none, ih hxs]

theorem checkProtectSet_eq {c : Cmd} (hn : Names c 11) (hh : HeaderOk c) (h8 : par c 8 < 4) (h2 : cmdIdx c = 2 → par c 8 = 0 ∨ par c 8 = 3)
    (h9 : par c 9 < 2) (hz : ZeroBytes c 10 31) (s : State) :
    checkProtectSet s c = needAccess (!locked s.cellar (cmdIdx c) 1) (refuse (cmdIdx c) 2) := by
  have hfrac : (decide (par c 8 < 4) && !(cmdIdx c == 2 && (par c 8 == 1 || par c 8 == 2))) = true := by
    by_cases hk : cmdIdx c = 2
    · rcases h2 hk with h | h <;> simp [h]
    · simp [h8, hk]
  simp only [checkProtectSet, List.cons_append, List.append_assoc, checks_rest (kinds := [11]) hn rfl hh]
  rw [hfrac, decide_eq_true h9, List.nil_append, needField_eq_none.mpr rfl, needField_eq_none.mpr rfl, firstFail_none, firstFail_none,
    firstFail_append_none (needZeros_none hz), firstFail_single]

/-- FRACTION of each region in the record of key 0x4001, with the one set (Table 19-6). -/
theorem fractions_set (f : Nat → Nat) (r v : Nat) (hr : r < 3) :
    (if 0 = r then v else f 0) * 4 ^ 0 + (if 1 = r then v else f 1) * 4 ^ 1 + (if 2 = r then v else f 2) * 4 ^ 2 =
      (if r = 0 then v else f 0) + 4 * (if r = 1 then v else f 1) + 16 * (if r = 2 then v else f 2) := by
  match r, hr with
  | 0, _ => simp; omega
  | 1, _ => simp; omega
  | 2, _ => simp; omega

/-! UNLOCK (R440) -/

theorem execUnlock_runs {s : State} {seq : Nat} {c : Cmd} (hr : MayRun s seq 0x57 c) (hn : Names c 11) (h8 : par c 8 < 2) (hz : ZeroBytes c 17 31) :
    exec (.unlock seq) s = .next (runUnlock (runs s seq) c) := by
  refine congrArg Host.Outcome.next (startCmd_runs runUnlock hr.1 ?_)
  simp only [checkUnlock, List.cons_append, List.append_assoc]
  refine checks_pass hn rfl hr.2 ?_
  simpa [h8] using needZeros_none hz

/-- A relocked region is locked for both accesses again. -/
theorem relock_unlocked (c : Cellar) {r : Nat} (hr : r < 3) :
    (relock c r).unlocked.getLsbD (2 * r) = false ∧ (relock c r).unlocked.getLsbD (2 * r + 1) = false := by
  match r, hr with
  | 0, _ => simp [relock]
  | 1, _ => simp [relock]
  | 2, _ => simp [relock]

/-- Settles O56. -/
theorem protectionCommandsLockAndUnlock : Obligations.ProtectionCommandsLockAndUnlock := by
  intro s seq c hclear hn r
  obtain ⟨-, hdue⟩ := hclear
  have hr3 : r < 3 := hn.2
  refine ⟨fun hr h8 h2 h9 hz => ⟨fun hlock => ?_, fun hlock hroom => ?_⟩, fun hr h8 hz => ⟨fun hnone => ?_, fun v pw hpw => ⟨fun heq => ?_, fun hne hwf => ?_⟩⟩⟩
  · have hcheck : checkProtectSet s c = some (0x30, [lowByte r, 2]) := by
      rw [checkProtectSet_eq hn hr.2 h8 h2 h9 hz, hlock]
      rfl
    exact exec_startDue_fails (i := .protectSet seq) rfl hr.1 hdue hcheck
  · have hcheck : checkProtectSet s c = none := by
      rw [checkProtectSet_eq hn hr.2 h8 h2 h9 hz, hlock]
      rfl
    refine exec_begins (i := .protectSet seq) rfl hr.1 hdue rfl hcheck ?_ hroom
    rw [runProtectSet]
    exact congrArg (fun n => issueWrite (runs s seq) c.seq 0x4001 false [lowByte n]) (fractions_set (fraction s.cellar) r (par c 8) hr3)
  all_goals rw [execUnlock_runs hr hn h8 hz, runUnlock, seq_of_mayRun hr]
  · rw [show keyContent (runs s seq).cellar _ = none from hnone]
  · rw [show keyContent (runs s seq).cellar _ = some (v, pw) from hpw]
    exact congrArg Host.Outcome.next (if_pos (beq_iff_eq.mpr heq))
  · rw [show keyContent (runs s seq).cellar _ = some (v, pw) from hpw]
    obtain ⟨hread, hwrite⟩ := relock_unlocked s.cellar hr3
    have hcount : min (2 ^ 32 - 1) (shadowGet s.cellar (0x1C44 + 4 * r) 4 + 1) % 256 ^ 4 =
        min (2 ^ 32 - 1) (shadowGet s.cellar (0x1C44 + 4 * r) 4 + 1) := Nat.mod_eq_of_lt (by omega)
    exact ⟨_, congrArg Host.Outcome.next (if_neg (by simpa using hne)),
      (shadowGet_shadowSet (c := relock s.cellar r) hwf _ _ _).trans hcount, hread, hwrite, rfl⟩

end Sys2Proof.Machine

/-!
PROOFS. CELLAR_PUT, CELLAR_GET and CELLAR_ERASE_KEY of a host key (O54).
-/
namespace Sys2Proof.Machine

theorem recordArea_rest {c : Cmd} (hobj : cmdObj c = 0xB000) (hh : HeaderOk c) (rest : List (Option Reply)) :
    firstFail (needRecordArea c :: (needHeader c ++ rest)) = firstFail rest := by
  rw [recordArea_first.2 c hobj, firstFail_none, firstFail_needHeader hh]

section
variable {s : State} {c : Cmd} (hobj : cmdObj c = 0xB000) (hh : HeaderOk c) (hkey : keyClass (parN c 8 2) = .host)
include hkey

theorem hostKey_named : (keyClass (parN c 8 2) != .none) = true ∧ (keyClass (parN c 8 2) == .issuer) = false := by
  rw [hkey]
  exact ⟨rfl, rfl⟩

include hobj hh

theorem checkCellarPut_eq (h1 : 1 ≤ parN c 10 2) (h1024 : parN c 10 2 ≤ 1024) (hin : inScratch (parN c 12 3) (parN c 10 2) = true)
    (hz : ZeroBytes c 15 31) : checkCellarPut s c = needKeyWrite s (parN c 8 2) := by
  simp only [checkCellarPut, List.cons_append, List.append_assoc, recordArea_rest hobj hh, List.nil_append]
  obtain ⟨hnamed, hissuer⟩ := hostKey_named hkey
  simp [hnamed, hissuer, h1, h1024, hin, needField, failUnless_true, firstFail_append_none (needZeros_none hz), firstFail_single]

theorem checkCellarGet_eq (h1024 : parN c 10 2 ≤ 1024) (hin : inScratch (parN c 12 3) (parN c 10 2) = true) (hz : ZeroBytes c 15 31) :
    checkCellarGet s c = needKeyRead s (parN c 8 2) := by
  simp only [checkCellarGet, List.cons_append, List.append_assoc, recordArea_rest hobj hh, List.nil_append]
  obtain ⟨hnamed, hissuer⟩ := hostKey_named hkey
  simp [hnamed, h1024, hin, needField, failUnless_true, firstFail_append_none (needZeros_none hz), firstFail_single]

theorem checkCellarEraseKey_eq (hz : ZeroBytes c 10 31) : checkCellarEraseKey s c = needKeyWrite s (parN c 8 2) := by
  simp only [checkCellarEraseKey, List.cons_append, List.append_assoc, recordArea_rest hobj hh, List.nil_append]
  obtain ⟨hnamed, hissuer⟩ := hostKey_named hkey
  simp [hnamed, needField, failUnless_true, firstFail_append_none (needZeros_none hz), firstFail_single]

end

/-- A host key is kept in the record area (Table 19-2). -/
theorem hostKey_area {key : Nat} (h : keyClass key = .host) : decide (0x8000 ≤ key) = false := by
  rw [decide_eq_false_iff_not]
  intro hle
  have hlt : ¬ key < 0x4000 := by omega
  rw [keyClass, if_neg hlt] at h
  repeat' split at h
  all_goals cases h

/-! Access to a host key (R438, R439) -/

section
variable {s : State} {key : Nat} (hkey : keyClass key = .host)
include hkey

theorem needKeyWrite_fraction (h : key < protectedBelow false (fraction s.cellar 0)) : needKeyWrite s key = some (0x30, [0, 1]) := by
  simp only [needKeyWrite, hkey, needAccess, decide_eq_false (Nat.not_le.mpr h), failUnless_false, firstFail_some] <;> rfl

theorem needKeyWrite_open (h : protectedBelow false (fraction s.cellar 0) ≤ key) :
    needKeyWrite s key = if locked s.cellar 0 1 then some (0x30, [0, 2]) else none := by
  simp only [needKeyWrite, hkey, needAccess, decide_eq_true h, failUnless_true, firstFail_none, firstFail_single]
  cases locked s.cellar 0 1 <;> rfl

theorem needKeyRead_host : needKeyRead s key = if locked s.cellar 0 0 then some (0x30, [0, 2]) else none := by
  simp only [needKeyRead, hkey, needAccess]
  cases locked s.cellar 0 0 <;> rfl

end

/-! CELLAR_GET (R428) -/

theorem runCellarGet_absent {s : State} {c : Cmd} (h : keyContent s.cellar (parN c 8 2) = none) : runCellarGet s c = complete c.seq 0x01 [] s := by
  simp only [runCellarGet, h]

theorem runCellarGet_content {s : State} {c : Cmd} {v : Nat} {b : List Byte} (hkey : keyClass (parN c 8 2) = .host)
    (h : keyContent s.cellar (parN c 8 2) = some (v, b)) : runCellarGet s c =
      complete c.seq 0x00 (leBytes v 4 ++ leBytes b.length 2 ++ leBytes (min (parN c 10 2) b.length) 2)
        (devPuts s (parN c 12 3) (b.take (parN c 10 2))) := by
  simp only [runCellarGet, h, hkey]
  rw [if_neg (by decide), List.length_take]

/-- A write of a host key that holds content begins its tombstone (R427). -/
theorem runCellarEraseKey_present {s : State} {c : Cmd} (h : keyContent s.cellar (parN c 8 2) ≠ none) :
    runCellarEraseKey s c = issueWrite s c.seq (parN c 8 2) true [] := by
  obtain ⟨x, hx⟩ := Option.ne_none_iff_exists'.mp h
  simp only [runCellarEraseKey, hx]

theorem runCellarEraseKey_absent {s : State} {c : Cmd} (h : keyContent s.cellar (parN c 8 2) = none) :
    runCellarEraseKey s c = complete c.seq 0x01 [] s := by
  simp only [runCellarEraseKey, h]

/-- The bytes read from memory are as many as asked for. -/
theorem length_memGets (s : State) (a n : Nat) : (memGets s a n).length = n := by
  rw [memGets, cellGets_eq_map, List.length_map, List.length_range]

/-- Settles O54. -/
theorem recordCommandsReadAndWrite : Obligations.RecordCommandsReadAndWrite := by
  rintro s seq c ⟨horder, hdue⟩ hobj key rfl hkey len src
  refine ⟨fun hr h1 h1024 hin hz => ?put, fun hr h1024 hin hz => ?get, fun hr hz hlt => ?_, fun hr hz hle hlock => ?_, fun hr hz hle hlock => ?erase⟩
  case put =>
    have hcheck := checkCellarPut_eq (s := s) hobj hr.2 hkey h1 h1024 hin hz
    refine ⟨fun hlt => exec_startDue_fails (i := .cellarPut seq) rfl hr.1 hdue (hcheck.trans (needKeyWrite_fraction hkey hlt)),
      fun hle hlock => ?_, fun hle hlock => ⟨fun hrec hfull => ?_, fun hroom => ?_⟩⟩
    all_goals rw [needKeyWrite_open hkey hle, hlock] at hcheck
    · exact exec_startDue_fails (i := .cellarPut seq) rfl hr.1 hdue hcheck
    · rw [exec_startDue_runs (i := .cellarPut seq) rfl hr.1 hcheck, runCellarPut, seq_of_mayRun hr]
      refine congrArg Host.Outcome.next (startDue_full (MayWrite.of_startable hr.1 rfl).runs (runs_noneDue hdue seq) (runs_order horder seq) hrec ?_)
      rw [length_memGets, hostKey_area hkey]
      exact hfull
    · exact exec_begins (i := .cellarPut seq) rfl hr.1 hdue rfl hcheck rfl (by rw [length_memGets]; exact hroom)
  case get =>
    have hcheck := (checkCellarGet_eq (s := s) hobj hr.2 hkey h1024 hin hz).trans (needKeyRead_host hkey)
    refine ⟨fun hlock => ?_, fun hlock hnone => ?_, fun v b hlock hsome => ?_⟩
    all_goals rw [hlock] at hcheck
    · exact congrArg Host.Outcome.next (startCmd_fails runCellarGet hr.1 hcheck)
    · refine congrArg Host.Outcome.next ((startCmd_runs runCellarGet hr.1 hcheck).trans ?_)
      rw [runCellarGet_absent (s := runs s seq) hnone, seq_of_mayRun hr]
    · refine ⟨devPuts (runs s seq) src (b.take len), congrArg Host.Outcome.next ((startCmd_runs runCellarGet hr.1 hcheck).trans ?_),
        devPuts_mem (runs s seq) src _, devPuts_frame (runs s seq) src _⟩
      rw [runCellarGet_content (s := runs s seq) hkey hsome, seq_of_mayRun hr]
  case erase =>
    have hcheck := checkCellarEraseKey_eq (s := s) hobj hr.2 hkey hz
    rw [needKeyWrite_open hkey hle, hlock] at hcheck
    refine ⟨fun hnone => ?_, fun hsome hroom => exec_begins (i := .cellarEraseKey seq) rfl hr.1 hdue rfl hcheck (runCellarEraseKey_present (s := runs s seq) hsome) hroom⟩
    rw [exec_startDue_runs (i := .cellarEraseKey seq) rfl hr.1 hcheck, runCellarEraseKey_absent (s := runs s seq) hnone, seq_of_mayRun hr,
      startDue_none (complete_noneDue (runs_noneDue hdue seq) _ _ _)]
  · exact exec_startDue_fails (i := .cellarEraseKey seq) rfl hr.1 hdue
      ((checkCellarEraseKey_eq hobj hr.2 hkey hz).trans (needKeyWrite_fraction hkey hlt))
  · refine exec_startDue_fails (i := .cellarEraseKey seq) rfl hr.1 hdue (r := (0x30, [0, 2])) ?_
    rw [checkCellarEraseKey_eq hobj hr.2 hkey hz, needKeyWrite_open hkey hle, hlock]
    rfl

end Sys2Proof.Machine

/-!
PROOFS. SHADOW_WRITE, SHADOW_READ and SHADOW_STORE (O55).
-/
namespace Sys2Proof.Machine

theorem shadowArray_rest {c : Cmd} (hobj : cmdObj c = 0xB001) (hh : HeaderOk c) (rest : List (Option Reply)) :
    firstFail (needShadowArray c :: (needHeader c ++ rest)) = firstFail rest := by
  rw [shadowArray_first.2 c hobj, firstFail_none, firstFail_needHeader hh]

/-! Bytes put one by one at given addresses -/

section
variable (m : List Host.Cell) (f : Nat → Nat) (g : Nat → Byte)

theorem wf_scatter (h : Memory.wf m = true) (n : Nat) :
    Memory.wf ((List.range n).foldl (fun m i => cellPut m (f i) (g i)) m) = true := by
  induction n with
  | zero => exact h
  | succ n ih =>
    rw [List.range_succ, List.foldl_append]
    exact Memory.wf_cellPut ih _ _

theorem cellGet_scatter_other {a : Nat} (n : Nat) (ha : ∀ i, i < n → a ≠ f i) :
    cellGet ((List.range n).foldl (fun m i => cellPut m (f i) (g i)) m) a = cellGet m a := by
  induction n with
  | zero => rfl
  | succ n ih =>
    rw [List.range_succ, List.foldl_append]
    exact (cellGet_cellPut_ne _ _ (ha n (Nat.lt_succ_self n))).trans (ih fun i hi => ha i (Nat.lt_succ_of_lt hi))

/-- Each byte is read where it was put, when no two go to one address. -/
theorem cellGet_scatter (h : Memory.wf m = true) {n i : Nat} (hinj : ∀ i j, i < j → j < n → f i ≠ f j) (hi : i < n) :
    cellGet ((List.range n).foldl (fun m i => cellPut m (f i) (g i)) m) (f i) = g i := by
  induction n with
  | zero => cases hi
  | succ n ih =>
    rw [List.range_succ, List.foldl_append]
    rcases Nat.lt_succ_iff_lt_or_eq.mp hi with hlt | rfl
    · exact (cellGet_cellPut_ne _ _ (hinj i n hlt (Nat.lt_succ_self n))).trans (ih (fun i j hij hj => hinj i j hij (Nat.lt_succ_of_lt hj)) hlt)
    · exact cellGet_cellPut_same _ _ (wf_scatter m f g h i)

end

/-! The addresses of a transfer (R433) -/

/-- MODE of a transfer: SPAN where bit 0 of byte 15 is set. -/
theorem bit_zero_of_lt_two {n : Nat} (h : n < 2) : bit n 0 = decide (n = 1) := by
  match n, h with
  | 0, _ => rfl
  | 1, _ => rfl

/-- No two bytes of a transfer go to one address: straight on, or up to 64 inside a page. -/
theorem shadowAddr_inj {span : Bool} {addr len : Nat} (h64 : span = false → len ≤ 64) :
    ∀ i j, i < j → j < len → shadowAddr span addr i ≠ shadowAddr span addr j := by
  intro i j hij hj
  cases span with
  | true => simp only [shadowAddr, if_true]; omega
  | false =>
    have := h64 rfl
    simp only [shadowAddr, Bool.false_eq_true, if_false]
    omega

theorem shadowTouches_eq_false {span : Bool} {addr len below : Nat} (h : ∀ i, i < len → below ≤ shadowAddr span addr i) :
    shadowTouches span addr len below = false := by
  simpa [shadowTouches] using h

/-- The pages of a transfer begin with that of its address. -/
theorem shadowPages_pos {span : Bool} {addr len : Nat} (h1 : 1 ≤ len) : 1 ≤ shadowPages span addr len := by
  cases span with
  | true => simp only [shadowPages, if_true]; omega
  | false => exact Nat.le_refl 1

/-! The checks -/

section
variable {s : State} {c : Cmd} (hobj : cmdObj c = 0xB001) (hh : HeaderOk c) (h15 : par c 15 < 2) (hz : ZeroBytes c 16 31)
  (hin : inScratch (parN c 12 3) (parN c 10 2) = true) (h1 : 1 ≤ parN c 10 2) (h64 : bit (par c 15) 0 = false → parN c 10 2 ≤ 64)
include h15 hz hin h1 h64

theorem needShadowRange_none {top maxLen : Nat} (haddr : parN c 8 2 < top) (hlen : parN c 10 2 ≤ maxLen)
    (hend : bit (par c 15) 0 = true → parN c 8 2 + parN c 10 2 ≤ top) : ∀ x ∈ needShadowRange c top maxLen, x = none := by
  have hrange : (if bit (par c 15) 0 = true then decide (parN c 8 2 + parN c 10 2 ≤ top) else decide (parN c 10 2 ≤ 64)) = true := by
    split
    · next hspan => exact decide_eq_true (hend hspan)
    · next hwrap => exact decide_eq_true (h64 (by simpa using hwrap))
  simp only [needShadowRange, List.cons_append, List.nil_append, List.forall_mem_cons, needField_eq_none, haddr, h1, hlen, hrange, hin, h15,
    decide_true, Bool.and_self, true_and]
  exact needZeros_none hz

include hobj hh

theorem checkShadowWrite_none (haddr : parN c 8 2 < 0x1400) (hlen : parN c 10 2 ≤ 5120)
    (hend : bit (par c 15) 0 = true → parN c 8 2 + parN c 10 2 ≤ 0x1400)
    (hprot : ∀ i, i < parN c 10 2 → protectedBelow true (fraction s.cellar 1) ≤ shadowAddr (bit (par c 15) 0) (parN c 8 2) i)
    (hlock : locked s.cellar 1 1 = false) : checkShadowWrite s c = none := by
  simp only [checkShadowWrite, List.cons_append, List.append_assoc, shadowArray_rest hobj hh, shadowTouches_eq_false hprot, hlock]
  rw [firstFail_append_none (needShadowRange_none h15 hz hin h1 h64 haddr hlen hend)]
  rfl

theorem checkShadowRead_none (haddr : parN c 8 2 < 0x2000) (hlen : parN c 10 2 ≤ 8192)
    (hend : bit (par c 15) 0 = true → parN c 8 2 + parN c 10 2 ≤ 0x2000) (hlock : locked s.cellar 1 0 = false) : checkShadowRead s c = none := by
  simp only [checkShadowRead, List.cons_append, List.append_assoc, shadowArray_rest hobj hh, hlock, Bool.and_false]
  rw [firstFail_append_none (needShadowRange_none h15 hz hin h1 h64 haddr hlen hend)]
  rfl

end

/-! SHADOW_WRITE (R433) -/

theorem runShadowWrite_eq {s : State} {c : Cmd} : ∃ w, runShadowWrite s c = complete c.seq 0x00 (shadowResult c) { s with cellar := { s.cellar with
    shadow := (List.range (parN c 10 2)).foldl (fun m i => cellPut m (shadowAddr (bit (par c 15) 0) (parN c 8 2) i)
      ((memGets s (parN c 12 3) (parN c 10 2)).getD i 0)) s.cellar.shadow
    written := w
    dirty := true } } := ⟨_, rfl⟩

/-! SHADOW_READ (R434) -/

/-- A read of an array never written is ABSENT; one whose first page was written is OK; its bytes are delivered either way. -/
theorem runShadowRead_spec {s : State} {c : Cmd} (h1 : 1 ≤ parN c 10 2) : ∃ u,
    u = devPuts s (parN c 12 3) ((List.range (parN c 10 2)).map fun i => cellGet s.cellar.shadow (shadowAddr (bit (par c 15) 0) (parN c 8 2) i)) ∧
      (s.cellar.written = 0 → runShadowRead s c = complete c.seq 0x01 [] u) ∧
      (s.cellar.written.getLsbD (parN c 8 2 / 64) = true → runShadowRead s c = complete c.seq 0x00 (shadowResult c) u) := by
  have hcellar : ∀ bs, (devPuts s (parN c 12 3) bs).cellar = s.cellar := fun bs => by rw [devPuts_frame]
  refine ⟨_, rfl, fun hw => ?_, fun hw => ?_⟩
  · simp only [runShadowRead, hcellar, hw]
    rw [if_neg (by simp)]
  · simp only [runShadowRead, hcellar]
    rw [if_pos]
    exact List.any_eq_true.mpr ⟨parN c 8 2 / 64, List.mem_map.mpr ⟨0, List.mem_range.mpr (shadowPages_pos h1), rfl⟩, hw⟩

/-! SHADOW_STORE (R435) -/

theorem checkShadowStore_none {c : Cmd} (hobj : cmdObj c = 0xB001) (hh : HeaderOk c) (hz : ZeroBytes c 8 31) (s : State) :
    checkShadowStore s c = none := by
  simp only [checkShadowStore, List.cons_append, shadowArray_rest hobj hh]
  exact firstFail_eq_none.mpr (needZeros_none hz)

/-- The bank that a store erases: the older valid one, or A with neither (R435). -/
def storeBank (c : Cellar) : Bool := c.bankA.valid && (!c.bankB.valid || decide (c.bankB.seq ≤ c.bankA.seq))

theorem storeBank_of_none {c : Cellar} (h : newerBank c = none) : storeBank c = false := by
  unfold newerBank at h
  unfold storeBank
  cases hA : c.bankA.valid
  · rfl
  · cases hB : c.bankB.valid <;> simp [hA, hB] at h

theorem storeBank_of_some {c : Cellar} {b : Bool} (h : newerBank c = some b) : storeBank c = !b := by
  unfold newerBank at h
  unfold storeBank
  cases hA : c.bankA.valid with
  | false => cases hB : c.bankB.valid with
    | false => simp [hA, hB] at h
    | true =>
      simp only [hA, hB, Option.some.injEq] at h
      subst h
      rfl
  | true => cases hB : c.bankB.valid with
    | false =>
      simp only [hA, hB, Option.some.injEq] at h
      subst h
      rfl
    | true =>
      simp only [hA, hB, Option.some.injEq] at h
      subst h
      simp only [Bool.true_and, Bool.not_true, Bool.false_or, ← decide_not, Nat.not_lt]

theorem newerSeq_eq_max (c : Cellar) :
    newerSeq c = max (if c.bankA.valid then c.bankA.seq else 0) (if c.bankB.valid then c.bankB.seq else 0) := by
  unfold newerSeq newerBank bankOf
  cases c.bankA.valid <;> cases c.bankB.valid <;> simp
  split <;> omega

/-- What a store that begins leaves of the cellar: the array taken, the chosen bank invalid and the other as it was. -/
def StoreBegun (c d : Cellar) (seq : Nat) : Prop :=
  ∃ k, d.store = some k ∧ k.seq = some seq ∧ k.opsLeft = 131 ∧ k.data = d.shadow ∧ k.written = d.written ∧ d.dirty = false ∧
    k.bankB = storeBank c ∧ k.newSeq = newerSeq c + 1 ∧ (bankOf d k.bankB).valid = false ∧ bankOf d (!k.bankB) = bankOf c (!k.bankB)

theorem beginStore_begun (c : Cellar) (seq : Nat) : StoreBegun c (beginStore c (some seq)) seq := by
  have hnewer : newerBank { shadowSet c 0x1C58 4 (bump 4 (shadowGet c 0x1C58 4) 1) with dirty := c.dirty } = newerBank c := rfl
  cases hb : newerBank c with
  | none =>
    simp only [beginStore, hnewer, hb]
    exact ⟨_, rfl, rfl, rfl, rfl, rfl, rfl, (storeBank_of_none hb).symm, rfl, rfl, rfl⟩
  | some b =>
    simp only [beginStore, hnewer, hb]
    cases b <;> exact ⟨_, rfl, rfl, rfl, rfl, rfl, rfl, (storeBank_of_some hb).symm, rfl, rfl, rfl⟩

/-- A store changes the cellar alone. -/
theorem execShadowStore_begins {s : State} {seq : Nat} {c : Cmd} (hr : MayRun s seq 0x55 c) (hdue : NoneDue s) (hobj : cmdObj c = 0xB001)
    (hz : ZeroBytes c 8 31) (hdirty : s.cellar.dirty = true) :
    exec (.shadowStore seq) s = .next { runs s seq with cellar := beginStore s.cellar (some seq) } := by
  rw [exec_startDue_runs (i := .shadowStore seq) rfl hr.1 (checkShadowStore_none hobj hr.2 hz s), runShadowStore, if_pos (by exact hdirty),
    seq_of_mayRun hr]
  exact congrArg Host.Outcome.next (startDue_none (runs_noneDue hdue seq))

theorem execShadowStore_clean {s : State} {seq : Nat} {c : Cmd} (hr : MayRun s seq 0x55 c) (hdue : NoneDue s) (hobj : cmdObj c = 0xB001)
    (hz : ZeroBytes c 8 31) (hdirty : s.cellar.dirty = false) :
    exec (.shadowStore seq) s = .next (complete seq 0x00 (leBytes (newerSeq s.cellar) 4 ++ [0xFF, 0x01]) (runs s seq)) := by
  have hdirty' : ¬ (runs s seq).cellar.dirty = true := by rw [show (runs s seq).cellar.dirty = false from hdirty]; decide
  rw [exec_startDue_runs (i := .shadowStore seq) rfl hr.1 (checkShadowStore_none hobj hr.2 hz s), runShadowStore, if_neg hdirty', seq_of_mayRun hr]
  exact congrArg Host.Outcome.next (startDue_none (complete_noneDue (runs_noneDue hdue seq) _ _ _))

/-- Settles O55. -/
theorem shadowCommandsReadAndWrite : Obligations.ShadowCommandsReadAndWrite := by
  rintro s seq c ⟨-, hdue⟩ hobj addr len ptr spot pages
  refine ⟨fun h15 hz hin h1 h64 => ?_, fun hr hz => ⟨execShadowStore_clean hr hdue hobj hz, fun hdirty => ?_⟩⟩
  · have hspan : bit (par c 15) 0 = decide (par c 15 = 1) := bit_zero_of_lt_two h15
    have hone : bit (par c 15) 0 = true → par c 15 = 1 := fun h => of_decide_eq_true (hspan ▸ h)
    have hwrap : bit (par c 15) 0 = false → len ≤ 64 := fun h => h64 (by
      have : ¬ par c 15 = 1 := of_decide_eq_false (hspan ▸ h)
      omega)
    have hspot : ∀ i, shadowAddr (bit (par c 15) 0) (parN c 8 2) i = spot i := fun i => by simp [shadowAddr, hspan, spot, addr]
    have hpages : shadowPages (bit (par c 15) 0) addr len = pages := by simp [shadowPages, hspan, pages]
    have hresult : shadowResult c = leBytes (spot len) 2 ++ [lowByte pages] := by rw [← hspot, ← hpages]; rfl
    refine ⟨fun hr haddr hlen hend hprot hlock hwf => ?_, fun hr haddr hlen hend hlock => ?_⟩
    · have hcheck : checkShadowWrite s c = none := checkShadowWrite_none hobj hr.2 h15 hz hin h1 hwrap haddr hlen (fun h => hend (hone h))
        (fun i hi => Nat.le_trans (hprot i hi) (Nat.le_of_eq (hspot i).symm)) hlock
      have hinj := shadowAddr_inj (span := bit (par c 15) 0) (addr := parN c 8 2) hwrap
      simp only [hspot] at hinj
      obtain ⟨w, hrun⟩ := runShadowWrite_eq (s := runs s seq) (c := c)
      simp only [hspot, hresult, seq_of_mayRun hr] at hrun
      refine ⟨{ runs s seq with cellar := { s.cellar with
          shadow := (List.range len).foldl (fun m i => cellPut m (spot i) ((memGets s ptr len).getD i 0)) s.cellar.shadow
          written := w
          dirty := true } }, ?_, fun i hi => ?_, fun a ha => cellGet_scatter_other s.cellar.shadow spot (fun i => (memGets s ptr len).getD i 0) len ha, rfl, rfl⟩
      · rw [exec_startDue_runs (i := .shadowWrite seq) rfl hr.1 hcheck, hrun, startDue_none (complete_noneDue (by exact runs_noneDue hdue seq) _ _ _)]
        rfl
      · refine (cellGet_scatter s.cellar.shadow spot (fun i => (memGets s ptr len).getD i 0) hwf hinj hi).trans ?_
        rw [memGets, cellGets_eq_map]
        simp [hi, memGet]
    · have hcheck : checkShadowRead s c = none := checkShadowRead_none hobj hr.2 h15 hz hin h1 hwrap haddr hlen (fun h => hend (hone h)) hlock
      obtain ⟨u, hu, habsent, hok⟩ := runShadowRead_spec (s := runs s seq) (c := c) h1
      simp only [hspot, hresult, seq_of_mayRun hr] at hu habsent hok
      have hexec : exec (.shadowRead seq) s = .next (runShadowRead (runs s seq) c) := congrArg Host.Outcome.next (startCmd_runs runShadowRead hr.1 hcheck)
      refine ⟨u, ?_, ?_, fun hw => hexec.trans (congrArg _ (habsent hw)), fun hw => hexec.trans (congrArg _ (hok hw))⟩
      · rw [hu, devPuts_mem]
        rfl
      · rw [hu]
        exact devPuts_frame (runs s seq) _ _
  · obtain ⟨k, hstore, hseq, hops, hdata, hwritten, hclean, hbank, hnew, hinvalid, hother⟩ := beginStore_begun s.cellar seq
    exact ⟨_, k, execShadowStore_begins hr hdue hobj hz hdirty, hstore, hseq, hops, hdata, hwritten, hclean, hbank,
      hnew.trans (congrArg (· + 1) (newerSeq_eq_max s.cellar)), hinvalid, hother, rfl⟩

end Sys2Proof.Machine

/-!
PROOFS. The ends of flash operations (O57): a record write operation by operation, a shadow store, and the erase of a reclaim.
-/
namespace Sys2Proof.Machine

/-! What a key holds (R426, R427) -/

@[simp] theorem logOf_setLog_same (c : Cellar) (a : Bool) (l : Log) : logOf (setLog c a l) a = l := by cases a <;> rfl

theorem logOf_setLog_other {a b : Bool} (h : b ≠ a) (c : Cellar) (l : Log) : logOf (setLog c a l) b = logOf c b := by
  cases a <;> cases b <;> first | rfl | exact absurd rfl h

theorem setLog_factory (c : Cellar) (a : Bool) (l : Log) : (setLog c a l).factory = c.factory := by cases a <;> rfl

/-- What a key holds depends on the factory items and the key's live record alone. -/
theorem keyContent_congr {c d : Cellar} {k : Nat} (hfactory : c.factory = d.factory)
    (hlive : liveRec (logOf c (0x8000 ≤ k)) k = liveRec (logOf d (0x8000 ≤ k)) k) : keyContent c k = keyContent d k := by
  simp only [keyContent, hfactory, hlive]

theorem keyContent_of_live {c : Cellar} {k : Nat} {r : Rec} (hk : k < 0xF000) (h : liveRec (logOf c (0x8000 ≤ k)) k = some r) :
    keyContent c k = if r.tomb then none else some (r.version, r.payload) := by
  simp only [keyContent, if_neg (Nat.not_le.mpr hk), h]

/-- A committed record is the live one of its key. -/
theorem liveRec_commitRec_same (l : Log) {r : Rec} (h : r.superseded = false) : liveRec (commitRec l r) r.key = some { r with stage := .committed } := by
  have hlive : (r.key == r.key && recLive { r with stage := .committed }) = true := by simp [recLive, h]
  simp only [liveRec, commitRec, List.filter_append]
  rw [List.filter_cons_of_pos (p := fun x : Rec => x.key == r.key && recLive x) hlive]
  simp

/-- Committing a record leaves the live record of every other key. -/
theorem liveRec_commitRec_other (l : Log) {r : Rec} {k : Nat} (h : k ≠ r.key) : liveRec (commitRec l r) k = liveRec l k := by
  have hnew : (r.key == k && recLive { r with stage := .committed }) = false := by simp [Ne.symm h]
  have hold : ((l.recs.map fun o => if o.key == r.key && recLive o then { o with superseded := true } else o).filter
      fun x => x.key == k && recLive x) = l.recs.filter fun x => x.key == k && recLive x := by
    induction l.recs with
    | nil => rfl
    | cons o os ih =>
      by_cases ho : o.key = r.key
      · have hne : o.key ≠ k := fun hok => h (hok.symm.trans ho)
        have hneg : ∀ x : Rec, x.key = o.key → ¬ (x.key == k && recLive x) = true := fun x hx => by simp [hx, hne]
        rw [List.map_cons, List.filter_cons_of_neg (p := fun x : Rec => x.key == k && recLive x) (hneg _ (by split <;> rfl)),
          List.filter_cons_of_neg (p := fun x : Rec => x.key == k && recLive x) (hneg o rfl), ih]
      · rw [List.map_cons, if_neg (by simp [ho]), List.filter_cons, List.filter_cons, ih]
  simp only [liveRec, commitRec, List.filter_append, hold]
  rw [List.filter_cons_of_neg (by simpa using hnew)]
  simp

/-- Freeing a sector without live records leaves the live record of every key. -/
theorem liveRec_freeOldest {l : Log} {o : Nat} {rest : List Nat} (hring : l.ring = o :: rest) (hdead : ∀ x ∈ l.recs, recLive x = true → x.sector ≠ o)
    (ok : Bool) (k : Nat) : liveRec (freeOldest ok l) k = liveRec l k := by
  simp only [liveRec, freeOldest, hring, modSector, List.filter_filter]
  refine congrArg List.getLast? (List.filter_congr fun x hx => ?_)
  cases hl : recLive x with
  | false => simp
  | true => simp [hdead x hx hl]

/-! A record write (R426, R430) -/

section
variable {s : State} {w : Write} (hw : s.cellar.write = some w)
include hw

theorem execFlashOperationEnd_write (ok : Bool) : exec (.flashOperationEnd ok) s = .next (writeStep ok w s) := by
  simp only [exec, execFlashOperationEnd, hw]

/-- An operation that more follow. -/
theorem execFlashOperationEnd_goes {st : RecStage} {left : Nat} (h : writeGood s.cellar w =
      ({ s.cellar with write := some { w with rec_ := { w.rec_ with stage := st }, opsLeft := left } }, .more)) :
    exec (.flashOperationEnd true) s = .next { s with
      cellar := { s.cellar with write := some { w with rec_ := { w.rec_ with stage := st }, opsLeft := left } } } := by
  simp only [execFlashOperationEnd_write hw, writeStep, if_true, h]

end

/-- The record made the live one of its key, the write at its end (R426 step 4 and 5). -/
def committedCellar (c : Cellar) (w : Write) : Cellar := { setLog c w.keyArea (commitRec (logOf c w.keyArea) w.rec_) with write := none }

theorem logOf_committed (c : Cellar) (w : Write) : logOf (committedCellar c w) w.keyArea = commitRec (logOf c w.keyArea) w.rec_ :=
  logOf_setLog_same _ _ _

section
variable {c : Cellar} {w : Write} (harea : w.keyArea = decide (0x8000 ≤ w.rec_.key)) (hsup : w.rec_.superseded = false) (hkey : w.rec_.key < 0xF000)
include harea hsup hkey

theorem keyContent_committed_same : keyContent (committedCellar c w) w.rec_.key =
    if w.rec_.tomb then none else some (w.rec_.version, w.rec_.payload) := by
  refine keyContent_of_live (r := { w.rec_ with stage := .committed }) hkey ?_
  rw [← harea, logOf_committed]
  exact liveRec_commitRec_same _ hsup

omit harea hsup hkey

theorem keyContent_committed_other {k : Nat} (hk : k ≠ w.rec_.key) : keyContent (committedCellar c w) k = keyContent c k := by
  refine keyContent_congr (setLog_factory _ _ _) ?_
  by_cases ha : decide (0x8000 ≤ k) = w.keyArea
  · rw [ha, logOf_committed]
    exact liveRec_commitRec_other _ hk
  · exact congrArg (liveRec · k) (logOf_setLog_other ha c _)

end

/-- The last operation of a record write: SUPERSEDED, or COMMITTED of a key with no live record. -/
theorem writeGood_finish {c : Cellar} {w : Write}
    (h : w.rec_.stage = .committed ∨ (w.rec_.stage = .crc ∧ liveRec (logOf c w.keyArea) w.rec_.key = none)) :
    writeGood c w = (committedCellar c w, .done w) := by
  rcases h with hst | ⟨hst, hlive⟩
  · simp only [writeGood, hst] <;> rfl
  · simp only [writeGood, hst, hlive] <;> rfl

theorem freeSectors_committed (c : Cellar) (w : Write) :
    freeSectors w.keyArea (logOf (committedCellar c w) w.keyArea) = freeSectors w.keyArea (logOf c w.keyArea) := by
  rw [logOf_committed]
  rfl

section
variable {s : State} {w : Write} {q : Nat} (hw : s.cellar.write = some w) (hdue : NoneDue s) (hq : w.seq = some q)
include hw hdue hq

/-- The last operation completes the command that the write serves. -/
theorem execFlashOperationEnd_served {c : Cmd} {status : Nat} {result : List Byte}
    (hlast : w.rec_.stage = .committed ∨ (w.rec_.stage = .crc ∧ liveRec (logOf s.cellar w.keyArea) w.rec_.key = none))
    (hserved : writeServed q w { s with cellar := committedCellar s.cellar w } =
      complete c.seq status result { s with cellar := committedCellar s.cellar w }) (hc : findCmd s q = some c) :
    exec (.flashOperationEnd true) s = .next (complete q status result { s with cellar := committedCellar s.cellar w }) := by
  have hseq : c.seq = q := findCmd_seq hc
  rw [execFlashOperationEnd_write hw, writeStep, if_pos rfl, writeGood_finish hlast]
  simp only [hq, hserved, hseq]
  exact congrArg _ (startDue_none (complete_noneDue (by exact hdue) _ _ _))

/-- A second mismatch ends the write, with its sector closed (R430). -/
theorem execFlashOperationEnd_failed (hretried : w.retried = true) : ∃ u,
    exec (.flashOperationEnd false) s = .next (complete q 0x33 [lowByte w.rec_.sector] u) ∧ u.cellar.write = none ∧
      u.cellar.cellarFaults = min 65535 (s.cellar.cellarFaults + 1) ∧ (sectorOf (logOf u.cellar w.keyArea) w.rec_.sector).closed = true ∧
      u = { s with cellar := u.cellar } := by
  rw [execFlashOperationEnd_write hw]
  simp only [writeStep, Bool.false_eq_true, if_false, writeBad, hretried, if_true, hq]
  refine ⟨_, congrArg _ (startDue_none (complete_noneDue (by exact hdue) _ _ _)), rfl, ?_, ?_, rfl⟩
  · cases w.keyArea <;> rfl
  · cases w.keyArea <;> simp [logOf, setLog, sectorOf, modSector, tabMod]

end

/-! A store (R435) -/

theorem execFlashOperationEnd_store {s : State} {k : Store} (hw : s.cellar.write = none) (hr : s.cellar.reclaim = none) (hk : s.cellar.store = some k)
    (ok : Bool) : exec (.flashOperationEnd ok) s = .next (storeStep ok k s) := by
  simp only [exec, execFlashOperationEnd, hw, hr, hk]

theorem storeStep_goes {s : State} {k : Store} (h : 1 < k.opsLeft) :
    storeStep true k s = { s with cellar := { s.cellar with store := some { k with opsLeft := k.opsLeft - 1 } } } := by
  simp only [storeStep, if_true, if_neg (Nat.not_le.mpr h)]

theorem storeStep_ends {s : State} {k : Store} {q : Nat} (hdue : NoneDue s) (hready : s.power.phase = .ready) (hq : k.seq = some q) (h : k.opsLeft ≤ 1) :
    storeStep true k s =
      complete q 0x00 (leBytes k.newSeq 4 ++ [lowByte (flagNat k.bankB), 0]) { s with cellar := endStore s.cellar k } := by
  have hphase : (s.power.phase == .decanting) = false := by rw [hready]; rfl
  simp only [storeStep, if_true, if_pos h, storeServed, hphase, hq, Bool.false_eq_true, if_false]
  exact startDue_none (complete_noneDue (by exact hdue) _ _ _)

theorem endStore_banks (c : Cellar) (k : Store) :
    bankOf (endStore c k) k.bankB = { valid := true, seq := k.newSeq, data := k.data, written := k.written, erases := k.erases } ∧
      bankOf (endStore c k) (!k.bankB) = bankOf c (!k.bankB) := by
  cases hb : k.bankB <;> simp [endStore, setBank, bankOf, hb]

/-! A reclaim (R429) -/

/-- Neither log has its reclaim begin here: too many free sectors, nothing older than the head, or another operation under way. -/
theorem execReclaim_stands {s : State} {a : Bool} {area : Nat} (harea : (area == 1) = a)
    (h : 4 < freeSectors a (logOf s.cellar a) ∨ (logOf s.cellar a).ring.length < 2 ∨ s.cellar.write ≠ none ∨ s.cellar.reclaim ≠ none ∨
      s.power.phase ≠ .ready) : exec (.reclaim area) s = .next s := by
  simp only [exec, execReclaim, harea]
  split
  · next hcond =>
    simp only [Bool.and_eq_true, decide_eq_true_eq, Option.isNone_iff_eq_none, ready, beq_iff_eq] at hcond
    obtain ⟨⟨⟨⟨-, hready⟩, hwrite⟩, hreclaim⟩, hfree⟩ := hcond
    have hlen : (logOf s.cellar a).ring.length < 2 := by
      rcases h with h | h | h | h | h
      · omega
      · exact h
      · exact absurd hwrite h
      · exact absurd hreclaim h
      · exact absurd hready h
    have hnone : reclaimOldest a (logOf s.cellar a) = none := by
      unfold reclaimOldest
      split
      · next heq =>
        rw [heq, List.length_cons, List.length_cons] at hlen
        omega
      · rfl
    simp only [beginReclaim, hnone]
  · rfl

/-- A reclaim of a sector without live records goes straight to its erase. -/
theorem execReclaim_erases {s : State} {a : Bool} {area : Nat} (harea : (area == 1) = a) (hlt : area < 2) {o h : Nat} {rest : List Nat} (hready : s.power.phase = .ready) (hwrite : s.cellar.write = none)
    (hreclaim : s.cellar.reclaim = none) (hfree : freeSectors a (logOf s.cellar a) ≤ 4) (hring : (logOf s.cellar a).ring = o :: h :: rest)
    (hdead : ∀ r ∈ (logOf s.cellar a).recs, recLive r = true → r.sector ≠ o) :
    exec (.reclaim area) s = .next { s with
      cellar := { s.cellar with reclaim := some { keyArea := a, sector := o, erasing := true, forWrite := false } } } := by
  have hnone : (logOf s.cellar a).recs.filter (fun r => r.sector == o && recLive r) = [] := by
    rw [List.filter_eq_nil_iff]
    intro r hr hboth
    simp only [Bool.and_eq_true, beq_iff_eq] at hboth
    exact hdead r hr hboth.2 hboth.1
  have hfind : (logOf s.cellar a).recs.find? (fun r => r.sector == o && recLive r) = none := by
    rw [List.find?_eq_none]
    exact List.filter_eq_nil_iff.mp hnone
  have hold : reclaimOldest a (logOf s.cellar a) = some (freeOldest true (logOf s.cellar a)) := by
    simp only [reclaimOldest, hring, hnone, copyRecs, Option.map_some]
  have hbegin : beginReclaim a false s.cellar =
      some { s.cellar with reclaim := some { keyArea := a, sector := o, erasing := true, forWrite := false } } := by
    have hlog : logOf { s.cellar with reclaim := some { keyArea := a, sector := o, erasing := false, forWrite := false } } a = logOf s.cellar a := by
      cases a <;> rfl
    simp only [beginReclaim, hold, hring, List.head?_cons, reclaimNext, hlog, hfind]
  simp only [exec, execReclaim, harea, hlt, ready, hready, hwrite, hreclaim, hfree, hbegin, decide_true, Option.isNone_none, beq_self_eq_true,
    Bool.and_self, if_true]

/-- The oldest sector of a log out of its ring, and the reclaim at its end (R429). -/
def erasedCellar (c : Cellar) (a ok : Bool) : Cellar :=
  { setLog c a (freeOldest ok (logOf c a)) with reclaim := none, reclaims := min (2 ^ 32 - 1) (c.reclaims + 1) }

theorem logOf_erased_same (c : Cellar) (a ok : Bool) : logOf (erasedCellar c a ok) a = freeOldest ok (logOf c a) := logOf_setLog_same _ _ _

theorem keyContent_erased {c : Cellar} {a : Bool} {o : Nat} {rest : List Nat} (hring : (logOf c a).ring = o :: rest)
    (hdead : ∀ x ∈ (logOf c a).recs, recLive x = true → x.sector ≠ o) (ok : Bool) (k : Nat) :
    keyContent (erasedCellar c a ok) k = keyContent c k := by
  refine keyContent_congr (setLog_factory _ _ _) ?_
  by_cases ha : decide (0x8000 ≤ k) = a
  · rw [ha, logOf_erased_same]
    exact liveRec_freeOldest hring hdead ok k
  · exact congrArg (liveRec · k) (logOf_setLog_other ha c _)

/-- What the erase leaves of its sector: one erase more, and retired where it did not read back (R430). -/
theorem freeOldest_spec {l : Log} {o : Nat} {rest : List Nat} (hring : l.ring = o :: rest) (ok : Bool) :
    (freeOldest ok l).ring = rest ∧ (sectorOf (freeOldest ok l) o).erases = (sectorOf l o).erases + 1 ∧
      (sectorOf (freeOldest ok l) o).retired = !ok := by
  simp [freeOldest, hring, modSector, sectorOf, tabMod]

theorem execFlashOperationEnd_erased {s : State} {r : Reclaim} (hdue : NoneDue s) (hw : s.cellar.write = none)
    (hr : s.cellar.reclaim = some r) (herasing : r.erasing = true) (ok : Bool) :
    exec (.flashOperationEnd ok) s = .next { s with cellar := erasedCellar s.cellar r.keyArea ok } := by
  simp only [exec, execFlashOperationEnd, hw, hr, eraseStep, herasing, if_true]
  refine congrArg _ ((startDue_none (by exact hdue)).trans ?_)
  cases r.keyArea <;> rfl

/-- The result of a CELLAR_PUT and of a CELLAR_ERASE_KEY that a write has served (R425, R427). -/
theorem writeServed_put {s : State} {w : Write} {q : Nat} {c : Cmd} (hc : findCmd s q = some c) (hop : cmdOp c = 0x50) :
    writeServed q w s = complete c.seq 0x00 (leBytes w.rec_.version 4 ++ leBytes w.rec_.payload.length 2 ++
      leBytes (freeSectors w.keyArea (logOf s.cellar w.keyArea)) 2) s := by
  simp only [writeServed, hc, hop]

theorem writeServed_eraseKey {s : State} {w : Write} {q : Nat} {c : Cmd} (hc : findCmd s q = some c) (hop : cmdOp c = 0x52) :
    writeServed q w s = complete c.seq 0x00 (leBytes w.rec_.version 4) s := by
  simp only [writeServed, hc, hop]

/-- Settles O57. -/
theorem flashOperationsFinishTheirWork : Obligations.FlashOperationsFinishTheirWork := by
  intro s hdue
  refine ⟨?none, ?write, ?store, ?reclaim⟩
  case none =>
    intro ok hw hr hk
    simp only [exec, execFlashOperationEnd, hw, hr, hk]
  case write =>
    intro w hw harea goes crc live
    have hgoes : ∀ {st : RecStage} {left : Nat}, writeGood s.cellar w =
        ({ s.cellar with write := some { w with rec_ := { w.rec_ with stage := st }, opsLeft := left } }, .more) → goes st left :=
      fun h => execFlashOperationEnd_goes hw h
    refine ⟨fun hst => ⟨fun h => hgoes ?_, fun h => hgoes ?_⟩, fun hst => ⟨fun h => hgoes ?_, fun h => hgoes ?_⟩,
      fun hst => ⟨fun h => hgoes ?_, fun h => hgoes ?_⟩, fun hst hlive => hgoes ?_, fun c q hlast hsup hkey hq hc => ?_,
      fun q hretried hq => execFlashOperationEnd_failed hw hdue hq hretried⟩
    · simp only [writeGood, hst, if_neg (Nat.ne_of_gt h)]
    · simp only [writeGood, hst, if_pos h, crc]
    · simp only [writeGood, hst, if_neg (Nat.not_le.mpr h)]
    · simp only [writeGood, hst, if_pos h, crc]
    · simp only [writeGood, hst, if_neg (Nat.not_le.mpr h)]
    · simp only [writeGood, hst, if_pos h]
    · obtain ⟨r, hr⟩ := Option.ne_none_iff_exists'.mp hlive
      simp only [writeGood, hst, show liveRec (logOf s.cellar w.keyArea) w.rec_.key = some r from hr]
    · refine ⟨{ s with cellar := committedCellar s.cellar w }, fun hop => ?_, fun hop => ?_, keyContent_committed_same harea hsup hkey,
        fun k hk => keyContent_committed_other hk, rfl, rfl⟩
      · refine execFlashOperationEnd_served hw hdue hq hlast ((writeServed_put (s := { s with cellar := committedCellar s.cellar w }) hc hop).trans ?_) hc
        rw [show freeSectors w.keyArea (logOf ({ s with cellar := committedCellar s.cellar w } : State).cellar w.keyArea) =
          freeSectors w.keyArea (logOf s.cellar w.keyArea) from freeSectors_committed _ _]
      · exact execFlashOperationEnd_served hw hdue hq hlast (writeServed_eraseKey (s := { s with cellar := committedCellar s.cellar w }) hc hop) hc
  case store =>
    intro k q hw hr hk hq hready
    have hexec := execFlashOperationEnd_store hw hr hk true
    refine ⟨fun h => hexec.trans (congrArg _ (storeStep_goes h)), fun h => ?_⟩
    have hflag : lowByte (flagNat k.bankB) = if k.bankB then 1 else 0 := by cases k.bankB <;> rfl
    obtain ⟨hself, hother⟩ := endStore_banks s.cellar k
    refine ⟨{ s with cellar := endStore s.cellar k }, hexec.trans (congrArg _ ?_), hself, hother, rfl, rfl, ?_⟩
    · rw [storeStep_ends hdue hready hq h, hflag]
    · rfl
  case reclaim =>
    intro a area l
    have harea : (area == 1) = a := by cases a <;> rfl
    refine ⟨execReclaim_stands harea, fun o h rest hready hw hr hfree hring hdead =>
      execReclaim_erases harea (by cases a <;> decide) hready hw hr hfree hring hdead, fun o rest ok r hw hr hra herasing hring hdead => ?_⟩
    subst hra
    obtain ⟨hleft, herases, hretired⟩ := freeOldest_spec hring ok
    exact ⟨_, execFlashOperationEnd_erased hdue hw hr herasing ok, by rw [logOf_erased_same]; exact hleft, by rw [logOf_erased_same]; exact herases,
      by rw [logOf_erased_same]; exact hretired, rfl, rfl, keyContent_erased hring hdead ok, rfl⟩

end Sys2Proof.Machine

/-!
PROOFS. The oscillator, the reference check and the listens of KEEPTIME (O25).
-/
namespace Sys2Proof.Machine

/-! A path that goes to OFF, whatever TUNE it has -/

theorem touchState_running (p : Nat) (st : FeState) (s : State) (n : Nat) : (laneOf (touchState p st s) n).running = (laneOf s n).running := by
  have htouched : ∀ q k, (laneOf (touchLanes q k s) n).running = (laneOf s n).running := fun q k => by
    rw [laneOf_touchLanes]
    unfold touchedLane
    split <;> rfl
  cases st <;> first | rfl | exact htouched _ _

theorem laneOf_setPath (s : State) (p : Nat) (x : Path) (n : Nat) : laneOf (setPath s p x) n = laneOf s n := by
  unfold setPath
  split <;> rfl

/-- What setting a path's state to OFF changes: the path, and the touches of the lanes. -/
theorem setFe_off (p : Nat) (s : State) : PathFrame p s (setFe p .off s) ∧ (pathOf (setFe p .off s) p).synth = (pathOf s p).synth ∧
    (pathOf (setFe p .off s) p).fe.state = .off ∧ ∀ n, (laneOf (setFe p .off s) n).running = (laneOf s n).running := by
  obtain ⟨k, b, hpath⟩ := pathOf_setFe_state p .off s
  refine ⟨?_, by rw [hpath], by rw [hpath]; rfl, fun n => ?_⟩
  · unfold setFe
    extract_lets old s1 s2
    have h1 : PathFrame p s s1 := (touchState_pathFrame p old s).trans (modFe_pathFrame ..)
    exact (h1.trans (touchState_pathFrame p .off s1)).trans (modFe_pathFrame ..)
  · rw [setFe]
    simp only [trackZeros, modFe, modPath, laneOf_setPath, touchState_running]

/-- A path that goes to OFF: its TUNE may complete, its synthesiser is without lock, its lanes run as before. -/
theorem pathOff_off (p : Nat) (s : State) : (pathOff p s).modes = s.modes ∧ (pathOff p s).clocks = s.clocks ∧
    (pathOf (pathOff p s) p).fe.state = .off ∧ (pathOf (pathOff p s) p).synth.locked = false ∧
    ∀ n, (laneOf (pathOff p s) n).running = (laneOf s n).running := by
  obtain ⟨hframe, hsynth, hstate, hlanes⟩ := setFe_off p (modSynth (modFe s p fun f => { f with selPend := false }) p stopSynth)
  rw [pathOf_modSynth_same] at hsynth
  have hring : RingFrame (setFe p .off (modSynth (modFe s p fun f => { f with selPend := false }) p stopSynth)) (pathOff p s) :=
    (tuneBoundary_frame p _).trans (tuneDone_frame p _ _ _)
  have hpath : pathOf (pathOff p s) p = pathOf (setFe p .off (modSynth (modFe s p fun f => { f with selPend := false }) p stopSynth)) p := by
    rw [hring]
    rfl
  have hclocks : (pathOff p s).clocks = (setFe p .off (modSynth (modFe s p fun f => { f with selPend := false }) p stopSynth)).clocks := by rw [hring]
  have hln : (pathOff p s).lanes = (setFe p .off (modSynth (modFe s p fun f => { f with selPend := false }) p stopSynth)).lanes := by rw [hring]
  refine ⟨pathOff_modes p s, ?_, by rw [hpath, hstate], by rw [hpath, hsynth]; rfl, fun n => ?_⟩
  · rw [hclocks, hframe.clocks, modSynth_clocks, modFe_clocks]
  · rw [laneOf, hln]
    exact (hlanes n).trans (by simp only [modSynth, modFe, modPath, laneOf_setPath])

/-! The oscillator (R127, R144, R163, R164) -/

theorem leaveLow_high {s : State} (h : 3 ≤ s.modes.modeNow) : leaveLow s = s := by
  have hcond : (modeNow s == 0 || decide (3 ≤ modeNow s)) = true := by simp [modeNow, h]
  simp only [leaveLow, hcond, Bool.true_or, if_true]

/-- Without its oscillator a low mode is left for LISTEN, with the CPLL starting (R127). -/
theorem leaveLow_low {s : State} (h : s.modes.modeNow = 1 ∨ s.modes.modeNow = 2) (htarget : s.modes.target = none) (hstage : s.clocks.stage = .idle)
    (hlock : s.clocks.locked = false) : leaveLow s = { s with
      modes := { s.modes with target := some 3, modeErr := 4, modeReq := 3, ktEnd := none }
      clocks := { s.clocks with stage := .locking none none } } := by
  have hcond : (modeNow s == 0 || decide (3 ≤ modeNow s)) = false := by rcases h with h | h <;> simp [modeNow, h]
  simp only [leaveLow, htarget, hcond, cpllStarting, hstage, startClocks, hlock, Bool.or_self, Bool.false_eq_true, if_false]

theorem execX32Stop_eq (s : State) : exec .x32Stop s = .next (if ready s then leaveLow { s with
      modes := { s.modes with x32Ok := false }
      clocks := { s.clocks with refCheck := false, scHeld := s.clocks.scHeld || s.clocks.scOnX32, scOnX32 := false } } else { s with
      modes := { s.modes with x32Ok := false }
      clocks := { s.clocks with refCheck := false, scHeld := s.clocks.scHeld || s.clocks.scOnX32, scOnX32 := false } }) := rfl

/-- A counter that the oscillator does not drive is not held by its stop. -/
theorem stoppedClocks_undriven {c : Clocks} (h : c.scOnX32 = false) :
    { c with refCheck := false, scHeld := c.scHeld || c.scOnX32, scOnX32 := false } = { c with refCheck := false } := by
  cases c
  simp only at h
  simp only [h, Bool.or_false]

theorem execX32Stop_high {s : State} (h : 3 ≤ s.modes.modeNow) (hsc : s.clocks.scOnX32 = false) : exec .x32Stop s =
    .next { s with modes := { s.modes with x32Ok := false }, clocks := { s.clocks with refCheck := false } } := by
  rw [execX32Stop_eq, leaveLow_high (by exact h), ite_self, stoppedClocks_undriven hsc]

/-- CLOCK_EVENT sets IRQ_STAT0 [5] alone (Table 20-2). -/
theorem raise_clockEvent_ready {s : State} (h : s.power.phase = .ready) :
    raise .clockEvent s = { s with port := { s.port with irqStat0 := s.port.irqStat0 ||| 0x20 } } := by
  simp only [raise, ready, h]
  rfl

/-! The listens of KEEPTIME (R126) -/

theorem nextListen_spec {t sc period : Nat} (hle : t ≤ sc) (hpos : 0 < period) :
    sc < t + ((sc - t) / max 1 period + 1) * period ∧ t + ((sc - t) / max 1 period + 1) * period ≤ sc + period := by
  rw [Nat.max_eq_right hpos, Nat.add_mul, Nat.one_mul]
  have hdiv := Nat.div_add_mod (sc - t) period
  have hmod := Nat.mod_lt (sc - t) hpos
  rw [Nat.mul_comm] at hdiv
  omega

/-- A lane that a mode change or the end of a listen stops, without an unbind waiting. -/
theorem stopLane_bound {s : State} {n : Nat} (h : (laneOf s n).unbind = false) :
    (laneOf (stopLane n s) n).running = false ∧ (stopLane n s).modes = s.modes ∧ (stopLane n s).clocks = s.clocks := by
  unfold stopLane
  rw [if_neg (by simp [h])]
  extract_lets x t
  have ht : t.modes = s.modes ∧ t.clocks = s.clocks := by
    unfold t
    split <;> exact ⟨rfl, rfl⟩
  refine ⟨?_, ht⟩
  have hlane : laneOf (capShed (modLane t n haltLane)) n = haltLane (laneOf t n) := laneOf_setLane_same _ _ _
  rw [hlane]
  rfl

theorem execKtListenEnd_due {s : State} {t : Nat} (hend : s.modes.ktEnd = some t) (hle : t ≤ s.clocks.sc) (htarget : s.modes.target = none) :
    exec .ktListenEnd s = .next
      (let u := pathOff (laneOf s s.modes.ktLaneUsed).path (stopLane s.modes.ktLaneUsed s)
       { u with modes := { u.modes with ktEnd := none }, clocks := { u.clocks with locked := false, refCheck := false, stage := .idle } }) := by
  simp only [exec, execKtListenEnd, hend, decide_eq_true hle, htarget, Option.isNone_none, Bool.and_self, if_true]

/-- Settles O25. -/
theorem oscillatorAndKeeptime : Obligations.OscillatorAndKeeptime := by
  refine ⟨fun s ppm => ⟨fun hlock hx => ?_, fun hlock => ?_, fun hmode hsc => execX32Stop_high hmode hsc, fun hready hmode htarget hlock hsc hstage => ?_,
      fun hcheck hppm => ?_, fun hcheck hppm hready => ?_, fun hcheck => ?_⟩,
    fun s t => ⟨fun hready hmode htarget hnext hle hend hstage hperiod => ?_, fun hend hlt => ?_, fun hend hle htarget hunbind => ?_⟩⟩
  · simp only [exec, execX32Start, hlock, hx, Bool.not_false, Bool.and_self, Bool.or_true, Bool.not_true, Bool.or_false]
  · simp only [exec, execX32Start, hlock, Bool.false_and, Bool.or_false, Bool.not_false, Bool.or_true]
  · rw [execX32Stop_eq, if_pos (by simp [ready, hready]), hsc, Bool.or_true]
    exact congrArg _ (leaveLow_low (s := { s with
      modes := { s.modes with x32Ok := false }
      clocks := { s.clocks with refCheck := false, scHeld := true, scOnX32 := false } }) hmode htarget hstage hlock)
  · simp only [exec, execRefCheck, hcheck, if_true, decide_eq_false (Nat.not_lt.mpr hppm)]
    rfl
  · simp only [exec, execRefCheck, hcheck, if_true, decide_eq_true hppm, raiseIf]
    exact congrArg _ (raise_clockEvent_ready (by exact hready))
  · simp only [exec, execRefCheck, hcheck, Bool.false_eq_true, if_false]
  · have hpos : 0 < ktPeriodCounts s := Nat.mul_pos hperiod (by simp [countsPerSecond])
    obtain ⟨hafter, hnot⟩ := nextListen_spec hle hpos
    refine ⟨(s.clocks.sc - t) / max 1 (ktPeriodCounts s) + 1, hafter, hnot, ?_⟩
    simp only [exec, execKeeptimeListen, hnext, ready, hready, modeNow, hmode, hend, htarget, hstage, decide_eq_true hle, beq_self_eq_true,
      Option.isNone_none, Bool.and_self, if_true, countsPerSecond]
  · simp only [exec, execKtListenEnd, hend, decide_eq_false (Nat.not_le.mpr hlt), Bool.false_and, Bool.false_eq_true, if_false]
  · obtain ⟨hrun, hmodes, hclocks⟩ := stopLane_bound hunbind
    obtain ⟨hm, hc, hstate, hlock, hlanes⟩ := pathOff_off (laneOf s s.modes.ktLaneUsed).path (stopLane s.modes.ktLaneUsed s)
    refine ⟨_, execKtListenEnd_due hend hle htarget, ?_, ?_, (hlanes _).trans hrun, hstate, hlock⟩
    · exact congrArg (fun m : Modes => { m with ktEnd := none }) (hm.trans hmodes)
    · exact congrArg (fun c : Clocks => { c with locked := false, refCheck := false, stage := .idle }) (hc.trans hclocks)

end Sys2Proof.Machine

/-!
PROOFS. The COUNT windows of a lock (O28).
-/
namespace Sys2Proof.Machine

/-! What a change of a path's state leaves, with whatever TUNE the path has -/

/-- The path and the lanes first, then what the boundary of a TUNE posts. -/
theorem setFe_frames (p : Nat) (st : FeState) (s : State) : ∃ u, PathFrame p s u ∧ RingFrame u (setFe p st s) ∧
    (setFe p st s = u ∨ setFe p st s = tuneBoundary p u) := by
  unfold setFe
  extract_lets old s1 s2
  have h1 : PathFrame p s s1 := (touchState_pathFrame p old s).trans (modFe_pathFrame ..)
  have h2 : PathFrame p s s2 := (h1.trans (touchState_pathFrame p st s1)).trans (modFe_pathFrame ..)
  refine ⟨s2, h2, ?_⟩
  split
  case h_4 => exact ⟨tuneBoundary_frame p s2, .inr rfl⟩
  all_goals exact ⟨.refl s2, .inl rfl⟩

theorem setFe_clocks (p : Nat) (st : FeState) (s : State) : (setFe p st s).clocks = s.clocks := by
  obtain ⟨u, hpath, hring, -⟩ := setFe_frames p st s
  rw [hring, ← hpath.clocks]

theorem synthsDone_idle {s : State} (h : s.clocks.stage = .idle) : synthsDone s = s := by
  simp only [synthsDone, h]

/-! Completions keep the interrupt bits that are set -/

theorem raise_irq (q : Irq) {s : State} {k : Nat} (h : s.port.irqStat0.getLsbD k = true) : (raise q s).port.irqStat0.getLsbD k = true := by
  have hor : ∀ n, (orBit s.port.irqStat0 n).getLsbD k = true := fun n => by simp only [orBit, BitVec.getLsbD_or, h, Bool.true_or]
  unfold raise
  cases hr : ready s with
  | false => exact h
  | true => cases q <;> first | exact h | exact hor _

theorem raiseIf_irq (b : Bool) (q : Irq) {s : State} {k : Nat} (h : s.port.irqStat0.getLsbD k = true) :
    (raiseIf b q s).port.irqStat0.getLsbD k = true := by
  cases b with
  | false => exact h
  | true => exact raise_irq q h

theorem post_irq (s : State) (c : Cmd) (status : Nat) (result : List Byte) {k : Nat} (h : s.port.irqStat0.getLsbD k = true) :
    (post s c status result).port.irqStat0.getLsbD k = true := by
  unfold post
  extract_lets t r u
  have hu : u.port = s.port := by
    change t.port = s.port
    rw [show t = _ from devPuts_frame _ _ _]
  exact raiseIf_irq _ _ (by rwa [hu])

theorem sweepN_irq {k : Nat} (n : Nat) : ∀ {s : State}, s.port.irqStat0.getLsbD k = true → (sweepN n s).port.irqStat0.getLsbD k = true := by
  induction n with
  | zero => exact id
  | succ n ih =>
    intro s h
    unfold sweepN
    split
    · exact ih (post_irq s _ _ _ h)
    · exact h

theorem complete_irq (seq status : Nat) (result : List Byte) {s : State} {k : Nat} (h : s.port.irqStat0.getLsbD k = true) :
    (complete seq status result s).port.irqStat0.getLsbD k = true := by
  unfold complete
  split
  · exact sweepN_irq _ (post_irq s _ _ _ h)
  · exact h

theorem tuneBoundary_irq (p : Nat) {s : State} {k : Nat} (h : s.port.irqStat0.getLsbD k = true) : (tuneBoundary p s).port.irqStat0.getLsbD k = true := by
  unfold tuneBoundary
  split
  · split
    · exact complete_irq _ _ _ h
    · exact h
  · exact h

theorem PathFrame.port {p : Nat} {s t : State} (h : PathFrame p s t) : t.port = s.port := by
  obtain ⟨ls, x, rfl⟩ := h
  exact setPath_port _ _ _

theorem setFe_irq (p : Nat) (st : FeState) {s : State} {k : Nat} (h : s.port.irqStat0.getLsbD k = true) :
    (setFe p st s).port.irqStat0.getLsbD k = true := by
  obtain ⟨u, hpath, -, heq⟩ := setFe_frames p st s
  have hu : u.port.irqStat0.getLsbD k = true := by rwa [hpath.port]
  rcases heq with heq | heq
  · rwa [heq]
  · rw [heq]
    exact tuneBoundary_irq p hu

/-! One window (R159) -/

section
variable {x : Synth} {count : Nat} (hrun : 0 < x.run)
include hrun

theorem lockWindow_first (hw : x.windows = 0) (hlimit : 1 < x.limit) : lockWindow x count = .more { x with windows := 1, goodRun := 0 } := by
  simp only [lockWindow, hw, if_true, if_neg (Nat.not_le.mpr hrun), if_neg (Nat.not_le.mpr hlimit)]

theorem lockWindow_next (hbad : windowGood x count = false) (hlimit : x.limit ≤ x.windows + 1) {q b : Nat}
    (h : nextTry x.baseBand x.tryPlace = some (q, b)) : lockWindow x count = .more (startTry q b x) := by
  simp only [lockWindow, hbad, h, Bool.false_eq_true, if_false, ite_self, if_neg (Nat.not_le.mpr hrun), if_pos hlimit]

theorem lockWindow_failed (hbad : windowGood x count = false) (hlimit : x.limit ≤ x.windows + 1) (h : nextTry x.baseBand x.tryPlace = none) :
    lockWindow x count =
      .failed { x with windows := x.windows + 1, goodRun := 0, locking := false, noLockCount := bump 2 x.noLockCount 1 } := by
  simp only [lockWindow, hbad, h, Bool.false_eq_true, if_false, ite_self, if_neg (Nat.not_le.mpr hrun), if_pos hlimit]

omit hrun
variable (hw : 0 < x.windows) (hgood : windowGood x count = true)
include hw hgood

theorem lockWindow_good (hmore : x.goodRun + 1 < x.run) (hlimit : x.windows + 1 < x.limit) :
    lockWindow x count = .more { x with windows := x.windows + 1, goodRun := x.goodRun + 1 } := by
  simp only [lockWindow, if_neg (Nat.ne_of_gt hw), if_pos hgood, if_neg (Nat.not_le.mpr hmore), if_neg (Nat.not_le.mpr hlimit)]

theorem lockWindow_locked (hlast : x.goodRun + 1 = x.run) : lockWindow x count =
    .locked { x with windows := x.windows + 1, goodRun := x.goodRun + 1, locking := false, locked := true, bandTries := x.tryPlace } := by
  simp only [lockWindow, if_neg (Nat.ne_of_gt hw), if_pos hgood, if_pos (Nat.le_of_eq hlast.symm)]

end

/-- The order of the bands tried: 0, +1, -1, +2, -2 (R159). -/
theorem nextTry_inside {base place : Nat} (h2 : 2 ≤ base) (h253 : base ≤ 253) (h4 : place < 4) :
    nextTry base place = some (place + 1, [base, base + 1, base - 1, base + 2, base - 2].getD (place + 1) 0) := by
  have h1 : 1 ≤ base := by omega
  have hp1 : base + 1 < 256 := by omega
  have hp2 : base + 2 < 256 := by omega
  match place, h4 with
  | 0, _ | 1, _ | 2, _ | 3, _ => simp [nextTry, tryBand, List.range_succ, h1, h2, hp1, hp2]

theorem nextTry_last (base : Nat) : nextTry base 4 = none := by
  simp [nextTry, List.range_succ]

/-! What follows a lock and its loss -/

/-- A path in STARTING or RETUNE whose lock is declared enters ACQUIRE with T_REF_SYN taken (R203). -/
theorem lockDone_spec {p : Nat} {s : State} (hstage : s.clocks.stage = .idle) (hlock : (pathOf s p).synth.locked = true)
    (hstate : (pathOf s p).fe.state = .starting) (hsel : (pathOf s p).fe.selPend = false) : ∃ x,
    (pathOf (lockDone p s) p).synth = spurAfterLock p x s.clocks.ref (pathOf s p).synth ∧ (pathOf (lockDone p s) p).fe.state = .acquire ∧
      (pathOf (lockDone p s) p).cal.tRefSyn = s.cal.tempAvg := by
  obtain ⟨u, hu⟩ : ∃ u, modCal (modSynth s p (spurAfterLock p (pathOf s p).fe.loNow s.clocks.ref)) p (fun c => { c with tRefSyn := s.cal.tempAvg }) = u :=
    ⟨_, rfl⟩
  have hpath : pathOf u p = { pathOf s p with
      synth := spurAfterLock p (pathOf s p).fe.loNow s.clocks.ref (pathOf s p).synth
      cal := { (pathOf s p).cal with tRefSyn := s.cal.tempAvg } } := by
    rw [← hu, pathOf_modCal_same, pathOf_modSynth_same]
  have hclocks : u.clocks = s.clocks := by rw [← hu, modCal_clocks, modSynth_clocks]
  have hlock' : (pathOf u p).synth.locked = true := by rw [hpath]; exact hlock
  have hstate' : (pathOf u p).fe.state = .starting := by rw [hpath]; exact hstate
  have hsel' : (pathOf u p).fe.selPend = false := by rw [hpath]; exact hsel
  have hdone : lockDone p s = enterAcquire p u := by
    have hsettled : settled p u = enterAcquire p u := by
      simp only [settled, hstate', hlock', hsel', decide_true, Bool.true_or, Bool.not_false, Bool.and_self, if_true]
    have hidle : (enterAcquire p u).clocks.stage = .idle := by rw [enterAcquire, setFe_clocks, modFe_clocks, hclocks, hstage]
    rw [← synthsDone_idle hidle, ← hsettled, ← hu, lockDone]
    simp only [modSynth_cal]
  obtain ⟨n, b, hfe⟩ := pathOf_setFe_state p .acquire (modFe u p fun f => { f with acqDone := false, acqQuiet := false, acqRanges := 0, stateSamples := 0 })
  rw [pathOf_modFe_same, hpath] at hfe
  rw [hdone, enterAcquire, hfe]
  exact ⟨(pathOf s p).fe.loNow, rfl, rfl, rfl⟩

theorem afterPath_other {p : Nat} (hp : p < 2) (s : State) : afterPath p s = s := if_neg (by omega)

section
variable {s : State} {p count : Nat} {y : Synth} (hlocking : (pathOf s p).synth.locking = true) (htimed : (pathOf s p).synth.timedMode = false)
include hlocking htimed

theorem execLockWindow_more (h : lockWindow (pathOf s p).synth count = .more y) : exec (.lockWindow p count) s = .next (modSynth s p fun _ => y) := by
  simp only [exec, execLockWindow, hlocking, htimed, h, if_true, Bool.false_eq_true, if_false]

theorem execLockWindow_locked (hp : p < 2) (h : lockWindow (pathOf s p).synth count = .locked y) :
    exec (.lockWindow p count) s = .next (lockDone p (modSynth s p fun _ => y)) := by
  simp only [exec, execLockWindow, hlocking, htimed, h, if_true, Bool.false_eq_true, if_false, afterPath_other hp]

theorem execLockWindow_failed (hp : p < 2) (h : lockWindow (pathOf s p).synth count = .failed y) :
    exec (.lockWindow p count) s = .next (lockFailed p (modSynth s p fun _ => y)) := by
  simp only [exec, execLockWindow, hlocking, htimed, h, if_true, Bool.false_eq_true, if_false, afterPath_other hp]

end

/-- A path whose five tries failed is in NO_LOCK (R159). -/
theorem lockFailed_spec {p : Nat} {s : State} (hstage : s.clocks.stage = .idle) : (pathOf (lockFailed p s) p).fe.state = .noLock ∧
    (pathOf (lockFailed p s) p).synth = stopSynth (pathOf s p).synth := by
  have hring : RingFrame (setFe p .noLock (modSynth s p stopSynth)) (noLock p p s) := tuneDone_frame ..
  have hclocks : (noLock p p s).clocks.stage = .idle := by
    have : (noLock p p s).clocks = (setFe p .noLock (modSynth s p stopSynth)).clocks := by rw [hring]
    rw [this, setFe_clocks, modSynth_clocks, hstage]
  obtain ⟨n, b, hfe⟩ := pathOf_setFe_state p .noLock (modSynth s p stopSynth)
  rw [lockFailed, synthsDone_idle hclocks, pathOf_of_ringFrame hring, hfe, pathOf_modSynth_same]
  exact ⟨rfl, rfl⟩

/-- A lost lock is sought again from the band in use (R156, R161). -/
theorem relockBand_starts {p : Nat} {s : State} (hfault : s.clocks.fault = false) (ht : tableFor (pathOf s p).synth ≠ none) :
    ∃ x, relockBand p s = modSynth s p (fun _ => x) ∧ x.lockLost = (pathOf s p).synth.lockLost ∧ x.locked = false ∧ x.locking = true ∧
      x.band = (pathOf s p).synth.band := by
  obtain ⟨fallback, entry, band, hx⟩ := startUse_some (p := p) (lo := (pathOf s p).fe.loNow) (r := s.clocks.ref) ht
  generalize hy : programLo p (pathOf s p).fe.loNow s.clocks.ref { (pathOf s p).synth with btFallback := fallback } = y at hx
  have hlost : y.lockLost = (pathOf s p).synth.lockLost := by
    rw [← hy]
    rfl
  refine ⟨startBand (pathOf s p).synth.band { startBand band { y with btEntry := entry } with btEntry := (pathOf s p).synth.btEntry }, ?_, hlost,
    rfl, rfl, rfl⟩
  simp only [relockBand, hfault, hx, Bool.false_eq_true, if_false]
  rfl

/-! Settling -/

/-- A path in STARTING whose timed lock ends enters ACQUIRE (R160). -/
theorem execTimedLock_locks {s : State} {p : Nat} (hp : p < 2) (hlocking : (pathOf s p).synth.locking = true)
    (htimed : (pathOf s p).synth.timedMode = true) : exec (.timedLock p) s = .next (lockDone p
      (modSynth s p fun x => { x with locking := false, locked := true, timedLock := true, bandTries := x.tryPlace })) := by
  simp only [exec, execTimedLock, hlocking, htimed, Bool.and_self, if_true, afterPath_other hp]

theorem pathOf_withPort (s : State) (x : Port) (p : Nat) : pathOf { s with port := x } p = pathOf s p := rfl

/-- A lock that is lost is counted with CLOCK_EVENT and sought again in RETUNE (R161). -/
theorem execLockLost_relocks {s : State} {p : Nat} (hp : p < 2) (hlocked : (pathOf s p).synth.locked = true) (htimed : (pathOf s p).synth.timedLock = false)
    (hbad : 2 ≤ (pathOf s p).synth.badRun) (hcal : (pathOf s p).fe.state ≠ .cal) (hready : s.power.phase = .ready) :
    exec (.lockLost p) s = .next (relockBand p (setFe p .retune { modSynth s p (fun x =>
        { x with lockLost := bump 2 x.lockLost 1, locked := false, badRun := 0, txCheck := none }) with
      port := { s.port with irqStat0 := s.port.irqStat0 ||| 0x20 } })) := by
  have hraise := raise_clockEvent_ready (s := modSynth s p fun x =>
    { x with lockLost := bump 2 x.lockLost 1, locked := false, badRun := 0, txCheck := none }) (by rw [modSynth_power]; exact hready)
  have hp2 : ¬ p = 2 := by omega
  simp only [exec, execLockLost, hlocked, htimed, decide_eq_true hbad, Bool.not_false, Bool.and_self, if_true, hraise, pathOf_withPort,
    pathOf_modSynth_same, if_neg hcal, if_neg hp2, afterPath_other hp, relockNow, decide_eq_false hp2, Bool.false_and, Bool.false_eq_true, if_false,
    modSynth_port]

/-- Settles O28. -/
theorem locksGoByWindows : Obligations.LocksGoByWindows := by
  intro s p count hp hstage
  refine ⟨fun hlocking htimed hrun => ?windows, fun hlocking htimed hstate hsel => ?timed, fun hlocked htimed hbad hcal hfault ht hready => ?lost⟩
  case windows =>
    refine ⟨fun hw hlimit => execLockWindow_more hlocking htimed (lockWindow_first hrun hw hlimit),
      fun hw hgood hmore hlimit => execLockWindow_more hlocking htimed (lockWindow_good hw hgood hmore hlimit),
      fun hw hgood hlast hstate hsel => ?_,
      fun hbad hlimit h2 h253 h4 => execLockWindow_more hlocking htimed (lockWindow_next hrun hbad hlimit (nextTry_inside h2 h253 h4)),
      fun hbad hlimit h4 => ?_⟩
    · have hexec := execLockWindow_locked hlocking htimed hp (lockWindow_locked hw hgood hlast)
      obtain ⟨x, hsynth, hfe, hcal⟩ := lockDone_spec (p := p) (s := modSynth s p fun _ => { (pathOf s p).synth with
        windows := (pathOf s p).synth.windows + 1, goodRun := (pathOf s p).synth.goodRun + 1, locking := false, locked := true,
        bandTries := (pathOf s p).synth.tryPlace }) (by rw [modSynth_clocks]; exact hstage) (by rw [pathOf_modSynth_same])
        (by rw [pathOf_modSynth_same]; exact hstate) (by rw [pathOf_modSynth_same]; exact hsel)
      rw [pathOf_modSynth_same] at hsynth
      rw [modSynth_cal] at hcal
      refine ⟨_, hexec, ?_, ?_, ?_, ?_, hfe, hcal⟩
      all_goals rw [hsynth]; rfl
    · have hexec := execLockWindow_failed hlocking htimed hp (lockWindow_failed hrun hbad hlimit (by rw [h4]; exact nextTry_last _))
      obtain ⟨hfe, hsynth⟩ := lockFailed_spec (p := p) (s := modSynth s p fun _ => { (pathOf s p).synth with
        windows := (pathOf s p).synth.windows + 1, goodRun := 0, locking := false, noLockCount := bump 2 (pathOf s p).synth.noLockCount 1 })
        (by rw [modSynth_clocks]; exact hstage)
      rw [pathOf_modSynth_same] at hsynth
      refine ⟨_, hexec, hfe, ?_, ?_, ?_⟩
      all_goals rw [hsynth]; rfl
  case timed =>
    obtain ⟨x, hsynth, hfe, -⟩ := lockDone_spec (p := p) (s := modSynth s p fun x =>
      { x with locking := false, locked := true, timedLock := true, bandTries := x.tryPlace }) (by rw [modSynth_clocks]; exact hstage)
      (by rw [pathOf_modSynth_same]) (by rw [pathOf_modSynth_same]; exact hstate) (by rw [pathOf_modSynth_same]; exact hsel)
    rw [pathOf_modSynth_same] at hsynth
    refine ⟨_, execTimedLock_locks hp hlocking htimed, ?_, ?_, hfe⟩
    all_goals rw [hsynth]; rfl
  case lost =>
    have hexec := execLockLost_relocks hp hlocked htimed hbad hcal hready
    obtain ⟨u, hu⟩ : ∃ u : State, { modSynth s p (fun x => { x with lockLost := bump 2 x.lockLost 1, locked := false, badRun := 0, txCheck := none }) with
      port := { s.port with irqStat0 := s.port.irqStat0 ||| 0x20 } } = u := ⟨_, rfl⟩
    rw [hu] at hexec
    have hpath : pathOf u p = { pathOf s p with synth := { (pathOf s p).synth with
        lockLost := bump 2 (pathOf s p).synth.lockLost 1, locked := false, badRun := 0, txCheck := none } } := by
      rw [← hu, pathOf_withPort, pathOf_modSynth_same]
    have hirq : u.port.irqStat0.getLsbD 5 = true := by
      rw [← hu]
      simp
    have hclocks : u.clocks = s.clocks := by
      rw [← hu]
      exact modSynth_clocks ..
    obtain ⟨n, b, hfe⟩ := pathOf_setFe_state p .retune u
    rw [hpath] at hfe
    obtain ⟨x, hrelock, hlost, hunlocked, hseek, hband⟩ := relockBand_starts (p := p) (s := setFe p .retune u)
      (by rw [setFe_clocks, hclocks]; exact hfault) (by rw [hfe]; exact ht)
    rw [hrelock] at hexec
    refine ⟨_, hexec, ?_, ?_, ?_, ?_, ?_, ?_⟩
    · rw [pathOf_modSynth_same]
      exact hlost.trans (by rw [hfe]; rfl)
    · rw [pathOf_modSynth_same]
      exact hunlocked
    · rw [pathOf_modSynth_same]
      exact hseek
    · rw [pathOf_modSynth_same]
      exact hband.trans (by rw [hfe])
    · rw [pathOf_modSynth_same, hfe]
      rfl
    · rw [modSynth_port]
      exact setFe_irq p .retune hirq

end Sys2Proof.Machine

/-!
PROOFS. The TUNE of the CPLL (O27), with the paths OFF.
-/
namespace Sys2Proof.Machine

/-! Paths that are OFF -/

theorem setPath_self (s : State) (p : Nat) : setPath s p (pathOf s p) = s := by
  rcases p with _ | _ | p <;> rfl

/-- A path that is OFF with no run of replaced samples begins none (R188). -/
theorem trackZeros_off {s : State} {p : Nat} (hoff : (pathOf s p).fe.state = .off) (hblank : (pathOf s p).fe.blankFrom = none) : trackZeros p s = s := by
  have hfe : (if blanked s p && (pathOf s p).fe.state != .off && clocksRun s then
        { (pathOf s p).fe with blankFrom := some ((pathOf s p).fe.blankFrom.getD s.clocks.sc) }
      else { (pathOf s p).fe with blankedSamples := blankedNow s p (pathOf s p).fe, blankFrom := none }) = (pathOf s p).fe := by
    rw [if_neg (by simp [hoff]), blankedNow, hblank]
    simp only
    rw [← hblank]
  rw [trackZeros, modFe, modPath, hfe]
  exact setPath_self s p

/-- The three paths are OFF and none counts replaced samples. -/
structure PathsOff (s : State) : Prop where
  off : ∀ p, (pathOf s p).fe.state = .off
  blank : ∀ p, (pathOf s p).fe.blankFrom = none

theorem PathsOff.of_paths {s t : State} (h : PathsOff s) (hpath : ∀ p, pathOf t p = pathOf s p) : PathsOff t :=
  ⟨fun p => by rw [hpath, h.off], fun p => by rw [hpath, h.blank]⟩

section
variable {s : State} (h : PathsOff s)
include h

theorem PathsOff.trackAll : forAll [0, 1, 2] (fun s p => trackZeros p s) s = s := by
  simp only [forAll, List.foldl_cons, List.foldl_nil, trackZeros_off (h.off _) (h.blank _)]

theorem PathsOff.suspendAll : forAll [0, 1, 2] suspendPath s = s := by
  simp only [forAll, List.foldl_cons, List.foldl_nil, suspendPath, h.off]

theorem PathsOff.relockAll : forAll [0, 1, 2] (fun s p => relockPath p s) s = s := by
  simp only [forAll, List.foldl_cons, List.foldl_nil, relockPath, h.off]

theorem PathsOff.failAll : forAll [0, 1, 2] (fun (s : State) p => if (pathOf s p).fe.state == .off then s else noLock p 3 s) s = s := by
  simp only [forAll, List.foldl_cons, List.foldl_nil, h.off, beq_self_eq_true, if_true]

end

/-! The checks of a TUNE of the CPLL -/

section
variable {s : State} {c : Cmd} (hn : Names c 3) (hh : HeaderOk c) (hz : ZeroBytes c 19 31) (hm3 : 3 ≤ s.modes.modeNow) (hm6 : s.modes.modeNow ≤ 6)
include hn hh hz hm3 hm6

theorem checkTuneCpll_ref (h8 : par c 8 = 1) (h9 : par c 9 < 5) (h10 : par c 10 < 3) (h11 : par c 11 < 2) (hx : s.modes.x32Ok = true)
    (hsap : anySapRuns s = false) : checkTuneCpll s c = none := by
  have hmode : s.modes.modeNow ∈ [3, 4, 5, 6] := slotMode_mem ⟨hm3, hm6⟩
  have hparts : doRef c = true ∧ doCk c = false ∧ doStep c = false := by simp [doRef, doCk, doStep, h8, bit]
  obtain ⟨href, hck, hstep⟩ := hparts
  simp only [checkTuneCpll, List.cons_append, List.append_assoc]
  refine checks_pass hn rfl hh ?_
  simp only [List.nil_append, List.forall_mem_cons, List.forall_mem_append, needField_eq_none, needIdle_eq_none, needState_eq_none, needMode_eq_none,
    href, hck, hstep, ckChanges, hx, hsap, h8, h9, h10, h11, hmode]
  exact ⟨by decide, by simp, by simp, by simp, by simp, by simp, by simp, by simp, needZeros_none hz, by simp, by simp, by simp, by simp, by simp⟩

theorem checkTuneCpll_ck (h8 : par c 8 = 2) (h12 : 4 ≤ par c 12 ∧ par c 12 ≤ 6) (h13 : par c 13 < 2) (h14 : 40 ≤ parN c 14 2 ∧ parN c 14 2 ≤ 1023)
    (h16 : par c 16 < 64) (hfree : ckInUse s (par c 12) = false) : checkTuneCpll s c = none := by
  have hmode : s.modes.modeNow ∈ [3, 4, 5, 6] := slotMode_mem ⟨hm3, hm6⟩
  have hparts : doRef c = false ∧ doCk c = true ∧ doStep c = false := by simp [doRef, doCk, doStep, h8, bit]
  obtain ⟨href, hck, hstep⟩ := hparts
  simp only [checkTuneCpll, List.cons_append, List.append_assoc]
  refine checks_pass hn rfl hh ?_
  simp only [List.nil_append, List.forall_mem_cons, List.forall_mem_append, needField_eq_none, needIdle_eq_none, needState_eq_none, needMode_eq_none,
    href, hck, hstep, hfree, h8, h12, h13, h14, h16, hmode]
  exact ⟨by decide, by simp, by simp, by simp, by simp, by simp, by simp, by simp, needZeros_none hz, by simp, by simp, by simp, by simp, by simp⟩

end

/-! Another arrangement (Table 7-4) -/

theorem cutTransmission_quiet {s : State} (htx : s.link.txs = []) (hoff : s.pathS.fe.state = .off) : cutTransmission s = s := by
  have hnone : activeTx s = none := by simp [activeTx, htx]
  simp only [cutTransmission, hnone, dropPacket, hoff]
  rw [if_neg (by decide)]

/-- A reference change that begins with the paths OFF: the counter goes to the oscillator and the CPLL locks on the arrangement asked for. -/
theorem startRef_off {s : State} {c : Cmd} (h : PathsOff s) (htx : s.link.txs = []) (hx : s.modes.x32Ok = true) :
    startRef s c = { s with clocks := { s.clocks with
      scOnX32 := true, ref := refAsked c, locked := false, refCheck := false, stage := .locking (some c.seq) (some s.clocks.ref) } } := by
  have hcounter : counterOff s = { s with clocks := { s.clocks with scOnX32 := true } } := by simp only [counterOff, hx, Bool.not_true, Bool.or_false]
  have hoff : PathsOff { s with clocks := { s.clocks with scOnX32 := true } } := h.of_paths fun _ => rfl
  have hend : PathsOff { s with clocks := { s.clocks with
      scOnX32 := true, ref := refAsked c, locked := false, refCheck := false, stage := .locking (some c.seq) (some s.clocks.ref) } } :=
    h.of_paths fun _ => rfl
  have hcut := cutTransmission_quiet (s := { s with clocks := { s.clocks with scOnX32 := true } }) htx (h.off 2)
  simp only [startRef, hcounter, hoff.suspendAll, hcut]
  exact hend.trackAll

section
variable {s : State} {seq : Nat} {c : Cmd} (hr : MayRun s seq 0x10 c) (hn : Names c 3) (hstage : s.clocks.stage = .idle)
include hr hn hstage

theorem execTuneCpll_runs (hcheck : checkTuneCpll s c = none) (hfree : (runsRefChange s c && refBusy s) = false) :
    exec (.tuneCpll seq) s = .next (runTuneCpll s c) := by
  have hcpll : cpllFree s seq = true := by simp [cpllFree, hstage]
  have hkind : (cmdKind c != 3) = false := by simp [hn.1]
  simp only [exec, execTuneCpll, hr.1, hkind, hcpll, hcheck, hfree, Bool.not_true, Bool.or_self, Bool.false_eq_true, if_false]

end

/-- The parts that a TUNE of an arrangement alone has. -/
theorem doParts_one {c : Cmd} (h8 : par c 8 = 1) : doRef c = true ∧ doCk c = false ∧ doStep c = false := by simp [doRef, doCk, doStep, h8, bit]

theorem doParts_two {c : Cmd} (h8 : par c 8 = 2) : doRef c = false ∧ doCk c = true ∧ doStep c = false := by simp [doRef, doCk, doStep, h8, bit]

theorem runTuneCpll_ref {s : State} {c : Cmd} (h : PathsOff s) (htx : s.link.txs = []) (hx : s.modes.x32Ok = true) (h8 : par c 8 = 1)
    (hother : refAsked c ≠ s.clocks.ref) : runTuneCpll s c = { runs s c.seq with clocks := { s.clocks with
      scOnX32 := true, ref := refAsked c, locked := false, refCheck := false, stage := .locking (some c.seq) (some s.clocks.ref) } } := by
  obtain ⟨href, hck, -⟩ := doParts_one h8
  have hchange : runsRefChange (runs s c.seq) c = true := by
    have : (refAsked c != (runs s c.seq).clocks.ref) = true := by simpa [runs] using hother
    simp only [runsRefChange, href, this, Bool.true_or, Bool.and_self]
  have happly : applyCk (setPhase s c.seq .running) c = runs s c.seq := if_neg (by rw [hck]; decide)
  simp only [runTuneCpll, happly, hchange, if_true]
  exact startRef_off (h.of_paths fun _ => rfl) htx hx

/-! An output's setting (R147) -/

theorem ref_modCk (s : State) (n : Nat) (f : CkOut → CkOut) : (modCk s n f).clocks.ref = s.clocks.ref := by
  unfold modCk
  split <;> rfl

theorem stage_modCk (s : State) (n : Nat) (f : CkOut → CkOut) : (modCk s n f).clocks.stage = s.clocks.stage := by
  unfold modCk
  split <;> rfl

/-- The end of a TUNE without phase steps, served with the link quiet. -/
theorem endCpllTune_plain {s : State} {c : Cmd} (h2 : bit (par c 8) 2 = false) : endCpllTune s c =
    complete c.seq 0x00 [lowByte s.clocks.ref.freq, lowByte s.clocks.ref.mult, 0, 0] s := by
  have hzero : leBytes (twos 2 0) 2 = [0, 0] := by decide
  simp only [endCpllTune, h2, Bool.false_and, Bool.false_eq_true, if_false, cpllResult, hzero]
  rfl

theorem withStage_idle {s : State} (h : s.clocks.stage = .idle) : { s with clocks := { s.clocks with stage := .idle } } = s := by
  rw [← h]

/-- A quiet link stays so when the clocks and the commands' phases change. -/
theorem LinkQuiet.of_fields {s t : State} (h : LinkQuiet s) (hdue : NoneDue t) (hlink : t.link = s.link) (hsess : t.sessions = s.sessions)
    (hpath : t.pathS = s.pathS) : LinkQuiet t := by
  obtain ⟨-, htx, hrx, hchecks, hwatch, hoff⟩ := h
  refine ⟨hdue, by rw [hlink, htx], by rw [hlink, hrx], by rw [hsess, hchecks], ?_, by rw [hpath, hoff]⟩
  unfold watching activeSessions at *
  rwa [hsess]

theorem modCk_due {s : State} (h : NoneDue s) (n : Nat) (f : CkOut → CkOut) : NoneDue (modCk s n f) := h

theorem runTuneCpll_ck {s : State} {c : Cmd} (hquiet : LinkQuiet s) (hstage : s.clocks.stage = .idle) (h8 : par c 8 = 2) : runTuneCpll s c =
    complete c.seq 0x00 [lowByte s.clocks.ref.freq, lowByte s.clocks.ref.mult, 0, 0]
      (modCk (runs s c.seq) (par c 12) fun x => { x with div := parN c 14 2, delay := par c 16, en := bit (par c 13) 0 }) := by
  obtain ⟨href, hck, hstep⟩ := doParts_two h8
  obtain ⟨u, hu⟩ : ∃ u, modCk (runs s c.seq) (par c 12) (fun x => { x with div := parN c 14 2, delay := par c 16, en := bit (par c 13) 0 }) = u := ⟨_, rfl⟩
  have happly : applyCk (setPhase s c.seq .running) c = u := (if_pos hck).trans hu
  have hplain : runsRefChange u c = false := by simp only [runsRefChange, href, Bool.false_and]
  have hidle : u.clocks.stage = .idle := by rw [← hu, stage_modCk]; exact hstage
  have huquiet : LinkQuiet u := hquiet.of_fields (by rw [← hu]; exact modCk_due (runs_noneDue hquiet.1 _) _ _) (by rw [← hu]; rfl) (by rw [← hu]; rfl)
    (by rw [← hu]; rfl)
  have hfreq : u.clocks.ref = s.clocks.ref := by rw [← hu, ref_modCk]; rfl
  simp only [runTuneCpll, happly, hplain, Bool.false_eq_true, if_false]
  rw [withStage_idle hidle, endCpllTune_plain hstep, hfreq, hu, serve_quiet (huquiet.complete _ _ _)]

/-! The lock of an arrangement (R151) -/

theorem synthsDone_last {s : State} {q : Option Nat} {failed : Bool} (hstage : s.clocks.stage = .synths q failed) (hL : s.pathL.synth.locking = false)
    (hV : s.pathV.synth.locking = false) (hS : s.pathS.synth.locking = false) : synthsDone s = finishRef q failed s := by
  simp only [synthsDone, hstage, hL, hV, hS, Bool.or_self, Bool.false_eq_true, if_false]

theorem settleLanes_none {s : State} (h : s.lanes = []) : settleLanes s = s := by
  rw [settleLanes, h, List.map_nil, ← h]

/-- The clocks with the counter back on CK7 and no reference change. -/
def clocksBack (c : Clocks) : Clocks := { c with scOnX32 := false, scRem := 0, stage := .idle }

theorem finishRef_eq {s : State} {q : Nat} {c : Cmd} (h : PathsOff s) (hlanes : s.lanes = []) (hfind : findCmd s q = some c) :
    finishRef (some q) false s = endCpllTune { s with clocks := clocksBack s.clocks } c := by
  have hoff : PathsOff { s with clocks := clocksBack s.clocks } := h.of_paths fun _ => rfl
  have htrack : settleLanes (forAll [0, 1, 2] (fun s p => trackZeros p s)
      { counterBack s with clocks := { (counterBack s).clocks with stage := .idle } }) = { s with clocks := clocksBack s.clocks } :=
    (congrArg settleLanes hoff.trackAll).trans (settleLanes_none (by exact hlanes))
  have hfind' : findCmd { s with clocks := clocksBack s.clocks } q = some c := hfind
  simp only [finishRef, htrack, hfind', Bool.false_eq_true, if_false]

/-- The lock of a TUNE's arrangement, with the paths OFF: the TUNE goes on at once (R151). -/
theorem execCpllLock_locks {s : State} {seq : Nat} {prev : Option RefArr} {c : Cmd} (h : PathsOff s) (hlanes : s.lanes = []) (hquiet : LinkQuiet s)
    (hfind : findCmd s seq = some c) (h2 : bit (par c 8) 2 = false) (hstage : s.clocks.stage = .locking (some seq) prev)
    (hL : s.pathL.synth.locking = false) (hV : s.pathV.synth.locking = false) (hS : s.pathS.synth.locking = false) :
    exec (.cpllLock true) s = .next (complete seq 0x00 [lowByte s.clocks.ref.freq, lowByte s.clocks.ref.mult, 0, 0] { s with
      clocks := { s.clocks with fault := false, locked := true, refCheck := s.modes.x32Ok, scOnX32 := false, scRem := 0, stage := .idle } }) := by
  have hseq : c.seq = seq := findCmd_seq hfind
  obtain ⟨k, hk⟩ : ∃ k : Clocks, { s.clocks with fault := false, locked := true, refCheck := s.modes.x32Ok, stage := .synths (some seq) false } = k :=
    ⟨_, rfl⟩
  have hoff : PathsOff { s with clocks := k } := h.of_paths fun _ => rfl
  have hrelock : relockAll (some seq) false (cpllLocked { s with clocks := { s.clocks with fault := false, stage := .locking (some seq) prev } }) =
      synthsDone (forAll [0, 1, 2] (fun s p => relockPath p s) { s with clocks := k }) := by
    rw [← hk]
    rfl
  have hback : clocksBack k =
      { s.clocks with fault := false, locked := true, refCheck := s.modes.x32Ok, scOnX32 := false, scRem := 0, stage := .idle } := by
    rw [← hk]
    rfl
  have hkstage : k.stage = .synths (some seq) false := by rw [← hk]
  have hquiet' : LinkQuiet { s with clocks := clocksBack k } := hquiet.of_fields (by exact hquiet.1) rfl rfl rfl
  simp only [exec, execCpllLock, hstage, if_true, hrelock, hoff.relockAll]
  rw [synthsDone_last (s := { s with clocks := k }) hkstage hL hV hS, finishRef_eq hoff hlanes (by exact hfind), endCpllTune_plain h2, hseq,
    serve_quiet (hquiet'.complete _ _ _), hback]

/-- Without a lock the arrangement before it is sought again (R151). -/
theorem execCpllLock_restores {s : State} {seq : Nat} {r : RefArr} (hstage : s.clocks.stage = .locking (some seq) (some r)) :
    exec (.cpllLock false) s = .next { s with clocks := { s.clocks with ref := r, stage := .restoring (some seq) } } := by
  simp only [exec, execCpllLock, hstage, Bool.false_eq_true, if_false, Option.getD_some]

theorem portsClockFault_stopped {s : State} (h : anySapRuns s = false) : portsClockFault s = s := by
  obtain ⟨h0, h1⟩ := Bool.or_eq_false_iff.mp h
  simp only [portsClockFault, forAll, List.foldl_cons, List.foldl_nil, h0, h1, Bool.false_eq_true, if_false]

/-- When that fails too FAULT is set and the TUNE completes with NO_LOCK 3 (R151). -/
theorem execCpllLock_fault {s : State} {seq : Nat} (h : PathsOff s) (hquiet : LinkQuiet s) (hstage : s.clocks.stage = .restoring (some seq))
    (hsap : anySapRuns s = false) (hready : s.power.phase = .ready) : exec (.cpllLock false) s = .next (complete seq 0x52 [3] { s with
      clocks := { s.clocks with fault := true, locked := false, stage := .idle }
      port := { s.port with irqStat0 := s.port.irqStat0 ||| 0x20 } }) := by
  have hraise := raise_clockEvent_ready (s := { s with clocks := { s.clocks with fault := true, locked := false, stage := .idle } }) hready
  obtain ⟨u, hu⟩ : ∃ u : State, { s with
      clocks := { s.clocks with fault := true, locked := false, stage := .idle }
      port := { s.port with irqStat0 := s.port.irqStat0 ||| 0x20 } } = u := ⟨_, rfl⟩
  have hoff : PathsOff u := h.of_paths fun p => by rw [← hu]; rfl
  have hquiet' : LinkQuiet u := hquiet.of_fields (by rw [← hu]; exact hquiet.1) (by rw [← hu]) (by rw [← hu]) (by rw [← hu])
  have hfault : cpllFault s = u := by
    have hports : portsClockFault u = u := portsClockFault_stopped (by rw [← hu]; exact hsap)
    rw [cpllFault, hraise, hu, hports]
    exact hoff.failAll
  simp only [exec, execCpllLock, hstage, Bool.false_eq_true, if_false, hfault, hu]
  rw [serve_quiet (hquiet'.complete _ _ _)]

/-! Phase steps (R148) -/

theorem ckOf_modCk (s : State) (n : Nat) (f : CkOut → CkOut) : ckOf (modCk s n f) n = f (ckOf s n) := by
  rcases n with _ | _ | _ | _ | _ | _ | n <;> rfl

theorem ckOf_congr {s t : State} (h : s.clocks = t.clocks) (n : Nat) : ckOf s n = ckOf t n := by
  unfold ckOf
  rw [h]

/-- Steps applied are no longer pending. -/
theorem stepCk_spec (k : Nat) (x : CkOut) : (stepCk k x).pend.natAbs = x.pend.natAbs - k ∧ (stepCk k x).applied + (stepCk k x).pend = x.applied + x.pend := by
  unfold stepCk
  by_cases hneg : x.pend < 0
  · simp only [hneg, if_true]
    omega
  · simp only [hneg, if_false]
    omega

theorem applySteps_spec (ck k : Nat) (s : State) : applySteps ck k s = { s with clocks := (applySteps ck k s).clocks, saps := (applySteps ck k s).saps } ∧
    (applySteps ck k s).clocks.ref = s.clocks.ref ∧ ckOf (applySteps ck k s) ck = stepCk k (ckOf s ck) := by
  have hmove : ∀ (d : Int) (t : State), (movePort ck d t).clocks = t.clocks ∧ movePort ck d t = { t with saps := (movePort ck d t).saps } := by
    intro d t
    unfold movePort
    split <;> exact ⟨rfl, rfl⟩
  obtain ⟨hclocks, hframe⟩ := hmove ((ckOf (modCk s ck (stepCk k)) ck).applied - (ckOf s ck).applied) (modCk s ck (stepCk k))
  refine ⟨?_, ?_, ?_⟩
  · rw [applySteps, hframe]
    rfl
  · exact (congrArg Clocks.ref hclocks).trans (ref_modCk _ _ _)
  · exact (ckOf_congr hclocks ck).trans (ckOf_modCk s ck (stepCk k))

/-- Settles O27. -/
theorem cpllIsTuned : Obligations.CpllIsTuned := by
  refine fun s hquiet hL hV hlanes hbL hbV hbS => ?_
  have hoff : PathsOff s := ⟨fun | 0 => hL | 1 => hV | n + 2 => hquiet.2.2.2.2.2, fun | 0 => hbL | 1 => hbV | n + 2 => hbS⟩
  refine ⟨fun seq c hr hn hz hm3 hm6 hstage => ⟨fun h8 h9 h10 h11 hother hx hsap hbusy => ?_, fun h8 h12 h12' h13 h14 h14' h16 hfree => ?_⟩,
    fun seq prev c hfind h2 hstage hlL hlV hlS => execCpllLock_locks hoff hlanes hquiet hfind h2 hstage hlL hlV hlS,
    fun seq r hstage => execCpllLock_restores hstage, fun seq hstage hsap hready => execCpllLock_fault hoff hquiet hstage hsap hready,
    fun ck k c hrun hck hpend hk hstop => ?_⟩
  · rw [execTuneCpll_runs hr hn hstage (checkTuneCpll_ref hn hr.2 hz hm3 hm6 h8 h9 h10 h11 hx hsap) (by rw [hbusy, Bool.and_false]),
      runTuneCpll_ref hoff hquiet.2.1 hx h8 hother, seq_of_mayRun hr]
  · have hplain : runsRefChange s c = false := by rw [runsRefChange, (doParts_two h8).1, Bool.false_and]
    rw [execTuneCpll_runs hr hn hstage (checkTuneCpll_ck hn hr.2 hz hm3 hm6 h8 ⟨h12, h12'⟩ h13 ⟨h14, h14'⟩ h16 hfree) (by rw [hplain, Bool.false_and]),
      runTuneCpll_ck hquiet hstage h8, seq_of_mayRun hr]
  · obtain ⟨hframe, href, hout⟩ := applySteps_spec ck k s
    obtain ⟨hpending, hsum⟩ := stepCk_spec k (ckOf s ck)
    have hexec : exec (.phaseStepsApplied ck k) s = .next (if (ckOf (applySteps ck k s) ck).pend = 0 then
        complete c.seq 0x00 (cpllResult (applySteps ck k s) (ckOf (applySteps ck k s) ck).applied) (applySteps ck k s) else applySteps ck k s) := by
      have hcond : (decide (par c 12 = ck) && (ckOf s ck).pend != 0 && decide (0 < k)) = true := by simp [hck, hpend, hk]
      simp only [exec, execPhaseStepsApplied, hrun, hcond, hstop, if_true]
    refine ⟨applySteps ck k s, hframe, href, by rw [hout, hpending], by rw [hout, hsum], fun hlast => ?_, fun hmore => ?_⟩
    · rw [hexec, if_pos (by rw [hout]; omega)]
    · rw [hexec, if_neg (by rw [hout]; omega)]

end Sys2Proof.Machine

/-!
PROOFS. The self-tests (O32).
-/
namespace Sys2Proof.Machine

/-! SELFTEST (Table 9-5) -/

section
variable {s : State} {seq : Nat} {c : Cmd} (hr : MayRun s seq 0x31 c) (hm3 : 3 ≤ s.modes.modeNow) (hm6 : s.modes.modeNow ≤ 6) (h9 : par c 9 < 4)
  (hz : ZeroBytes c 10 31)
include hr hm3 hm6 h9 hz

/-- The checks of a SELFTEST of a known object and its type are those of the lane that it takes. -/
theorem checkSelftest_eq {k : Nat} (hn : Names c k) (hk : [0, 1, 2, 11].contains k = true) (htype : testTypeOk c = true) : checkSelftest s c =
    needState (cmdKind c != 1 || (laneOf s (cmdIdx c)).hold == .free) (holdCode (laneOf s (cmdIdx c)).hold) := by
  have hmode : s.modes.modeNow ∈ (if cmdKind c == 1 || cmdKind c == 2 then [3, 4, 5, 6] else [1, 2, 3, 4, 5, 6]) := by
    split <;> simp only [List.mem_cons, List.not_mem_nil, or_false] <;> omega
  simp only [checkSelftest, List.cons_append, List.append_assoc, checks_rest hn hk hr.2, List.nil_append, htype, decide_eq_true h9]
  rw [needField_eq_none.mpr rfl, needField_eq_none.mpr rfl, firstFail_none, firstFail_none, firstFail_append_none (needZeros_none hz),
    needMode_eq_none.mpr hmode, firstFail_none, firstFail_single]

theorem execSelftest_runs {k : Nat} (hn : Names c k) (hk : [0, 1, 11].contains k = true) (htype : testTypeOk c = true)
    (hlane : k = 1 → (laneOf s (cmdIdx c)).hold = .free) : exec (.selftest seq) s = .next (startTest c (runs s seq)) := by
  have hcheck : checkSelftest s c = none := by
    rw [checkSelftest_eq hr hm3 hm6 h9 hz hn (by revert hk; simp; omega) htype, needState_eq_none, hn.1]
    by_cases h1 : k = 1
    · simp [hlane h1]
    · simp [h1]
  have hpath : (cmdKind c == 2 && pathWaits s (cmdIdx c) (bit (par c 9) 0)) = false := by
    have : (cmdKind c == 2) = false := by
      rw [hn.1]
      revert hk
      simp
      omega
    rw [this, Bool.false_and]
  simp only [exec, execSelftest, hr.1, hcheck, hpath, Bool.false_eq_true, if_false]
  rfl

theorem execSelftest_bound (hn : Names c 1) (h8 : par c 8 = 0x10) (hhost : (laneOf s (cmdIdx c)).hold = .host) :
    exec (.selftest seq) s = .next (complete seq 0x17 [1] s) := by
  have hcheck : checkSelftest s c = some (0x17, [1]) := by
    rw [checkSelftest_eq hr hm3 hm6 h9 hz hn rfl (by simp [testTypeOk, hn.1, h8]), hn.1, hhost]
    rfl
  simp only [exec, execSelftest, hr.1, hcheck]

end

theorem startTest_unit {c : Cmd} (h : cmdKind c ≠ 1 ∧ cmdKind c ≠ 2) (s : State) : startTest c s = s := by
  unfold startTest
  split
  · next h1 => exact absurd h1 h.1
  · next h2 => exact absurd h2 h.2
  · rfl

theorem startTest_lane {c : Cmd} (h : cmdKind c = 1) (s : State) :
    startTest c s = modLane s (cmdIdx c) fun x => { x with hold := .test } := by simp only [startTest, h]

/-! SELFTEST_END (R208) -/

/-- The block of the self-tests once one has ended. -/
def testedCal (a : Cal) (m : TestMeas) : Cal := { a with
  testRuns := min 65535 (a.testRuns + 1), testFails := min 65535 (a.testFails + flagNat !m.pass),
  lastTestFault := if m.pass then a.lastTestFault else m.fault % 256 }

section
variable {s : State} {seq : Nat} {c : Cmd} {m n : TestMeas} (hfind : findCmd s seq = some c) (hop : cmdOp c = 0x31) (hphase : c.phase = .running)
  (hout : testOutcome s c m = n)
include hfind hop hphase hout

theorem execSelftestEnd_eq : exec (.selftestEnd seq m) s = .next (
    if n.pass then complete seq 0x00 ([lowByte (par c 8), lowByte n.units, 0, 0] ++ leBytes n.signature 4)
      (endTest c { s with cal := testedCal s.cal n })
    else complete seq 0x51 ([lowByte (par c 8), lowByte n.unit, lowByte n.index, lowByte n.fault] ++ leBytes n.signature 4)
      (endTest c { s with cal := testedCal s.cal n })) := by
  have hcond : (cmdOp c == 0x31 && !(c.phase == .waiting || c.phase == .abortWaiting)) = true := by
    rw [hop, hphase]
    rfl
  simp only [exec, execSelftestEnd, hfind, hcond, if_true, hout]
  rfl

theorem execSelftestEnd_passed (hkind : cmdKind c = 0) (hpass : n.pass = true) : exec (.selftestEnd seq m) s = .next (complete seq 0x00
    ([lowByte (par c 8), lowByte n.units, 0, 0] ++ leBytes n.signature 4)
    { s with cal := { s.cal with testRuns := min 65535 (s.cal.testRuns + 1), testFails := min 65535 s.cal.testFails } }) := by
  rw [execSelftestEnd_eq hfind hop hphase hout, if_pos hpass]
  simp only [endTest, hkind, testedCal, hpass, if_true]
  rfl

theorem execSelftestEnd_failed (hkind : cmdKind c = 0 ∨ cmdKind c = 11) (hfail : n.pass = false) : exec (.selftestEnd seq m) s = .next (complete seq 0x51
    ([lowByte (par c 8), lowByte n.unit, lowByte n.index, lowByte n.fault] ++ leBytes n.signature 4)
    { s with cal := { s.cal with testRuns := min 65535 (s.cal.testRuns + 1), testFails := min 65535 (s.cal.testFails + 1),
                                 lastTestFault := n.fault % 256 } }) := by
  rw [execSelftestEnd_eq hfind hop hphase hout, if_neg (by rw [hfail]; decide)]
  rcases hkind with hkind | hkind
  all_goals
    simp only [endTest, hkind, testedCal, hfail, Bool.not_false]
    rfl

end

theorem testOutcome_measured {s : State} {c : Cmd} (hkind : cmdKind c = 0) (h : par c 8 ≠ 3 ∨ s.modes.modeNow = 1) (m : TestMeas) :
    testOutcome s c m = m := by
  have hcond : (cmdKind c = 0 && par c 8 = 3 && modeNow s != 1 : Bool) = false := by
    rcases h with h | h <;> simp [h, modeNow]
  have h11 : ¬ cmdKind c = 11 := by omega
  simp only [testOutcome, if_neg h11, hcond, Bool.false_eq_true, if_false]

/-- A FABRIC test compares PACE with the minimum of Table 22-5. -/
theorem testOutcome_fabric {s : State} {c : Cmd} {num den : Nat} (hkind : cmdKind c = 0) (h3 : par c 8 = 3) (hmode : s.modes.modeNow ≠ 1)
    (hmin : minPace s.fabric.vcore s.cal.temp = some (num, den)) (m : TestMeas) :
    testOutcome s c m = { m with pass := decide (num ≤ den * s.fabric.pace), fault := 6 } := by
  have hcond : (cmdKind c = 0 && par c 8 = 3 && modeNow s != 1 : Bool) = true := by simp [hkind, h3, modeNow, hmode]
  have h11 : ¬ cmdKind c = 11 := by omega
  simp only [testOutcome, if_neg h11, hcond, if_true, paceSound, hmin]

theorem testOutcome_cellar {s : State} {c : Cmd} (hkind : cmdKind c = 11) (hbad : badRecords s.cellar ≠ 0) (m : TestMeas) :
    testOutcome s c m = { m with pass := false, fault := 5, signature := badRecords s.cellar } := by
  simp only [testOutcome, if_pos hkind, if_neg hbad]

/-! A lane that is freed -/

theorem laneOf_complete (seq status : Nat) (result : List Byte) (s : State) (n : Nat) : laneOf (complete seq status result s) n = laneOf s n := by
  rw [show complete seq status result s = _ from complete_frame seq status result s]
  rfl

theorem countAbandoned_lanes (n : Nat) (s : State) : (countAbandoned n s).lanes = s.lanes := rfl

/-- A freed lane is FREE, and no other lane changes. -/
theorem laneOf_freeLane (n : Nat) (s : State) (k : Nat) : laneOf (freeLane n s) k = if k = n then keepStats (laneOf s n) else laneOf s k := by
  have hengine : ∀ kind idx, (releaseEngine kind idx s).lanes = s.lanes := fun kind idx => by
    unfold releaseEngine
    split <;> rfl
  have hlanes : (freeLane n s).lanes = tabSet s.lanes n (keepStats (laneOf s n)) :=
    congrArg (fun t => tabSet t n (keepStats (laneOf s n))) (hengine _ _)
  rw [laneOf, hlanes]
  by_cases hk : k = n
  · rw [if_pos hk, hk, tabGet_tabSet_same]
  · rw [if_neg hk, tabGet_tabSet_ne _ _ _ hk, laneOf]

theorem freeLane_hold (n : Nat) (s : State) : (laneOf (freeLane n s) n).hold = .free := by
  rw [laneOf_freeLane, if_pos rfl]
  rfl

/-- Settles O32. -/
theorem selfTestsReport : Obligations.SelfTestsReport := by
  intro s seq c m
  refine ⟨fun hr hm3 hm6 h9 hz => ⟨fun hn h1 h3 => ?_, fun hn h8 => ?_, fun hn h8 hfree => ?_, fun hn h8 hhost =>
      execSelftest_bound hr hm3 hm6 h9 hz hn h8 hhost⟩,
    fun hfind hop hphase => ⟨fun hkind h hpass => execSelftestEnd_passed hfind hop hphase (testOutcome_measured hkind h m) hkind hpass,
      fun num den hkind h3 hmode hmin => ⟨fun hle => ?_, fun hlt => ?_⟩,
      fun hkind h hfail => execSelftestEnd_failed hfind hop hphase (testOutcome_measured hkind h m) (.inl hkind) hfail,
      fun hkind hbad => ?_, fun hkind hpass => ?_⟩⟩
  · rw [execSelftest_runs hr hm3 hm6 h9 hz hn rfl (by simp [testTypeOk, hn.1, h1, h3]) (fun h => by omega), startTest_unit (by have := hn.1; omega)]
  · rw [execSelftest_runs hr hm3 hm6 h9 hz hn rfl (by simp [testTypeOk, hn.1, h8]) (fun h => by omega), startTest_unit (by have := hn.1; omega)]
  · rw [execSelftest_runs hr hm3 hm6 h9 hz hn rfl (by simp [testTypeOk, hn.1, h8]) (fun _ => hfree), startTest_lane hn.1]
  · have := execSelftestEnd_passed hfind hop hphase (testOutcome_fabric hkind h3 hmode hmin m) hkind (decide_eq_true hle)
    rwa [h3] at this
  · have := execSelftestEnd_failed hfind hop hphase (testOutcome_fabric hkind h3 hmode hmin m) (.inl hkind) (decide_eq_false (Nat.not_le.mpr hlt))
    rwa [h3] at this
  · have := execSelftestEnd_failed hfind hop hphase (testOutcome_cellar hkind hbad m) (.inr hkind) rfl
    exact this
  · have hout : testOutcome s c m = m := by
      have h11 : ¬ cmdKind c = 11 := by omega
      have h0 : ¬ cmdKind c = 0 := by omega
      simp only [testOutcome, if_neg h11, decide_eq_false h0, Bool.false_and, Bool.false_eq_true, if_false]
    refine ⟨_, (execSelftestEnd_eq hfind hop hphase hout).trans (congrArg _ (if_pos hpass)), ?_⟩
    rw [laneOf_complete, endTest, hkind]
    exact freeLane_hold _ _

end Sys2Proof.Machine

/-!
PROOFS. The calibrations (O31).
-/
namespace Sys2Proof.Machine

/-! CAL_RUN -/

theorem checkCalRun_none {s : State} {c : Cmd} {k : Nat} (hn : Names c k) (hk : [2, 3, 7].contains k = true) (hh : HeaderOk c) (htype : calTypeOk c = true)
    (h9 : par c 9 < 4) (hz : ZeroBytes c 10 31) (hm3 : 3 ≤ s.modes.modeNow) (hm6 : s.modes.modeNow ≤ 6) : checkCalRun s c = none := by
  simp only [checkCalRun, List.cons_append, List.append_assoc]
  refine checks_pass hn hk hh ?_
  simp only [List.nil_append, List.forall_mem_cons, List.forall_mem_append, needField_eq_none, needMode_eq_none, htype, decide_eq_true h9, true_and]
  exact ⟨needZeros_none hz, slotMode_mem ⟨hm3, hm6⟩, by simp⟩

theorem execCalRun_eq {s : State} {seq : Nat} {c : Cmd} (hr : MayRun s seq 0x30 c) (hcheck : checkCalRun s c = none) :
    exec (.calRun seq) s = .next (if calWaits s c then s else startJob c (runs s seq)) := by
  simp only [exec, execCalRun, hr.1, hcheck]
  rfl

theorem endTastings_none {s : State} (h : s.taste.tastings = []) (cause : Nat) (which : Nat → Tasting → Bool) : endTastings cause which s = s := by
  simp [endTastings, h, forAll]

theorem LinkQuiet.pathFrame {s t : State} {p : Nat} (h : LinkQuiet s) (hp : p < 2) (hf : PathFrame p s t) : LinkQuiet t := by
  refine h.of_fields (fun c hc => h.1 c (by rwa [← hf.rings])) hf.link hf.sessions ?_
  obtain ⟨ls, x, rfl⟩ := hf
  rcases (by omega : p = 0 ∨ p = 1) with rfl | rfl <;> rfl

/-- A change of path L's or V's state leaves the link quiet. -/
theorem LinkQuiet.setFe {s : State} {p : Nat} (h : LinkQuiet s) (hp : p < 2) (st : FeState) : LinkQuiet (setFe p st s) := by
  obtain ⟨u, hpath, hring, heq⟩ := setFe_frames p st s
  have hu := h.pathFrame hp hpath
  refine hu.of_ringFrame ?_ hring
  rcases heq with heq | heq
  · rw [heq]
    exact hu.1
  · rw [heq]
    unfold tuneBoundary
    split
    · split
      · exact complete_noneDue hu.1 _ _ _
      · exact hu.1
    · exact hu.1

/-- A path that a calibration takes is in CAL with its job (R194, R196). -/
theorem takePath_spec {s : State} {p : Nat} (hp : p < 2) (hquiet : LinkQuiet s) (htaste : s.taste.tastings = []) (job : CalJob) :
    (pathOf (takePath p job s) p).fe.state = .cal ∧ (pathOf (takePath p job s) p).cal = (pathOf s p).cal ∧
      (pathOf (takePath p job s) p).job = some job := by
  have hp2 : ¬ p = 2 := by omega
  obtain ⟨n, b, hfe⟩ := pathOf_setFe_state p .cal (modSynth s p fun x => if x.locking then stopSynth x else x)
  rw [pathOf_modSynth_same] at hfe
  have hserved : LinkQuiet (modPath (setFe p .cal (modSynth s p fun x => if x.locking then stopSynth x else x)) p fun x => { x with job := some job }) :=
    ((hquiet.pathFrame hp (modSynth_pathFrame ..)).setFe hp .cal).pathFrame hp (modPath_pathFrame ..)
  have htake : takePath p job s =
      modPath (setFe p .cal (modSynth s p fun x => if x.locking then stopSynth x else x)) p fun x => { x with job := some job } := by
    simp only [takePath, endTastings_none htaste, if_neg hp2]
    exact serve_quiet hserved
  rw [htake, pathOf_modPath_same, hfe]
  exact ⟨rfl, rfl, rfl⟩

theorem modSynth_id (s : State) (p : Nat) : modSynth s p id = s := setPath_self s p

/-- A CAL_RUN of path L or V on its object (R156, R158). -/
theorem startJob_path {s : State} {c : Cmd} (hkind : cmdKind c = 2) (hp : cmdIdx c < 2) (hquiet : LinkQuiet s) (htaste : s.taste.tastings = []) :
    (pathOf (startJob c s) (cmdIdx c)).fe.state = .cal ∧ (pathOf (startJob c s) (cmdIdx c)).cal.lastType = par c 8 ∧
      (pathOf (startJob c s) (cmdIdx c)).job =
        some { seq := c.seq, typ := par c 8, items := calItems (par c 8) (cmdIdx c), written := 0, store := bit (par c 9) 1 } := by
  obtain ⟨f, hstart⟩ : ∃ f : Synth → Synth, startJob c s = takePath (cmdIdx c)
      { seq := c.seq, typ := par c 8, items := calItems (par c 8) (cmdIdx c), written := 0, store := bit (par c 9) 1 }
      (modSynth (modCal s (cmdIdx c) fun x => { x with lastType := par c 8 }) (cmdIdx c) f) := by
    simp only [startJob, hkind]
    by_cases h5 : par c 8 = 5
    · exact ⟨fun x => { x with edges := [] }, by simp [h5]⟩
    · by_cases h46 : par c 8 = 4 ∨ par c 8 = 6
      · exact ⟨takeTable, by simp [h5, h46]⟩
      · exact ⟨id, by simp [h5, h46, modSynth_id]⟩
  have hq : LinkQuiet (modSynth (modCal s (cmdIdx c) fun x => { x with lastType := par c 8 }) (cmdIdx c) f) :=
    (hquiet.pathFrame hp (modPath_pathFrame ..)).pathFrame hp (modSynth_pathFrame ..)
  obtain ⟨hstate, hcal, hjob⟩ := takePath_spec hp hq (by rw [modSynth_taste, modCal_taste]; exact htaste)
    { seq := c.seq, typ := par c 8, items := calItems (par c 8) (cmdIdx c), written := 0, store := bit (par c 9) 1 }
  rw [hstart]
  refine ⟨hstate, ?_, hjob⟩
  rw [hcal, pathOf_modSynth_same, pathOf_modCal_same]

theorem setActive_none {s : State} (h : s.link.txs = []) (f : TxJob → TxJob) : setActive f s = s := by
  rw [setActive, h, List.map_nil, ← h]

/-- A CAL_RUN of the link's receive part takes the link alone (R195). -/
theorem startJob_link {s : State} {c : Cmd} (hkind : cmdKind c = 7) (h8 : par c 8 = 0x20) (hquiet : LinkQuiet s) :
    (startJob c s).pathS.cal.lastType = 0x20 ∧ (startJob c s).cal = { s.cal with
      linkJob := some { seq := c.seq, typ := 0x20, items := [(4, 0)], written := 0, store := bit (par c 9) 1 } } := by
  obtain ⟨u, hu⟩ : ∃ u : State, modSynth { modCal s 2 (fun x => { x with lastType := 0x20 }) with cal := { s.cal with
      linkJob := some { seq := c.seq, typ := 0x20, items := [(4, 0)], written := 0, store := bit (par c 9) 1 } } } 2
        (fun x => { x with txCheck := none }) = u := ⟨_, rfl⟩
  obtain ⟨hdue, htx, hrx, hchecks, hwatch, hoff⟩ := hquiet
  have hq : LinkQuiet u := by
    rw [← hu]
    exact ⟨hdue, htx, hrx, hchecks, hwatch, hoff⟩
  have hhold : holdActive { modCal s 2 (fun x => { x with lastType := 0x20 }) with cal := { s.cal with
      linkJob := some { seq := c.seq, typ := 0x20, items := [(4, 0)], written := 0, store := bit (par c 9) 1 } } } = u := by
    rw [holdActive, setActive_none (by exact htx), hu]
  have hstart : startJob c s = u := by
    simp only [startJob, hkind, h8]
    rw [if_neg (by decide)]
    exact (congrArg serve hhold).trans (serve_quiet hq)
  rw [hstart, ← hu]
  exact ⟨rfl, rfl⟩

/-! Items (R198) -/

theorem endSynthCal_other {typ : Nat} (h : typ = 0x10) (obj : Nat) (s : State) : endSynthCal obj typ s = s := by
  subst h
  rfl

theorem noteDone_other {typ : Nat} (h : typ = 0x10) (obj : Nat) (s : State) : noteDone obj typ s = s := by
  subst h
  rfl

/-- The oscillator's calibration ends: it is released and its command completes (R199, R200). -/
theorem calDone_x32 {job : CalJob} (htyp : job.typ = 0x10) (hstore : job.store = false) (s : State) :
    calDone 3 job s = complete job.seq 0x00 ([0x10, lowByte job.written] ++ tempBytes s ++ [0]) { s with cal := { s.cal with x32Job := none } } := by
  have hresult : calResult s job = [0x10, lowByte job.written] ++ tempBytes s := by
    rw [calResult, htyp]
    rfl
  unfold calDone
  rw [endSynthCal_other htyp, noteDone_other htyp, hstore]
  simp only [hresult]
  rfl

section
variable {s : State} {job : CalJob} {m : CalMeas} (hjob : s.cal.x32Job = some job) (htyp : job.typ = 0x10) (hitems : job.items = [(8, 0)])
include hjob htyp hitems

/-- The oscillator's one item, measured: the calibration completes with OK (R199). -/
theorem execCalItemEnd_x32 (hstore : job.store = false) (hconv : m.converged = true) (hstop : stopCause s job.seq = none) :
    exec (.calItemEnd 3 m) s = .next (complete job.seq 0x00 ([0x10, lowByte job.written] ++ tempBytes s ++ [0])
      { s with cal := { s.cal with x32Err := satInt 2 m.x, x32Temp := s.cal.tempAvg, x32Job := none } }) := by
  have hwrite : ∀ b i, writeItem 3 job.typ b i m s = { s with cal := { s.cal with x32Err := satInt 2 m.x, x32Temp := s.cal.tempAvg } } := fun b i => by
    rw [writeItem, if_pos htyp]
  have hobj : objectJob s 3 = some job := hjob
  have hpaused : itemPaused s 3 8 = false := rfl
  have hempty : ([] : List (Nat × Nat)).isEmpty = true := rfl
  have hstop' : stopCause { s with cal := { s.cal with x32Err := satInt 2 m.x, x32Temp := s.cal.tempAvg } } job.seq = none := hstop
  simp only [exec, execCalItemEnd, hobj, hitems, hpaused, hconv, hwrite, hstop', hempty, Bool.not_true, Bool.false_eq_true, if_false, if_true]
  exact congrArg _ (calDone_x32 (job := { job with items := [], written := _ }) htyp hstore _)

/-- Without convergence it completes with CAL_FAIL, its bit number free (log entry 37). -/
theorem execCalItemEnd_x32Fails (hconv : m.converged = false) : ∃ b, exec (.calItemEnd 3 m) s = .next (complete job.seq 0x50
    ([0x10, b, 0, lowByte m.reason] ++ tempBytes s) { s with fresh := s.fresh + 1, cal := { s.cal with x32Job := none } }) := by
  have hobj : objectJob s 3 = some job := hjob
  have hpaused : itemPaused s 3 8 = false := rfl
  simp only [exec, execCalItemEnd, hobj, hitems, hpaused, hconv, Bool.not_false, Bool.false_eq_true, if_false, if_true]
  simp only [calFailed, if_true, show (8 : Nat) = noBit from rfl, htyp]
  exact ⟨_, rfl⟩

end

/-- An item of an OFFSET calibration writes its trim with its CAL_VALID and CAL_FIELD bits, and the next begins. -/
theorem execCalItemEnd_offset {s : State} {p i : Nat} {job : CalJob} {rest : List (Nat × Nat)} {m : CalMeas} (hp : p < 2)
    (hjob : (pathOf s p).job = some job) (hitems : job.items = (0, i) :: rest) (hrest : rest ≠ []) (htyp : job.typ = 0x01)
    (hconv : m.converged = true) (hblank : blanked s p = false) (hstop : stopCause s job.seq = none) :
    exec (.calItemEnd p m) s = .next (modPath (modCal s p (writeCalItem 0 i m)) p fun x =>
      { x with job := some { job with items := rest, written := job.written ||| 1 } }) := by
  have hobj : objectJob s p = some job := by rcases (by omega : p = 0 ∨ p = 1) with rfl | rfl <;> exact hjob
  have hpaused : itemPaused s p 0 = false := by simp [itemPaused, hblank]
  have hwrite : writeItem p job.typ 0 i m s = modCal s p (writeCalItem 0 i m) := by
    have hpath : jobPath p = p := if_neg (by omega)
    simp only [writeItem, htyp, hpath]
    rfl
  have hstop' : stopCause (modCal s p (writeCalItem 0 i m)) job.seq = none := by
    unfold stopCause findCmd at *
    rwa [modCal_rings]
  have hset : ∀ j t, setObjectJob p j t = modPath t p fun x => { x with job := some j } := fun j t => by
    rcases (by omega : p = 0 ∨ p = 1) with rfl | rfl <;> rfl
  have hmore : rest.isEmpty = false := by simpa using hrest
  simp only [exec, execCalItemEnd, hobj, hitems, hpaused, hconv, hwrite, hstop', hmore, hset, Bool.not_true, Bool.false_eq_true, if_false]
  rfl

/-! The recalibration of a synthesiser (R202, R203) -/

theorem PathFrame.paths {p : Nat} {s t : State} (h : PathFrame p s t) (hp : p < 3) :
    t = { s with pathL := t.pathL, pathV := t.pathV, pathS := t.pathS, lanes := t.lanes } := by
  obtain ⟨ls, x, rfl⟩ := h
  rcases (by omega : p = 0 ∨ p = 1 ∨ p = 2) with rfl | rfl | rfl <;> rfl

theorem execSynRecal_eq {s : State} {p b : Nat} (hp : p < 3) (hruns : recalRuns s p = true) : exec (.synRecal p (some b)) s = .next (
    modSynth (modCal (modSynth (touchLanes p 1 (modSynth s p takeTable)) p fun x => { x with timedLock := false, badRun := 0 }) p fun x =>
      { x with tRefSyn := s.cal.tempAvg, synRecals := bump 2 x.synRecals 1 }) p fun x => { x with band := b % 256 }) := by
  have hcond : (decide (p < 3) && recalRuns s p) = true := by simp [hp, hruns]
  have htouch : (modSynth (touchLanes p 1 (modSynth s p takeTable)) p fun x => { x with timedLock := false, badRun := 0 }).cal = s.cal :=
    (modSynth_cal ..).trans (modSynth_cal ..)
  simp only [exec, execSynRecal, hcond, if_true, htouch]

theorem execSynRecal_band {s : State} {p b : Nat} (hp : p < 3) (hb : b < 256) (hruns : recalRuns s p = true) : ∃ t,
    exec (.synRecal p (some b)) s = .next t ∧ (pathOf t p).synth.band = b ∧ (pathOf t p).cal.tRefSyn = s.cal.tempAvg ∧
      (pathOf t p).cal.synRecals = min 65535 ((pathOf s p).cal.synRecals + 1) ∧
      (pathOf t p).synth.btFallback = !tableValid (pathOf s p).synth.table ∧
      t = { s with pathL := t.pathL, pathV := t.pathV, pathS := t.pathS, lanes := t.lanes } := by
  have htouch : pathOf (touchLanes p 1 (modSynth s p takeTable)) p = { pathOf s p with synth := takeTable (pathOf s p).synth } :=
    pathOf_modSynth_same s p takeTable
  have hframe := ((((modSynth_pathFrame s p takeTable).trans (lanes_pathFrame _ p (touchLanes p 1 (modSynth s p takeTable)).lanes)).trans
    (modSynth_pathFrame _ p fun x => { x with timedLock := false, badRun := 0 })).trans
    (modPath_pathFrame _ p fun x => { x with cal := { x.cal with tRefSyn := s.cal.tempAvg, synRecals := bump 2 x.cal.synRecals 1 } })).trans
    (modSynth_pathFrame _ p fun x => { x with band := b % 256 })
  refine ⟨_, execSynRecal_eq hp hruns, ?_, ?_, ?_, ?_, hframe.paths hp⟩
  all_goals simp only [pathOf_modSynth_same, pathOf_modCal_same, htouch]
  · exact Nat.mod_eq_of_lt hb
  · rfl
  · rfl

/-- Settles O31. -/
theorem calibrationsRun : Obligations.CalibrationsRun := by
  intro s hquiet htaste
  refine ⟨fun seq c hr hm3 hm6 h9 hz => ⟨fun hn h8 => ?_, fun hn h1 h6 hwaits => ?_, fun hn hp h1 h6 hfree => ?_, fun hn h8 hfree => ?_⟩,
    fun job m hjob htyp hitems hstore => ⟨fun hconv hstop => execCalItemEnd_x32 hjob htyp hitems hstore hconv hstop,
      fun hconv => execCalItemEnd_x32Fails hjob htyp hitems hconv⟩,
    fun p job i rest m hp hjob hitems hrest htyp hconv hblank hstop =>
      ⟨_, execCalItemEnd_offset hp hjob hitems hrest htyp hconv hblank hstop, ?_, ?_, ?_, ?_, ?_⟩,
    fun p b hp hb hruns => execSynRecal_band hp hb hruns⟩
  · have hcheck := checkCalRun_none (s := s) hn rfl hr.2 (by simp [calTypeOk, hn.1, h8]) h9 hz hm3 hm6
    have hgo : calWaits s c = false := by simp only [calWaits, hn.1]
    rw [execCalRun_eq hr hcheck, if_neg (by rw [hgo]; decide)]
    simp only [startJob, hn.1, h8, seq_of_mayRun hr]
    rfl
  · have hcheck := checkCalRun_none (s := s) hn rfl hr.2 (by simp [calTypeOk, hn.1, h1, h6]) h9 hz hm3 hm6
    rw [execCalRun_eq hr hcheck, if_pos (by simp only [calWaits, hn.1, hwaits])]
  · have hcheck := checkCalRun_none (s := s) hn rfl hr.2 (by simp [calTypeOk, hn.1, h1, h6]) h9 hz hm3 hm6
    obtain ⟨hstate, htype, hjob⟩ := startJob_path (s := runs s seq) hn.1 hp (hquiet.of_fields (runs_noneDue hquiet.1 seq) rfl rfl rfl) htaste
    refine ⟨_, (execCalRun_eq hr hcheck).trans (congrArg _ (if_neg (by simp only [calWaits, hn.1, hfree]; decide))), hstate, htype, ?_⟩
    rw [hjob, seq_of_mayRun hr]
  · have hcheck := checkCalRun_none (s := s) hn rfl hr.2 (by simp [calTypeOk, hn.1, h8]) h9 hz hm3 hm6
    obtain ⟨htype, hcal⟩ := startJob_link (s := runs s seq) hn.1 h8 (hquiet.of_fields (runs_noneDue hquiet.1 seq) rfl rfl rfl)
    refine ⟨_, (execCalRun_eq hr hcheck).trans (congrArg _ (if_neg (by simp only [calWaits, hn.1, hfree]; decide))), htype, ?_⟩
    rw [hcal, seq_of_mayRun hr]
    rfl
  all_goals rw [pathOf_modPath_same, pathOf_modCal_same]
  · exact tabGet_tabSet_same _ _ _ _
  all_goals rfl

end Sys2Proof.Machine

/-!
PROOFS. The AGC period and the offset acquire (O29).
-/
namespace Sys2Proof.Machine

/-! A period before the gain moves -/

theorem dbLevel_draws (u num den : Nat) (s : State) : ∃ n, (dbLevel u num den s).2 = { s with fresh := n } := by
  unfold dbLevel
  split <;> exact ⟨_, rfl⟩

theorem dyadicWhole_draws (d : Dyadic) (s : State) : ∃ i n, dyadicWhole d s = (i, { s with fresh := n }) := by
  unfold dyadicWhole
  split
  · exact ⟨_, s.fresh, rfl⟩
  · exact ⟨_, s.fresh + 1, rfl⟩

/-- What the offset loop writes of a path's front end: DC_EST, the loop's own values and the samples counted. -/
theorem runLoop_spec (p : Nat) (xs : List (Int × Int)) (s : State) : ∃ n i q a b k, runLoop p xs s =
    modFe { s with fresh := n } p fun f => { f with dcI := a, dcQ := b, dcEstI := i, dcEstQ := q, stateSamples := k } := by
  unfold runLoop
  extract_lets f d
  obtain ⟨i, n, hi⟩ := dyadicWhole_draws d.1 s
  obtain ⟨q, m, hq⟩ := dyadicWhole_draws d.2 { s with fresh := n }
  rw [hi]
  simp only [hq]
  exact ⟨m, satInt 2 i, satInt 2 q, d.1, d.2, f.stateSamples + xs.length, rfl⟩

/-- The state at the end of a period, before its gain moves: written fields in force, the level in ADC_RMS, and nothing else of the gain. -/
structure PeriodEnded (s : State) (p : Nat) (u : State) : Prop where
  clocks : u.clocks = s.clocks
  state : (pathOf u p).fe.state = (pathOf s p).fe.state
  used : (pathOf u p).fe.used = (pathOf s p).fe.set
  range : (pathOf u p).fe.gainRange = (pathOf s p).fe.gainRange
  fine : (pathOf u p).fe.gainFine = (pathOf s p).fe.gainFine
  last : (pathOf u p).fe.lastRangeSc = (pathOf s p).fe.lastRangeSc
  clips : (pathOf u p).fe.clipEvents = (pathOf s p).fe.clipEvents

section
variable (s : State) (p : Nat) (xs : List (Int × Int))

/-- The level of a period's samples against full scale, with the draws it takes (log entry 85). -/
def periodLevel : Int × State := dbLevel 8 (energy xs) (xs.length * adcScale p ^ 2) (runLoop p xs s)

/-- The state of a path whose period has ended, before its gain moves. -/
def periodEnd : State :=
  modFe (periodLevel s p xs).2 p fun f => { f with used := f.set, adcRms := satInt 2 (periodLevel s p xs).1 }

theorem periodEnd_ended : PeriodEnded s p (periodEnd s p xs) := by
  obtain ⟨n, i, q, a, b, k, hloop⟩ := runLoop_spec p xs s
  obtain ⟨m, hdraw⟩ := dbLevel_draws 8 (energy xs) (xs.length * adcScale p ^ 2) (runLoop p xs s)
  have hstate : (periodLevel s p xs).2 = { runLoop p xs s with fresh := m } := hdraw
  have hpath : pathOf (periodLevel s p xs).2 p =
      { pathOf s p with fe := { (pathOf s p).fe with dcI := a, dcQ := b, dcEstI := i, dcEstQ := q, stateSamples := k } } := by
    rw [hstate, hloop]
    exact pathOf_modFe_same { s with fresh := n } p _
  have hclocks : (periodLevel s p xs).2.clocks = s.clocks := by
    rw [hstate, hloop]
    exact modFe_clocks { s with fresh := n } p _
  refine ⟨?_, ?_, ?_, ?_, ?_, ?_, ?_⟩
  · rw [periodEnd, modFe_clocks, hclocks]
  all_goals rw [periodEnd, pathOf_modFe_same, hpath]

theorem execAgcPeriod_runs {s : State} {p : Nat} {xs : List (Int × Int)} (hp : p < 2) (hstate : (pathOf s p).fe.state = .run)
    (hblank : blanked s p = false) (hrun : clocksRun s = true) (hlen : xs.length = periodSamples p) :
    exec (.agcPeriod p xs) s = .next (agcApply p (periodLevel s p xs).1 (xs.filter (atFullScale p)).length (periodEnd s p xs)) := by
  have hp2 : (p == 2) = false := by simp; omega
  have hcond : (agcRuns s p && xs.length == periodSamples p) = true := by
    simp only [agcRuns, hstate, hblank, hrun, hp2, hlen, beq_self_eq_true, Bool.not_false, Bool.false_and, Bool.and_self]
  simp only [exec, execAgcPeriod, hcond, if_true, afterPath_other hp]
  rfl

theorem execAgcPeriod_stands {s : State} {p : Nat} {xs : List (Int × Int)}
    (h : (pathOf s p).fe.state = .off ∨ (pathOf s p).fe.state = .starting ∨ (pathOf s p).fe.state = .cal ∨ (pathOf s p).fe.state = .noLock ∨
      blanked s p = true ∨ xs.length ≠ periodSamples p) : exec (.agcPeriod p xs) s = .next s := by
  have hcond : (agcRuns s p && xs.length == periodSamples p) = false := by
    rcases h with h | h | h | h | h | h
    case inr.inr.inr.inr.inr => simp [h]
    all_goals simp [agcRuns, h]
  simp only [exec, execAgcPeriod, hcond, Bool.false_eq_true, if_false]

end

/-! The gain on AUTO (R178, R179) -/

section
variable {u : State} {p : Nat} {rms : Int} {clipped : Nat} (hmode : (pathOf u p).fe.used.agcMode = 0) (hstate : (pathOf u p).fe.state = .run)
include hmode hstate

theorem agcApply_fine {fine : Nat} (h : agcStep u p rms clipped = some (none, fine)) :
    agcApply p rms clipped u = modFe u p fun f => { f with gainFine := fine } := by
  simp only [agcApply, hmode, h, quietPeriod, pathOf_modFe_same, hstate]
  rfl

theorem agcApply_stands (h : agcStep u p rms clipped = none) : agcApply p rms clipped u = u := by
  simp only [agcApply, hmode, h, quietPeriod, hstate]
  rfl

/-- A range change of a path in RUN takes it to RANGE. -/
theorem agcApply_range {r fine : Nat} (h : agcStep u p rms clipped = some (some r, fine)) :
    (pathOf (agcApply p rms clipped u) p).fe.state = .range ∧ (pathOf (agcApply p rms clipped u) p).fe.gainRange = r ∧
      (pathOf (agcApply p rms clipped u) p).fe.lastRangeSc = some u.clocks.sc ∧
      (pathOf (agcApply p rms clipped u) p).fe.clipEvents = if (pathOf u p).fe.used.clipLimit < clipped then
        bump 4 (pathOf u p).fe.clipEvents 1 else (pathOf u p).fe.clipEvents := by
  obtain ⟨v, hv⟩ : ∃ v, modFe (modFe (modFe u p fun f => { f with
      clipEvents := if (pathOf u p).fe.used.clipLimit < clipped then bump 4 f.clipEvents 1 else f.clipEvents }) p fun f => { f with
      gainRange := r, gainFine := fine, rangeChanges := bump 4 f.rangeChanges 1, lastRangeSc := some u.clocks.sc }) p
        (fun f => { f with stateSamples := 0 }) = v := ⟨_, rfl⟩
  have happly : agcApply p rms clipped u = setFe p .range v := by
    simp only [agcApply, hmode, h, changeRange, pathOf_modFe_same, hstate, modFe_clocks]
    rw [hv]
  obtain ⟨n, b, hfe⟩ := pathOf_setFe_state p .range v
  rw [happly, hfe, ← hv]
  simp only [pathOf_modFe_same]
  exact ⟨rfl, rfl, rfl, rfl⟩

end

section
variable {u : State} {p : Nat} {rms : Int} {clipped : Nat}

/-- Within AGC_HYST the gain stands. -/
theorem agcStep_within (hclip : clipped ≤ (pathOf u p).fe.used.clipLimit)
    (hsmall : (8 * (pathOf u p).fe.used.agcTarget - rms).natAbs ≤ 4 * (pathOf u p).fe.used.agcHyst) : agcStep u p rms clipped = none := by
  simp only [agcStep, if_neg (Nat.not_lt.mpr hclip), if_pos hsmall]

theorem agcStep_fine (hclip : clipped ≤ (pathOf u p).fe.used.clipLimit)
    (hlarge : 4 * (pathOf u p).fe.used.agcHyst < (8 * (pathOf u p).fe.used.agcTarget - rms).natAbs) (h0 : 0 < (pathOf u p).fe.gainFine)
    (hspan : (pathOf u p).fe.gainFine < fineSpan p) : agcStep u p rms clipped = some (none, (clampInt 0 (fineSpan p)
      (((pathOf u p).fe.gainFine : Int) + clampInt (-24) 24 ((8 * (pathOf u p).fe.used.agcTarget - rms + 2) / 4))).toNat) := by
  simp only [agcStep, if_neg (Nat.not_lt.mpr hclip), if_neg (Nat.not_le.mpr hlarge), decide_eq_false (Nat.ne_of_lt hspan),
    decide_eq_false (Nat.ne_of_gt h0), Bool.and_false, Bool.false_eq_true, if_false]

theorem agcStep_up (hclip : clipped ≤ (pathOf u p).fe.used.clipLimit)
    (hlarge : 4 * (pathOf u p).fe.used.agcHyst < (8 * (pathOf u p).fe.used.agcTarget - rms).natAbs)
    (hpos : 0 < 8 * (pathOf u p).fe.used.agcTarget - rms) (hspan : (pathOf u p).fe.gainFine = fineSpan p) (hlast : (pathOf u p).fe.lastRangeSc = none)
    (hroom : (pathOf u p).fe.gainRange + 1 < rangeCount p) : ∃ fine, agcStep u p rms clipped = some (some ((pathOf u p).fe.gainRange + 1), fine) := by
  simp only [agcStep, if_neg (Nat.not_lt.mpr hclip), if_neg (Nat.not_le.mpr hlarge), decide_eq_true hpos, decide_eq_true hspan, holdPassed, hlast,
    decide_eq_true hroom, Bool.and_self, if_true]
  exact ⟨_, rfl⟩

theorem agcStep_clips (hclip : (pathOf u p).fe.used.clipLimit < clipped) (hrange : 0 < (pathOf u p).fe.gainRange) : ∃ fine,
    agcStep u p rms clipped = some (some ((pathOf u p).fe.gainRange - 1), fine) := by
  simp only [agcStep, if_pos hclip, if_neg (Nat.ne_of_gt hrange)]
  exact ⟨_, rfl⟩

end

/-! The offset acquire (R175) -/

section
variable {s : State} {p count : Nat}

theorem execOffsetAcquire_blanked (h : blanked s p = true) : exec (.offsetAcquire p count) s = .next s := by
  simp only [exec, execOffsetAcquire, h, Bool.true_or, if_true]

variable (hstate : (pathOf s p).fe.state = .range)
include hstate

theorem samplesNeeded_range : samplesNeeded s p = settleSamples p + 2 ^ ((pathOf s p).fe.used.dcKAcq + 3) := by
  simp only [samplesNeeded, hstate, acquireSamples]

theorem execOffsetAcquire_early (h : count < settleSamples p + 2 ^ ((pathOf s p).fe.used.dcKAcq + 3)) : exec (.offsetAcquire p count) s = .next s := by
  simp only [exec, execOffsetAcquire, samplesNeeded_range hstate, decide_eq_true h, Bool.or_true, if_true]

/-- A path in RANGE comes to RUN with its switch settle and acquire counted. -/
theorem execOffsetAcquire_runs (hp : p < 2) (hblank : blanked s p = false) (hrun : clocksRun s = true)
    (h : settleSamples p + 2 ^ ((pathOf s p).fe.used.dcKAcq + 3) ≤ count) : ∃ t, exec (.offsetAcquire p count) s = .next t ∧
      (pathOf t p).fe = { (pathOf s p).fe with
        state := .run, stateSamples := 0, blankedSamples := blankedNow s p (pathOf s p).fe, blankFrom := none } := by
  have hexec : exec (.offsetAcquire p count) s = .next (enterRun p s) := by
    simp only [exec, execOffsetAcquire, samplesNeeded_range hstate, decide_eq_false (Nat.not_lt.mpr h), hblank, hrun, hstate, afterPath_other hp,
      Bool.not_true, Bool.or_self, Bool.false_eq_true, if_false]
  have hring : RingFrame (setFe p .run s) (enterRun p s) := tuneDone_frame ..
  have hblank' : blanked (modFe s p (feAfter .run)) p = false := by
    unfold blanked at hblank ⊢
    rw [modFe_link]
    exact hblank
  have hnow (f : FrontEnd) : blankedNow (modFe s p (feAfter .run)) p f = blankedNow s p f := by
    unfold blankedNow
    rw [modFe_clocks]
  refine ⟨_, hexec, ?_⟩
  rw [pathOf_of_ringFrame hring p, pathOf_setFe, feTracked, hblank', hnow]
  simp only [Bool.false_and, Bool.false_eq_true, if_false, feAfter, hstate]
  rfl

end

/-- Settles O29. -/
theorem gainFollowsTheLevel : Obligations.GainFollowsTheLevel := by
  intro s p xs count hp f m clipped err move
  refine ⟨fun h => execAgcPeriod_stands h, fun hstate hblank hrun hlen hmode => ?_, fun hstate hblank hrun =>
    ⟨fun hle => execOffsetAcquire_runs hstate hp hblank hrun hle, fun hlt => execOffsetAcquire_early hstate hlt⟩, execOffsetAcquire_blanked⟩
  have hexec := execAgcPeriod_runs hp hstate hblank hrun hlen
  obtain ⟨hclocks, hst, hused, hrange, hfine, hlast, hclips⟩ := periodEnd_ended s p xs
  have hm : (pathOf (periodEnd s p xs) p).fe.used.agcMode = 0 := by rw [hused]; exact hmode
  have hs := hst.trans hstate
  refine ⟨fun hclip hsmall => ?_, fun hclip hlarge h0 hspan => ?_, fun hclip hlarge hpos hspan hnone hroom => ?_, fun hclip h0 => ?_⟩
  · rw [hexec, agcApply_stands hm hs (agcStep_within (by rw [hused]; exact hclip) (by rw [hused]; exact hsmall))]
    rfl
  · refine ⟨_, hexec.trans (congrArg _ (agcApply_fine hm hs (agcStep_fine (by rw [hused]; exact hclip) (by rw [hused]; exact hlarge)
      (by rw [hfine]; exact h0) (by rw [hfine]; exact hspan)))), ?_, ?_, ?_⟩
    all_goals rw [pathOf_modFe_same]
    · exact hs
    · exact hrange
    · rw [hused, hfine]
      exact Int.toNat_of_nonneg (Int.le_max_left ..)
  · obtain ⟨fine, hstep⟩ := agcStep_up (u := periodEnd s p xs) (p := p) (rms := (periodLevel s p xs).1) (clipped := (xs.filter (atFullScale p)).length) (by rw [hused]; exact hclip)
      (by rw [hused]; exact hlarge) (by rw [hused]; exact hpos) (by rw [hfine]; exact hspan) (by rw [hlast]; exact hnone) (by rw [hrange]; exact hroom)
    obtain ⟨hstate', hrange', hlast', -⟩ := agcApply_range hm hs hstep
    exact ⟨_, hexec, hstate', hrange'.trans (by rw [hrange]), hlast'.trans (by rw [hclocks])⟩
  · obtain ⟨fine, hstep⟩ := agcStep_clips (u := periodEnd s p xs) (p := p) (rms := (periodLevel s p xs).1) (clipped := (xs.filter (atFullScale p)).length) (by rw [hused]; exact hclip)
      (by rw [hrange]; exact h0)
    obtain ⟨hstate', hrange', -, hclips'⟩ := agcApply_range hm hs hstep
    refine ⟨_, hexec, hstate', hrange'.trans (by rw [hrange]), ?_⟩
    rw [hused, if_pos hclip, hclips] at hclips'
    exact hclips'

end Sys2Proof.Machine

/-!
PROOFS. Synchronisation (O34): LANE_SYNC and the LANESYNC pin.
-/
namespace Sys2Proof.Machine

/-- The cut of a lane's block in progress at a synchronisation (R237). -/
def cutLane (stamp : Nat) (x : Lane) : Lane :=
  if x.shortNext then { x with syncStamp := stamp }
  else { x with shortNext := true, syncStamp := stamp, synced := x.pending.map fun p => (p, x.genPending, x.pendEngine),
                pending := none, pendEngine := false }

theorem syncLane_begun {s : State} {n : Nat} (h : (laneOf s n).idle = false) (stamp : Nat) : syncLane stamp s n = modLane s n (cutLane stamp) := by
  rw [syncLane, h]
  rfl

/-- Lanes whose blocks are in progress are cut, each once. -/
theorem forAll_syncLane (stamp : Nat) {xs : List Nat} (hnd : xs.Nodup) : ∀ {s : State}, (∀ n ∈ xs, (laneOf s n).idle = false) →
    forAll xs (syncLane stamp) s = { s with lanes := (forAll xs (syncLane stamp) s).lanes } ∧
      ∀ n, laneOf (forAll xs (syncLane stamp) s) n = if n ∈ xs then cutLane stamp (laneOf s n) else laneOf s n := by
  induction xs with
  | nil => exact fun _ => ⟨rfl, fun _ => rfl⟩
  | cons m xs ih =>
    intro s h
    obtain ⟨hm, hnd⟩ := List.nodup_cons.mp hnd
    have hne {k : Nat} (hk : k ∈ xs) : k ≠ m := fun e => hm (e ▸ hk)
    have hcons : forAll (m :: xs) (syncLane stamp) s = forAll xs (syncLane stamp) (modLane s m (cutLane stamp)) :=
      congrArg (forAll xs (syncLane stamp)) (syncLane_begun (h m (List.mem_cons_self ..)) stamp)
    obtain ⟨hframe, hlanes⟩ := ih hnd (s := modLane s m (cutLane stamp)) fun k hk => by
      rw [laneOf_modLane_ne _ _ (hne hk)]
      exact h k (List.mem_cons_of_mem _ hk)
    rw [hcons]
    refine ⟨hframe, fun n => ?_⟩
    rw [hlanes]
    by_cases hn : n = m
    · rw [hn, if_neg hm, if_pos (List.mem_cons_self ..), laneOf_modLane_same]
    · rw [laneOf_modLane_ne _ _ hn]
      simp only [List.mem_cons, hn, false_or]

/-! LANE_SYNC (R236) -/

theorem checkLaneSync_none {s : State} {c : Cmd} (hn : Names c 2) (hi : cmdIdx c < 2) (hh : HeaderOk c) (hz : ZeroBytes c 16 31)
    (hmode : 3 ≤ s.modes.modeNow ∧ s.modes.modeNow ≤ 5) : checkLaneSync s c = none := by
  have hmem : s.modes.modeNow ∈ [3, 4, 5] := by
    simp only [List.mem_cons, List.not_mem_nil, or_false]
    omega
  simp only [checkLaneSync, List.cons_append, List.append_assoc]
  rw [needObject_none hn rfl, firstFail_none, failUnless_eq_none.mpr (decide_eq_true hi), firstFail_none, firstFail_needHeader hh, firstFail_eq_none]
  exact List.forall_mem_append.mpr ⟨needZeros_none hz, by simpa using hmem⟩

/-- The lanes that a LANE_SYNC reaches, in order. -/
theorem reached_eq (mask : Nat) (sync : Nat → Bool) :
    ((List.range 64).filter (bit mask)).filter sync = (List.range 64).filter fun n => bit mask n && sync n := by
  rw [List.filter_filter]
  exact List.filter_congr fun n _ => Bool.and_comm ..

theorem passedBy_eq (mask : Nat) (sync : Nat → Bool) :
    ((List.range 64).filter (bit mask)).length - (((List.range 64).filter (bit mask)).filter sync).length =
      (List.range 64).countP fun n => bit mask n && !sync n := by
  rw [List.length_eq_countP_add_countP sync (l := (List.range 64).filter (bit mask)), ← List.countP_eq_length_filter, Nat.add_sub_cancel_left,
    List.countP_filter]
  refine List.countP_congr fun n _ => ?_
  cases sync n <;> simp

theorem execLaneSync_runs {s : State} {seq stamp : Nat} {c : Cmd} (hr : MayRun s seq 0x13 c) (hn : Names c 2) (hi : cmdIdx c < 2)
    (hz : ZeroBytes c 16 31) (hmode : 3 ≤ s.modes.modeNow ∧ s.modes.modeNow ≤ 5) :
    exec (.laneSync seq stamp) s = .next (complete seq 0x00 [lowByte ((List.range 64).countP fun n => bit (parN c 8 8) n && syncable s (cmdIdx c) n),
      lowByte ((List.range 64).countP fun n => bit (parN c 8 8) n && !syncable s (cmdIdx c) n)]
      (forAll ((List.range 64).filter fun n => bit (parN c 8 8) n && syncable s (cmdIdx c) n) (syncLane stamp) (runs s seq))) := by
  refine congrArg Host.Outcome.next ((startCmd_runs (runLaneSync stamp) hr.1 (checkLaneSync_none hn hi hr.2 hz hmode)).trans ?_)
  have hsync : syncable (runs s seq) = syncable s := rfl
  rw [runLaneSync, hsync, passedBy_eq, reached_eq, ← List.countP_eq_length_filter, seq_of_mayRun hr]

theorem bit_eq_testBit (n k : Nat) : bit n k = n.testBit k := by rw [Nat.testBit_eq_decide_div_mod_eq, bit, Bool.beq_eq_decide_eq]

theorem filter_eq_of_nodup {n : Nat} : ∀ {l : List Nat}, l.Nodup → n ∈ l → l.filter (fun k => decide (k = n)) = [n]
  | [], _, h => absurd h List.not_mem_nil
  | k :: l, hl, h => by
    obtain ⟨hk, hl⟩ := List.nodup_cons.mp hl
    by_cases e : k = n
    · subst e
      have hrest : l.filter (fun j => decide (j = k)) = [] :=
        List.filter_eq_nil_iff.mpr fun j hj => by simpa using fun he : j = k => hk (he ▸ hj)
      simp [hrest]
    · have hmem : n ∈ l := (List.mem_cons.mp h).resolve_left (Ne.symm e)
      simpa [e] using filter_eq_of_nodup hl hmem

/-- The mask of one lane names it alone. -/
theorem filter_single {n : Nat} (hn : n < 64) {sync : Nat → Bool} (hs : sync n = true) :
    (List.range 64).filter (fun k => bit (2 ^ n) k && sync k) = [n] := by
  have h : (fun k => bit (2 ^ n) k && sync k) = fun k => decide (k = n) := by
    funext k
    by_cases e : k = n
    · simp [bit, e, hs, Nat.div_self (Nat.two_pow_pos n)]
    · simp [bit_eq_testBit, Nat.testBit_two_pow_of_ne (Ne.symm e), e]
  rw [h]
  exact filter_eq_of_nodup List.nodup_range (List.mem_range.mpr hn)

/-! A lane whose first block has not begun (R215, R237) -/

theorem boundarySet_none {s : State} {n : Nat} (hp : (laneOf s n).pending = none) (hshort : (laneOf s n).shortNext = false) :
    boundarySet n s = s := by
  simp only [boundarySet, applyPending, dueSet, hshort, hp, Option.map_none, Bool.false_eq_true, if_false]

theorem shedSet_none {s : State} (hl : s.fabric.shedLevelL = 0) (hv : s.fabric.shedLevelV = 0) (p : Nat) : shedSet s p = [] := by
  simp only [shedSet, shedLevel, hl, hv, ite_self, Nat.zero_min, List.take_zero]

theorem boundaryShed_none {s : State} {n : Nat} (hl : s.fabric.shedLevelL = 0) (hv : s.fabric.shedLevelV = 0) (hx : (laneOf s n).shed = false) :
    boundaryShed n s = { s with fabric := passWaits n (laneOf s n) false s.fabric } := by
  simp only [boundaryShed, shedSet_none hl hv, List.contains_nil, hx, BEq.rfl, if_true]

theorem boundarySync_narrow {s : State} {n : Nat} (h : (laneOf s n).cur.engKind < 2) : boundarySync n s = modLane s n fun x =>
    clearLane { x with shortNext := false, syncNext := true, settling := settleCount x.cur,
                       chain := { x.chain with phase := BitVec.ofNat 32 (x.cur.ncoPhase0 * 2 ^ 16), env := 0 } } := by
  have hkind : ((laneOf s n).cur.engKind == 2 || (laneOf s n).cur.engKind == 3) = false := by
    simp only [Bool.or_eq_false_iff, beq_eq_false_iff_ne]
    omega
  simp only [boundarySync, laneOf_modLane_same, clearLane, hkind, Bool.false_eq_true, if_false]

/-- A lane as its first block begins, its pending set apart. -/
def begunLane (x : Lane) : Lane := clearLane { x with idle := false, touched := 0, settling := settleCount x.cur }

/-- A synchronisation of a lane that waits for its first block begins it. -/
theorem syncLane_first {s : State} {n : Nat} (hidle : (laneOf s n).idle = true) (hp : (laneOf s n).pending = none)
    (hshort : (laneOf s n).shortNext = false) (hx : (laneOf s n).shed = false) (hkind : (laneOf s n).cur.engKind < 2)
    (hl : s.fabric.shedLevelL = 0) (hv : s.fabric.shedLevelV = 0) (stamp : Nat) :
    syncLane stamp s n = { s with lanes := (syncLane stamp s n).lanes, fabric := (syncLane stamp s n).fabric } ∧
      laneOf (syncLane stamp s n) n = { laneOf s n with
        idle := false, touched := 0, causeEnd := [], syncNext := true, syncStamp := stamp, settling := settleCount (laneOf s n).cur,
        chain := { phase := BitVec.ofNat 32 ((laneOf s n).cur.ncoPhase0 * 2 ^ 16) } } ∧
      ∀ k, k ≠ n → laneOf (syncLane stamp s n) k = laneOf s k := by
  have hfirst : beginFirst n s = { modLane s n begunLane with fabric := passWaits n (begunLane (laneOf s n)) false s.fabric } := by
    have h := boundaryShed_none (s := modLane s n begunLane) (n := n) hl hv (by rw [laneOf_modLane_same]; exact hx)
    rw [laneOf_modLane_same] at h
    rw [beginFirst, boundarySet_none hp hshort]
    exact h
  obtain ⟨u, hu⟩ : ∃ u, { modLane s n begunLane with fabric := passWaits n (begunLane (laneOf s n)) false s.fabric } = u := ⟨_, rfl⟩
  have hframe : u = { s with lanes := u.lanes, fabric := u.fabric } := by rw [← hu]; rfl
  have hlane : laneOf u n = begunLane (laneOf s n) := by rw [← hu]; exact laneOf_modLane_same ..
  have hother : ∀ k, k ≠ n → laneOf u k = laneOf s k := fun k hk => by rw [← hu]; exact laneOf_modLane_ne _ _ hk
  rw [hu] at hfirst
  rw [syncLane, if_pos hidle, hfirst, boundarySync_narrow (by rw [laneOf_modLane_same, hlane]; exact hkind)]
  refine ⟨?_, ?_, fun k hk => ?_⟩
  · rw [hframe]
    rfl
  · rw [laneOf_modLane_same, laneOf_modLane_same, hlane]
    generalize laneOf s n = x at hshort
    cases x
    cases hshort
    rfl
  · rw [laneOf_modLane_ne _ _ hk, laneOf_modLane_ne _ _ hk, hother k hk]

/-! LANESYNC (R235) -/

/-- The lanes of a path that follow the pin. -/
def pinLanes (s : State) (p : Nat) : List Nat := (List.range 64).filter fun n => syncable s p n && (laneOf s n).cur.syncPinEn

theorem mem_pinLanes {s : State} {p n : Nat} (hn : n < 64) : n ∈ pinLanes s p ↔ (syncable s p n && (laneOf s n).cur.syncPinEn) = true := by
  simp only [pinLanes, List.mem_filter, List.mem_range, hn, true_and]

theorem pinLanes_path {s : State} {p n : Nat} (h : n ∈ pinLanes s p) :
    (laneOf s n).path = p ∧ syncable s p n = true ∧ (laneOf s n).cur.syncPinEn = true := by
  simp only [pinLanes, List.mem_filter, Bool.and_eq_true] at h
  obtain ⟨-, hs, hpin⟩ := h
  refine ⟨?_, hs, hpin⟩
  simp only [syncable, Bool.and_eq_true, beq_iff_eq] at hs
  exact hs.1.2

theorem execLanesync_ready {s : State} {stampL stampV : Nat} (hready : s.power.phase = .ready) (hvio : s.power.vioValid = true)
    (hbegun : ∀ n p, p < 2 → syncable s p n = true → (laneOf s n).cur.syncPinEn = true → (laneOf s n).idle = false) : ∃ t,
    exec (.lanesync stampL stampV) s = .next t ∧ t = { s with lanes := t.lanes } ∧ ∀ n, n < 64 → laneOf t n =
      if syncable s 0 n && (laneOf s n).cur.syncPinEn then cutLane stampL (laneOf s n)
      else if syncable s 1 n && (laneOf s n).cur.syncPinEn then cutLane stampV (laneOf s n) else laneOf s n := by
  have hexec : exec (.lanesync stampL stampV) s =
      .next (forAll (pinLanes s 1) (syncLane stampV) (forAll (pinLanes s 0) (syncLane stampL) s)) := by
    simp [exec, execLanesync, ready, hready, hvio, pinLanes]
  have hidle {p n : Nat} (hp : p < 2) (h : n ∈ pinLanes s p) : (laneOf s n).idle = false := by
    obtain ⟨-, hs, hpin⟩ := pinLanes_path h
    exact hbegun n p hp hs hpin
  have hapart {n : Nat} (h : n ∈ pinLanes s 1) : n ∉ pinLanes s 0 := fun h0 =>
    absurd ((pinLanes_path h).1.symm.trans (pinLanes_path h0).1) (by decide)
  obtain ⟨hframe, hlanes⟩ := forAll_syncLane stampL (s := s) (List.nodup_range.filter _) fun n h => hidle (p := 0) (by decide) h
  obtain ⟨u, hu⟩ : ∃ u, forAll (pinLanes s 0) (syncLane stampL) s = u := ⟨_, rfl⟩
  have hlanes : ∀ n, laneOf u n = if n ∈ pinLanes s 0 then cutLane stampL (laneOf s n) else laneOf s n := fun n => by rw [← hu]; exact hlanes n
  have hframe : u = { s with lanes := u.lanes } := by rw [← hu]; exact hframe
  rw [hu] at hexec
  obtain ⟨hframe', hlanes'⟩ := forAll_syncLane stampV (s := u) (xs := pinLanes s 1) (List.nodup_range.filter _) fun n h => by
    rw [hlanes, if_neg (hapart h)]
    exact hidle (by decide) h
  refine ⟨_, hexec, hframe'.trans (by rw [hframe]), fun n hn => ?_⟩
  rw [hlanes', hlanes]
  simp only [← mem_pinLanes hn]
  by_cases h1 : n ∈ pinLanes s 1
  · simp only [h1, hapart h1, if_true, if_false]
  · simp only [h1, if_false]

/-- Settles O34. -/
theorem synchronisationReachesItsLanes : Obligations.SynchronisationReachesItsLanes := by
  intro s cut
  refine ⟨?_, fun stampL stampV hready hvio hbegun => ?_, fun stampL stampV h => ?_⟩
  · intro seq stamp c hr hn hi hz hm3 hm5 reached answer
    have hexec := execLaneSync_runs (stamp := stamp) hr hn hi hz ⟨hm3, hm5⟩
    refine ⟨fun hbegun => ?_, fun n hlt hmask hsync hidle hp hshort hshed hkind hl hv => ?_⟩
    · obtain ⟨hframe, hlanes⟩ := forAll_syncLane stamp (s := runs s seq) (List.nodup_range.filter _)
        fun n hmem => hbegun n (List.mem_filter.mp hmem).2
      refine ⟨_, hexec, hframe, fun n hn => ?_⟩
      rw [hlanes]
      simp only [List.mem_filter, List.mem_range, hn, true_and]
      rfl
    · obtain ⟨hframe, hlane, hother⟩ := syncLane_first (s := runs s seq) (n := n) hidle hp hshort hshed hkind hl hv stamp
      have hone := filter_single hlt (sync := syncable s (cmdIdx c)) hsync
      rw [← hmask] at hone
      rw [hone] at hexec
      exact ⟨_, hexec, hframe, hlane, hother⟩
  · exact execLanesync_ready hready hvio hbegun
  · refine if_neg ?_
    rcases h with h | h <;> simp [ready, h]

end Sys2Proof.Machine

/-!
PROOFS. Tastings (O40): how one ends by its times, and the switch-over of its followed lane.
-/
namespace Sys2Proof.Machine

theorem bump_four (n k : Nat) : bump 4 n k = min (2 ^ 32 - 1) (n + k) := rfl

theorem bump_two (n k : Nat) : bump 2 n k = min 65535 (n + k) := rfl

/-! The engines -/

/-- The state but its engines' units. -/
def UnitFrame (s t : State) : Prop := t = { s with analogue := t.analogue, lf := t.lf, drm := t.drm, dab := t.dab }

theorem releaseEngine_frame (kind idx : Nat) (s : State) : UnitFrame s (releaseEngine kind idx s) := by
  unfold releaseEngine
  split <;> rfl

theorem carryAf_frame (kind old new : Nat) (taken : Bool) (s : State) : UnitFrame s (carryAf kind old new taken s) := by
  unfold carryAf modEng
  split
  · cases taken <;> rfl
  · split <;> rfl

theorem freeLane_frame (n : Nat) (s : State) : freeLane n s = { s with
    lanes := (freeLane n s).lanes, slots := (freeLane n s).slots, fabric := (freeLane n s).fabric,
    analogue := (freeLane n s).analogue, lf := (freeLane n s).lf, drm := (freeLane n s).drm, dab := (freeLane n s).dab } := by
  have h := releaseEngine_frame (laneOf s n).cur.engKind (laneOf s n).cur.engIndex s
  have hfree : freeLane n s = capShed (abandonLane n (setLane (releaseEngine (laneOf s n).cur.engKind (laneOf s n).cur.engIndex s) n
      (keepStats (laneOf s n)))) := rfl
  generalize releaseEngine (laneOf s n).cur.engKind (laneOf s n).cur.engIndex s = u at h hfree
  rw [hfree, h]
  rfl

/-! The end of a tasting (Table 13-4) -/

theorem find_filter_ne {α : Type} (xs : List (Nat × α)) (m : Nat) : (xs.filter fun y => y.1 != m).find? (fun y => y.1 == m) = none := by
  rw [List.find?_eq_none]
  intro y hy
  simp only [List.mem_filter, bne_iff_ne, ne_eq] at hy
  simpa using hy.2

/-- A tasting that ends becomes lees of its cause, and its lane is FREE (R303). -/
theorem endTasting_spec {s : State} {m : Nat} {y : Tasting} (h : tastingOf s m = some y) (cause : Nat) :
    tastingOf (endTasting cause m s) m = none ∧ (laneOf (endTasting cause m s) m).hold = .free ∧
      (∀ k, k ≠ m → laneOf (endTasting cause m s) k = laneOf s k) ∧
      (endTasting cause m s).taste.leesTastings = min (2 ^ 32 - 1) (s.taste.leesTastings + 1) ∧
      (endTasting cause m s).taste.leesItems = min (2 ^ 32 - 1) (s.taste.leesItems + y.items.length) ∧
      tabGet 0 (endTasting cause m s).taste.leesBy cause = min 65535 (tabGet 0 s.taste.leesBy cause + 1) ∧
      (followOf (endTasting cause m s) y.entry).lees = min (2 ^ 32 - 1) ((followOf s y.entry).lees + 1) ∧
      (endTasting cause m s).taste.tastings = s.taste.tastings.filter (fun z => z.1 != m) ∧
      endTasting cause m s = { s with
        taste := (endTasting cause m s).taste, lanes := (endTasting cause m s).lanes, slots := (endTasting cause m s).slots,
        analogue := (endTasting cause m s).analogue, lf := (endTasting cause m s).lf, drm := (endTasting cause m s).drm,
        dab := (endTasting cause m s).dab, fabric := (endTasting cause m s).fabric } := by
  obtain ⟨u, hu⟩ : ∃ u, modFollow { s with taste := { s.taste with
      leesTastings := bump 4 s.taste.leesTastings 1, leesItems := bump 4 s.taste.leesItems y.items.length,
      leesBy := tabSet s.taste.leesBy cause (bump 2 (tabGet 0 s.taste.leesBy cause) 1), pinned := s.taste.pinned ++ y.items.filter (·.pinned),
      tastings := s.taste.tastings.filter fun z => z.1 != m } } y.entry (fun f => { f with
      lees := bump 4 f.lees 1,
      refuted := if cause = 1 then (y.freqHz, s.clocks.sc) :: f.refuted.filter (fun r => r.1 != y.freqHz) else f.refuted }) = u := ⟨_, rfl⟩
  have hframe : u = { s with taste := u.taste } := by rw [← hu]; rfl
  have hend : endTasting cause m s = freeLane m u := by
    simp only [endTasting, h]
    rw [hu]
  have htaste : (freeLane m u).taste = u.taste := by rw [freeLane_frame]
  have hlane (k : Nat) : laneOf u k = laneOf s k := by rw [hframe]; rfl
  rw [hend]
  refine ⟨?_, freeLane_hold m u, fun k hk => ?_, ?_, ?_, ?_, ?_, ?_, ?_⟩
  · rw [tastingOf, htaste, ← hu]
    exact congrArg (Option.map _) (find_filter_ne s.taste.tastings m)
  · rw [laneOf_freeLane, if_neg hk, hlane]
  · rw [htaste, ← hu]; rfl
  · rw [htaste, ← hu]; rfl
  · rw [htaste, ← hu]; exact tabGet_tabSet_same ..
  · rw [followOf, htaste, ← hu]; exact congrArg Follow.lees (tabGet_tabSet_same ..)
  · rw [htaste, ← hu]; rfl
  · refine (freeLane_frame m u).trans ?_
    rw [htaste]
    generalize freeLane m u = w
    rw [hframe]

/-! The switch-over (R307) -/

theorem addStretch_frame (src : Nat) (cause : MuteCause) (start : Int) (stop : Option Int) (s : State) (port : Nat) :
    addStretch src cause start stop s port = { s with saps := (addStretch src cause start stop s port).saps } := by
  unfold addStretch
  dsimp only
  split <;> rfl

theorem joinAudio_frame (n : Nat) (s : State) : joinAudio n s = { s with saps := (joinAudio n s).saps } := by
  unfold joinAudio
  split
  · simp only [muteSource, forAll, List.foldl_cons, List.foldl_nil]
    rw [addStretch_frame, addStretch_frame]
  · rfl

/-- With no slot open a TASTE_SWITCH item is delivered to none. -/
theorem deliverItem_none {s : State} {it : Item} (h : s.slots.slots = []) (hkind : it.kind = 0x50) : deliverItem it none s = s := by
  have hraw : deliverRaw it s = s := by
    unfold deliverRaw slotsOf
    rw [h]
    split <;> rfl
  rw [deliverItem, hraw, hkind]
  split <;> rfl

theorem switchLanes_spec (t : Tasting) {lane follow : Nat} (s : State) (hne : lane ≠ follow) :
    laneOf (switchLanes t lane follow s) lane = keepStats (laneOf s lane) ∧
      laneOf (switchLanes t lane follow s) follow = switchedLane (laneOf s follow) (laneOf s lane) ∧
      (∀ k, k ≠ lane → k ≠ follow → laneOf (switchLanes t lane follow s) k = laneOf s k) ∧
      switchLanes t lane follow s = { s with
        lanes := (switchLanes t lane follow s).lanes, saps := (switchLanes t lane follow s).saps,
        analogue := (switchLanes t lane follow s).analogue, lf := (switchLanes t lane follow s).lf,
        drm := (switchLanes t lane follow s).drm, dab := (switchLanes t lane follow s).dab } := by
  obtain ⟨u, hu⟩ : ∃ u, carryAf t.kind (laneOf s follow).cur.engIndex t.engIndex t.afTaken (joinAudio follow s) = u := ⟨_, rfl⟩
  have huframe : UnitFrame (joinAudio follow s) u := by rw [← hu]; exact carryAf_frame ..
  have hframe : u = { s with saps := u.saps, analogue := u.analogue, lf := u.lf, drm := u.drm, dab := u.dab } := by
    rw [UnitFrame, joinAudio_frame] at huframe
    rw [huframe]
  have heq : switchLanes t lane follow s = releaseEngine t.kind (laneOf s follow).cur.engIndex
      (setLane (setLane u follow (switchedLane (laneOf s follow) (laneOf s lane))) lane (keepStats (laneOf s lane))) := by
    rw [← hu]
    rfl
  obtain ⟨v, hv⟩ : ∃ v, setLane (setLane u follow (switchedLane (laneOf s follow) (laneOf s lane))) lane (keepStats (laneOf s lane)) = v := ⟨_, rfl⟩
  have hrel := releaseEngine_frame t.kind (laneOf s follow).cur.engIndex v
  have hlanes (k : Nat) : laneOf (switchLanes t lane follow s) k = laneOf v k := by
    rw [heq, hv, laneOf, hrel]
    rfl
  refine ⟨?_, ?_, fun k hk hk' => ?_, ?_⟩
  · rw [hlanes, ← hv, laneOf_setLane_same]
  · rw [hlanes, ← hv, laneOf_setLane_ne _ _ (Ne.symm hne), laneOf_setLane_same]
  · rw [hlanes, ← hv, laneOf_setLane_ne _ _ hk, laneOf_setLane_ne _ _ hk', hframe]
    rfl
  · rw [heq, hv, hrel, ← hv]
    unfold setLane
    rw [hframe]

/-- A followed lane with nothing pending takes the tasting lane's frequency in its next generation. -/
theorem switchedLane_plain {x t : Lane} (hp : x.pending = none) (hs : x.synced = none) :
    (switchedLane x t).hold = x.hold ∧ (switchedLane x t).gen = nextGen x.gen ∧ (switchedLane x t).cur.freqHz = t.cur.freqHz ∧
      (switchedLane x t).cur.rate = x.cur.rate ∧ (switchedLane x t).seq = x.seq := by
  have hw : waitingSet x = none := by rw [waitingSet, hp, hs]; rfl
  simp [switchedLane, hw]

theorem raise_tasteEvent (s : State) : raise .tasteEvent s = { s with port := { s.port with irqStat1 := (raise .tasteEvent s).port.irqStat1 } } := by
  unfold raise
  split <;> rfl

theorem raise_tasteEvent_ready {s : State} (h : s.power.phase = .ready) : (raise .tasteEvent s).port.irqStat1.getLsbD 1 = true := by
  simp [raise, ready, h, orBit]

/-- The counters of the switch-over of the only tasting. -/
theorem countSwitch_spec {s v : State} {m : Nat} {y : Tasting} (htastings : s.taste.tastings = [(m, y)]) (hv : v.taste = s.taste) (left lost : Nat) :
    (countSwitch y m left lost 0 v).taste.tastings = [] ∧ (followOf (countSwitch y m left lost 0 v) y.entry).left = some left ∧
      (followOf (countSwitch y m left lost 0 v) y.entry).switches = min (2 ^ 32 - 1) ((followOf s y.entry).switches + 1) ∧
      (countSwitch y m left lost 0 v).taste.switches = min (2 ^ 32 - 1) (s.taste.switches + 1) := by
  refine ⟨?_, congrArg Follow.left (tabGet_tabSet_same ..), (congrArg Follow.switches (tabGet_tabSet_same ..)).trans ?_, ?_⟩
  · simp [countSwitch, modFollow, hv, htastings]
  · rw [hv]
    rfl
  · rw [countSwitch, modFollow, hv]
    rfl

/-- The switch-over of the only tasting, with nothing racked and no slot open (R307 to R309). -/
theorem execSwitchOver_confirmed {s : State} {m : Nat} {y : Tasting} (htastings : s.taste.tastings = [(m, y)]) (hitems : y.items = [])
    (hkind : y.kind ≠ 3) (hslots : s.slots.slots = []) (hstate : y.state = 3) (hne : m ≠ (followOf s y.entry).lane) (stamp : Nat) : ∃ lost,
    exec (.switchOver m stamp) s = .next (raise .tasteEvent (countSwitch y m (laneOf s (followOf s y.entry).lane).cur.freqHz lost 0
      (switchLanes y m (followOf s y.entry).lane (draw (2 ^ 32) s).2))) := by
  have hy : tastingOf s m = some y := by simp [tastingOf, htastings]
  refine ⟨(draw (2 ^ 32) s).1, ?_⟩
  obtain ⟨w, hw⟩ : ∃ w, countSwitch y m (laneOf s (followOf s y.entry).lane).cur.freqHz (draw (2 ^ 32) s).1 0
      (switchLanes y m (followOf s y.entry).lane (draw (2 ^ 32) s).2) = w := ⟨_, rfl⟩
  obtain ⟨-, -, -, hframe⟩ := switchLanes_spec y (draw (2 ^ 32) s).2 hne
  have hwtaste : w.taste.tastings = [] := by
    rw [← hw]
    unfold countSwitch modFollow
    rw [hframe]
    simp [draw, htastings]
  have hwslots : w.slots.slots = [] := by
    rw [← hw]
    unfold countSwitch modFollow
    rw [hframe]
    exact hslots
  simp only [exec, execSwitchOver, hy, hstate, hitems, rackCount, bne_self_eq_false, Bool.false_eq_true, if_false, List.foldl_nil, hw]
  rw [deliverItem_none hwslots rfl]
  simp only [settleSwitch, occupiedNow, endTastings_none hwtaste, if_neg hkind]

/-- Settles O40. -/
theorem tastingsEndAndSwitch : Obligations.TastingsEndAndSwitch := by
  intro s
  refine ⟨fun m y hy => ?_, fun m y stamp htastings hitems hkind hslots => ?_⟩
  · intro lees
    have hlees (cause : Nat) : lees cause (endTasting cause m s) := by
      obtain ⟨hnone, hfree, hother, hcount, hitems, hby, hentry, -, hframe⟩ := endTasting_spec hy cause
      exact ⟨hnone, hfree, hother, hcount, hitems, hby, hentry, hframe⟩
    have hcps : countsPerSecond = 2 ^ 24 := rfl
    refine ⟨fun hstate hdue => ⟨_, ?_, hlees 2⟩, fun hearly => ?_, fun hstate hdue hwaits => ⟨_, ?_, hlees 3⟩, fun hwaits => ?_⟩
    · simp only [exec, execIdTimeout, hy, hstate, hcps, BEq.rfl, Bool.true_and]
      exact if_pos (decide_eq_true hdue)
    · simp only [exec, execIdTimeout, hy, hcps, decide_eq_false (Nat.not_le.mpr hearly), Bool.and_false, Bool.false_eq_true, if_false]
    · simp only [exec, execDwellMax, hy, hstate, hwaits, Bool.and_true, hcps, BEq.rfl, Bool.true_and]
      exact if_pos (decide_eq_true hdue)
    · simp only [exec, execDwellMax, hy, hwaits, Bool.and_false, Bool.false_eq_true, if_false]
  · intro f
    have hy : tastingOf s m = some y := by simp [tastingOf, htastings]
    refine ⟨fun hstate => ?_, fun hstate hne hp hs => ?_⟩
    · simp only [exec, execSwitchOver, hy]
      exact if_pos (by simpa using hstate)
    · obtain ⟨lost, hexec⟩ := execSwitchOver_confirmed htastings hitems hkind hslots hstate hne stamp
      obtain ⟨hfreed, hlane, hother, hframe⟩ := switchLanes_spec y (draw (2 ^ 32) s).2 hne
      obtain ⟨v, hv⟩ : ∃ v, switchLanes y m f.lane (draw (2 ^ 32) s).2 = v := ⟨_, rfl⟩
      rw [hv] at hexec hfreed hlane hother hframe
      obtain ⟨hhold, hgen, hfreq, hrate, hseq⟩ := switchedLane_plain (t := laneOf s m) hp hs
      obtain ⟨w, hw⟩ : ∃ w, countSwitch y m (laneOf s f.lane).cur.freqHz lost 0 v = w := ⟨_, rfl⟩
      rw [hw] at hexec
      have hw' : w = { s with
          taste := w.taste, lanes := v.lanes, saps := v.saps, analogue := v.analogue, lf := v.lf, drm := v.drm, dab := v.dab, fresh := v.fresh } := by
        rw [← hw]
        unfold countSwitch modFollow
        rw [hframe]
        rfl
      have hlanes (k : Nat) : laneOf (raise .tasteEvent w) k = laneOf v k := by
        rw [raise_tasteEvent, hw']
        rfl
      have hcount := countSwitch_spec htastings (v := v) (by rw [hframe]; rfl) (laneOf s f.lane).cur.freqHz lost
      rw [hw] at hcount
      obtain ⟨hgone, hleft, hswitches, htotal⟩ := hcount
      refine ⟨_, hexec, ?_, ?_, ?_, ?_, ?_, ?_, ?_, ?_, ?_, ?_, fun h => ?_, fun k hk hk' => ?_, ?_⟩
      · rw [raise_tasteEvent]
        exact hgone
      · rw [hlanes, hfreed]
        rfl
      · rw [hlanes, hlane]
        exact hhold
      · rw [hlanes, hlane]
        exact hgen
      · rw [hlanes, hlane]
        exact hfreq
      · rw [hlanes, hlane]
        exact hrate
      · rw [hlanes, hlane]
        exact hseq
      · rw [raise_tasteEvent]
        exact hleft
      · rw [raise_tasteEvent]
        exact hswitches
      · rw [raise_tasteEvent]
        exact htotal
      · exact raise_tasteEvent_ready (by rw [hw']; exact h)
      · rw [hlanes, hother k hk hk']
        rfl
      · rw [raise_tasteEvent]
        generalize (raise .tasteEvent w).port.irqStat1 = b
        rw [hw']

end Sys2Proof.Machine

/-!
PROOFS. The tasting commands (O38): TASTE_ARM and TASTE_VIEW.
-/
namespace Sys2Proof.Machine

/-! TASTE_ARM (R299) -/

/-- An entry cleared with no tasting under way. -/
theorem clearEntry_none {s : State} (h : s.taste.tastings = []) (e : Nat) :
    clearEntry e s = { s with taste := { s.taste with follows := tabDel s.taste.follows e } } := by
  simp only [clearEntry, endTastings_none h]

theorem tabGet_tabDel_same {α : Type} (d : α) (t : Tab α) (i : Nat) : tabGet d (tabDel t i) i = d := by
  induction t with
  | nil => rfl
  | cons e t ih =>
    obtain ⟨k, v⟩ := e
    by_cases h : k = i
    · rw [tabDel, List.filter_cons_of_neg (by simpa using h)]
      exact ih
    · rw [tabDel, List.filter_cons_of_pos (by simpa using h), tabGet, if_neg h]
      exact ih

theorem tabGet_tabDel_ne {α : Type} (d : α) (t : Tab α) {i j : Nat} (hj : j ≠ i) : tabGet d (tabDel t i) j = tabGet d t j := by
  induction t with
  | nil => rfl
  | cons e t ih =>
    obtain ⟨k, v⟩ := e
    by_cases h : k = i
    · rw [tabDel, List.filter_cons_of_neg (by simpa using h), tabGet, if_neg (h ▸ Ne.symm hj)]
      exact ih
    · rw [tabDel, List.filter_cons_of_pos (by simpa using h), tabGet, tabGet]
      exact congrArg (fun x => if k = j then v else x) ih

/-- All entries cleared with no tasting under way. -/
theorem clearEntries_none (es : List Nat) : ∀ {s : State}, s.taste.tastings = [] →
    forAll es (fun s e => clearEntry e s) s = { s with taste := { s.taste with follows := es.foldl tabDel s.taste.follows } } := by
  induction es with
  | nil => exact fun _ => rfl
  | cons e es ih =>
    intro s h
    have hs := clearEntry_none h e
    exact (congrArg (forAll es fun s e => clearEntry e s) hs).trans (ih (s := { s with taste := { s.taste with follows := tabDel s.taste.follows e } }) h)

theorem tabGet_foldl_tabDel {α : Type} (d : α) (es : List Nat) : ∀ {t : Tab α} {i : Nat}, i ∈ es ∨ tabGet d t i = d →
    tabGet d (es.foldl tabDel t) i = d := by
  induction es with
  | nil => exact fun h => h.resolve_left List.not_mem_nil
  | cons e es ih =>
    intro t i h
    refine ih ?_
    by_cases hi : i = e
    · exact .inr (by rw [hi, tabGet_tabDel_same])
    · rw [tabGet_tabDel_ne _ _ hi]
      exact h.imp_left fun hm => (List.mem_cons.mp hm).resolve_left hi

/-- An entry cleared with its only tasting under way: the tasting ends as lees (Table 13-4). -/
theorem clearEntry_one {s : State} {e m : Nat} {y : Tasting} (h : s.taste.tastings = [(m, y)]) (hy : y.entry = e) :
    clearEntry e s = { endTasting 8 m s with taste := { (endTasting 8 m s).taste with follows := tabDel (endTasting 8 m s).taste.follows e } } := by
  have hend : endTastings 8 (fun _ t => t.entry == e) s = endTasting 8 m s := by
    simp [endTastings, h, hy, forAll]
  simp only [clearEntry, hend]

theorem fitTastings_fits {s : State} (h : ¬ s.taste.maxTaste < s.taste.tastings.length) (k : Nat) : fitTastings k s = s := by
  cases k with
  | zero => rfl
  | succ k => exact if_neg h

section
variable {s : State} {c : Cmd} (hn : Names c 4) (hh : HeaderOk c) (hz : ZeroBytes c 20 31) (hmode : s.modes.modeNow = 4 ∨ s.modes.modeNow = 5)
include hn hh hz hmode

/-- TASTE_ARM but OP 0 checks its entry, or MAX_TASTE and MUST_CAP. -/
theorem checkTasteArm_plain (h : (par c 8 = 1 ∧ par c 9 < 8) ∨ par c 8 = 2 ∨
    (par c 8 = 3 ∧ (1 ≤ par c 10 ∧ par c 10 ≤ 64) ∧ 1 ≤ par c 11 ∧ par c 11 ≤ 16)) : checkTasteArm s c = none := by
  have hmem : s.modes.modeNow ∈ [4, 5] := by simpa using hmode
  simp only [checkTasteArm, List.append_assoc]
  refine checks_pass hn rfl hh (List.forall_mem_append.mpr ⟨?_, List.forall_mem_append.mpr ⟨needZeros_none hz, ?_⟩⟩)
  · rcases h with ⟨h8, h9⟩ | h8 | ⟨h8, h10, h11⟩
    · simp [h8, h9]
    · simp [h8]
    · simp [h8, h10, h11]
  · have hset : (par c 8 == 0) = false := by
      rw [beq_eq_false_iff_ne]
      omega
    simp [hset, hmem]

/-- OP 0 of TASTE_ARM checks its whole entry (Table 13-6). -/
theorem checkTasteArm_set (h8 : par c 8 = 0) (h9 : par c 9 < 8) (hlane : par c 14 < 64)
    (hident : (laneOf s (par c 14)).cur.engKind = 3 → parN c 10 4 ≠ 0) (h15 : 1 ≤ par c 15) (h16 : par c 16 ≤ 80)
    (h17 : 1 ≤ par c 17 ∧ par c 17 ≤ 8) (h18 : 1 ≤ par c 18 ∧ par c 18 ≤ 60) (h19 : 5 ≤ par c 19) (hfollow : followable s (par c 14) = true)
    (hentry : entryOf s (par c 14) = none ∨ entryOf s (par c 14) = some (par c 9)) : checkTasteArm s c = none := by
  have hmem : s.modes.modeNow ∈ [4, 5] := by simpa using hmode
  simp only [checkTasteArm, List.append_assoc]
  refine checks_pass hn rfl hh (List.forall_mem_append.mpr ⟨?_, List.forall_mem_append.mpr ⟨needZeros_none hz, ?_⟩⟩)
  · simpa [h8, h9, hlane, h15, h16, h17, h18, h19] using Decidable.imp_iff_not_or.mp hident
  · rcases hentry with hentry | hentry
    · simp [h8, hfollow, hentry, hmem]
    · simp [h8, hfollow, hentry, hmem]

end

/-! TASTE_VIEW (R312, R313) -/

theorem checkTasteView_none {s : State} {c : Cmd} (hn : Names c 4) (hh : HeaderOk c) (hz : ZeroBytes c 15 31)
    (hmode : s.modes.modeNow = 4 ∨ s.modes.modeNow = 5) (h8 : par c 8 < 64 ∨ par c 8 = 0xFF)
    (h9 : par c 9 = 1 ∨ par c 9 = 0 ∧ 1 ≤ parN c 13 2 ∧ parN c 13 2 ≤ 2048 ∧ inScratch (parN c 10 3) (16 * parN c 13 2) = true) :
    checkTasteView s c = none := by
  have hmem : s.modes.modeNow ∈ [4, 5] := by simpa using hmode
  simp only [checkTasteView, List.append_assoc]
  refine checks_pass hn rfl hh (List.forall_mem_append.mpr ⟨?_, List.forall_mem_append.mpr ⟨needZeros_none hz, by simpa using hmem⟩⟩)
  rcases h9 with h9 | ⟨h9, h1, h2048, hin⟩
  · simpa [h9, bit] using h8
  · simpa [h9, bit, h1, h2048, hin] using h8

theorem releasePins_none {s : State} (h : s.taste.tastings = []) : releasePins s = { s with taste := { s.taste with pinned := [] } } := by
  simp only [releasePins, h, List.map_nil]

theorem devPuts_nil (s : State) (a : Nat) : devPuts s a [] = s := rfl

/-- A lane without a tasting adds nothing to a view. -/
theorem viewTasting_none {s : State} {k : Nat} (h : tastingOf s k = none) (v : View) : viewTasting (s, v) k = (s, v) := by
  simp only [viewTasting, h]

theorem foldl_viewTasting_none (ks : List Nat) {s : State} (v : View) (h : ∀ k ∈ ks, tastingOf s k = none) : ks.foldl viewTasting (s, v) = (s, v) := by
  induction ks with
  | nil => rfl
  | cons k ks ih =>
    rw [List.foldl_cons, viewTasting_none (h k (List.mem_cons_self ..))]
    exact ih fun j hj => h j (List.mem_cons_of_mem _ hj)

theorem tastingOf_single {s : State} {m : Nat} {y : Tasting} (h : s.taste.tastings = [(m, y)]) (k : Nat) :
    tastingOf s k = if k = m then some y else none := by
  by_cases hk : k = m
  · simp [tastingOf, h, hk]
  · simp [tastingOf, h, hk, Ne.symm hk]

/-- A view over lanes that hold the only tasting's lane once describes and pins its must item. -/
theorem foldl_viewTasting_one {s : State} {m : Nat} {y : Tasting} {i : MustItem} {ks : List Nat} {left : Nat} (h : s.taste.tastings = [(m, y)])
    (hitems : y.items = [i]) (hm : m ∈ ks) (hnd : ks.Nodup) (hleft : 1 ≤ left) :
    ks.foldl viewTasting (s, { out := [], left := left, pinned := 0, count := 0 }) =
      ({ s with taste := { s.taste with tastings := [(m, { y with items := [{ i with pinned := true }] })] } },
       { out := viewEntry m y.tgen i, left := left - 1, pinned := mustLen i, count := 1 }) := by
  obtain ⟨as, bs, rfl⟩ := List.append_of_mem hm
  have hout {k : Nat} (hk : k ∈ as ∨ k ∈ bs) : k ≠ m := by
    rintro rfl
    simp only [List.nodup_append, List.nodup_cons, List.mem_cons, forall_eq_or_imp] at hnd
    rcases hk with hk | hk
    · exact (hnd.2.2 k hk).1 rfl
    · exact hnd.2.1.1 hk
  obtain ⟨k, rfl⟩ := Nat.exists_eq_add_of_le' hleft
  have hview : viewTasting (s, { out := [], left := k + 1, pinned := 0, count := 0 }) m =
      ({ s with taste := { s.taste with tastings := [(m, { y with items := [{ i with pinned := true }] })] } },
       { out := viewEntry m y.tgen i, left := k, pinned := mustLen i, count := 1 }) := by
    simp [viewTasting, tastingOf_single h, hitems, setTasting, h]
  rw [List.foldl_append, foldl_viewTasting_none as _ fun k hk => by rw [tastingOf_single h, if_neg (hout (.inl hk))], List.foldl_cons, hview]
  exact foldl_viewTasting_none bs _ fun k hk => by rw [tastingOf_single rfl, if_neg (hout (.inr hk))]

/-- The lanes that a TASTE_VIEW asks for. -/
theorem viewed_mem {c : Cmd} {m : Nat} (hm : m < 64) (h : par c 8 = m ∨ par c 8 = 0xFF) : m ∈ if par c 8 = 0xFF then List.range 64 else [par c 8] := by
  by_cases hall : par c 8 = 0xFF
  · rw [if_pos hall]
    exact List.mem_range.mpr hm
  · rw [if_neg hall, h.resolve_right hall]
    exact List.mem_singleton_self _

theorem viewed_nodup (k : Nat) : (if k = 0xFF then List.range 64 else [k]).Nodup := by
  split
  · exact List.nodup_range
  · exact List.nodup_cons.mpr ⟨List.not_mem_nil, List.nodup_nil⟩

section
variable {s : State} {c : Cmd} (h9 : par c 9 = 0)
include h9

theorem runTasteView_none (h : s.taste.tastings = []) : runTasteView s c =
    complete c.seq 0x00 [0, 0, 0, 0, 0, 0, 0] { s with taste := { s.taste with pinned := [] } } := by
  have hbit : bit (par c 9) 0 = false := by rw [h9]; rfl
  simp only [runTasteView, releasePins_none h, hbit, Bool.false_eq_true, if_false]
  rw [foldl_viewTasting_none _ _ fun k _ => by simp only [tastingOf, h, List.find?_nil, Option.map_none]]
  simp only [devPuts_nil, h]
  rfl

/-- A view that asks for the only tasting describes and pins its must item (Table 13-9). -/
theorem runTasteView_one {m : Nat} {y : Tasting} {i : MustItem} (hleft : 1 ≤ parN c 13 2) (h : s.taste.tastings = [(m, y)]) (hm : m < 64)
    (hitems : y.items = [i]) (hsel : par c 8 = m ∨ par c 8 = 0xFF) : ∃ u, runTasteView s c =
      complete c.seq 0x00 ([1, 0, 1, 0] ++ leBytes (((itemBytes i.item).length + 1023) / 1024) 2 ++ [1]) u ∧
      u.mem = cellPuts s.mem (parN c 10 3) (leBytes i.addr 3 ++ [lowByte m] ++ leBytes (itemBytes i.item).length 2 ++ leBytes y.tgen 2 ++
        [1, lowByte i.item.kind, 0, 0] ++ leBytes i.item.iseq 4) ∧
      u = { s with mem := u.mem, scrub := u.scrub,
                   taste := { s.taste with pinned := [], tastings := [(m, { y with items := [{ i with pinned := true }] })] } } := by
  have hbit : bit (par c 9) 0 = false := by rw [h9]; rfl
  obtain ⟨v, hv⟩ : ∃ v, releasePins s = v := ⟨_, rfl⟩
  have hv' : v = { s with taste := { s.taste with
      pinned := [], tastings := [(m, { y with items := [{ i with pinned := false }] })] } } := by
    rw [← hv, releasePins, h]
    simp only [List.map_cons, List.map_nil, hitems]
  have hone : v.taste.tastings = [(m, { y with items := [{ i with pinned := false }] })] := by rw [hv']
  have hfold := foldl_viewTasting_one hone rfl (viewed_mem hm hsel) (viewed_nodup (par c 8)) hleft
  obtain ⟨w, hw⟩ : ∃ w, { v with taste := { v.taste with tastings := [(m, { y with items := [{ i with pinned := true }] })] } } = w := ⟨_, rfl⟩
  rw [hw] at hfold
  have hw' : w = { s with taste := { s.taste with pinned := [], tastings := [(m, { y with items := [{ i with pinned := true }] })] } } := by
    rw [← hw, hv']
  refine ⟨devPuts w (parN c 10 3) (viewEntry m y.tgen i), ?_, ?_, ?_⟩
  · simp only [runTasteView, hv, hbit, Bool.false_eq_true, if_false, hfold, hone]
    rfl
  · rw [devPuts_mem, hw']
    rfl
  · rw [devPuts_frame, hw']

end

/-- Settles O38. -/
theorem tasteCommandsArmAndView : Obligations.TasteCommandsArmAndView := by
  intro s seq c hn hmode
  refine ⟨fun hr hz => ?_, fun hr hz h8 => ?_⟩
  · have hrun (hc : checkTasteArm s c = none) : exec (.tasteArm seq) s = .next (runTasteArm (runs s seq) c) :=
      congrArg Host.Outcome.next (startCmd_runs runTasteArm hr.1 hc)
    have hseq := seq_of_mayRun hr
    refine ⟨?_, ?_, ?_, fun hop htaste => ?_, fun hop h1 h64 h11 h16 htaste => ?_⟩
    · rintro e l hop rfl h9 rfl hl hfollow hentry hident h15 h16 h17 h17' h18 h18' h19 htaste f
      rw [hrun (checkTasteArm_set hn hr.2 hz hmode hop h9 hl hident h15 h16 ⟨h17, h17'⟩ ⟨h18, h18'⟩ h19 hfollow hentry)]
      simp only [runTasteArm, hop, hseq]
      rw [clearEntry_none (s := runs s seq) htaste]
      rw [show (runs s seq).taste.tastings.length - _ = 0 from Nat.sub_self _]
      rfl
    · rintro e hop rfl h9 htaste
      rw [hrun (checkTasteArm_plain hn hr.2 hz hmode (.inl ⟨hop, h9⟩))]
      simp only [runTasteArm, hop, hseq]
      rw [clearEntry_none (s := runs s seq) htaste]
      rw [show (runs s seq).taste.tastings.length - _ = 0 from Nat.sub_self _]
      rfl
    · rintro e m y hop rfl h9 htaste hy
      rw [hrun (checkTasteArm_plain hn hr.2 hz hmode (.inl ⟨hop, h9⟩))]
      simp only [runTasteArm, hop, hseq]
      rw [clearEntry_one (s := runs s seq) htaste hy]
      obtain ⟨-, hfree, hother, hlees, -, -, -, hleft, hframe⟩ := endTasting_spec (s := runs s seq) (m := m) (y := y)
        (by rw [tastingOf_single (s := runs s seq) htaste, if_pos rfl]) 8
      have hgone : (endTasting 8 m (runs s seq)).taste.tastings = [] := by
        rw [hleft]
        show s.taste.tastings.filter _ = []
        simp [htaste]
      obtain ⟨u, hu⟩ : ∃ u, endTasting 8 m (runs s seq) = u := ⟨_, rfl⟩
      rw [hu] at hfree hother hlees hframe hgone ⊢
      refine ⟨{ u with taste := { u.taste with follows := tabDel u.taste.follows (par c 9) } }, ?_, hgone, hfree, hlees,
        congrArg Follow.valid (tabGet_tabDel_same ..), hother, by rw [hframe]⟩
      rw [hgone, show (runs s seq).taste.tastings = [(m, y)] from htaste]
      rfl
    · rw [hrun (checkTasteArm_plain hn hr.2 hz hmode (.inr (.inl hop)))]
      simp only [runTasteArm, hop, hseq]
      rw [clearEntries_none (s := runs s seq) _ htaste]
      refine ⟨_, congrArg (fun n => Host.Outcome.next (complete seq 0x00 [lowByte (par c 9), lowByte n] _)) (Nat.sub_self _), fun e he =>
        congrArg Follow.valid (tabGet_foldl_tabDel _ _ (.inl (List.mem_range.mpr he))), rfl⟩
    · rw [hrun (checkTasteArm_plain hn hr.2 hz hmode (.inr (.inr ⟨hop, ⟨h1, h64⟩, h11, h16⟩)))]
      simp only [runTasteArm, hop, hseq]
      have hfit : ¬ par c 10 < (runs s seq).taste.tastings.length := by
        rw [show (runs s seq).taste.tastings = [] from htaste]
        exact Nat.not_lt_zero _
      rw [fitTastings_fits (s := { runs s seq with taste := { (runs s seq).taste with maxTaste := par c 10, mustCap := par c 11 } }) hfit]
      exact congrArg (fun n => Host.Outcome.next (complete seq 0x00 [lowByte (par c 9), lowByte n] _)) (Nat.sub_self _)
  · have hrun (hc : checkTasteView s c = none) : exec (.tasteView seq) s = .next (runTasteView (runs s seq) c) :=
      congrArg Host.Outcome.next (startCmd_runs runTasteView hr.1 hc)
    have hseq := seq_of_mayRun hr
    refine ⟨fun h9 => ?_, fun h9 h1 h2048 hin => ?_⟩
    · have hbit : bit (par c 9) 0 = true := by rw [h9]; rfl
      have hlen : (releasePins (runs s seq)).taste.tastings.length = s.taste.tastings.length := List.length_map ..
      refine ⟨releasePins (runs s seq), ?_, rfl, hlen, ?_, rfl⟩
      · rw [hrun (checkTasteView_none hn hr.2 hz hmode h8 (.inl h9))]
        simp only [runTasteView, hbit, hseq, if_true, hlen]
      · intro y hy i hi
        obtain ⟨z, -, rfl⟩ := List.mem_map.mp hy
        obtain ⟨j, -, rfl⟩ := List.mem_map.mp hi
        rfl
    · rw [hrun (checkTasteView_none hn hr.2 hz hmode h8 (.inr ⟨h9, h1, h2048, hin⟩))]
      rw [← hseq]
      exact ⟨fun htaste => congrArg _ (runTasteView_none (s := runs s c.seq) h9 htaste), fun m y i htaste hm hitems hsel => by
        obtain ⟨u, hu, hmem, hframe⟩ := runTasteView_one (s := runs s c.seq) h9 h1 htaste hm hitems hsel
        exact ⟨u, congrArg _ hu, hmem, hframe⟩⟩

end Sys2Proof.Machine

/-!
PROOFS. Engines that no slot and no tasting listens to: what an item's completion, a frame's estimates and a return to the search change.
-/
namespace Sys2Proof.Machine

/-- A host lane that no slot and no tasting listens to. -/
structure Unheard (s : State) (lane : Nat) : Prop where
  host : (laneOf s lane).hold = .host
  slots : s.slots.slots = []
  follows : s.taste.follows = []
  tastings : s.taste.tastings = []

theorem bump_bump (k n a b : Nat) : bump k (bump k n a) b = bump k n (a + b) := by
  simp only [bump, satAdd]
  omega

theorem tabSet_tabSet {α : Type} (t : Tab α) (i : Nat) (x y : α) : tabSet (tabSet t i x) i y = tabSet t i y := by
  induction t with
  | nil => simp [tabSet]
  | cons e t ih =>
    obtain ⟨k, v⟩ := e
    rcases Nat.lt_trichotomy i k with h | h | h
    · simp [tabSet, h]
    · simp [tabSet, h]
    · simp [tabSet, Nat.not_lt.mpr (Nat.le_of_lt h), Nat.ne_of_gt h, ih]

section
variable {s : State} {lane : Nat} (h : Unheard s lane)
include h

theorem Unheard.tastingOf (k : Nat) : tastingOf s k = none := by
  rw [Machine.tastingOf, h.tastings]
  rfl

/-- With no slot open an item is delivered to none. -/
theorem Unheard.deliverItem (it : Item) (field : Option (Nat × Nat)) : deliverItem it field s = s := by
  have hraw : deliverRaw it s = s := by
    unfold deliverRaw slotsOf
    rw [h.slots]
    split <;> rfl
  have hfragment : takeFragment it s = s := by
    unfold takeFragment
    simp only [wantsAid, h.slots, List.any_nil, Bool.not_false, Bool.or_true, if_true]
  have hwhole (carrier stream sub : Nat) (bytes : List Byte) : takeWhole carrier it.lane stream sub it.stamp it.iseq bytes s = s := by
    unfold takeWhole namingSlots
    simp only [h.slots, List.filter_nil, List.map_nil, List.isEmpty_nil, if_true]
  unfold Machine.deliverItem
  simp only [hraw, hfragment, hwhole]
  split
  · rfl
  split
  · rfl
  split
  · rfl
  split
  · split <;> rfl
  · rfl

/-- An item that carries no time, completed on such a lane, has no effect. -/
theorem Unheard.emit {it : Item} (hlane : it.lane = lane) (htime : timeItem it = false) (field : Option (Nat × Nat)) : emit it field s = s := by
  have hentry : entryOf s it.lane = none := by
    rw [entryOf, h.follows]
    rfl
  have hhold : (laneOf s it.lane).hold = .host := by rw [hlane, h.host]
  have hnote : noteDelivery s it = s := by simp only [noteDelivery, hentry]
  have hpass : passesMarks s it = true := by simp only [passesMarks, hentry]
  simp only [Machine.emit, hhold, deliverGated, hpass, htime, hnote, h.deliverItem, handTime, if_true, Bool.false_eq_true, if_false]

theorem Unheard.unitEnd (k : Nat) (good erased : Bool) : unitEnd k good erased s = s := by simp only [Machine.unitEnd, h.tastingOf]

theorem Unheard.tasteRestart (k : Nat) : tasteRestart k s = s := by simp only [Machine.tasteRestart, modTasting, h.tastingOf]

theorem Unheard.tasteFac (p : Place) (f : Fac) : tasteFac p f s = s := by simp only [Machine.tasteFac, h.tastingOf]

end

/-! One DRM engine's fields -/

/-- The state with the fields of one DRM engine. -/
def setDrm (s : State) (u : Nat) (d : Drm) : State := { s with drm := tabSet s.drm u d }

theorem modDrm_eq (s : State) (u : Nat) (f : Drm → Drm) : modDrm s u f = setDrm s u (f (drmOf s u)) := rfl

@[simp] theorem drmOf_setDrm (s : State) (u : Nat) (d : Drm) : drmOf (setDrm s u d) u = d := tabGet_tabSet_same ..

theorem drmOf_setDrm_ne (s : State) {u k : Nat} (d : Drm) (hk : k ≠ u) : drmOf (setDrm s u d) k = drmOf s k := tabGet_tabSet_ne _ _ _ hk

@[simp] theorem setDrm_setDrm (s : State) (u : Nat) (d d' : Drm) : setDrm (setDrm s u d) u d' = setDrm s u d' := by
  simp [setDrm, tabSet_tabSet]

@[simp] theorem modDrm_setDrm (s : State) (u : Nat) (d : Drm) (f : Drm → Drm) : modDrm (setDrm s u d) u f = setDrm s u (f d) := by
  rw [modDrm_eq, drmOf_setDrm, setDrm_setDrm]

@[simp] theorem laneOf_setDrm (s : State) (u : Nat) (d : Drm) (k : Nat) : laneOf (setDrm s u d) k = laneOf s k := rfl

theorem Unheard.setDrm {s : State} {lane : Nat} (h : Unheard s lane) (u : Nat) (d : Drm) : Unheard (setDrm s u d) lane :=
  ⟨h.host, h.slots, h.follows, h.tastings⟩

/-- One DAB engine's fields. -/
def setDab (s : State) (u : Nat) (d : Dab) : State := { s with dab := tabSet s.dab u d }

theorem modDab_eq (s : State) (u : Nat) (f : Dab → Dab) : modDab s u f = setDab s u (f (dabOf s u)) := rfl

@[simp] theorem dabOf_setDab (s : State) (u : Nat) (d : Dab) : dabOf (setDab s u d) u = d := tabGet_tabSet_same ..

theorem dabOf_setDab_ne (s : State) {u k : Nat} (d : Dab) (hk : k ≠ u) : dabOf (setDab s u d) k = dabOf s k := tabGet_tabSet_ne _ _ _ hk

@[simp] theorem setDab_setDab (s : State) (u : Nat) (d d' : Dab) : setDab (setDab s u d) u d' = setDab s u d' := by
  simp [setDab, tabSet_tabSet]

@[simp] theorem modDab_setDab (s : State) (u : Nat) (d : Dab) (f : Dab → Dab) : modDab (setDab s u d) u f = setDab s u (f d) := by
  rw [modDab_eq, dabOf_setDab, setDab_setDab]

@[simp] theorem laneOf_setDab (s : State) (u : Nat) (d : Dab) (k : Nat) : laneOf (setDab s u d) k = laneOf s k := rfl

theorem Unheard.setDab {s : State} {lane : Nat} (h : Unheard s lane) (u : Nat) (d : Dab) : Unheard (setDab s u d) lane :=
  ⟨h.host, h.slots, h.follows, h.tastings⟩

@[simp] theorem modEng_setDrm (s : State) (u : Nat) (d : Drm) (f : Engine → Engine) :
    modEng (setDrm s u d) 2 u f = setDrm s u { d with eng := f d.eng } := modDrm_setDrm ..

@[simp] theorem modEng_setDab (s : State) (u : Nat) (d : Dab) (f : Engine → Engine) :
    modEng (setDab s u d) 3 u f = setDab s u { d with eng := f d.eng } := modDab_setDab ..

@[simp] theorem engOf_setDrm (s : State) (u : Nat) (d : Drm) : engOf (setDrm s u d) 2 u = d.eng := congrArg Drm.eng (drmOf_setDrm ..)

@[simp] theorem engOf_setDab (s : State) (u : Nat) (d : Dab) : engOf (setDab s u d) 3 u = d.eng := congrArg Dab.eng (dabOf_setDab ..)

/-! Items and events -/

section
variable {s : State} {p : Place} (h : Unheard s p.lane)
include h

/-- An item that a DRM engine completes counts its index and itself. -/
theorem emitAt_setDrm (hkind : p.kind = 2) (d : Drm) {kind : Nat} (htime : [0x13, 0x32, 0x41].contains kind = false) (stream : Nat) (payload : List Byte)
    (field : Option (Nat × Nat)) : ∃ l n, emitAt p kind stream payload field (setDrm s p.unit d) =
      setDrm s p.unit { d with eng := { d.eng with indices := l }, itemsOut := n } := by
  refine ⟨(nextIndex d.eng.indices kind stream p.pos).2, bump 4 d.itemsOut 1, ?_⟩
  simp only [emitAt, hkind, engOf_setDrm, modEng_setDrm, modDrm_setDrm, if_true]
  exact Unheard.emit (h.setDrm p.unit _) (by rfl) (by exact htime) field

theorem emitAt_setDab (hkind : p.kind = 3) (d : Dab) {kind : Nat} (htime : [0x13, 0x32, 0x41].contains kind = false) (stream : Nat) (payload : List Byte)
    (field : Option (Nat × Nat)) : ∃ l, emitAt p kind stream payload field (setDab s p.unit d) =
      setDab s p.unit { d with eng := { d.eng with indices := l } } := by
  refine ⟨(nextIndex d.eng.indices kind stream p.pos).2, ?_⟩
  simp only [emitAt, hkind, engOf_setDab, modEng_setDab, Nat.reduceEqDiff, if_false]
  exact Unheard.emit (h.setDab p.unit _) (by rfl) (by exact htime) field

theorem engineEvent_setDrm (hkind : p.kind = 2) (d : Drm) (cause stream lost counter : Nat) : ∃ l n,
    engineEvent p cause stream lost counter (setDrm s p.unit d) = setDrm s p.unit { d with eng := { d.eng with indices := l }, itemsOut := n } := by
  unfold engineEvent
  rw [if_pos hkind]
  exact emitAt_setDrm h hkind d (by decide) _ _ _

theorem engineEvent_setDab (hkind : p.kind = 3) (d : Dab) (cause stream lost counter : Nat) : ∃ l,
    engineEvent p cause stream lost counter (setDab s p.unit d) = setDab s p.unit { d with eng := { d.eng with indices := l } } := by
  unfold engineEvent
  rw [if_neg (by rw [hkind]; decide)]
  exact emitAt_setDab h hkind d (by decide) _ _ _

end

/-- A draw of the engine's event. -/
theorem lossEvent_setDrm {s : State} {p : Place} (h : Unheard s p.lane) (hkind : p.kind = 2) (d : Drm) (cause stream counter : Nat) : ∃ l n,
    lossEvent p cause stream counter (setDrm s p.unit d) =
      setDrm { s with fresh := s.fresh + 1 } p.unit { d with eng := { d.eng with indices := l }, itemsOut := n } :=
  engineEvent_setDrm (s := { s with fresh := s.fresh + 1 }) ⟨h.host, h.slots, h.follows, h.tastings⟩ hkind d _ _ _ _

theorem lossEvent_setDab {s : State} {p : Place} (h : Unheard s p.lane) (hkind : p.kind = 3) (d : Dab) (cause stream counter : Nat) : ∃ l,
    lossEvent p cause stream counter (setDab s p.unit d) =
      setDab { s with fresh := s.fresh + 1 } p.unit { d with eng := { d.eng with indices := l } } :=
  engineEvent_setDab (s := { s with fresh := s.fresh + 1 }) ⟨h.host, h.slots, h.follows, h.tastings⟩ hkind d _ _ _ _

theorem toSearch_setDrm {s : State} {p : Place} (h : Unheard s p.lane) (hkind : p.kind = 2) (d : Drm) :
    toSearch p (setDrm s p.unit d) = setDrm s p.unit (drmSearch d) := by
  simp only [toSearch, hkind, restartEngine, modDrm_setDrm]
  exact (h.setDrm _ _).tasteRestart _

theorem toSearch_setDab {s : State} {p : Place} (h : Unheard s p.lane) (hkind : p.kind = 3) (d : Dab) :
    toSearch p (setDab s p.unit d) = setDab s p.unit (dabSearch d) := by
  simp only [toSearch, hkind, restartEngine, modDab_setDab]
  exact (h.setDab _ _).tasteRestart _

/-! The residuals of a frame without one -/

/-- The residuals that have come are none, or one of 0. -/
def ZeroResidual (e : Engine) : Prop := e.residuals = [] ∨ e.residuals = [0]

theorem frameEstimates_spec (cells : Nat) (mer : Int) (all : Bool) {e : Engine} (h : e.residuals = []) :
    (frameEstimates cells mer 0 all e).state = e.state ∧ (frameEstimates cells mer 0 all e).fails = e.fails ∧
      (frameEstimates cells mer 0 all e).syncLosses = e.syncLosses ∧ ZeroResidual (frameEstimates cells mer 0 all e) := by
  cases all
  · cases hf : e.afcFrozen <;> simp [frameEstimates, frameEstimates.takeResidualIf, takeResidual, ZeroResidual, hf, h]
  · simp [frameEstimates, ZeroResidual, h]

theorem reportResidual_setDrm {s : State} {p : Place} (hkind : p.kind = 2) {d : Drm} (h : ZeroResidual d.eng) : ∃ r,
    reportResidual p (setDrm s p.unit d) = setDrm s p.unit { d with eng := { d.eng with residual := r } } := by
  unfold reportResidual
  rw [hkind, engOf_setDrm]
  rcases h with h | h
  · exact ⟨d.eng.residual, by rw [h]; rfl⟩
  · exact ⟨satInt 2 0, by simp [h]⟩

theorem reportResidual_setDab {s : State} {p : Place} (hkind : p.kind = 3) {d : Dab} (h : ZeroResidual d.eng) : ∃ r,
    reportResidual p (setDab s p.unit d) = setDab s p.unit { d with eng := { d.eng with residual := r } } := by
  unfold reportResidual
  rw [hkind, engOf_setDab]
  rcases h with h | h
  · exact ⟨d.eng.residual, by rw [h]; rfl⟩
  · exact ⟨satInt 2 0, by simp [h]⟩

/-- Without a residual no drift is found. -/
theorem checkDrift_zero {s : State} {p : Place} {limit : Int} (hlimit : 0 ≤ limit) (h : ZeroResidual (engOf s p.kind p.unit)) :
    checkDrift p limit s = s := by
  have hsmall : decide (limit * ((engOf s p.kind p.unit).residuals.length : Int) <
      (((engOf s p.kind p.unit).residuals.foldl (· + ·) 0).natAbs : Int)) = false := by
    rcases h with h | h <;> simp [h, hlimit]
  simp only [checkDrift, hsmall, Bool.and_false, Bool.false_eq_true, if_false]

theorem driftLimit_nonneg (m : Nat) : 0 ≤ driftLimit m := by
  unfold driftLimit
  split <;> decide

end Sys2Proof.Machine

/-!
PROOFS. The DRM and DAB engines (O37): the gap, a DRM frame's FAC and a DAB frame's FIC.
-/
namespace Sys2Proof.Machine

/-! The gap (R275) -/

/-- The place of an event belongs to the lane's engine. -/
theorem placeAt_spec {s : State} {n sc : Nat} : (placeAt s n sc).lane = n ∧ (placeAt s n sc).kind = (laneOf s n).cur.engKind ∧
    (placeAt s n sc).unit = (laneOf s n).cur.engIndex := by
  cases h : (engOf s (laneOf s n).cur.engKind (laneOf s n).cur.engIndex).frameStamp with
  | none => simp only [placeAt, gridPlace, h, Option.map_none, Option.getD_none, and_self]
  | some t =>
    simp only [placeAt, gridPlace, h, Option.map_some, Option.getD_some]
    split
    next hkind => exact ⟨rfl, hkind.symm, rfl⟩
    next => exact ⟨rfl, rfl, rfl⟩

section
variable {s : State} {n : Nat}

theorem execGap_stands (h : (engOf s (laneOf s n).cur.engKind (laneOf s n).cur.engIndex).erasedSince = none ∨
    (engOf s (laneOf s n).cur.engKind (laneOf s n).cur.engIndex).gapDone = true) : exec (.gap n) s = .next s := by
  rcases h with h | h <;> simp [exec, execGap, h]

/-- The engine's part of a gap: back to its search, once for the run. -/
def gapEngine (e : Engine) : Engine := { engineSearch { e with gapResets := bump 4 e.gapResets 1 } with gapDone := true }

theorem execGap_due (htakes : laneTakes s n = true) (hkind : (laneOf s n).cur.engKind = 2 ∨ (laneOf s n).cur.engKind = 3)
    (hstate : (engOf s (laneOf s n).cur.engKind (laneOf s n).cur.engIndex).state ≠ 0) {t0 : Nat}
    (hsince : (engOf s (laneOf s n).cur.engKind (laneOf s n).cur.engIndex).erasedSince = some t0) (hdue : t0 + 2 * 2 ^ 24 ≤ s.clocks.sc)
    (hdone : (engOf s (laneOf s n).cur.engKind (laneOf s n).cur.engIndex).gapDone = false) : ∃ p : Place,
    p.lane = n ∧ p.kind = (laneOf s n).cur.engKind ∧ p.unit = (laneOf s n).cur.engIndex ∧ exec (.gap n) s = .next (lossEvent p 0x04 256
      (bump 4 (engOf s (laneOf s n).cur.engKind (laneOf s n).cur.engIndex).gapResets 1)
      (modEng (toSearch p (modEng s (laneOf s n).cur.engKind (laneOf s n).cur.engIndex fun e =>
        { e with gapResets := bump 4 (engOf s (laneOf s n).cur.engKind (laneOf s n).cur.engIndex).gapResets 1 }))
        (laneOf s n).cur.engKind (laneOf s n).cur.engIndex fun e => { e with gapDone := true })) := by
  obtain ⟨hlane, hpkind, hunit⟩ := placeAt_spec (s := s) (n := n) (sc := t0 + 2 * countsPerSecond)
  refine ⟨_, hlane, hpkind, hunit, ?_⟩
  have hk : ((laneOf s n).cur.engKind == 2 || (laneOf s n).cur.engKind == 3) = true := by simpa using hkind
  have hs : ((engOf s (laneOf s n).cur.engKind (laneOf s n).cur.engIndex).state != 0) = true := by simpa using hstate
  have hcps : countsPerSecond = 2 ^ 24 := rfl
  simp only [exec, execGap, htakes, hk, hs, hsince, hdone, hcps, decide_eq_true hdue, Bool.and_self, Bool.not_false, if_true, Option.getD_some]

end

theorem modEng_two (s : State) (u : Nat) (f : Engine → Engine) : modEng s 2 u f = setDrm s u { drmOf s u with eng := f (drmOf s u).eng } := rfl

theorem modEng_three (s : State) (u : Nat) (f : Engine → Engine) : modEng s 3 u f = setDab s u { dabOf s u with eng := f (dabOf s u).eng } := rfl

/-- A run of 2 s of erased blocks returns the engine to its search. -/
theorem execGap_search {s : State} {n : Nat} (hu : Unheard s n) (htakes : laneTakes s n = true)
    (hkind : (laneOf s n).cur.engKind = 2 ∨ (laneOf s n).cur.engKind = 3)
    (hstate : (engOf s (laneOf s n).cur.engKind (laneOf s n).cur.engIndex).state ≠ 0) {t0 : Nat}
    (hsince : (engOf s (laneOf s n).cur.engKind (laneOf s n).cur.engIndex).erasedSince = some t0) (hdue : t0 + 2 * 2 ^ 24 ≤ s.clocks.sc)
    (hdone : (engOf s (laneOf s n).cur.engKind (laneOf s n).cur.engIndex).gapDone = false) : ∃ t l, exec (.gap n) s = .next t ∧
      engOf t (laneOf s n).cur.engKind (laneOf s n).cur.engIndex =
        { gapEngine (engOf s (laneOf s n).cur.engKind (laneOf s n).cur.engIndex) with indices := l } ∧
      t = { s with drm := t.drm, dab := t.dab, fresh := t.fresh } := by
  obtain ⟨p, hlane, hpkind, hunit, hexec⟩ := execGap_due htakes hkind hstate hsince hdue hdone
  have hup : Unheard s p.lane := by rwa [hlane]
  rw [← hpkind, ← hunit] at hexec ⊢
  rw [← hpkind] at hkind
  rcases hkind with hk | hk
  · rw [hk, modEng_two s p.unit, toSearch_setDrm hup hk, modEng_setDrm] at hexec
    obtain ⟨l, m, hloss⟩ := lossEvent_setDrm hup hk _ 0x04 256 (bump 4 (engOf s 2 p.unit).gapResets 1)
    rw [hloss] at hexec
    refine ⟨_, l, hexec, ?_, rfl⟩
    rw [hk, engOf_setDrm]
    rfl
  · rw [hk, modEng_three s p.unit, toSearch_setDab hup hk, modEng_setDab] at hexec
    obtain ⟨l, hloss⟩ := lossEvent_setDab hup hk _ 0x04 256 (bump 4 (engOf s 3 p.unit).gapResets 1)
    rw [hloss] at hexec
    refine ⟨_, l, hexec, ?_, rfl⟩
    rw [hk, engOf_setDab]
    rfl

/-! DRM frames (R276, R280) -/

theorem erasedIn_none {x : Lane} (h : x.gaps = []) (a b : Nat) : erasedIn x a b = false := by rw [erasedIn, h]; rfl

theorem erasedWhole_none {x : Lane} (h : x.gaps = []) (a b : Nat) : erasedWhole x a b = false := by rw [erasedWhole, h]; rfl

theorem drmTaken_clear {x : Lane} (h : x.gaps = []) (mode : Nat) (fr : DrmFrame) : drmTaken x mode fr = { fr with facErased := false, allErased := false } := by
  simp only [drmTaken, erasedWhole_none h, erasedIn_none h, Bool.false_eq_true, if_false]

/-- The engine's estimates of a frame (R278, R279). -/
def drmEstimated (fr : DrmFrame) (e : Engine) : Engine :=
  { frameEstimates fr.erasedCells fr.mer fr.residual fr.allErased e with
    taps := nextTaps e.taps fr.taps, frameStamp := some fr.stamp, superStamp := fr.superStamp }

/-- A failed FAC in RUN, below SYNC_LOSS. -/
theorem takeFacFrame_failed {s : State} {p : Place} {d : Drm} {fr : DrmFrame} (hfac : fr.fac = none) (herased : fr.facErased = false) (hstate : d.eng.state = 6)
    (hloss : d.eng.fails + 1 < syncLoss (laneOf s p.lane).cur) : takeFacFrame p fr (setDrm s p.unit d) =
      setDrm s p.unit { d with facBad := bump 4 d.facBad 1, eng := { d.eng with fails := d.eng.fails + 1 } } := by
  simp [takeFacFrame, hfac, herased, hstate, hloss]

section
variable {s : State} {p : Place} (h : Unheard s p.lane) (hkind : p.kind = 2)
include h hkind

/-- A good FAC takes an engine without an announced configuration from FAC to SDC. -/
theorem takeFacFrame_first {d : Drm} {fr : DrmFrame} {f : Fac} (hfac : fr.fac = some f) (herased : fr.facErased = false) (hstate : d.eng.state = 4)
    (hnext : d.nextStreams = none) : ∃ l m, takeFacFrame p fr (setDrm s p.unit d) = setDrm s p.unit { takeFac f d with
      facOk := bump 4 d.facOk 1, framesOk := bump 4 d.framesOk 1, itemsOut := m,
      eng := { d.eng with fails := 0, afcFrozen := true, state := 5, indices := l } } := by
  obtain ⟨l, m, hgood⟩ : ∃ l m, goodFac p f true (setDrm s p.unit d) = setDrm s p.unit { takeFac f d with
      facOk := bump 4 d.facOk 1, framesOk := bump 4 d.framesOk 1, itemsOut := m, eng := { d.eng with indices := l } } := by
    have hmod : modDrm (setDrm s p.unit d) p.unit (fun _ => { takeFac f d with
        facOk := bump 4 (takeFac f d).facOk 1, framesOk := bump 4 (takeFac f d).framesOk (flagNat true) }) = setDrm s p.unit { takeFac f d with
        facOk := bump 4 d.facOk 1, framesOk := bump 4 d.framesOk 1 } := modDrm_setDrm ..
    simp only [goodFac, drmOf_setDrm, hmod, hnext]
    split
    · exact emitAt_setDrm h hkind _ (by decide) _ _ _
    · exact ⟨d.eng.indices, d.itemsOut, rfl⟩
  obtain ⟨l', m', hevent⟩ := engineEvent_setDrm h hkind { takeFac f d with
      facOk := bump 4 d.facOk 1, framesOk := bump 4 d.framesOk 1, itemsOut := m,
      eng := { d.eng with fails := 0, afcFrozen := true, state := 5, indices := l } } 0x01 256 0 0
  refine ⟨l', m', ?_⟩
  simp only [takeFacFrame, hfac, herased, drmOf_setDrm, hstate, Bool.not_false, hgood, modEng_setDrm, BEq.rfl, if_true, Bool.false_eq_true, if_false,
    hevent]
  exact (h.setDrm _ _).tasteFac p f

/-- SYNC_LOSS frames without a FAC in succession end sync. -/
theorem takeFacFrame_lost {d : Drm} {fr : DrmFrame} (hfac : fr.fac = none) (herased : fr.facErased = false) (hstate : d.eng.state = 6)
    (hloss : d.eng.fails + 1 = syncLoss (laneOf s p.lane).cur) : ∃ d', takeFacFrame p fr (setDrm s p.unit d) =
      setDrm { s with fresh := s.fresh + 1 } p.unit d' ∧ d'.eng.state = 1 ∧ d'.eng.fails = 0 ∧
        d'.eng.syncLosses = bump 4 d.eng.syncLosses 1 ∧ d'.eng.residuals = [] := by
  obtain ⟨l, m, hevent⟩ := lossEvent_setDrm h hkind (drmSearch { d with
      facBad := bump 4 d.facBad 1, eng := { d.eng with fails := d.eng.fails + 1, syncLosses := bump 4 d.eng.syncLosses 1 } })
    0x02 256 (bump 4 d.eng.syncLosses 1)
  refine ⟨_, Eq.trans ?_ hevent, rfl, rfl, rfl, rfl⟩
  simp only [takeFacFrame, hfac, herased, drmOf_setDrm, hstate, modDrm_setDrm, hloss, Nat.lt_irrefl, Nat.reduceEqDiff, Bool.false_eq_true, if_false,
      laneOf_setDrm, decide_false, Bool.or_self, syncLost, hkind, engOf_setDrm, modEng_setDrm, toSearch_setDrm h hkind]


end

/-- An engine after a frame's estimates, a residual of 0 reported. -/
def Estimated (e e' : Engine) : Prop := e'.state = e.state ∧ e'.fails = e.fails ∧ e'.syncLosses = e.syncLosses ∧ ZeroResidual e'

theorem drmTaken_plain {x : Lane} {mode : Nat} {fr : DrmFrame} (hsdc : fr.sdc = none) (hmsc : fr.msc = []) :
    (drmTaken x mode fr).sdc = none ∧ (drmTaken x mode fr).msc = [] ∧ (drmTaken x mode fr).residual = fr.residual := by
  unfold drmTaken
  dsimp only
  split
  · simp [hsdc, hmsc]
  split
  · exact ⟨hsdc, hmsc, rfl⟩
  · exact ⟨hsdc, hmsc, rfl⟩

theorem drmSdc_none {p sup : Place} {frame : DrmFrame} {s : State} (h : frame.sdc = none) : drmSdc p sup frame s = s := by
  simp only [drmSdc, h, takeSdc, ite_self]

theorem drmMsc_nil {p : Place} {frame : DrmFrame} {s : State} (h : frame.msc = []) : drmMsc p frame s = s := by
  simp only [drmMsc, h, List.foldl_nil, ite_self]

theorem drmDrift_zero {p : Place} {s : State} (h : ZeroResidual (engOf s p.kind p.unit)) : drmDrift p s = s := by
  simp only [drmDrift, checkDrift_zero (driftLimit_nonneg _) h, ite_self]

/-- A DRM frame without SDC, MSC and residual does what its FAC does. -/
theorem execDrmFrame_fac {s : State} {n u : Nat} {fr : DrmFrame} (htakes : laneTakes s n = true) (hkind : (laneOf s n).cur.engKind = 2)
    (hu : (laneOf s n).cur.engIndex = u) (hstate : 4 ≤ (drmOf s u).eng.state) (hsdc : fr.sdc = none) (hmsc : fr.msc = []) (hres : fr.residual = 0)
    (hold : (drmOf s u).eng.residuals = []) : ∃ (p : Place) (e : Engine), p.lane = n ∧ p.kind = 2 ∧ p.unit = u ∧ Estimated (drmOf s u).eng e ∧
    ∀ v d', takeFacFrame p (drmTaken (laneOf s n) (drmOf s u).mode fr) (setDrm s u { drmOf s u with eng := e }) = setDrm v u d' →
    Unheard v n → ZeroResidual d'.eng → exec (.drmFrame n fr) s = .next (setDrm v u d') := by
  obtain ⟨hsdc', hmsc', hres'⟩ := drmTaken_plain (x := laneOf s n) (mode := (drmOf s u).mode) hsdc hmsc
  obtain ⟨frame, hframe⟩ : ∃ frame, drmTaken (laneOf s n) (drmOf s u).mode fr = frame := ⟨_, rfl⟩
  rw [hframe] at hsdc' hmsc' hres' ⊢
  rw [hres] at hres'
  obtain ⟨p, hp⟩ : ∃ p : Place, { lane := n, kind := 2, unit := u, pos := superPos (drmOf s u).mode frame.superStamp, stamp := frame.stamp } = p := ⟨_, rfl⟩
  have hest : Estimated (drmOf s u).eng (drmEstimated frame (drmOf s u).eng) := by
    have h := frameEstimates_spec frame.erasedCells frame.mer frame.allErased hold
    rwa [← hres'] at h
  have hkind' : p.kind = 2 := by rw [← hp]
  have hunit : p.unit = u := by rw [← hp]
  obtain ⟨r, hr⟩ := reportResidual_setDrm (s := s) hkind' (d := { drmOf s u with eng := drmEstimated frame (drmOf s u).eng }) hest.2.2.2
  refine ⟨p, { drmEstimated frame (drmOf s u).eng with residual := r }, by rw [← hp], hkind', hunit, hest, fun v d' hfac hv hd' => ?_⟩
  have hexec : exec (.drmFrame n fr) s = .next (unitEnd n frame.fac.isSome (0 < frame.erasedCells) (drmDrift p (drmMsc p frame
      (drmSdc p { p with stamp := frame.superStamp } frame (takeFacFrame p frame (reportResidual p
        (modEng s 2 u (drmEstimated frame)))))))) := by
    simp only [exec, execDrmFrame, htakes, hkind, hu, hframe, hp, decide_eq_true hstate, BEq.rfl, Bool.and_self, if_true]
    rw [← hp]
    rfl
  rw [hunit] at hr
  have hu' : Unheard (setDrm v u d') n := hv.setDrm _ _
  have hzero' : ZeroResidual (engOf (setDrm v u d') p.kind p.unit) := by rwa [hkind', hunit, engOf_setDrm]
  rw [hexec, modEng_two, (congrArg (takeFacFrame p frame) hr).trans hfac, drmSdc_none hsdc', drmMsc_nil hmsc', drmDrift_zero hzero', hu'.unitEnd]

/-! DAB frames (R286, R287) -/

/-- A saturating count of `k` events more, unchanged by none. -/
def countMore (n k : Nat) : Nat := if k = 0 then n else bump 4 n k

theorem countMore_bump (n k : Nat) : countMore (bump 4 n 1) k = countMore n (k + 1) := by
  unfold countMore
  rw [if_neg (Nat.succ_ne_zero k)]
  split
  next h => rw [h]
  next h => rw [bump_bump, Nat.add_comm]

/-- FIBs without FIGs are counted, the good ones and the bad ones. -/
theorem foldl_takeFib (p : Place) (fr : DabFrame) (base : Nat) (fibs : List (Nat × Bool × List Fig)) (h : ∀ f ∈ fibs, f.2.2 = []) :
    ∀ (s : State) (d : Dab), fibs.foldl (takeFib p fr base) (setDab s p.unit d) = setDab s p.unit { d with
      fibOk := countMore d.fibOk (fibs.countP fun f => f.2.1), fibBad := countMore d.fibBad (fibs.countP fun f => !f.2.1) } := by
  induction fibs with
  | nil => exact fun _ _ => rfl
  | cons f fibs ih =>
    intro s d
    obtain ⟨i, ok, figs⟩ := f
    obtain rfl : figs = [] := h _ (List.mem_cons_self ..)
    rw [List.foldl_cons, List.countP_cons, List.countP_cons]
    cases ok with
    | true =>
      have hone : takeFib p fr base (setDab s p.unit d) (i, true, []) = setDab s p.unit { d with fibOk := bump 4 d.fibOk 1 } := modDab_setDab ..
      rw [hone, ih fun f hf => h f (List.mem_cons_of_mem _ hf)]
      simp only [countMore_bump, if_true, Bool.not_true, Bool.false_eq_true, if_false, Nat.add_zero]
    | false =>
      have hone : takeFib p fr base (setDab s p.unit d) (i, false, []) = setDab s p.unit { d with fibBad := bump 4 d.fibBad 1 } := modDab_setDab ..
      rw [hone, ih fun f hf => h f (List.mem_cons_of_mem _ hf)]
      simp only [countMore_bump, if_true, Bool.not_false, Bool.false_eq_true, if_false, Nat.add_zero]

/-- The FIBs of CIF `k`, each with its number. -/
def cifFibs (fr : DabFrame) (k : Nat) : List (Nat × Bool × List Fig) := (((List.range 12).zip fr.fibs).drop (3 * k)).take 3

theorem zip_figs {fr : DabFrame} (h : ∀ f ∈ fr.fibs, f.2 = []) : ∀ f ∈ (List.range 12).zip fr.fibs, f.2.2 = [] := fun f hf =>
  h f.2 (List.of_mem_zip hf).2

theorem mem_cifFibs {fr : DabFrame} {k : Nat} {f : Nat × Bool × List Fig} (h : f ∈ cifFibs fr k) : f ∈ (List.range 12).zip fr.fibs :=
  List.mem_of_mem_drop (List.mem_of_mem_take h)

/-- With no change of organisation and no part, CIFs take their FIBs alone. -/
theorem forAll_takeCif {p : Place} {fr : DabFrame} (base : Nat) (run : Bool) (hfigs : ∀ f ∈ fr.fibs, f.2 = []) (hparts : fr.parts = []) (ks : List Nat) :
    ∀ (s : State) (d : Dab), d.change = 0 → forAll ks (takeCif p fr base run) (setDab s p.unit d) =
      (ks.flatMap (cifFibs fr)).foldl (takeFib p fr base) (setDab s p.unit d) := by
  induction ks with
  | nil => exact fun _ _ _ => rfl
  | cons k ks ih =>
    intro s d hchange
    have hone : takeCif p fr base run (setDab s p.unit d) k = (cifFibs fr k).foldl (takeFib p fr base) (setDab s p.unit d) := by
      simp only [takeCif, dabOf_setDab, hchange, hparts, bne_self_eq_false, Bool.false_and, Bool.false_eq_true, if_false, List.filter_nil, List.foldl_nil,
        ite_self]
      rfl
    rw [List.flatMap_cons, List.foldl_append]
    refine (congrArg (forAll ks (takeCif p fr base run)) hone).trans ?_
    rw [foldl_takeFib p fr base _ fun f hf => zip_figs hfigs f (mem_cifFibs hf)]
    exact ih s _ hchange

/-- The four CIFs of a frame hold its twelve FIBs in order. -/
theorem cifFibs_all {fr : DabFrame} (hlen : fr.fibs.length = 12) : (List.range 4).flatMap (cifFibs fr) = (List.range 12).zip fr.fibs := by
  have h12 : ((List.range 12).zip fr.fibs).length = 12 := by simp [hlen]
  generalize hz : (List.range 12).zip fr.fibs = zs at h12
  have hcif (k : Nat) : cifFibs fr k = (zs.drop (3 * k)).take 3 := by rw [cifFibs, hz]
  have h9 : (zs.drop 9).take 3 = zs.drop 9 := List.take_of_length_le (by simp [h12])
  have hsplit (k : Nat) : (zs.drop k).take 3 ++ zs.drop (k + 3) = zs.drop k := by
    rw [← List.drop_drop, List.take_append_drop]
  calc (List.range 4).flatMap (cifFibs fr)
      = (zs.drop 0).take 3 ++ ((zs.drop 3).take 3 ++ ((zs.drop 6).take 3 ++ (zs.drop 9).take 3)) := by
        simp only [show List.range 4 = [0, 1, 2, 3] from rfl, List.flatMap_cons, List.flatMap_nil, hcif, List.append_nil, Nat.reduceMul]
    _ = zs := by rw [h9, hsplit 6, hsplit 3, hsplit 0, List.drop_zero]

theorem countP_zip {fr : DabFrame} (hlen : fr.fibs.length = 12) (q : Bool → Bool) :
    ((List.range 12).zip fr.fibs).countP (fun f => q f.2.1) = fr.fibs.countP fun f => q f.1 := by
  have hsnd : ((List.range 12).zip fr.fibs).map Prod.snd = fr.fibs := List.map_snd_zip (by simp [hlen])
  conv => rhs; rw [← hsnd, List.countP_map]
  rfl

theorem frameCif_next {d : Dab} {fr : DabFrame} (hfigs : ∀ f ∈ fr.fibs, f.2 = []) : frameCif d fr = (d.cif + 4) % 5000 := by
  have hnone : ((fr.fibs.filter (·.1)).map (·.2)).flatten = [] := by
    rw [List.flatten_eq_nil_iff]
    intro l hl
    obtain ⟨f, hf, rfl⟩ := List.mem_map.mp hl
    exact hfigs f (List.mem_filter.mp hf).1
  simp only [frameCif, hnone, List.findSome?_nil]

theorem dabTaken_clear {x : Lane} (h : x.gaps = []) (fr : DabFrame) : dabTaken x fr = { fr with allErased := false } := by
  simp only [dabTaken, erasedWhole_none h, erasedIn_none h, Bool.false_eq_true, if_false]

/-- The engine's estimates of a frame. -/
def dabEstimated (fr : DabFrame) (e : Engine) : Engine :=
  { frameEstimates fr.erasedCells fr.mer fr.residual false e with frameStamp := some fr.stamp }

/-- The engine as a frame of twelve FIBs without FIGs ends, `e` its common part. -/
def fibsTaken (fr : DabFrame) (e : Engine) (d : Dab) : Dab :=
  { d with cif := (d.cif + 4) % 5000, eng := e,
           fibOk := countMore d.fibOk (fr.fibs.countP fun f => f.1), fibBad := countMore d.fibBad (fr.fibs.countP fun f => !f.1) }

/-- A DAB frame of twelve FIBs without FIGs, a part or a residual counts its FIBs, and ends as its good ones say. -/
theorem execDabFrame_fic {s : State} {n u : Nat} {fr : DabFrame} (htakes : laneTakes s n = true) (hkind : (laneOf s n).cur.engKind = 3)
    (hu : (laneOf s n).cur.engIndex = u) (hgaps : (laneOf s n).gaps = []) (hstate : 3 ≤ (dabOf s u).eng.state) (hchange : (dabOf s u).change = 0)
    (hfigs : ∀ f ∈ fr.fibs, f.2 = []) (hlen : fr.fibs.length = 12) (hparts : fr.parts = []) (hres : fr.residual = 0)
    (hold : (dabOf s u).eng.residuals = []) : ∃ (p : Place) (e : Engine), p.lane = n ∧ p.kind = 3 ∧ p.unit = u ∧ Estimated (dabOf s u).eng e ∧
    ∀ d', settleDabFrame p (fr.fibs.filter (·.1)).length { fr with allErased := false } (setDab s u (fibsTaken fr e (dabOf s u))) = setDab s u d' →
    Unheard s n → ZeroResidual d'.eng → exec (.dabFrame n fr) s = .next (setDab s u d') := by
  obtain ⟨frame, hframe⟩ : ∃ frame, { fr with allErased := false } = frame := ⟨_, rfl⟩
  obtain ⟨p, hp⟩ : ∃ p : Place, { lane := n, kind := 3, unit := u, pos := cifPos frame.stamp (((dabOf s u).cif + 4) % 5000), stamp := frame.stamp } = p :=
    ⟨_, rfl⟩
  have hkind' : p.kind = 3 := by rw [← hp]
  have hunit : p.unit = u := by rw [← hp]
  have hfibs : frame.fibs = fr.fibs := by rw [← hframe]
  have hcif : frameCif (dabOf s u) frame = ((dabOf s u).cif + 4) % 5000 := frameCif_next (by rwa [hfibs])
  have hest : Estimated (dabOf s u).eng (dabEstimated fr (dabOf s u).eng) := by
    have h := frameEstimates_spec fr.erasedCells fr.mer false hold
    rwa [← hres] at h
  obtain ⟨r, hr⟩ := reportResidual_setDab (s := s) hkind'
    (d := { dabOf s u with cif := ((dabOf s u).cif + 4) % 5000, eng := dabEstimated fr (dabOf s u).eng }) hest.2.2.2
  refine ⟨p, { dabEstimated fr (dabOf s u).eng with residual := r }, by rw [← hp], hkind', hunit, hest, fun d' hsettle hv hd' => ?_⟩
  rw [hframe] at hsettle
  have hexec : exec (.dabFrame n fr) s = .next (unitEnd n (frame.fibs.length == 12 && (fr.fibs.filter (·.1)).length == 12) (0 < frame.erasedCells)
      (checkDrift p (driftLimit 5) (settleDabFrame p (fr.fibs.filter (·.1)).length frame
        (forAll (List.range 4) (takeCif p frame (((dabOf s u).cif + 4) % 5000) ((dabOf s u).eng.state == 4)) (reportResidual p
          (setDab s u { dabOf s u with cif := ((dabOf s u).cif + 4) % 5000, eng := dabEstimated fr (dabOf s u).eng })))))) := by
    have hmod : modEng (modDab s u fun d => { d with cif := ((dabOf s u).cif + 4) % 5000 }) 3 u (dabEstimated fr) =
        setDab s u { dabOf s u with cif := ((dabOf s u).cif + 4) % 5000, eng := dabEstimated fr (dabOf s u).eng } := by
      rw [modDab_eq, modEng_setDab]
    simp only [exec, execDabFrame, htakes, hkind, hu, dabTaken_clear hgaps, hframe, hcif, hfibs, decide_eq_true hstate, BEq.rfl, Bool.and_self, if_true]
    rw [← hmod, ← hp, ← hframe]
    rfl
  rw [hunit] at hr
  have hu' : Unheard (setDab s u d') n := hv.setDab _ _
  have hzero' : ZeroResidual (engOf (setDab s u d') p.kind p.unit) := by rwa [hkind', hunit, engOf_setDab]
  have hfigs' : ∀ f ∈ frame.fibs, f.2 = [] := by rwa [hfibs]
  have hcount := forAll_takeCif (p := p) (fr := frame) (((dabOf s u).cif + 4) % 5000) ((dabOf s u).eng.state == 4) hfigs' (by rw [← hframe]; exact hparts)
    (List.range 4) s { dabOf s u with cif := ((dabOf s u).cif + 4) % 5000, eng := { dabEstimated fr (dabOf s u).eng with residual := r } } hchange
  rw [cifFibs_all (by rw [hfibs, hlen]), foldl_takeFib p frame _ _ (zip_figs hfigs'), countP_zip (by rw [hfibs, hlen]) (fun b => b),
    countP_zip (by rw [hfibs, hlen]) (fun b => !b), hfibs, hunit] at hcount
  rw [hexec, hr, hcount]
  have hdrift := checkDrift_zero (limit := driftLimit 5) (driftLimit_nonneg 5) hzero'
  have hsettle' : settleDabFrame p (fr.fibs.filter (·.1)).length frame (setDab s u { dabOf s u with
      cif := ((dabOf s u).cif + 4) % 5000, eng := { dabEstimated fr (dabOf s u).eng with residual := r },
      fibOk := countMore (dabOf s u).fibOk (fr.fibs.countP fun f => f.1),
      fibBad := countMore (dabOf s u).fibBad (fr.fibs.countP fun f => !f.1) }) = setDab s u d' := hsettle
  rw [hsettle', hdrift, hu'.unitEnd]

/-- Four good FIBs acquire the ensemble. -/
theorem settleDabFrame_acquires {s : State} {p : Place} (h : Unheard s p.lane) (hkind : p.kind = 3) {d : Dab} (hstate : d.eng.state = 3) {good : Nat}
    (hgood : 4 ≤ good) (fr : DabFrame) : ∃ l, settleDabFrame p good fr (setDab s p.unit d) =
      setDab s p.unit { d with eng := { d.eng with state := 4, fails := 0, indices := l } } := by
  obtain ⟨l, hevent⟩ := engineEvent_setDab h hkind { d with eng := { d.eng with state := 4, fails := 0 } } 0x01 256 0 0
  refine ⟨l, Eq.trans ?_ hevent⟩
  simp only [settleDabFrame, dabOf_setDab, hstate, hgood, if_true, modEng_setDab]

/-- A frame without a good FIB in RUN, below SYNC_LOSS, is a failure. -/
theorem settleDabFrame_fails {s : State} {p : Place} {d : Dab} {fr : DabFrame} (hstate : d.eng.state = 4) (herased : fr.allErased = false)
    (hloss : d.eng.fails + 1 < syncLoss (laneOf s p.lane).cur) : settleDabFrame p 0 fr (setDab s p.unit d) =
      setDab s p.unit { d with eng := { d.eng with fails := d.eng.fails + 1 } } := by
  simp [settleDabFrame, hstate, herased, hloss]

theorem drmTaken_erased {x : Lane} {mode : Nat} {fr : DrmFrame} (hin : erasedIn x fr.stamp (fr.stamp + frameCounts mode) = true)
    (herased : fr.facErased = true) (hfac : fr.fac = none) : (drmTaken x mode fr).facErased = true ∧ (drmTaken x mode fr).fac = none := by
  unfold drmTaken
  dsimp only
  split
  · exact ⟨rfl, rfl⟩
  · exact ⟨herased, hfac⟩

/-- Settles O37. -/
theorem wideEnginesTakeTheirSignals : Obligations.WideEnginesTakeTheirSignals := by
  intro s n htakes hhost hslots hfollows htastings x u
  have hun : Unheard s n := ⟨hhost, hslots, hfollows, htastings⟩
  refine ⟨fun hkind => ?_, fun fr hkind hsdc hmsc hres hold => ?_, fun fr hkind hparts hres hold hgaps => ?_⟩
  · intro e
    refine ⟨fun t0 hstate hsince hdue hdone => ?_, fun h => execGap_stands h⟩
    obtain ⟨t, l, hexec, heng, hframe⟩ := execGap_search hun htakes hkind hstate hsince hdue hdone
    refine ⟨t, hexec, ?_, ?_, ?_, ?_, hframe⟩
    all_goals rw [show engOf t x.engKind u = _ from heng]
    all_goals rfl
  · intro d
    refine ⟨fun f hgaps hstate hnext hfac => ?_, fun hgaps hstate hfac hloss => ?_, fun hgaps hstate hfac hloss => ?_,
      fun herased hfacErased hstate hfac => ?_⟩
    · obtain ⟨p, e, hlane, hk, hunit, ⟨hes, hef, hesync, hezero⟩, hrun⟩ := execDrmFrame_fac htakes hkind rfl (hstate ▸ Nat.le_refl 4) hsdc hmsc hres hold
      rw [drmTaken_clear hgaps] at hrun
      obtain ⟨l, m, hfirst⟩ := takeFacFrame_first (s := s) (p := p) (d := { drmOf s u with eng := e }) (fr := { fr with facErased := false, allErased := false })
        (by rwa [hlane]) hk hfac rfl (hes.trans hstate) hnext
      rw [hunit] at hfirst
      refine ⟨_, hrun s _ hfirst hun hezero, rfl, fun k hk => drmOf_setDrm_ne _ _ hk, ?_⟩
      rw [drmOf_setDrm]
      exact ⟨rfl, rfl, rfl, rfl, rfl, rfl⟩
    · obtain ⟨p, e, hlane, hk, hunit, ⟨hes, hef, hesync, hezero⟩, hrun⟩ := execDrmFrame_fac htakes hkind rfl (by rw [show (drmOf s u).eng.state = 6 from hstate]; decide) hsdc hmsc hres hold
      rw [drmTaken_clear hgaps] at hrun
      have hfailed := takeFacFrame_failed (s := s) (p := p) (d := { drmOf s u with eng := e }) (fr := { fr with facErased := false, allErased := false })
        hfac rfl (hes.trans hstate) (by rw [hef, hlane]; exact hloss)
      rw [hunit] at hfailed
      refine ⟨_, hrun s _ hfailed hun hezero, rfl, ?_⟩
      rw [drmOf_setDrm]
      exact ⟨hes.trans hstate, congrArg (· + 1) hef, rfl, rfl⟩
    · obtain ⟨p, e, hlane, hk, hunit, ⟨hes, hef, hesync, hezero⟩, hrun⟩ := execDrmFrame_fac htakes hkind rfl (by rw [show (drmOf s u).eng.state = 6 from hstate]; decide) hsdc hmsc hres hold
      rw [drmTaken_clear hgaps] at hrun
      obtain ⟨d', hlost, hstate', hfails', hsync', hzero'⟩ := takeFacFrame_lost (s := s) (p := p) (d := { drmOf s u with eng := e })
        (fr := { fr with facErased := false, allErased := false }) (by rwa [hlane]) hk hfac rfl (hes.trans hstate) (by rw [hef, hlane]; exact hloss)
      rw [hunit] at hlost
      refine ⟨_, hrun _ _ hlost ⟨hhost, hslots, hfollows, htastings⟩ (.inl hzero'), rfl, ?_⟩
      rw [drmOf_setDrm]
      exact ⟨hstate', hfails', hsync'.trans (by rw [hesync]; rfl)⟩
    · obtain ⟨p, e, hlane, hk, hunit, ⟨hes, hef, hesync, hezero⟩, hrun⟩ := execDrmFrame_fac htakes hkind rfl (by rw [show (drmOf s u).eng.state = 6 from hstate]; decide) hsdc hmsc hres hold
      obtain ⟨herased', hfac'⟩ := drmTaken_erased (x := laneOf s n) (mode := (drmOf s u).mode) herased hfacErased hfac
      have hnone : takeFacFrame p (drmTaken (laneOf s n) (drmOf s u).mode fr) (setDrm s u { drmOf s u with eng := e }) =
          setDrm s u { drmOf s u with eng := e } := by simp only [takeFacFrame, hfac', herased', if_true]
      refine ⟨_, hrun s _ hnone hun hezero, rfl, ?_⟩
      rw [drmOf_setDrm]
      exact ⟨hes.trans hstate, hef, rfl, rfl⟩
  · intro d
    refine ⟨fun good hstate hchange h4 h12 hfibs => ?_, fun hstate hchange hfibs hloss => ?_⟩
    · have hlen : fr.fibs.length = 12 := by
        rw [hfibs]
        simp
        omega
      have hfigs : ∀ f ∈ fr.fibs, f.2 = [] := by
        rw [hfibs]
        simp only [List.mem_append, List.mem_replicate]
        rintro f (⟨-, rfl⟩ | ⟨-, rfl⟩) <;> rfl
      have hgood : fr.fibs.countP (fun f => f.1) = good := by rw [hfibs]; simp [List.countP_replicate]
      have hbad : fr.fibs.countP (fun f => !f.1) = 12 - good := by rw [hfibs]; simp [List.countP_replicate]
      obtain ⟨p, e, hlane, hk, hunit, ⟨hes, hef, hesync, hezero⟩, hrun⟩ := execDabFrame_fic htakes hkind rfl hgaps (hstate ▸ Nat.le_refl 3) hchange hfigs
        hlen hparts hres hold
      obtain ⟨l, hsettle⟩ := settleDabFrame_acquires (s := s) (p := p) (d := fibsTaken fr e (dabOf s u)) (by rwa [hlane]) hk (hes.trans hstate)
        (good := (fr.fibs.filter (·.1)).length) (by rw [← List.countP_eq_length_filter, hgood]; exact h4) { fr with allErased := false }
      rw [hunit] at hsettle
      refine ⟨_, hrun _ hsettle hun hezero, rfl, fun k hk => dabOf_setDab_ne _ _ hk, ?_⟩
      rw [dabOf_setDab]
      refine ⟨rfl, rfl, rfl, ?_, fun hall => ?_⟩
      · exact (congrArg (countMore _) hgood).trans (if_neg (by omega))
      · exact (congrArg (countMore _) hbad).trans (if_pos (by omega))
    · have hlen : fr.fibs.length = 12 := by rw [hfibs]; rfl
      have hfigs : ∀ f ∈ fr.fibs, f.2 = [] := by
        rw [hfibs]
        rintro f hf
        rw [List.eq_of_mem_replicate hf]
      have hgood : fr.fibs.countP (fun f => f.1) = 0 := by rw [hfibs]; rfl
      have hbad : fr.fibs.countP (fun f => !f.1) = 12 := by rw [hfibs]; rfl
      obtain ⟨p, e, hlane, hk, hunit, ⟨hes, hef, hesync, hezero⟩, hrun⟩ := execDabFrame_fic htakes hkind rfl hgaps
        (by rw [show (dabOf s u).eng.state = 4 from hstate]; decide) hchange hfigs hlen hparts hres hold
      have hsettle := settleDabFrame_fails (s := s) (p := p) (d := fibsTaken fr e (dabOf s u)) (fr := { fr with allErased := false }) (hes.trans hstate) rfl
        (show e.fails + 1 < _ by rw [hef, hlane]; exact hloss)
      rw [hunit] at hsettle
      rw [← List.countP_eq_length_filter, hgood] at hrun
      refine ⟨_, hrun _ hsettle hun hezero, rfl, ?_⟩
      rw [dabOf_setDab]
      refine ⟨hes.trans hstate, congrArg (· + 1) hef, ?_, ?_⟩
      · exact (congrArg (countMore _) hbad).trans rfl
      · exact (congrArg (countMore _) hgood).trans rfl

end Sys2Proof.Machine

/-!
PROOFS. The RDS decoder of an FM unit (O36): block sync, and a clean group taken.
-/
namespace Sys2Proof.Machine

/-! One analogue unit's fields -/

/-- The state with the fields of one analogue unit. -/
def setAnalogue (s : State) (u : Nat) (a : Analogue) : State := { s with analogue := tabSet s.analogue u a }

theorem modAnalogue_eq (s : State) (u : Nat) (f : Analogue → Analogue) : modAnalogue s u f = setAnalogue s u (f (analogueOf s u)) := rfl

@[simp] theorem analogueOf_setAnalogue (s : State) (u : Nat) (a : Analogue) : analogueOf (setAnalogue s u a) u = a := tabGet_tabSet_same ..

theorem analogueOf_setAnalogue_ne (s : State) {u k : Nat} (a : Analogue) (hk : k ≠ u) : analogueOf (setAnalogue s u a) k = analogueOf s k :=
  tabGet_tabSet_ne _ _ _ hk

@[simp] theorem setAnalogue_setAnalogue (s : State) (u : Nat) (a a' : Analogue) : setAnalogue (setAnalogue s u a) u a' = setAnalogue s u a' := by
  simp [setAnalogue, tabSet_tabSet]

@[simp] theorem modAnalogue_setAnalogue (s : State) (u : Nat) (a : Analogue) (f : Analogue → Analogue) :
    modAnalogue (setAnalogue s u a) u f = setAnalogue s u (f a) := by
  rw [modAnalogue_eq, analogueOf_setAnalogue, setAnalogue_setAnalogue]

@[simp] theorem laneOf_setAnalogue (s : State) (u : Nat) (a : Analogue) (k : Nat) : laneOf (setAnalogue s u a) k = laneOf s k := rfl

theorem Unheard.setAnalogue {s : State} {lane : Nat} (h : Unheard s lane) (u : Nat) (a : Analogue) : Unheard (setAnalogue s u a) lane :=
  ⟨h.host, h.slots, h.follows, h.tastings⟩

theorem Unheard.listChanged {s : State} {lane : Nat} (h : Unheard s lane) (k : Nat) : listChanged k s = s := by
  have hentry : entryOf s k = none := by
    rw [entryOf, h.follows]
    rfl
  simp only [Machine.listChanged, hentry]

theorem Unheard.modTasting {s : State} {lane : Nat} (h : Unheard s lane) (k : Nat) (f : Tasting → Tasting) : modTasting s k f = s := by
  simp only [Machine.modTasting, h.tastingOf]

theorem Unheard.tastePis {s : State} {lane : Nat} (h : Unheard s lane) (k : Nat) (pis : List Nat) : tastePis k pis s = s := by
  simp only [Machine.tastePis, h.tastingOf]

/-! A group whose blocks all came with zero syndrome -/

theorem readBlock_found (corrMax : Nat) {b : RdsBlock} (h : b.found = some b.raw) : (readBlock corrMax false b).2 = b.reliability % 16 := by
  have hlen : burstLength 0 = 0 := by decide
  have hcount : bitCount 0 = 0 := by decide
  have hfixed : (b.found.filter fun w => burstLength (b.raw ^^^ w) ≤ corrMax && !false) = some b.raw := by
    simp [h, Option.filter_some, hlen]
  simp only [readBlock, hfixed, Nat.xor_self, hcount, Nat.mul_zero, Nat.add_zero]

/-- The blocks of a group that came clean. -/
structure CleanGroup (g : Group) : Prop where
  status : ∀ i < 4, g.status.getD i 128 < 16
  erased : ∀ i < 4, g.erased.getD i false = false

theorem readGroup_clean {x : Lane} {raw : RdsGroup} (hgaps : x.gaps = []) (hlen : raw.blocks.length = 4) (hclean : ∀ b ∈ raw.blocks, b.found = some b.raw) :
    CleanGroup (readGroup x raw) := by
  have herased : ∀ a b, erasedIn x a b = false := erasedIn_none hgaps
  have hblock (i : Nat) (hi : i < 4) : (raw.blocks.getD i { raw := 0, found := none, reliability := 0 }).found =
      some (raw.blocks.getD i { raw := 0, found := none, reliability := 0 }).raw := by
    rw [getD_of_lt _ (by omega)]
    exact hclean _ (List.getElem_mem ..)
  refine ⟨fun i hi => ?_, fun i hi => ?_⟩
  · have hstatus : (readGroup x raw).status.getD i 128 =
        (readBlock (engPar x.cur 15) false (raw.blocks.getD i { raw := 0, found := none, reliability := 0 })).2 := by
      simp only [readGroup, herased]
      rw [getD_of_lt _ (by simpa using hi), List.getElem_map, List.getElem_range]
    rw [hstatus, readBlock_found _ (hblock i hi)]
    exact Nat.mod_lt _ (by decide)
  · simp only [readGroup, herased]
    rw [getD_of_lt _ (by simpa using hi), List.getElem_map]

namespace CleanGroup
variable {g : Group} (h : CleanGroup g)
include h

theorem good {i : Nat} (hi : i < 4) : rdsGood g i = true := by
  have := h.status i hi
  simp only [rdsGood, blockBad, Bool.not_eq_true', decide_eq_false_iff_not]
  omega

theorem allGood : rdsAllGood g = true := by
  rw [rdsAllGood, List.all_eq_true]
  exact fun i hi => h.good (List.mem_range.mp hi)

theorem offered (x : LaneSet) : groupOffered x g = true := by
  unfold groupOffered
  split
  · rfl
  · exact h.good (by decide)
  · exact h.allGood

theorem pis (hc : g.cPrime = false) : groupPis g = [rdsBlock g 0] := by
  simp [groupPis, h.good (i := 0) (by decide), hc]

theorem countBlock {i : Nat} (hi : i < 4) (a : Analogue) : ∃ l, countBlock g a i = { a with history := l, blocksGood := bump 4 a.blocksGood 1 } := by
  have hbad : blockBad (g.status.getD i 128) = false := by
    have := h.good hi
    simpa [rdsGood] using this
  have hcorrected : blockCorrected (g.status.getD i 128) = 0 := by
    have := h.status i hi
    simp only [blockCorrected, bits]
    omega
  simp only [Machine.countBlock, h.erased i hi, hbad, hcorrected, Bool.false_eq_true, if_false, if_true]
  exact ⟨_, rfl⟩

/-- A clean group, without E blocks before it, counts four good blocks. -/
theorem countGroup (he : g.eBlocks = 0) (x : LaneSet) (a : Analogue) : (countGroup x g a).blocksGood = bump 4 a.blocksGood 4 ∧
    (countGroup x g a).blocksBad = (if bit (engPar x 12) 1 then a.blocksBad else bump 4 a.blocksBad 0) ∧
    (countGroup x g a).groupsOut = a.groupsOut ∧ (countGroup x g a).piSeen = a.piSeen ∧ (countGroup x g a).pi = a.pi := by
  have hE : (countE x 0 a).blocksGood = a.blocksGood ∧ (countE x 0 a).blocksBad = (if bit (engPar x 12) 1 then a.blocksBad else bump 4 a.blocksBad 0) ∧
      (countE x 0 a).groupsOut = a.groupsOut ∧ (countE x 0 a).piSeen = a.piSeen ∧ (countE x 0 a).pi = a.pi := by
    unfold countE
    split <;> exact ⟨rfl, rfl, rfl, rfl, rfl⟩
  obtain ⟨hgood, hbad, hout, hseen, hpi⟩ := hE
  obtain ⟨l0, h0⟩ := h.countBlock (i := 0) (by decide) (countE x 0 a)
  obtain ⟨l1, h1⟩ := h.countBlock (i := 1) (by decide) { countE x 0 a with history := l0, blocksGood := bump 4 (countE x 0 a).blocksGood 1 }
  obtain ⟨l2, h2⟩ := h.countBlock (i := 2) (by decide)
    { countE x 0 a with history := l1, blocksGood := bump 4 (bump 4 (countE x 0 a).blocksGood 1) 1 }
  obtain ⟨l3, h3⟩ := h.countBlock (i := 3) (by decide)
    { countE x 0 a with history := l2, blocksGood := bump 4 (bump 4 (bump 4 (countE x 0 a).blocksGood 1) 1) 1 }
  have hcount : Machine.countGroup x g a =
      { countE x 0 a with history := l3, blocksGood := bump 4 (bump 4 (bump 4 (bump 4 (countE x 0 a).blocksGood 1) 1) 1) 1 } := by
    simp only [Machine.countGroup, he, show List.range 4 = [0, 1, 2, 3] from rfl, List.foldl_cons, List.foldl_nil, h0, h1, h2, h3]
  rw [hcount]
  refine ⟨?_, hbad, hout, hseen, hpi⟩
  simp only [bump_bump, hgood]

end CleanGroup

/-! What the fields of a group leave unchanged -/

/-- The block and group counters and the PI stand. -/
def CountsKept (a a' : Analogue) : Prop :=
  a'.blocksGood = a.blocksGood ∧ a'.blocksBad = a.blocksBad ∧ a'.groupsOut = a.groupsOut ∧ a'.pi = a.pi

theorem CountsKept.refl (a : Analogue) : CountsKept a a := ⟨rfl, rfl, rfl, rfl⟩

theorem CountsKept.trans {a b c : Analogue} (h : CountsKept a b) (k : CountsKept b c) : CountsKept a c := by
  obtain ⟨h1, h2, h3, h4⟩ := h
  obtain ⟨k1, k2, k3, k4⟩ := k
  exact ⟨k1.trans h1, k2.trans h2, k3.trans h3, k4.trans h4⟩

theorem takeFlags_kept (g : Group) (a : Analogue) : CountsKept a (takeFlags g a) := by
  unfold takeFlags
  dsimp only
  split
  · exact .refl a
  split
  · exact ⟨rfl, rfl, rfl, rfl⟩
  · exact ⟨rfl, rfl, rfl, rfl⟩

theorem afCode_kept (a : Analogue) (c : Nat) : CountsKept a (afCode a c) := by
  unfold afCode
  split
  · split <;> exact ⟨rfl, rfl, rfl, rfl⟩
  split
  · exact ⟨rfl, rfl, rfl, rfl⟩
  split
  · exact ⟨rfl, rfl, rfl, rfl⟩
  split
  · split <;> exact ⟨rfl, rfl, rfl, rfl⟩
  · exact .refl a

theorem afComplete_kept (own : Nat) (a : Analogue) : CountsKept a (afComplete own a).1 := by
  unfold afComplete
  dsimp only
  split
  · exact .refl a
  split
  · exact ⟨rfl, rfl, rfl, rfl⟩
  · split <;> exact ⟨rfl, rfl, rfl, rfl⟩

theorem rtTake_kept (g : Group) (a : Analogue) : CountsKept a (rtTake g a) := by
  unfold rtTake
  dsimp only
  split <;> split <;> exact ⟨rfl, rfl, rfl, rfl⟩

theorem odaTake_kept (g : Group) (a : Analogue) : CountsKept a (odaTake g a) := by
  unfold odaTake
  dsimp only
  split <;> exact ⟨rfl, rfl, rfl, rfl⟩

theorem loseSync_kept (x : LaneSet) (a : Analogue) : CountsKept a (loseSync x a) := by
  unfold loseSync
  split <;> exact ⟨rfl, rfl, rfl, rfl⟩

/-- A confirmed PI is the unit's, and the counters stand. -/
theorem takePi_spec (a : Analogue) (v : Nat) : (takePi a v).pi = some v ∧ (takePi a v).blocksGood = a.blocksGood ∧
    (takePi a v).blocksBad = a.blocksBad ∧ (takePi a v).groupsOut = a.groupsOut := by
  unfold takePi
  cases hpi : a.pi with
  | none => exact ⟨rfl, rfl, rfl, rfl⟩
  | some w =>
    by_cases h : w = v
    · simp [h, hpi]
    · simp [h]

theorem emit_rdsItem {s : State} {n u : Nat} (h : Unheard s n) {kind : Nat} (hkind : [0x13, 0x32, 0x41].contains kind = false) (v : State)
    (gpos stamp : Nat) (payload : List Byte) (size : Nat) (b : Analogue) :
    emit (rdsItem v n kind gpos stamp payload size) none (setAnalogue s u b) = setAnalogue s u b :=
  Unheard.emit (h.setAnalogue u b) (by rfl) (by exact hkind) none

/-- The decoded fields of a group that is no clock-time, on a lane nothing listens to. -/
theorem decodeGroup_unheard {s : State} {n u : Nat} {g : Group} (h : Unheard s n) (hcode : rdsBlock g 1 / 2048 ≠ 8) (a : Analogue) : ∃ a',
    decodeGroup n u g (setAnalogue s u a) = setAnalogue s u a' ∧ CountsKept a a' := by
  have hchanged (b : Analogue) := (h.setAnalogue u b).listChanged n
  have hmod (b : Analogue) (f : Tasting → Tasting) := (h.setAnalogue u b).modTasting n f
  unfold decodeGroup
  simp only [analogueOf_setAnalogue, laneOf_setAnalogue, modAnalogue_setAnalogue, emit_rdsItem h (kind := 0x12) rfl, emit_rdsItem h (kind := 0x14) rfl,
    ite_self, hchanged, hmod]
  split
  · exact ⟨a, rfl, .refl a⟩
  split
  · split
    · exact ⟨a, rfl, .refl a⟩
    · exact ⟨_, rfl, ((afCode_kept a _).trans (afCode_kept _ _)).trans (afComplete_kept _ _)⟩
  split
  · split
    · exact ⟨_, rfl, rtTake_kept g a⟩
    · exact ⟨_, rfl, rtTake_kept g a⟩
  split
  · exact ⟨_, rfl, odaTake_kept g a⟩
  · exact ⟨a, rfl, .refl a⟩

/-- A clean group that shows the PI seen before, on a lane nothing listens to: counted, and its PI confirmed (R253, R254). -/
theorem takeGroup_unheard {s : State} {n u : Nat} {g : Group} (h : Unheard s n) (hg : CleanGroup g) (hc : g.cPrime = false)
    (hexpect : piExpect (laneOf s n).cur = 0) (hcode : rdsBlock g 1 / 2048 ≠ 8) {a : Analogue} (hseen : a.piSeen = some (rdsBlock g 0)) : ∃ a',
    takeGroup n u g (setAnalogue s u a) = setAnalogue s u a' ∧ a'.blocksGood = a.blocksGood ∧ a'.blocksBad = a.blocksBad ∧
      a'.groupsOut = bump 4 a.groupsOut 1 ∧ a'.pi = some (rdsBlock g 0) := by
  have hmismatch : piMismatch (laneOf s n).cur g = false := by simp [piMismatch, hexpect]
  have hchanged (b : Analogue) := (h.setAnalogue u b).listChanged n
  have hconfirm : confirmPis a.piSeen (groupPis g) = (some (rdsBlock g 0), [rdsBlock g 0]) := by
    rw [hg.pis hc, hseen]
    simp [confirmPis]
  obtain ⟨b, hb⟩ : ∃ b, takeFlags g (takePi { a with
      groupsOut := bump 4 a.groupsOut 1, piSeen := some (rdsBlock g 0), piMismatches := bump 2 a.piMismatches (flagNat false) } (rdsBlock g 0)) = b := ⟨_, rfl⟩
  obtain ⟨hgood, hbad, hout, hpi⟩ := takeFlags_kept g (takePi { a with
      groupsOut := bump 4 a.groupsOut 1, piSeen := some (rdsBlock g 0), piMismatches := bump 2 a.piMismatches (flagNat false) } (rdsBlock g 0))
  obtain ⟨ppi, pgood, pbad, pout⟩ := takePi_spec { a with
      groupsOut := bump 4 a.groupsOut 1, piSeen := some (rdsBlock g 0), piMismatches := bump 2 a.piMismatches (flagNat false) } (rdsBlock g 0)
  rw [hb] at hgood hbad hout hpi
  obtain ⟨a', hdecode, kgood, kbad, kout, kpi⟩ := decodeGroup_unheard (u := u) h hcode b
  refine ⟨a', ?_, kgood.trans (hgood.trans pgood), kbad.trans (hbad.trans pbad), kout.trans (hout.trans pout), kpi.trans (hpi.trans ppi)⟩
  simp only [takeGroup, laneOf_setAnalogue, hmismatch, hg.offered, if_true, modAnalogue_setAnalogue, analogueOf_setAnalogue,
    emit_rdsItem h (kind := 0x10) rfl, hconfirm, Bool.false_eq_true, if_false, List.foldl_cons, List.foldl_nil, hb,
    emit_rdsItem h (kind := 0x11) rfl, ite_self, hchanged, hdecode, (h.setAnalogue u a').tastePis, (h.setAnalogue u a').unitEnd]

/-- Out of sync and without two neighbouring clean blocks a group passes by (R250). -/
theorem execRdsGroup_passed {s : State} {n : Nat} {raw : RdsGroup} (htakes : laneTakes s n = true) (hkind : (laneOf s n).cur.engKind = 1)
    (hmode : engPar (laneOf s n).cur 10 = 3 ∨ engPar (laneOf s n).cur 10 = 4) (hen : bit (engPar (laneOf s n).cur 12) 0 = true)
    (hsync : (analogueOf s (laneOf s n).cur.engIndex).rdsSync = false)
    (hgain : rdsGainsSync (analogueOf s (laneOf s n).cur.engIndex) (readGroup (laneOf s n) raw) = false) : exec (.rdsGroup n raw) s =
      .next (modAnalogue s (laneOf s n).cur.engIndex fun a => { a with
        cleanEnd := if rdsClean (readGroup (laneOf s n) raw) 3 then some (readGroup (laneOf s n) raw).endSc else none }) := by
  rcases hmode with hmode | hmode <;> simp [exec, execRdsGroup, htakes, hkind, hmode, hen, hsync, hgain]

end Sys2Proof.Machine

/-!
PROOFS. The LF time-code decoder (O36), and with it the narrow engines.
-/
namespace Sys2Proof.Machine

/-! One LF decoder's fields -/

/-- The state with the fields of one LF decoder. -/
def setLf (s : State) (u : Nat) (d : LfDec) : State := { s with lf := tabSet s.lf u d }

theorem modLf_eq (s : State) (u : Nat) (f : LfDec → LfDec) : modLf s u f = setLf s u (f (lfOf s u)) := rfl

@[simp] theorem lfOf_setLf (s : State) (u : Nat) (d : LfDec) : lfOf (setLf s u d) u = d := tabGet_tabSet_same ..

theorem lfOf_setLf_ne (s : State) {u k : Nat} (d : LfDec) (hk : k ≠ u) : lfOf (setLf s u d) k = lfOf s k := tabGet_tabSet_ne _ _ _ hk

@[simp] theorem setLf_setLf (s : State) (u : Nat) (d d' : LfDec) : setLf (setLf s u d) u d' = setLf s u d' := by simp [setLf, tabSet_tabSet]

@[simp] theorem modLf_setLf (s : State) (u : Nat) (d : LfDec) (f : LfDec → LfDec) : modLf (setLf s u d) u f = setLf s u (f d) := by
  rw [modLf_eq, lfOf_setLf, setLf_setLf]

theorem Unheard.setLf {s : State} {lane : Nat} (h : Unheard s lane) (u : Nat) (d : LfDec) : Unheard (setLf s u d) lane :=
  ⟨h.host, h.slots, h.follows, h.tastings⟩

theorem dbLevel_frame (k num den : Nat) (s : State) : ∃ v, dbLevel k num den s = (v, { s with fresh := s.fresh + 1 }) := by
  unfold dbLevel
  split <;> exact ⟨_, rfl⟩

theorem laneLevel_frame (num den : Nat) (s : State) : ∃ v f, laneLevel num den s = (v, { s with fresh := f }) := by
  obtain ⟨v, hv⟩ := dbLevel_frame 16 num den s
  unfold laneLevel
  rw [hv]
  split
  · exact ⟨_, s.fresh, rfl⟩
  · exact ⟨_, _, rfl⟩

/-- REF_LEVEL is reported, and nothing else of the decoder changes. -/
theorem lfReport_setLf (s : State) (u : Nat) (d : LfDec) : ∃ f v, lfReport u (setLf s u d) = setLf { s with fresh := f } u { d with refLevel := v } := by
  obtain ⟨v, f, hv⟩ := laneLevel_frame ((lfReference d).1 ^ 2) (((lfReference d).2 * fullScale) ^ 2) (setLf s u d)
  unfold lfReport
  rw [lfOf_setLf]
  dsimp only
  rw [hv]
  split
  · exact ⟨s.fresh, d.refLevel, rfl⟩
  · exact ⟨f, v, modLf_setLf { s with fresh := f } ..⟩

/-- Fewer than ten seconds without an edge change nothing else. -/
theorem lfEmpty_short {b : Bool} {d : LfDec} (h : b = false ∨ d.empty < 9) : ∃ k, lfEmpty b d = { d with empty := k } := by
  have hlt : ¬ 10 ≤ if b then d.empty + 1 else 0 := by
    rcases h with h | h
    · simp [h]
    · split <;> omega
  simp only [lfEmpty, decide_eq_false hlt, Bool.and_false, Bool.false_eq_true, if_false]
  exact ⟨_, rfl⟩

/-! Votes leave the decoders -/

theorem takeVote_lf (kind lane : Nat) (utc : Int) (stamp uncMs leap : Nat) (s : State) : (takeVote kind lane utc stamp uncMs leap s).lf = s.lf := by
  unfold takeVote
  split
  · rfl
  dsimp only
  split
  · rw [(evaluateVotes_evaluated _).frame]
  · rfl

theorem ktTaken_lf (n : Nat) (s : State) : (ktTaken n s).lf = s.lf := by
  unfold ktTaken
  split <;> rfl

theorem lfVote_lf (n : Nat) (d : List Byte) (t : LfTime) (stamp unc : Nat) (s : State) : (lfVote n d t stamp unc s).lf = s.lf :=
  (ktTaken_lf ..).trans (takeVote_lf ..)

/-! Frames (R265 to R267) -/

/-- An LF_TIME item is delivered to none. -/
theorem emit_lfItem {s : State} {n : Nat} (h : Unheard s n) (u : Nat) (d : LfDec) (gen iseq stamp : Nat) (payload : List Byte) :
    emit { kind := 0x20, lane := n, gen := gen, iseq := iseq, stamp := stamp, payload := payload } none (setLf s u d) = setLf s u d :=
  (h.setLf u d).emit rfl rfl none

section
variable {s : State} {n u : Nat} {d : LfDec} {syms : List (LfSym × Bool)} {edge unc : Nat}

/-- A closed frame changes no other decoder. -/
theorem lfClose_other (h : Unheard s n) {k : Nat} (hk : k ≠ u) : lfOf (lfClose n u syms edge unc (setLf s u d)) k = lfOf s k := by
  have hset (d' : LfDec) : lfOf (setLf s u d') k = lfOf s k := lfOf_setLf_ne _ _ hk
  have hvote (t : LfTime) (stamp : Nat) (d' : LfDec) : lfOf (lfVote n d.copy t stamp unc (setLf s u d')) k = lfOf s k := by
    rw [lfOf, lfVote_lf]
    exact hset d'
  unfold lfClose
  simp only [lfOf_setLf, modLf_setLf]
  split
  · exact hset _
  split
  · exact hset _
  · simp only [emit_lfItem h, ite_self]
    rw [apply_ite (fun t => lfOf t k), hvote, hset, ite_self]

theorem lfClose_length (h60 : syms.length ≠ 60) (h61 : syms.length ≠ 61) : lfClose n u syms edge unc (setLf s u d) =
    setLf s u { d with consec := 0, leapNext := false, minuteLosses := bump 2 d.minuteLosses 1 } := by
  simp [lfClose, h60, h61]

theorem lfClose_failed {f : LfFault} (hlen : syms.length = 60) (hread : lfRead s d.copy syms = .error f) :
    lfClose n u syms edge unc (setLf s u d) = setLf s u (lfFailed f d) := by
  have hread' : lfRead (setLf s u d) d.copy syms = .error f := hread
  simp [lfClose, hlen, hread']

/-- The first good frame of a lane that hands out none before its confirmation. -/
theorem lfClose_good {tm : LfTime} (hlen : syms.length = 60) (hread : lfRead s d.copy syms = .ok tm) (hlast : d.lastMinute = none)
    (hall : bit (engPar (laneOf s n).cur 13) 0 = false) (hconfirm : 2 ≤ engPar (laneOf s n).cur 11) : ∃ payload,
    lfClose n u syms edge unc (setLf s u d) = setLf s u { d with
      consec := 1, leapNext := tm.leap, lastMinute := some (tm.minutes, if lfFlag d.copy 2 then d.frameStart else edge),
      framesOk := bump 4 d.framesOk 1, lastFrame := payload } := by
  have hread' : lfRead (setLf s u d) d.copy syms = .ok tm := hread
  have hfollows (m k : Nat) : lfFollows (setLf s u d) d m k = false := by simp [lfFollows, hlast]
  have hlane : laneOf (setLf s u d) n = laneOf s n := rfl
  have hconf : decide (engPar (laneOf s n).cur 11 ≤ 1) = false := decide_eq_false (by omega)
  simp only [lfClose, lfOf_setLf, hlen, hread', hfollows, hlane, hconf, hall, modLf_setLf, Bool.or_self, Bool.false_and, Bool.false_eq_true, if_false,
    bne_self_eq_false, Nat.reduceBEq]
  exact ⟨_, rfl⟩

end

/-! Seconds (R263, R264) -/

/-- The decoder after a second whose mark and edge are known, `refEmpty` telling that it had none. -/
def lfStepped (d : LfDec) (mark : Bool) (sym : LfSym) (m : LfSecond) : LfDec :=
  let x : LfDec := { d with prevMark := lfNotes d.copy sym m.erased,
                            expected := (if m.edgeErased then m.start else (m.key.map (·.1)).getD m.start) + countsPerSecond }
  let x : LfDec :=
    if mark then { x with state := 4, symbols := [(sym, m.erased)], frameStart := (m.key.map (·.1)).getD m.start, secondPos := 0 }
    else if x.state = 4 then { x with symbols := (sym, m.erased) :: x.symbols, secondPos := min 255 x.symbols.length }
    else x
  lfEmpty (m.key.isNone && !m.erased) x

section
variable {s : State} {n u : Nat} {d : LfDec} {m : LfSecond}

/-- A second of FRAMES without the mark. -/
theorem lfCollect_plain (hmark : lfIsMark d.copy d (lfClass d.copy m) m.edgeErased = false) : lfCollect n u m (setLf s u d) =
    setLf s u (lfStepped { d with symbolsInvalid := bump 4 d.symbolsInvalid (flagNat (lfClass d.copy m == .invalid && !m.erased)) } false
      (lfClass d.copy m) m) := by
  simp only [lfCollect, lfOf_setLf, hmark, modLf_setLf, Bool.false_and, Bool.false_eq_true, if_false]
  rfl

/-- A second of FRAMES with the mark closes the frame and begins the next. -/
theorem lfCollect_mark (hmark : lfIsMark d.copy d (lfClass d.copy m) m.edgeErased = true) (hstate : d.state = 4) : lfCollect n u m (setLf s u d) =
    modLf (lfClose n u d.symbols.reverse ((m.key.map (·.1)).getD m.start) m.unc (setLf s u
      { d with symbolsInvalid := bump 4 d.symbolsInvalid (flagNat (lfClass d.copy m == .invalid && !m.erased)) })) u
      fun x => lfStepped x true (lfClass d.copy m) m := by
  simp only [lfCollect, lfOf_setLf, hmark, hstate, modLf_setLf, Bool.true_and, decide_true, if_true]
  rfl

end

/-- A mark comes with an edge. -/
theorem lfIsMark_key {c : List Byte} {d : LfDec} {m : LfSecond} (h : lfIsMark c d (lfClass c m) m.edgeErased = true) : m.key.isSome = true := by
  cases hk : m.key with
  | some e => rfl
  | none =>
    have hclass : lfClass c m = .missing := by simp only [lfClass, hk]
    rw [lfIsMark, hclass] at h
    simp at h

/-- Second 0 of a frame taken with its mark. -/
theorem lfStepped_mark {m : LfSecond} (hkey : m.key.isSome = true) (d : LfDec) (sym : LfSym) : ∃ k, lfStepped d true sym m = { d with
    prevMark := lfNotes d.copy sym m.erased, expected := (if m.edgeErased then m.start else (m.key.map (·.1)).getD m.start) + countsPerSecond,
    state := 4, symbols := [(sym, m.erased)], frameStart := (m.key.map (·.1)).getD m.start, secondPos := 0, empty := k } := by
  have hnone : (m.key.isNone && !m.erased) = false := by rw [Option.isNone_eq_false_iff.mpr hkey, Bool.false_and]
  exact lfEmpty_short (.inl hnone)

/-- A second of a frame taken without a mark. -/
theorem lfStepped_plain {m : LfSecond} {d : LfDec} (hstate : d.state = 4) (hkey : m.key.isSome = true ∨ d.empty < 9) (sym : LfSym) : ∃ k,
    lfStepped d false sym m = { d with
      prevMark := lfNotes d.copy sym m.erased, expected := (if m.edgeErased then m.start else (m.key.map (·.1)).getD m.start) + countsPerSecond,
      symbols := (sym, m.erased) :: d.symbols, secondPos := min 255 d.symbols.length, empty := k } := by
  simp only [lfStepped, hstate, Bool.false_eq_true, if_false, if_true]
  exact lfEmpty_short (hkey.imp_left fun h => by rw [Option.isNone_eq_false_iff.mpr h, Bool.false_and])

theorem modLf_refer (s : State) (u thresh : Nat) (erased : Bool) (m : LfMeas) : modLf s u (lfRefer thresh erased m) =
    setLf s u { lfOf s u with reference := (lfRefer thresh erased m (lfOf s u)).reference } := rfl

theorem near_second (e c : Nat) : ((some e).any fun t => decide (freqGap (e + c - t) c * 50 ≤ c)) = true := by
  simp [freqGap]

/-- The fifth edge in a row, a second after the fourth. -/
theorem lfSeek_fifth {thresh : Nat} {m : LfMeas} {d : LfDec} (hstate : d.state = 2) (hedges : d.edges = 4) {e : Nat} (hlast : d.lastEdge = some e)
    {w : Option Nat} (hlead : (lfKeyed d.copy thresh (lfReference d) m).head? = some (e + countsPerSecond, w)) : lfSeek thresh false m d = { d with
      reference := (lfRefer thresh false m d).reference, empty := 0, edges := 5, lastEdge := some (e + countsPerSecond), state := 3, prevMark := false,
      symbols := [], expected := e + countsPerSecond + countsPerSecond } := by
  have hrefer : lfRefer thresh false m d = { d with reference := (lfRefer thresh false m d).reference } := rfl
  generalize (lfRefer thresh false m d).reference = r at hrefer ⊢
  simp only [lfSeek, hrefer, hlead, hstate, hlast, hedges, near_second, if_true, Nat.reduceEqDiff, if_false, Nat.reduceAdd, Bool.false_eq_true,
    Nat.le_refl]

section
variable {s : State} {n : Nat} {m : LfMeas} (htakes : laneTakes s n = true) (hkind : (laneOf s n).cur.engKind = 4)
include htakes hkind

theorem execLfSecond_idle (hstate : (lfOf s (laneOf s n).cur.engIndex).state = 0) : exec (.lfSecond n m) s = .next s := by
  simp only [exec, execLfSecond, htakes, hkind, hstate, BEq.rfl, Bool.and_self, if_true]

/-- A second of FRAMES: the reference, then the second itself. -/
theorem execLfSecond_frames (hstate : (lfOf s (laneOf s n).cur.engIndex).state = 4) : ∃ r, exec (.lfSecond n m) s =
    .next (lfReport (laneOf s n).cur.engIndex (lfCollect n (laneOf s n).cur.engIndex
      (lfSecondOf (laneOf s n) (engPar (laneOf s n).cur 12) m (lfOf s (laneOf s n).cur.engIndex))
      (setLf s (laneOf s n).cur.engIndex { lfOf s (laneOf s n).cur.engIndex with reference := r }))) := by
  simp only [exec, execLfSecond, htakes, hkind, hstate, BEq.rfl, Bool.and_self, if_true, modLf_refer]
  exact ⟨_, rfl⟩

/-- The fifth edge in a row locks the second's phase. -/
theorem execLfSecond_fifth (hstate : (lfOf s (laneOf s n).cur.engIndex).state = 2) (hedges : (lfOf s (laneOf s n).cur.engIndex).edges = 4) {e : Nat}
    (hlast : (lfOf s (laneOf s n).cur.engIndex).lastEdge = some e) (hgaps : (laneOf s n).gaps = []) (hpoints : m.points ≠ []) {w : Option Nat}
    (hlead : (lfKeyed (lfOf s (laneOf s n).cur.engIndex).copy (engPar (laneOf s n).cur 12) (lfReference (lfOf s (laneOf s n).cur.engIndex)) m).head? =
      some (e + 2 ^ 24, w)) : ∃ r, exec (.lfSecond n m) s = .next (lfReport (laneOf s n).cur.engIndex (setLf s (laneOf s n).cur.engIndex
        { lfOf s (laneOf s n).cur.engIndex with reference := r, empty := 0, edges := 5, lastEdge := some (e + 2 ^ 24),
                                                state := 3, prevMark := false, symbols := [], expected := e + 2 ^ 24 + 2 ^ 24 })) := by
  have hcps : 2 ^ 24 = countsPerSecond := rfl
  rw [hcps] at hlead ⊢
  obtain ⟨p, ps, hps⟩ := List.exists_cons_of_ne_nil hpoints
  have hlastPoint : m.points.getLast? = some (m.points.getLast hpoints) := List.getLast?_eq_some_getLast hpoints
  have hhead : m.points.head? = some p := by rw [hps]; rfl
  refine ⟨(lfRefer (engPar (laneOf s n).cur 12) false m (lfOf s (laneOf s n).cur.engIndex)).reference, ?_⟩
  simp only [exec, execLfSecond, htakes, hkind, hstate, BEq.rfl, Bool.and_self, if_true, hhead, hlastPoint, erasedIn_none hgaps, modLf_eq,
    lfSeek_fifth hstate hedges hlast hlead]

end

/-- A clean group gives block sync. -/
theorem rdsGainsSync_clean {x : Lane} {raw : RdsGroup} (a : Analogue) (hgaps : x.gaps = []) (hlen : raw.blocks.length = 4)
    (hclean : ∀ b ∈ raw.blocks, b.found = some b.raw) : rdsGainsSync a (readGroup x raw) = true := by
  have hone (i : Nat) (hi : i < 4) : rdsClean (readGroup x raw) i = true := by
    have hb : raw.blocks.getD i { raw := 0, found := none, reliability := 0 } ∈ raw.blocks := by
      rw [getD_of_lt _ (by omega)]
      exact List.getElem_mem ..
    simp only [rdsClean, readGroup, erasedIn_none hgaps]
    rw [getD_of_lt _ (by simpa using hi), List.getElem_map, List.getElem_range, hclean _ hb]
    simp
  have hpair : ((List.range 3).any fun i => rdsClean (readGroup x raw) i && rdsClean (readGroup x raw) (i + 1)) = true :=
    List.any_eq_true.mpr ⟨0, by decide, by rw [hone 0 (by decide), hone (0 + 1) (by decide)]; rfl⟩
  rw [rdsGainsSync, hpair, Bool.true_or]

/-- The group of the statement: counted, taken, and its sync kept or lost. -/
theorem execRdsGroup_clean {s : State} {n : Nat} {raw : RdsGroup} (hun : Unheard s n) (htakes : laneTakes s n = true)
    (hkind : (laneOf s n).cur.engKind = 1) (hmode : engPar (laneOf s n).cur 10 = 3 ∨ engPar (laneOf s n).cur 10 = 4)
    (hen : bit (engPar (laneOf s n).cur 12) 0 = true) (hgaps : (laneOf s n).gaps = []) (hlen : raw.blocks.length = 4)
    (hclean : ∀ b ∈ raw.blocks, b.found = some b.raw) (hc : raw.cPrime = false) (he : raw.eBlocks = 0) (hexpect : piExpect (laneOf s n).cur = 0)
    (hcode : rdsBlock (readGroup (laneOf s n) raw) 1 / 2048 ≠ 8)
    (hseen : (analogueOf s (laneOf s n).cur.engIndex).piSeen = some (rdsBlock (readGroup (laneOf s n) raw) 0)) : ∃ a',
    exec (.rdsGroup n raw) s = .next (setAnalogue s (laneOf s n).cur.engIndex a') ∧
      a'.blocksGood = bump 4 (analogueOf s (laneOf s n).cur.engIndex).blocksGood 4 ∧
      a'.blocksBad = (if bit (engPar (laneOf s n).cur 12) 1 then (analogueOf s (laneOf s n).cur.engIndex).blocksBad
        else bump 4 (analogueOf s (laneOf s n).cur.engIndex).blocksBad 0) ∧
      a'.groupsOut = bump 4 (analogueOf s (laneOf s n).cur.engIndex).groupsOut 1 ∧ a'.pi = some (rdsBlock (readGroup (laneOf s n) raw) 0) := by
  have hg := readGroup_clean hgaps hlen hclean
  have hgc : (readGroup (laneOf s n) raw).cPrime = false := hc
  have hge : (readGroup (laneOf s n) raw).eBlocks = 0 := he
  have hgain := rdsGainsSync_clean (analogueOf s (laneOf s n).cur.engIndex) hgaps hlen hclean
  obtain ⟨g, hgdef⟩ : ∃ g, readGroup (laneOf s n) raw = g := ⟨_, rfl⟩
  rw [hgdef] at hg hgc hge hcode hseen hgain ⊢
  obtain ⟨u, hu⟩ : ∃ u, (laneOf s n).cur.engIndex = u := ⟨_, rfl⟩
  rw [hu] at hseen hgain ⊢
  obtain ⟨cgood, cbad, cout, cseen, -⟩ := hg.countGroup hge (laneOf s n).cur
    { analogueOf s u with rdsSync := true, acquiring := false, cleanEnd := none }
  obtain ⟨b, hb⟩ : ∃ b, countGroup (laneOf s n).cur g { analogueOf s u with rdsSync := true, acquiring := false, cleanEnd := none } = b := ⟨_, rfl⟩
  rw [hb] at cgood cbad cout cseen
  obtain ⟨a', htake, kgood, kbad, kout, kpi⟩ := takeGroup_unheard (u := u) hun hg hgc hexpect hcode (a := b) (cseen.trans hseen)
  obtain ⟨lgood, lbad, lout, lpi⟩ := loseSync_kept (laneOf s n).cur a'
  refine ⟨loseSync (laneOf s n).cur a', ?_, lgood.trans (kgood.trans cgood), lbad.trans (kbad.trans cbad),
    lout.trans (kout.trans (by rw [cout])), lpi.trans kpi⟩
  have hmode' : (engPar (laneOf s n).cur 10 == 3 || engPar (laneOf s n).cur 10 == 4) = true := by simpa using hmode
  have hfree : ((laneOf s n).hold == .free) = false := by rw [hun.host]; rfl
  simp only [exec, execRdsGroup, htakes, hkind, hmode', hen, hu, hgdef, hgain, BEq.rfl, Bool.and_self, Bool.or_true, if_true, modAnalogue_eq, hb,
    htake, laneOf_setAnalogue, hfree, Bool.false_eq_true, if_false, analogueOf_setAnalogue, setAnalogue_setAnalogue]

/-- Settles O36. -/
theorem narrowEnginesTakeTheirSignals : Obligations.NarrowEnginesTakeTheirSignals := by
  intro s n htakes hhost hslots hfollows htastings x u
  have hun : Unheard s n := ⟨hhost, hslots, hfollows, htastings⟩
  refine ⟨fun raw hkind hmode hen => ?_, fun m hkind => ?_⟩
  · intro a g
    refine ⟨fun hsync hgain => execRdsGroup_passed htakes hkind hmode hen hsync hgain, fun hgaps hlen hclean hc he hexpect hcode hseen => ?_⟩
    obtain ⟨a', hexec, hgood, hbad, hout, hpi⟩ := execRdsGroup_clean hun htakes hkind hmode hen hgaps hlen hclean hc he hexpect hcode hseen
    refine ⟨_, hexec, ?_, ?_, ?_, ?_, fun k hk => analogueOf_setAnalogue_ne _ _ hk, rfl⟩
    all_goals rw [analogueOf_setAnalogue]
    · exact hgood
    · exact hbad
    · exact hout
    · exact hpi
  · intro d second sym edge
    refine ⟨fun hstate => execLfSecond_idle htakes hkind hstate, fun w e hstate hedges hlast hgaps hpoints hlead => ?_,
      fun hstate herased hmark hkey => ?_, fun hstate herased hmark => ?_⟩
    · obtain ⟨r, hexec⟩ := execLfSecond_fifth htakes hkind hstate hedges hlast hgaps hpoints hlead
      obtain ⟨f, v, hreport⟩ := lfReport_setLf s u { d with
        reference := r, empty := 0, edges := 5, lastEdge := some (e + 2 ^ 24), state := 3, prevMark := false, symbols := [],
        expected := e + 2 ^ 24 + 2 ^ 24 }
      refine ⟨_, hexec.trans (congrArg Host.Outcome.next hreport), rfl, fun k hk => lfOf_setLf_ne _ _ hk, ?_⟩
      rw [lfOf_setLf]
      exact ⟨rfl, rfl, rfl, by rw [Nat.two_mul, ← Nat.add_assoc], rfl⟩
    · obtain ⟨r, hexec⟩ := execLfSecond_frames (m := m) htakes hkind hstate
      have hcollect := lfCollect_plain (s := s) (n := n) (u := u) (d := { d with reference := r }) (m := second) hmark
      obtain ⟨k, hstep⟩ := lfStepped_plain (m := second) (d := { d with
        reference := r, symbolsInvalid := bump 4 d.symbolsInvalid (flagNat (sym == .invalid && !second.erased)) }) hstate hkey sym
      rw [show lfCollect n u second (setLf s u { d with reference := r }) = _ from hcollect.trans (congrArg (setLf s u) hstep)] at hexec
      obtain ⟨f, v, hreport⟩ := lfReport_setLf s u { d with
        reference := r, symbolsInvalid := bump 4 d.symbolsInvalid (flagNat (sym == .invalid && !second.erased)),
        prevMark := lfNotes d.copy sym second.erased,
        expected := (if second.edgeErased then second.start else (second.key.map (·.1)).getD second.start) + countsPerSecond,
        symbols := (sym, second.erased) :: d.symbols, secondPos := min 255 d.symbols.length, empty := k }
      refine ⟨_, hexec.trans (congrArg Host.Outcome.next hreport), rfl, fun k hk => lfOf_setLf_ne _ _ hk, ?_⟩
      rw [lfOf_setLf, herased]
      exact ⟨hstate, rfl, rfl, rfl⟩
    · obtain ⟨r, hexec⟩ := execLfSecond_frames (m := m) htakes hkind hstate
      obtain ⟨w, hw⟩ : ∃ w, lfClose n u d.symbols.reverse edge second.unc (setLf s u { d with
          reference := r, symbolsInvalid := bump 4 d.symbolsInvalid (flagNat (sym == .invalid && !second.erased)) }) = w := ⟨_, rfl⟩
      have hcollect : lfCollect n u second (setLf s u { d with reference := r }) = modLf w u fun x => lfStepped x true sym second := by
        rw [← hw]
        exact lfCollect_mark (s := s) (n := n) (u := u) (d := { d with reference := r }) (m := second) hmark hstate
      obtain ⟨k, hstep⟩ := lfStepped_mark (lfIsMark_key hmark) (lfOf w u) sym
      rw [show lfCollect n u second (setLf s u { d with reference := r }) = _ from hcollect.trans (congrArg (setLf w u) hstep)] at hexec
      obtain ⟨f, v, hreport⟩ := lfReport_setLf w u { lfOf w u with
        prevMark := lfNotes (lfOf w u).copy sym second.erased,
        expected := (if second.edgeErased then second.start else (second.key.map (·.1)).getD second.start) + countsPerSecond,
        state := 4, symbols := [(sym, second.erased)], frameStart := (second.key.map (·.1)).getD second.start, secondPos := 0, empty := k }
      refine ⟨_, hexec.trans (congrArg Host.Outcome.next hreport), fun k hk => ?_, ?_, ?_, fun tm hlen hread hlast hall hconfirm => ?_,
        fun hlen hread => ?_, fun h60 h61 => ?_⟩
      · refine (lfOf_setLf_ne _ _ hk).trans ?_
        rw [← hw]
        exact lfClose_other hun hk
      · rw [lfOf_setLf, herased]
      · rw [lfOf_setLf]
      · obtain ⟨payload, hgood⟩ := lfClose_good (s := s) (n := n) (u := u) (edge := edge) (unc := second.unc) (d := { d with
          reference := r, symbolsInvalid := bump 4 d.symbolsInvalid (flagNat (sym == .invalid && !second.erased)) })
          (List.length_reverse.trans hlen) hread hlast hall hconfirm
        rw [hgood] at hw
        rw [lfOf_setLf, ← hw, lfOf_setLf]
        exact ⟨rfl, rfl, rfl, rfl, rfl⟩
      · have hfailed := lfClose_failed (s := s) (n := n) (u := u) (edge := edge) (unc := second.unc) (d := { d with
          reference := r, symbolsInvalid := bump 4 d.symbolsInvalid (flagNat (sym == .invalid && !second.erased)) })
          (List.length_reverse.trans hlen) hread
        rw [hfailed] at hw
        rw [lfOf_setLf, ← hw, lfOf_setLf]
        exact ⟨rfl, rfl, rfl, rfl⟩
      · have hlost := lfClose_length (s := s) (n := n) (u := u) (edge := edge) (unc := second.unc) (d := { d with
          reference := r, symbolsInvalid := bump 4 d.symbolsInvalid (flagNat (sym == .invalid && !second.erased)) })
          (syms := d.symbols.reverse) (by rwa [List.length_reverse]) (by rwa [List.length_reverse])
        rw [hlost] at hw
        rw [lfOf_setLf, ← hw, lfOf_setLf]
        exact ⟨rfl, rfl, rfl, rfl⟩

end Sys2Proof.Machine

/-!
PROOFS. What a lane's block boundary does (O35), for a lane without an engine that nothing follows.
-/
namespace Sys2Proof.Machine

/-- No tasting is under way, no entry follows a lane, and no lane is shed. -/
structure Unshed (s : State) : Prop where
  tastings : s.taste.tastings = []
  follows : s.taste.follows = []
  low : s.fabric.shedLevelL = 0
  high : s.fabric.shedLevelV = 0

theorem Unshed.entryOf {s : State} (h : Unshed s) (n : Nat) : entryOf s n = none := by
  rw [Machine.entryOf, h.follows]
  rfl

theorem Unshed.followBroken {s : State} (h : Unshed s) (n : Nat) : followBroken n s = s := by simp only [Machine.followBroken, h.entryOf]

/-- A generation of a lane that nothing follows and without an engine has no effect beyond it. -/
theorem afterGeneration_none {s : State} {n : Nat} (h : Unshed s) (hkind : (laneOf s n).cur.engKind = 0) (ch : GenChange) : afterGeneration n ch s = s := by
  have hocc : occupiedNow s = s := endTastings_none h.tastings _ _
  simp [afterGeneration, h.followBroken, h.entryOf, hocc, hkind]

/-- What a boundary leaves of a lane. -/
structure SameBlock (x x' : Lane) : Prop where
  hold : x'.hold = x.hold
  last : x'.last = x.last
  seq : x'.seq = x.seq
  blocks : x'.blocks = x.blocks

theorem SameBlock.refl (x : Lane) : SameBlock x x := ⟨rfl, rfl, rfl, rfl⟩

theorem SameBlock.trans {x y z : Lane} (h : SameBlock x y) (k : SameBlock y z) : SameBlock x z :=
  ⟨k.hold.trans h.hold, k.last.trans h.last, k.seq.trans h.seq, k.blocks.trans h.blocks⟩

/-- A set that takes effect: the lane in its generation. -/
structure InForce (x x' : Lane) (new : LaneSet) (gen : Nat) : Prop extends SameBlock x x' where
  gen : x'.gen = gen
  cur : x'.cur = new
  shed : x'.shed = x.shed
  shortNext : x'.shortNext = x.shortNext
  pending : x'.pending = if x.shortNext then x.pending else none
  settling : new.freqHz ≠ x.cur.freqHz → x'.settling = settleCount new

/-- The lane as a due set takes effect (R228 to R234). -/
def enforcedLane (s : State) (x : Lane) (new : LaneSet) (gen : Nat) (attach : Bool) : Lane :=
  let ch : GenChange :=
    { freq := new.freqHz != x.cur.freqHz, rate := new.rate != x.cur.rate, preset := new.preset != x.cur.preset, bind := x.gen == 0, engine := attach }
  let th := newThreshold x new (x.gen == 0)
  let y := if x.shortNext then { x with synced := none } else { x with pending := none, pendEngine := false }
  let y := { y with
    cur := new, gen := gen, ncoWord := ncoWordOf y.path new.freqHz (pathOf s y.path).fe.loHz, thAbove := th.1, dwell := th.2,
    settling := if x.gen == 0 || ch.freq || ch.rate || ch.preset || (attach && new.engKind != 0) then settleCount new else y.settling,
    quals := if x.gen == 0 || ch.freq || ch.rate then [] else y.quals }
  if x.gen == 0 || ch.rate then clearLane { y with chain := { y.chain with env := 0 } } else y

theorem enforcedLane_inForce (s : State) (x : Lane) (new : LaneSet) (gen : Nat) (attach : Bool) :
    InForce x (enforcedLane s x new gen attach) new gen := by
  have hsettle (h : new.freqHz ≠ x.cur.freqHz) : (new.freqHz != x.cur.freqHz) = true := by simpa using h
  unfold enforcedLane
  dsimp only
  cases hshort : x.shortNext <;> split <;>
    exact ⟨⟨rfl, rfl, rfl, rfl⟩, rfl, rfl, rfl, by simp [clearLane, hshort], by simp [clearLane, hshort], fun h => by simp [clearLane, hsettle h]⟩

/-- What a generation does to the engines and the assemblies of its lane. -/
def boundEngines (n : Nat) (old new : LaneSet) (attach : Bool) (s : State) : State :=
  let s :=
    if attach then
      let s := if old.engKind = 0 then s else releaseEngine old.engKind old.engIndex s
      if new.engKind = 0 then s else startEngine new.engKind new.engIndex s
    else if new.freqHz != old.freqHz || new.rate != old.rate then restartEngine new.engKind new.engIndex s
    else s
  if new.freqHz != old.freqHz || new.rate != old.rate then abandonLane n s else s

section
variable {s : State} {n : Nat}

theorem applyPending_due {new : LaneSet} {gen : Nat} {attach : Bool} (hdue : dueSet (laneOf s n) = some (new, gen, attach)) : ∃ ch,
    applyPending n s = (boundEngines n (laneOf s n).cur new attach (setLane s n (enforcedLane s (laneOf s n) new gen attach)), some ch) := by
  refine ⟨{ freq := new.freqHz != (laneOf s n).cur.freqHz, rate := new.rate != (laneOf s n).cur.rate, preset := new.preset != (laneOf s n).cur.preset,
            bind := (laneOf s n).gen == 0, engine := attach }, ?_⟩
  simp only [applyPending, hdue]
  rfl

theorem boundEngines_none {old new : LaneSet} (hold : old.engKind = 0) (hnew : new.engKind = 0) (attach : Bool) : ∃ slots,
    boundEngines n old new attach s = { s with slots := slots } := by
  have hrestart : restartEngine new.engKind new.engIndex s = s := by
    rw [hnew]
    rfl
  have hkept : boundEngines n old new attach s = if (new.freqHz != old.freqHz || new.rate != old.rate) = true then abandonLane n s else s := by
    unfold boundEngines
    simp only [hold, hnew, if_true]
    rw [hnew] at hrestart
    simp only [hrestart, ite_self]
  rw [hkept]
  split
  · exact ⟨_, rfl⟩
  · exact ⟨s.slots, rfl⟩

/-- A due set without an engine takes effect, and nothing beyond the lane and its assemblies changes. -/
theorem boundarySet_due (h : Unshed s) (hkind : (laneOf s n).cur.engKind = 0) {new : LaneSet} {gen : Nat} {attach : Bool}
    (hdue : dueSet (laneOf s n) = some (new, gen, attach)) (hnew : new.engKind = 0) : ∃ x' slots,
    boundarySet n s = { setLane s n x' with slots := slots } ∧ InForce (laneOf s n) x' new gen := by
  obtain ⟨ch, happly⟩ := applyPending_due hdue
  obtain ⟨slots, hengines⟩ := boundEngines_none (s := setLane s n (enforcedLane s (laneOf s n) new gen attach)) (n := n) hkind hnew attach
  have hforce := enforcedLane_inForce s (laneOf s n) new gen attach
  generalize enforcedLane s (laneOf s n) new gen attach = x' at happly hengines hforce
  refine ⟨x', slots, ?_, hforce⟩
  obtain ⟨v, hv⟩ : ∃ v, { setLane s n x' with slots := slots } = v := ⟨_, rfl⟩
  have hlane : laneOf v n = x' := by rw [← hv]; exact laneOf_setLane_same ..
  have hunshed : Unshed v := by rw [← hv]; exact ⟨h.tastings, h.follows, h.low, h.high⟩
  rw [hengines, hv] at happly
  rw [hv, boundarySet, happly]
  exact afterGeneration_none hunshed (by rw [hlane, hforce.cur, hnew]) ch

/-- What a boundary does to a lane without an engine that no unbind waits for and that is not shed. -/
structure Bounded (x x' : Lane) : Prop extends SameBlock x x' where
  due : ∀ new gen attach, dueSet x = some (new, gen, attach) → x'.gen = gen ∧ x'.cur = new
  stands : dueSet x = none → x'.gen = x.gen ∧ x'.cur = x.cur
  settling : dueSet x = none → x.shortNext = false → x'.settling = x.settling
  short : x.shortNext = true → x'.syncNext = true ∧ x'.shortNext = false ∧ x'.settling = settleCount x'.cur ∧ x'.pending = x.pending
  pending : ∀ new, x.shortNext = false → x.pending = some new →
    x'.pending = none ∧ (new.freqHz ≠ x.cur.freqHz → x'.settling = settleCount new)

theorem bounded_long {x x' : Lane} (hshort : x.shortNext = false)
    (h : (dueSet x = none ∧ x' = x) ∨ ∃ new gen attach, dueSet x = some (new, gen, attach) ∧ InForce x x' new gen) : Bounded x x' := by
  have hdue : dueSet x = x.pending.map fun p => (p, x.genPending, x.pendEngine) := by rw [dueSet, hshort]; rfl
  rcases h with ⟨hnone, rfl⟩ | ⟨new, gen, attach, hset, hforce⟩
  · refine ⟨.refl _, fun new gen attach hd => ?_, fun _ => ⟨rfl, rfl⟩, fun _ _ => rfl, fun hs => ?_, fun new _ hp => ?_⟩
    · rw [hnone] at hd
      cases hd
    · rw [hshort] at hs
      cases hs
    · rw [hdue, hp] at hnone
      cases hnone
  · refine ⟨hforce.toSameBlock, fun new' gen' attach' hd => ?_, fun hd => ?_, fun hd _ => ?_, fun hs => ?_, fun new' _ hp => ?_⟩
    · rw [hset] at hd
      cases hd
      exact ⟨hforce.gen, hforce.cur⟩
    · rw [hset] at hd
      cases hd
    · rw [hset] at hd
      cases hd
    · rw [hshort] at hs
      cases hs
    · rw [hdue, hp] at hset
      cases hset
      exact ⟨by rw [hforce.pending, hshort]; rfl, hforce.settling⟩

/-- The boundary that a synchronisation makes (R237). -/
theorem bounded_short {x x' : Lane} (hshort : x.shortNext = true)
    (h : (dueSet x = none ∧ x' = x) ∨ ∃ new gen attach, dueSet x = some (new, gen, attach) ∧ InForce x x' new gen) :
    Bounded x (clearLane { x' with shortNext := false, syncNext := true, settling := settleCount x'.cur,
                                   chain := { x'.chain with phase := BitVec.ofNat 32 (x'.cur.ncoPhase0 * 2 ^ 16), env := 0 } }) := by
  have hlong (hs : x.shortNext = false) : False := by
    rw [hshort] at hs
    cases hs
  rcases h with ⟨hnone, rfl⟩ | ⟨new, gen, attach, hset, hforce⟩
  · refine ⟨⟨rfl, rfl, rfl, rfl⟩, fun new gen attach hd => ?_, fun _ => ⟨rfl, rfl⟩, fun _ hs => (hlong hs).elim, fun _ => ⟨rfl, rfl, rfl, rfl⟩,
      fun new hs => (hlong hs).elim⟩
    rw [hnone] at hd
    cases hd
  · refine ⟨⟨hforce.hold, hforce.last, hforce.seq, hforce.blocks⟩, fun new' gen' attach' hd => ?_, fun hd => ?_, fun _ hs => (hlong hs).elim,
      fun _ => ⟨rfl, rfl, rfl, ?_⟩, fun new hs => (hlong hs).elim⟩
    · rw [hset] at hd
      cases hd
      exact ⟨hforce.gen, hforce.cur⟩
    · rw [hset] at hd
      cases hd
    · exact hforce.pending.trans (by rw [hshort]; rfl)

/-- The set that is due takes effect, or none does. -/
theorem boundarySet_spec (h : Unshed s) (hkind : (laneOf s n).cur.engKind = 0)
    (hdue : ∀ new gen attach, dueSet (laneOf s n) = some (new, gen, attach) → new.engKind = 0) : ∃ x' slots lanes,
    boundarySet n s = { s with lanes := lanes, slots := slots } ∧ laneOf (boundarySet n s) n = x' ∧ (∀ k, k ≠ n → laneOf (boundarySet n s) k = laneOf s k) ∧
      ((dueSet (laneOf s n) = none ∧ x' = laneOf s n) ∨
        ∃ new gen attach, dueSet (laneOf s n) = some (new, gen, attach) ∧ new.engKind = 0 ∧ InForce (laneOf s n) x' new gen) := by
  cases hset : dueSet (laneOf s n) with
  | none =>
    have hnone : boundarySet n s = s := by simp only [boundarySet, applyPending, hset]
    exact ⟨laneOf s n, s.slots, s.lanes, hnone, by rw [hnone], fun k _ => by rw [hnone], .inl ⟨rfl, rfl⟩⟩
  | some due =>
    obtain ⟨new, gen, attach⟩ := due
    have hnew := hdue new gen attach hset
    obtain ⟨x', slots, heq, hforce⟩ := boundarySet_due h hkind hset hnew
    refine ⟨x', slots, tabSet s.lanes n x', heq, ?_, fun k hk => ?_, .inr ⟨new, gen, attach, rfl, hnew, hforce⟩⟩
    · rw [heq]
      exact laneOf_setLane_same ..
    · rw [heq]
      exact laneOf_setLane_ne _ _ hk

/-- A lane's boundary without an unbind (R213, R215, R237). -/
theorem boundary_spec (h : Unshed s) (hkind : (laneOf s n).cur.engKind = 0) (hshed : (laneOf s n).shed = false) (hunbind : (laneOf s n).unbind = false)
    (hdue : ∀ new gen attach, dueSet (laneOf s n) = some (new, gen, attach) → new.engKind = 0) :
    Bounded (laneOf s n) (laneOf (boundary n s) n) ∧ (∀ k, k ≠ n → laneOf (boundary n s) k = laneOf s k) ∧
      boundary n s = { s with lanes := (boundary n s).lanes, slots := (boundary n s).slots, fabric := (boundary n s).fabric } := by
  obtain ⟨x', slots, lanes, heq, hlane, hother, hcase⟩ := boundarySet_spec h hkind hdue
  obtain ⟨v, hv⟩ : ∃ v, boundarySet n s = v := ⟨_, rfl⟩
  rw [hv] at heq hlane hother
  have hfabric : v.fabric = s.fabric := by rw [heq]
  have hshed' : x'.shed = false := by
    rcases hcase with ⟨-, rfl⟩ | ⟨new, gen, attach, -, -, hforce⟩
    · exact hshed
    · exact hforce.shed.trans hshed
  have hkind' : x'.cur.engKind = 0 := by
    rcases hcase with ⟨-, rfl⟩ | ⟨new, gen, attach, -, hnew, hforce⟩
    · exact hkind
    · rw [hforce.cur, hnew]
  have hpass : boundaryShed n v = { v with fabric := passWaits n x' false v.fabric } := by
    have hb := boundaryShed_none (s := v) (n := n) (by rw [hfabric]; exact h.low) (by rw [hfabric]; exact h.high) (by rw [hlane]; exact hshed')
    rwa [hlane] at hb
  obtain ⟨w, hw⟩ : ∃ w, { v with fabric := passWaits n x' false v.fabric } = w := ⟨_, rfl⟩
  rw [hw] at hpass
  have hwlane (k : Nat) : laneOf w k = laneOf v k := by rw [← hw]; rfl
  have hbound : boundary n s = if (laneOf s n).shortNext then boundarySync n w else w := by
    simp only [boundary, hunbind, Bool.false_eq_true, if_false, hv, hpass]
  have hwframe : w = { s with lanes := w.lanes, slots := w.slots, fabric := w.fabric } := by rw [← hw, heq]
  rw [hbound]
  cases hshort : (laneOf s n).shortNext with
  | false =>
    simp only [Bool.false_eq_true, if_false]
    refine ⟨?_, fun k hk => (hwlane k).trans (hother k hk), hwframe⟩
    rw [hwlane, hlane]
    exact bounded_long hshort (hcase.imp_right fun ⟨new, gen, attach, hd, _, hforce⟩ => ⟨new, gen, attach, hd, hforce⟩)
  | true =>
    have hsync := boundarySync_narrow (s := w) (n := n) (by rw [hwlane, hlane, hkind']; decide)
    simp only [if_true, hsync]
    refine ⟨?_, fun k hk => (laneOf_modLane_ne _ _ hk).trans ((hwlane k).trans (hother k hk)), ?_⟩
    · rw [laneOf_modLane_same, hwlane, hlane]
      exact bounded_short hshort (hcase.imp_right fun ⟨new, gen, attach, hd, _, hforce⟩ => ⟨new, gen, attach, hd, hforce⟩)
    · rw [hwframe]
      rfl

end

end Sys2Proof.Machine

/-!
PROOFS. A lane's block (O35): its record, and the boundary after it.
-/
namespace Sys2Proof.Machine

/-! Levels -/

theorem foldl_max_zero {α : Type} (xs : List α) : (xs.map fun _ => 0).foldl max 0 = 0 := by
  induction xs with
  | nil => rfl
  | cons x xs ih => simpa using ih

theorem laneLevel_zero (den : Nat) (w : State) : laneLevel 0 den w = (-32768, w) := rfl

/-- A block of zeros has no levels. -/
theorem peakOf_zeros {α : Type} (xs : List α) (w : State) : (peakOf (xs.map fun _ => (0, 0)) w).1 = -32768 := by
  have h : (xs.map fun _ => ((0, 0) : Int × Int)).map power = xs.map fun _ => 0 := by
    rw [List.map_map]
    rfl
  rw [peakOf, h, foldl_max_zero, laneLevel_zero]

theorem rmsOf_zeros {α : Type} (xs : List α) (w : State) : (rmsOf (xs.map fun _ => (0, 0)) w).1 = -32768 := by
  have h : energy (xs.map fun _ => (0, 0)) = 0 := by
    unfold energy
    induction xs with
    | nil => rfl
    | cons x xs ih => simpa using ih
  rw [rmsOf, h, laneLevel_zero]

theorem qualOf_frame (preset : Nat) (xs : List (Int × Int)) (w : State) : ∃ v f, qualOf preset xs w = (v, { w with fresh := f }) := by
  unfold qualOf
  dsimp only
  split
  · exact ⟨_, _, rfl⟩
  · exact laneLevel_frame _ _ _

/-- STAMP: the first sample's count less the fine filter's delay, a count between two of them at free choice (R222). -/
theorem blockStamp_spec (p : Nat) (x : LaneSet) (firstSc : Nat) (s : State) : ∃ stamp f, blockStamp p x firstSc s = (stamp, { s with fresh := f }) ∧
    ∃ k, k ≤ 1 ∧ (fineDelay2 p x * 2 ^ 24 % (2 * adcRate p) = 0 → k = 0) ∧
      stamp = ((firstSc + 2 ^ 64 - fineDelay2 p x * 2 ^ 24 / (2 * adcRate p) % 2 ^ 64) % 2 ^ 64 + 2 ^ 64 - k) % 2 ^ 64 := by
  have hcps : countsPerSecond = 2 ^ 24 := rfl
  unfold blockStamp
  rw [hcps]
  dsimp only
  split
  next hzero =>
    refine ⟨_, s.fresh, rfl, 0, Nat.zero_le 1, fun _ => rfl, ?_⟩
    rw [Nat.sub_zero, Nat.add_mod_right, Nat.mod_mod]
  next hrest => exact ⟨_, s.fresh + 1, rfl, Config.freeNat s.fresh % 2, by omega, fun h => (hrest h).elim, rfl⟩

/-- What a block's record holds, `xs` its samples as the detectors take them. -/
structure Recorded (x : Lane) (causes firstSc : Nat) (xs : List (Int × Int)) (len : Nat) (r : BlockRec) : Prop where
  gen : r.gen = x.gen
  flags : r.flags = causes + 32 * flagNat (takesCoarse x.cur causes)
  seq : r.seq = x.seq
  len : r.len = len
  stamp : ∃ k, k ≤ 1 ∧ (fineDelay2 x.path x.cur * 2 ^ 24 % (2 * adcRate x.path) = 0 → k = 0) ∧ r.stamp =
    ((firstSc + 2 ^ 64 - fineDelay2 x.path x.cur * 2 ^ 24 / (2 * adcRate x.path) % 2 ^ 64) % 2 ^ 64 + 2 ^ 64 - k) % 2 ^ 64
  peak : ∃ w, r.peak = (peakOf xs w).1
  rms : ∃ w, r.rms = (rmsOf xs w).1
  env : ∃ w, r.env = (envOf (envRun x.cur x.chain.env xs) w).1
  none : zeroFilled causes = true ∨ takesCoarse x.cur causes = true → r.qual = -32768
  qual : zeroFilled causes = false → takesCoarse x.cur causes = false → ∃ w, r.qual = (qualOf x.cur.preset xs w).1

theorem blockRec_parts (x : Lane) (flags firstSc : Nat) (outs : List OutSample) (s : State) {xs : List (Int × Int)} {coarse : Bool}
    (hcoarse : takesCoarse x.cur flags = coarse) (hxs : delivered flags (outs.map fun o => if coarse then o.coarse else o.fine) = xs) :
    ∃ stamp f peak w1 rms w2 env w3 qual w4 f', blockStamp x.path x.cur firstSc s = (stamp, { s with fresh := f }) ∧ peak = (peakOf xs w1).1 ∧
      rms = (rmsOf xs w2).1 ∧ env = (envOf (envRun x.cur x.chain.env xs) w3).1 ∧
      qual = (if (zeroFilled flags || coarse) = true then -32768 else (qualOf x.cur.preset xs w4).1) ∧
      blockRec x flags firstSc outs s = ({
        gen := x.gen, flags := flags + 32 * flagNat coarse, seq := x.seq, stamp := stamp, peak := peak, rms := rms, env := env, qual := qual,
        len := outs.length }, envRun x.cur x.chain.env xs, { s with fresh := f' }) := by
  have hst : ∃ stamp f, blockStamp x.path x.cur firstSc s = (stamp, { s with fresh := f }) := by
    obtain ⟨stamp, f, h, -⟩ := blockStamp_spec x.path x.cur firstSc s
    exact ⟨stamp, f, h⟩
  have hpk (w : State) : ∃ v f, peakOf xs w = (v, { w with fresh := f }) := laneLevel_frame _ _ _
  have hrm (w : State) : ∃ v f, rmsOf xs w = (v, { w with fresh := f }) := laneLevel_frame _ _ _
  have hen (w : State) : ∃ v f, envOf (envRun x.cur x.chain.env xs) w = (v, { w with fresh := f }) := laneLevel_frame _ _ _
  have hql (w : State) : ∃ v f, qualOf x.cur.preset xs w = (v, { w with fresh := f }) := qualOf_frame _ _ _
  obtain ⟨record, erecord⟩ : ∃ f, blockRec = f := ⟨_, rfl⟩
  obtain ⟨stampOf, estamp⟩ : ∃ f, blockStamp = f := ⟨_, rfl⟩
  obtain ⟨peaks, epeak⟩ : ∃ f, peakOf = f := ⟨_, rfl⟩
  obtain ⟨rmss, erms⟩ : ∃ f, rmsOf = f := ⟨_, rfl⟩
  obtain ⟨envs, eenv⟩ : ∃ f, envOf = f := ⟨_, rfl⟩
  obtain ⟨quals, equal⟩ : ∃ f, qualOf = f := ⟨_, rfl⟩
  rw [estamp] at hst
  rw [epeak] at hpk
  rw [erms] at hrm
  rw [eenv] at hen
  rw [equal] at hql
  rw [erecord, estamp, epeak, erms, eenv, equal]
  delta blockRec at erecord
  rw [estamp, epeak, erms, eenv, equal] at erecord
  rw [← erecord]
  dsimp only
  obtain ⟨stamp, f1, hst⟩ := hst
  obtain ⟨peak, f2, hpk⟩ := hpk { s with fresh := f1 }
  obtain ⟨rms, f3, hrm⟩ := hrm { s with fresh := f2 }
  obtain ⟨env, f4, hen⟩ := hen { s with fresh := f3 }
  obtain ⟨qual, f5, hql⟩ := hql { s with fresh := f4 }
  simp only [hcoarse, hxs, hst, hpk, hrm, hen]
  cases hnone : (zeroFilled flags || coarse) with
  | true =>
    simp only [if_true]
    exact ⟨stamp, f1, peak, _, rms, _, env, _, -32768, s, f4, rfl, by rw [hpk], by rw [hrm], by rw [hen], rfl, rfl⟩
  | false =>
    simp only [Bool.false_eq_true, if_false, hql]
    exact ⟨stamp, f1, peak, _, rms, _, env, _, qual, _, f5, rfl, by rw [hpk], by rw [hrm], by rw [hen], by rw [hql], rfl⟩

theorem blockRec_spec (x : Lane) (flags firstSc : Nat) (outs : List OutSample) (s : State) : ∃ r env f,
    blockRec x flags firstSc outs s = (r, env, { s with fresh := f }) ∧ Recorded x flags firstSc
      (delivered flags (outs.map fun o => if takesCoarse x.cur flags then o.coarse else o.fine)) outs.length r := by
  obtain ⟨stamp, f, peak, w1, rms, w2, env, w3, qual, w4, f', hst, hpeak, hrms, henv, hqual, hrec⟩ := blockRec_parts x flags firstSc outs s rfl rfl
  obtain ⟨stamp', g, hst', hdelay⟩ := blockStamp_spec x.path x.cur firstSc s
  have hstamp : stamp' = stamp := congrArg Prod.fst (hst'.symm.trans hst)
  rw [hstamp] at hdelay
  refine ⟨_, _, _, hrec, rfl, rfl, rfl, rfl, hdelay, ⟨w1, hpeak⟩, ⟨w2, hrms⟩, ⟨w3, henv⟩, fun h => ?_, fun h1 h2 => ⟨w4, ?_⟩⟩
  · exact hqual.trans (if_pos (by simpa using h))
  · exact hqual.trans (by rw [h1, h2]; rfl)

/-- What a block's record leaves of its lane, and what it counts. -/
structure AfterRecord (x y : Lane) (r : BlockRec) : Prop where
  last : ∃ above dwell, y.last = { r with thAbove := above, dwell := dwell }
  hold : y.hold = x.hold
  path : y.path = x.path
  shed : y.shed = x.shed
  cur : y.cur = x.cur
  gen : y.gen = x.gen
  due : dueSet y = dueSet x
  pending : y.pending = x.pending
  genPending : y.genPending = x.genPending
  shortNext : y.shortNext = x.shortNext
  unbind : y.unbind = x.unbind
  seq : y.seq = (x.seq + 1) % 2 ^ 32
  settling : y.settling = x.settling - 1
  blocks : y.blocks = bump 4 x.blocks 1

theorem recordBlock_quiet {x : Lane} (h : x.cur.thSrc = 0) (flags stands now : Nat) (r : BlockRec) (env : Nat) (taken : Bool) : ∃ y,
    recordBlock x flags stands now r env taken = (y, none) ∧ AfterRecord x y r := by
  have hth : stepThreshold x flags r = (x.thAbove, x.dwell, none) := by simp [stepThreshold, h]
  simp only [recordBlock, hth]
  exact ⟨_, rfl, ⟨_, _, rfl⟩, rfl, rfl, rfl, rfl, rfl, rfl, rfl, rfl, rfl, rfl, rfl, rfl, rfl⟩

/-- A delivering host lane without an engine and a threshold completes its block: the record, then the boundary. -/
theorem execLaneBlock_recorded {s : State} {n : Nat} {m : BlockMeas} (htakes : laneTakes s n = true) (hhost : (laneOf s n).hold = .host)
    (hidle : (laneOf s n).idle = false) (hshed : (laneOf s n).shed = false) (hdue : blockDue (laneOf s n) m.samples.length = true)
    (hkind : (laneOf s n).cur.engKind = 0) (hth : (laneOf s n).cur.thSrc = 0) : ∃ y r f,
    exec (.laneBlock n m) s = .next (boundary n (setLane { s with fresh := f } n y)) ∧ AfterRecord (laneOf s n) y r ∧
      Recorded { laneOf s n with chain := (blockOutputs (laneOf s n) m.samples).1 } (blockFlags s n m.firstSc) m.firstSc
        (delivered (blockFlags s n m.firstSc) ((blockOutputs (laneOf s n) m.samples).2.map fun o =>
          if takesCoarse (laneOf s n).cur (blockFlags s n m.firstSc) then o.coarse else o.fine)) (blockOutputs (laneOf s n) m.samples).2.length r := by
  obtain ⟨r, env, f, hrec, hrecorded⟩ := blockRec_spec { laneOf s n with chain := (blockOutputs (laneOf s n) m.samples).1 } (blockFlags s n m.firstSc)
    m.firstSc (blockOutputs (laneOf s n) m.samples).2 s
  obtain ⟨y, hy, hafter⟩ := recordBlock_quiet (x := { laneOf s n with chain := (blockOutputs (laneOf s n) m.samples).1 }) hth (blockFlags s n m.firstSc)
    (standing { s with fresh := f } { laneOf s n with chain := (blockOutputs (laneOf s n) m.samples).1 }) s.clocks.sc r env m.taken
  refine ⟨y, r, f, ?_, ⟨hafter.last, hafter.hold, hafter.path, hafter.shed, hafter.cur, hafter.gen, hafter.due, hafter.pending, hafter.genPending,
    hafter.shortNext, hafter.unbind, hafter.seq, hafter.settling, hafter.blocks⟩, hrecorded⟩
  obtain ⟨v, hv⟩ : ∃ v, setLane { s with fresh := f } n y = v := ⟨_, rfl⟩
  have hlane : laneOf v n = y := by rw [← hv]; exact laneOf_setLane_same ..
  have hengine : engineBlock n r ((blockOutputs (laneOf s n) m.samples).2.map (·.fine)) m v = v := by
    simp only [engineBlock, hlane, hafter.cur, hkind]
  have hhold : y.hold = .host := hafter.hold.trans hhost
  have htaste (k : Nat) : tasteWindow n k v = v := by simp [tasteWindow, hlane, hhold]
  obtain ⟨record, erecord⟩ : ∃ f, blockRec = f := ⟨_, rfl⟩
  obtain ⟨outputs, eoutputs⟩ : ∃ f, blockOutputs = f := ⟨_, rfl⟩
  rw [eoutputs, erecord] at hrec
  rw [eoutputs] at hy hengine
  show execLaneBlock n m s = _
  delta execLaneBlock
  rw [erecord, eoutputs]
  have hbegun : (laneTakes s n && (laneOf s n).idle) = false := by rw [hidle, Bool.and_false]
  have htaken : (laneTakes s n && blockDue (laneOf s n) m.samples.length) = true := by rw [htakes, hdue]; rfl
  have hkept : (if (laneOf s n).shed = true then countShed (laneOf s n).path s else s) = s := by simp [hshed]
  have hbound : (if (laneOf v n).hold == .free then v else boundary n v) = boundary n v := by rw [hlane, hhold]; rfl
  simp only [hbegun, Bool.false_eq_true, if_false, htaken, if_true, hkept, hrec, hy, hv, hengine, htaste, hbound]

end Sys2Proof.Machine

/-!
PROOFS. The blocks of lanes (O35): the flags of a block, the boundary that frees a lane, and the statement.
-/
namespace Sys2Proof.Machine

/-! The lane's first block -/

theorem toSearch_lanes (p : Place) (s : State) : (toSearch p s).lanes = s.lanes := by
  have hengine : (restartEngine p.kind p.unit s).lanes = s.lanes := by
    unfold restartEngine
    split <;> rfl
  unfold toSearch tasteRestart modTasting
  split
  · exact hengine
  · exact hengine

theorem boundaryShed_idle (n : Nat) (s : State) : (laneOf (boundaryShed n s) n).idle = (laneOf s n).idle := by
  obtain ⟨f, hf⟩ : ∃ f, passWaits n (laneOf s n) ((shedSet s (laneOf s n).path).contains n) s.fabric = f := ⟨_, rfl⟩
  unfold boundaryShed
  simp only [hf]
  split
  · rfl
  split
  · exact (congrArg Lane.idle (laneOf_setLane_same _ _ _)).trans rfl
  split
  · rw [laneOf, toSearch_lanes]
    exact (congrArg Lane.idle (laneOf_setLane_same _ _ _)).trans rfl
  · exact (congrArg Lane.idle (laneOf_setLane_same _ _ _)).trans rfl

theorem beginFirst_idle (n : Nat) (s : State) : (laneOf (beginFirst n s) n).idle = false := by
  unfold beginFirst
  rw [boundaryShed_idle, laneOf_modLane_same]
  rfl

section
variable {s : State} {n : Nat} {m : BlockMeas}

theorem execLaneBlock_stays (hbegun : (laneTakes s n && (laneOf s n).idle) = false)
    (hdue : (laneTakes s n && blockDue (laneOf s n) m.samples.length) = false) : exec (.laneBlock n m) s = .next s := by
  obtain ⟨record, erecord⟩ : ∃ f, blockRec = f := ⟨_, rfl⟩
  obtain ⟨outputs, eoutputs⟩ : ∃ f, blockOutputs = f := ⟨_, rfl⟩
  show execLaneBlock n m s = _
  delta execLaneBlock
  rw [erecord, eoutputs]
  simp only [hbegun, hdue, Bool.false_eq_true, if_false]

theorem execLaneBlock_begins (htakes : laneTakes s n = true) (hidle : (laneOf s n).idle = true) (hbegun : laneTakes (beginFirst n s) n = true)
    (hdue : blockDue (laneOf (beginFirst n s) n) m.samples.length = true) :
    exec (.laneBlock n m) s = exec (.laneBlock n m) (beginFirst n s) := by
  obtain ⟨record, erecord⟩ : ∃ f, blockRec = f := ⟨_, rfl⟩
  obtain ⟨outputs, eoutputs⟩ : ∃ f, blockOutputs = f := ⟨_, rfl⟩
  have hnow : (laneTakes s n && (laneOf s n).idle) = true := by rw [htakes, hidle]; rfl
  have hthen : (laneTakes (beginFirst n s) n && (laneOf (beginFirst n s) n).idle) = false := by rw [beginFirst_idle, Bool.and_false]
  have hgoes : (laneTakes (beginFirst n s) n && blockDue (laneOf (beginFirst n s) n) m.samples.length) = true := by rw [hbegun, hdue]; rfl
  show execLaneBlock n m s = execLaneBlock n m (beginFirst n s)
  obtain ⟨b, hb⟩ : ∃ b, beginFirst n s = b := ⟨_, rfl⟩
  rw [hb] at hthen hgoes ⊢
  delta execLaneBlock
  rw [erecord, eoutputs]
  simp only [hnow, hb, hthen, if_true, Bool.false_eq_true, if_false, hgoes]

end

/-! The chain's envelope -/

theorem chainStep_env (c : ChainCfg) (ch : Chain) (x : Int × Int) : (chainStep c ch x).1.env = ch.env := by
  unfold chainStep
  dsimp only
  split <;> rfl

theorem chainRun_env (c : ChainCfg) (xs : List (Int × Int)) : ∀ ch, (chainRun c ch xs).1.env = ch.env := by
  induction xs with
  | nil => exact fun ch => rfl
  | cons x xs ih => exact fun ch => (ih _).trans (chainStep_env c ch x)

theorem blockOutputs_env (x : Lane) (samples : List (Int × Int)) : (blockOutputs x samples).1.env = x.chain.env := by
  unfold blockOutputs
  split
  · rfl
  · exact chainRun_env _ _ _

/-! The flags of a block (R223, R225) -/

theorem flagNat_le (b : Bool) : flagNat b ≤ 1 := by cases b <;> decide

theorem bit_or (a b k : Nat) : bit (a ||| b) k = (bit a k || bit b k) := by simp only [bit_eq_testBit, Nat.testBit_or]

/-- A cause of Table 10-7 touches the block: noted, standing, or ended within the fine filter's reach. -/
def touches (s : State) (n firstSc k : Nat) : Bool :=
  bit ((laneOf s n).touched ||| standing s (laneOf s n)) k || reaches (laneOf s n) firstSc k

theorem blockFlags_eq (s : State) (n firstSc : Nat) : blockFlags s n firstSc =
    flagNat (touches s n firstSc 0) + 2 * flagNat (touches s n firstSc 1) + 4 * flagNat (touches s n firstSc 2) +
      8 * flagNat (touches s n firstSc 3 || (laneOf s n).shed) + 16 * flagNat (0 < (laneOf s n).settling) +
      64 * flagNat (laneOf s n).shortNext + 128 * flagNat (laneOf s n).syncNext := rfl

theorem touches_of_touched {s : State} {n k : Nat} (firstSc : Nat) (h : bit (laneOf s n).touched k = true) : touches s n firstSc k = true := by
  rw [touches, bit_or, h]
  rfl

theorem touches_of_standing {s : State} {n k : Nat} (firstSc : Nat) (h : bit (standing s (laneOf s n)) k = true) : touches s n firstSc k = true := by
  rw [touches, bit_or, h, Bool.or_true]
  rfl

theorem bit_threeFlags (a b c : Bool) : bit (flagNat a + 2 * flagNat b + 4 * flagNat c) 0 = a ∧
    bit (flagNat a + 2 * flagNat b + 4 * flagNat c) 1 = b ∧ bit (flagNat a + 2 * flagNat b + 4 * flagNat c) 2 = c := by
  cases a <;> cases b <;> cases c <;> decide

theorem standing_blank (s : State) (x : Lane) : bit (standing s x) 0 = (s.link.txBlank || s.link.pinBlank) := (bit_threeFlags _ _ _).1

theorem standing_cal (s : State) (x : Lane) : bit (standing s x) 1 = ((pathOf s x.path).fe.state == .cal) := (bit_threeFlags _ _ _).2.1

theorem standing_retune (s : State) (x : Lane) (h : inWindow s x.path x.cur.freqHz = false) : bit (standing s x) 2 = true := by
  have hbit : bit (standing s x) 2 = (((pathOf s x.path).fe.state != .run && (pathOf s x.path).fe.state != .cal) || !inWindow s x.path x.cur.freqHz) :=
    (bit_threeFlags _ _ _).2.2
  rw [hbit, h, Bool.not_false, Bool.or_true]

theorem blockFlags_settling (s : State) (n firstSc : Nat) : bit (blockFlags s n firstSc) 4 = decide (0 < (laneOf s n).settling) := by
  rw [blockFlags_eq, bit]
  have h0 := flagNat_le (touches s n firstSc 0)
  have h1 := flagNat_le (touches s n firstSc 1)
  have h2 := flagNat_le (touches s n firstSc 2)
  have h3 := flagNat_le (touches s n firstSc 3 || (laneOf s n).shed)
  have h6 : flagNat (decide (0 < (laneOf s n).settling)) = if 0 < (laneOf s n).settling then 1 else 0 := by simp [flagNat]
  rw [h6]
  generalize flagNat (touches s n firstSc 0) = a at *
  generalize flagNat (touches s n firstSc 1) = b at *
  generalize flagNat (touches s n firstSc 2) = c at *
  generalize flagNat (touches s n firstSc 3 || (laneOf s n).shed) = d at *
  split
  next h =>
    have : (a + 2 * b + 4 * c + 8 * d + 16 * 1 + 64 * flagNat (laneOf s n).shortNext + 128 * flagNat (laneOf s n).syncNext) / 2 ^ 4 % 2 = 1 := by omega
    rw [this]
    simp [h]
  next h =>
    have : (a + 2 * b + 4 * c + 8 * d + 16 * 0 + 64 * flagNat (laneOf s n).shortNext + 128 * flagNat (laneOf s n).syncNext) / 2 ^ 4 % 2 = 0 := by omega
    rw [this]
    simp [h]

theorem takesCoarse_blockFlags (s : State) (n firstSc : Nat) : takesCoarse (laneOf s n).cur (blockFlags s n firstSc) =
    ((laneOf s n).cur.detSrc == 2 || ((laneOf s n).cur.detSrc == 0 && decide (0 < (laneOf s n).settling))) := by
  rw [takesCoarse, blockFlags_settling]

/-- What a cause of Table 10-7 leaves in the low flags. -/
theorem blockFlags_causes (s : State) (n firstSc add : Nat) :
    (touches s n firstSc 0 = true → (blockFlags s n firstSc + 32 * add) % 2 = 1) ∧
    (touches s n firstSc 1 = true → (blockFlags s n firstSc + 32 * add) / 2 % 2 = 1) ∧
    (touches s n firstSc 2 = true → (blockFlags s n firstSc + 32 * add) / 4 % 2 = 1) := by
  have h0 := flagNat_le (touches s n firstSc 0)
  have h1 := flagNat_le (touches s n firstSc 1)
  rw [blockFlags_eq]
  refine ⟨fun h => ?_, fun h => ?_, fun h => ?_⟩
  · rw [h, show flagNat true = 1 from rfl]
    omega
  · rw [h, show flagNat true = 1 from rfl]
    omega
  · rw [h, show flagNat true = 1 from rfl]
    omega

/-- A block that nothing touches. -/
theorem blockFlags_clear {s : State} {n : Nat} (firstSc : Nat) (htouched : (laneOf s n).touched = 0) (hend : (laneOf s n).causeEnd = [])
    (htx : s.link.txBlank = false) (hpin : s.link.pinBlank = false) (hrun : (pathOf s (laneOf s n).path).fe.state = .run)
    (hwindow : inWindow s (laneOf s n).path (laneOf s n).cur.freqHz = true) (hshed : (laneOf s n).shed = false) :
    blockFlags s n firstSc = 16 * flagNat (0 < (laneOf s n).settling) + 64 * flagNat (laneOf s n).shortNext +
      128 * flagNat (laneOf s n).syncNext := by
  have hstanding : standing s (laneOf s n) = 0 := by
    unfold standing
    dsimp only
    rw [htx, hpin, hrun, hwindow]
    rfl
  have hnone (k : Nat) : touches s n firstSc k = false := by
    have hbit : bit 0 k = false := by simp [bit]
    have hreach : reaches (laneOf s n) firstSc k = false := by
      unfold reaches
      rw [hend]
      rfl
    rw [touches, hstanding, htouched, hreach, Nat.or_zero, hbit]
    rfl
  rw [blockFlags_eq, hnone, hnone, hnone, hnone, hshed]
  simp [flagNat]

end Sys2Proof.Machine

/-!
PROOFS. The blocks of lanes are recorded (O35).
-/
namespace Sys2Proof.Machine

/-- A lane that is freed at its boundary, without an engine (R213). -/
theorem boundary_unbinds {s : State} {n : Nat} (h : Unshed s) (hunbind : (laneOf s n).unbind = true) (hkind : (laneOf s n).cur.engKind = 0) :
    laneOf (boundary n s) n = keepStats (laneOf s n) ∧ (∀ k, k ≠ n → laneOf (boundary n s) k = laneOf s k) ∧
      boundary n s = { s with
        lanes := (boundary n s).lanes, slots := (boundary n s).slots, fabric := (boundary n s).fabric,
        modes := { s.modes with heldMask := (boundary n s).modes.heldMask, listenHeld := (boundary n s).modes.listenHeld } } := by
  have hbound : boundary n s = releaseHeld n (freeLane n s) := by simp only [boundary, hunbind, if_true, unbindNow, h.followBroken]
  have hlane (k : Nat) : laneOf (boundary n s) k = if k = n then keepStats (laneOf s n) else laneOf s k := by
    rw [hbound]
    exact laneOf_freeLane n s k
  refine ⟨by rw [hlane, if_pos rfl], fun k hk => by rw [hlane, if_neg hk], ?_⟩
  have hfree : freeLane n s = capShed (abandonLane n (setLane s n (keepStats (laneOf s n)))) := by simp only [freeLane, hkind, releaseEngine]
  rw [hbound, hfree]
  rfl

/-- The flags of a record beyond its level source are those of its block. -/
theorem Recorded.causes {x : Lane} {causes firstSc len : Nat} {xs : List (Int × Int)} {r : BlockRec} (h : Recorded x causes firstSc xs len r) :
    r.flags % 16 = causes % 16 := by
  rw [h.flags]
  omega

/-- A block that a cause touches is zero-filled and has no levels (R225). -/
theorem Recorded.zeroes {x : Lane} {causes firstSc len : Nat} {levels : List (Int × Int)} {r : BlockRec}
    (h : Recorded x causes firstSc (delivered causes levels) len r) (hne : r.flags % 16 ≠ 0) : r.peak = -32768 ∧ r.rms = -32768 ∧ r.qual = -32768 := by
  have hzero : zeroFilled causes = true := by
    rw [h.causes] at hne
    simpa [zeroFilled] using hne
  obtain ⟨w, hpeak⟩ := h.peak
  obtain ⟨w', hrms⟩ := h.rms
  rw [delivered, hzero, if_pos rfl] at hpeak hrms
  exact ⟨hpeak.trans (peakOf_zeros _ _), hrms.trans (rmsOf_zeros _ _), h.none (.inl hzero)⟩

/-- What a block's boundary leaves of its lane and beyond it, freed or not. -/
theorem boundary_common {s : State} {n : Nat} (h : Unshed s) (hkind : (laneOf s n).cur.engKind = 0) (hshed : (laneOf s n).shed = false)
    (hdue : ∀ new gen attach, dueSet (laneOf s n) = some (new, gen, attach) → new.engKind = 0) :
    (laneOf (boundary n s) n).last = (laneOf s n).last ∧ (laneOf (boundary n s) n).blocks = (laneOf s n).blocks ∧
      (∀ k, k ≠ n → laneOf (boundary n s) k = laneOf s k) ∧
      boundary n s = { s with
        lanes := (boundary n s).lanes, slots := (boundary n s).slots, fabric := (boundary n s).fabric,
        modes := { s.modes with heldMask := (boundary n s).modes.heldMask, listenHeld := (boundary n s).modes.listenHeld } } := by
  cases hunbind : (laneOf s n).unbind with
  | true =>
    obtain ⟨hlane, hother, hframe⟩ := boundary_unbinds h hunbind hkind
    exact ⟨by rw [hlane]; rfl, by rw [hlane]; rfl, hother, hframe⟩
  | false =>
    obtain ⟨hbounded, hother, hframe⟩ := boundary_spec h hkind hshed hunbind hdue
    refine ⟨hbounded.last, hbounded.blocks, hother, ?_⟩
    have hmodes : (boundary n s).modes = s.modes := by rw [hframe]
    rw [hmodes]
    exact hframe

/-- Settles O35. -/
theorem blocksAreRecorded : Obligations.BlocksAreRecorded := by
  intro s n m x coarse outs levels delay begun
  refine ⟨fun h => ?_, fun hidle hdue => ?_, fun htakes hidle hbegun hdue => ?_,
    fun htakes hhost hidle hshed hdue hl hv hkind hth hpending hsynced htaste hfollow => ?_⟩
  · exact execLaneBlock_stays (by rw [h]; rfl) (by rw [h]; rfl)
  · exact execLaneBlock_stays (by rw [hidle, Bool.and_false]) (by rw [hdue, Bool.and_false])
  · exact execLaneBlock_begins htakes hidle hbegun hdue
  obtain ⟨y, r, f, hexec, hafter, hrecorded⟩ := execLaneBlock_recorded htakes hhost hidle hshed hdue hkind hth
  have hunshed : Unshed (setLane { s with fresh := f } n y) := ⟨htaste, hfollow, hl, hv⟩
  have hlane : laneOf (setLane { s with fresh := f } n y) n = y := laneOf_setLane_same ..
  have hset : dueSet y = dueSet (laneOf s n) := hafter.due
  have hnew : ∀ new gen attach, dueSet y = some (new, gen, attach) → new.engKind = 0 := fun new gen attach h => by
    rw [hset, dueSet] at h
    split at h
    · exact hsynced _ h
    · obtain ⟨_, hp, he⟩ := Option.map_eq_some_iff.mp h
      cases he
      exact hpending _ hp
  obtain ⟨v, hv'⟩ : ∃ v, setLane { s with fresh := f } n y = v := ⟨_, rfl⟩
  rw [hv'] at hexec hunshed hlane
  have hcommon := boundary_common hunshed (by rw [hlane, hafter.cur]; exact hkind) (by rw [hlane, hafter.shed]; exact hshed) (by rw [hlane]; exact hnew)
  have hbounded (hunbind : x.unbind = false) := (boundary_spec hunshed (by rw [hlane, hafter.cur]; exact hkind)
    (by rw [hlane, hafter.shed]; exact hshed) (by rw [hlane, hafter.unbind]; exact hunbind) (by rw [hlane]; exact hnew)).1
  have hfreed (hunbind : x.unbind = true) := (boundary_unbinds hunshed (by rw [hlane, hafter.unbind]; exact hunbind)
    (by rw [hlane, hafter.cur]; exact hkind)).1
  obtain ⟨t, ht⟩ : ∃ t, boundary n v = t := ⟨_, rfl⟩
  rw [hlane] at hcommon hfreed
  rw [ht] at hexec hcommon hbounded hfreed
  rw [hlane] at hbounded
  obtain ⟨hlast, hblocks, hother, hframe⟩ := hcommon
  obtain ⟨above, dwell, hr⟩ := hafter.last
  rw [hr] at hlast
  refine ⟨t, hexec, fun k hk => ?_, ?_, ?_, ?_, ?_, ?_, ?_, ?_, ?_, ?_, ?_, ?_, ?_, ?_, ?_, ?_, ?_⟩
  · rw [hother k hk, ← hv']
    exact laneOf_setLane_ne _ _ hk
  · rw [hframe, ← hv']
    rfl
  · rw [hlast]; exact hrecorded.gen
  · rw [hlast]; exact hrecorded.seq
  · rw [hlast]; exact hrecorded.len
  · rw [hlast]; exact hrecorded.stamp
  · rw [hblocks, hafter.blocks]
    exact bump_four _ _
  · intro htouched hend htx hpin hrun hwindow
    have hclear := blockFlags_clear m.firstSc htouched hend htx hpin hrun hwindow hshed
    have hcauses : zeroFilled (blockFlags s n m.firstSc) = false := by
      rw [hclear, zeroFilled]
      simp
      omega
    have hpeak := hrecorded.peak
    have hrms := hrecorded.rms
    have henv := hrecorded.env
    have hflags := hrecorded.flags
    have hnone := hrecorded.none
    have hqual := hrecorded.qual hcauses
    simp only [delivered, hcauses, takesCoarse_blockFlags, Bool.false_eq_true, if_false, blockOutputs_env] at hpeak hrms henv hflags hnone hqual
    rw [hlast]
    refine ⟨?_, hpeak, hrms, henv, fun hc => hnone (.inr hc), fun hc => hqual hc⟩
    show r.flags = _
    rw [hflags, hclear]
    show _ + 32 * flagNat coarse = 16 * flagNat (0 < (laneOf s n).settling) + 32 * flagNat coarse + 64 * flagNat (laneOf s n).shortNext +
      128 * flagNat (laneOf s n).syncNext
    omega
  · rw [hlast]
    intro h
    refine (congrArg (· % 2) hrecorded.flags).trans ((blockFlags_causes s n m.firstSc _).1 ?_)
    rcases h with h | h | h
    · exact touches_of_standing _ (by rw [standing_blank, h]; rfl)
    · exact touches_of_standing _ (by rw [standing_blank, h, Bool.or_true])
    · exact touches_of_touched _ h
  · rw [hlast]
    intro h
    refine (congrArg (· / 2 % 2) hrecorded.flags).trans ((blockFlags_causes s n m.firstSc _).2.1 ?_)
    rcases h with h | h
    · exact touches_of_standing _ (by rw [standing_cal, h]; rfl)
    · exact touches_of_touched _ h
  · rw [hlast]
    intro h
    refine (congrArg (· / 4 % 2) hrecorded.flags).trans ((blockFlags_causes s n m.firstSc _).2.2 ?_)
    rcases h with h | h
    · exact touches_of_standing _ (standing_retune s _ h)
    · exact touches_of_touched _ h
  · rw [hlast]
    exact hrecorded.zeroes
  · intro hunbind
    rw [hfreed hunbind]
    exact ⟨rfl, rfl⟩
  · intro hunbind
    exact ⟨(hbounded hunbind).hold.trans (hafter.hold.trans hhost), (hbounded hunbind).seq.trans hafter.seq⟩
  · intro hunbind hshort
    obtain ⟨hsync, hlong, hsettling, hstands⟩ := (hbounded hunbind).short (hafter.shortNext.trans hshort)
    refine ⟨hsync, hlong, hsettling, hstands.trans hafter.pending, ?_⟩
    have hsynced : dueSet y = x.synced := hset.trans (if_pos hshort)
    cases hd : x.synced with
    | some d =>
      obtain ⟨hgen, hcur⟩ := (hbounded hunbind).due d.1 d.2.1 d.2.2 (hsynced.trans hd)
      rw [hgen, hcur]
    | none =>
      obtain ⟨hgen, hcur⟩ := (hbounded hunbind).stands (hsynced.trans hd)
      rw [hgen, hcur, hafter.gen, hafter.cur]
  · intro hunbind hpend hshort
    have hnone : dueSet y = none := hset.trans ((if_neg (by rw [show (laneOf s n).shortNext = false from hshort]; decide)).trans
      (congrArg (Option.map _) hpend))
    obtain ⟨hgen, hcur⟩ := (hbounded hunbind).stands hnone
    exact ⟨((hbounded hunbind).settling hnone (hafter.shortNext.trans hshort)).trans hafter.settling, hgen.trans hafter.gen, hcur.trans hafter.cur⟩
  · intro new hunbind hshort hpend
    have hsome : dueSet y = some (new, x.genPending, x.pendEngine) := hset.trans
      ((if_neg (by rw [show (laneOf s n).shortNext = false from hshort]; decide)).trans (congrArg (Option.map _) hpend))
    obtain ⟨hgen, hcur⟩ := (hbounded hunbind).due new _ _ hsome
    obtain ⟨hnone, hsettling⟩ := (hbounded hunbind).pending new (hafter.shortNext.trans hshort) (hafter.pending.trans hpend)
    exact ⟨hgen, hcur, hnone, fun hfreq => hsettling (by rw [hafter.cur]; exact hfreq)⟩

end Sys2Proof.Machine

/-!
PROOFS. The lane commands (O33): LANE_BIND, LANE_SET and ENGINE_ATTACH.
-/
namespace Sys2Proof.Machine

theorem laneMode_mem {s : State} (h3 : 3 ≤ s.modes.modeNow) (h6 : s.modes.modeNow ≤ 6) : s.modes.modeNow ∈ laneModes := by
  simp only [laneModes, List.mem_cons, List.not_mem_nil, or_false]
  omega

/-! LANE_BIND (R213, R214) -/

/-- A lane that is no longer held runs wherever lanes run (R125, R214). -/
theorem modeRuns_released {s : State} (n : Nat) (h3 : 3 ≤ s.modes.modeNow) (h6 : s.modes.modeNow ≤ 6) :
    modeRuns (releaseHeld n s) n = (s.modes.modeNow != 6) := by
  have hmode : (releaseHeld n s).modes.modeNow = s.modes.modeNow := rfl
  have hcases : s.modes.modeNow = 3 ∨ s.modes.modeNow = 4 ∨ s.modes.modeNow = 5 ∨ s.modes.modeNow = 6 := by omega
  rcases hcases with h | h | h | h
  · simp [modeRuns, modeNow, h, releaseHeld]
  all_goals simp [modeRuns, modeNow, hmode, h]

theorem occupiedNow_none {s : State} (h : s.taste.tastings = []) : occupiedNow s = s := endTastings_none h _ _

theorem endTasting_none {s : State} {n : Nat} (h : tastingOf s n = none) (cause : Nat) : endTasting cause n s = s := by
  simp only [endTasting, h]

section
variable {s : State} {seq : Nat} {c : Cmd} (hn : Names c 1) (h3 : 3 ≤ s.modes.modeNow) (h6 : s.modes.modeNow ≤ 6)
include hn h3 h6

theorem checkLaneBind_bind (hh : HeaderOk c) (hz : ZeroBytes c 14 31) (h13 : par c 13 < 8) (hpath : par c 8 < 2)
    (hfreq : freqOk s (par c 8) (parN c 9 4) = true) (hrate : (laneRate (par c 8) (par c 13)).isSome = true) : checkLaneBind s c = firstFail [
      needState ((laneOf s (cmdIdx c)).hold == .free || (laneOf s (cmdIdx c)).hold == .tasting) (holdCode (laneOf s (cmdIdx c)).hold),
      needLimit (s.modes.modeNow != 3 || decide ((runningHost s).length < 8)) 1] := by
  have hne : (par c 8 == 0xFF) = false := by simp; omega
  simp only [checkLaneBind, List.cons_append, List.append_assoc, checks_rest (kinds := [1]) hn rfl hh]
  simp [hne, hpath, hfreq, h13, hrate, needMode_none (laneMode_mem h3 h6), modeNow, listenRunning, firstFail_needZeros hz] <;> rfl

theorem checkLaneBind_unbind (hh : HeaderOk c) (hz : ZeroBytes c 14 31) (h13 : par c 13 < 8) (hpath : par c 8 = 0xFF) : checkLaneBind s c =
    needState ((laneOf s (cmdIdx c)).hold == .free || (laneOf s (cmdIdx c)).hold == .host) (holdCode (laneOf s (cmdIdx c)).hold) := by
  simp only [checkLaneBind, List.cons_append, List.append_assoc, checks_rest (kinds := [1]) hn rfl hh]
  rw [show (par c 8 == 0xFF) = true by rw [hpath]; rfl]
  simp only [Bool.true_or, Bool.or_true, Bool.and_true, h13, decide_true, needField_true, needLimit_true, needMode_none (laneMode_mem h3 h6),
    List.nil_append, firstFail_none, firstFail_needZeros hz, if_true]
  generalize needState _ _ = x
  cases x <;> rfl

end

/-- The lane that a LANE_BIND takes, its NCO's phase and the wait for its first block drawn. -/
theorem bindLane_draws (n p hz rate : Nat) (s : State) : ∃ phase wait fresh,
    bindLane n .host p { freqHz := hz, rate := rate } s = { s with
      lanes := tabSet s.lanes n { keepStats (laneOf s n) with
        hold := .host, path := p, running := modeRuns s n, genPending := 1, pending := some { freqHz := hz, rate := rate },
        ncoWord := ncoWordOf p hz (pathOf s p).fe.loHz, chain := { phase := phase }, startAt := s.clocks.sc + wait }
      fresh := fresh } := ⟨_, _, _, rfl⟩

section
variable {s : State} {seq : Nat} {c : Cmd} (hr : MayRun s seq 0x11 c)

theorem runLaneBind_bind (hpath : par c 8 < 2) : ∃ w, bindLane (cmdIdx c) .host (par c 8) { freqHz := parN c 9 4, rate := par c 13 }
      (releaseHeld (cmdIdx c) (endTasting 4 (cmdIdx c) s)) = w ∧
    (w.taste.tastings = [] → runLaneBind s c = complete c.seq 0x00 (leBytes 1 2 ++ leBytes (laneOf w (cmdIdx c)).ncoWord 4) w) := by
  refine ⟨_, rfl, fun h => ?_⟩
  rw [runLaneBind, if_neg (by omega)]
  dsimp only
  rw [occupiedNow_none h]

end

/-! LANE_SET and ENGINE_ATTACH (R227 to R234) -/

/-- The generation that a pending set takes (R228). -/
def pendGen (x : Lane) : Nat := if x.pending.isSome then x.genPending else nextGen (if x.synced.isSome then x.genPending else x.gen)

theorem pendSet_eq (n : Nat) (f : LaneSet → LaneSet) (s : State) : pendSet n f s = (setLane s n { laneOf s n with
    pending := some (f (nextSet (laneOf s n))), genPending := pendGen (laneOf s n) }, pendGen (laneOf s n), (laneOf s n).pending.isSome) := by
  cases h : (laneOf s n).pending <;> simp [pendSet, pendGen, nextSet, waitingSet, h]

end Sys2Proof.Machine

/-!
PROOFS. The lane commands run (O33).
-/
namespace Sys2Proof.Machine

section
variable {s : State} {seq : Nat} {c : Cmd} (hn : Names c 1) (h3 : 3 ≤ s.modes.modeNow) (h6 : s.modes.modeNow ≤ 6)
include hn h3 h6

/-! LANE_BIND -/

theorem execLaneBind_free (hr : MayRun s seq 0x11 c) (hz : ZeroBytes c 14 31) (h13 : par c 13 < 8) (hpath : par c 8 < 2)
    (hfreq : freqOk s (par c 8) (parN c 9 4) = true) (hrate : (laneRate (par c 8) (par c 13)).isSome = true)
    (hroom : s.modes.modeNow = 3 → (runningHost s).length < 8)
    (hhold : (laneOf s (cmdIdx c)).hold = .free ∨ (laneOf s (cmdIdx c)).hold = .tasting) :
    exec (.laneBind seq) s = .next (runLaneBind (runs s seq) c) := by
  refine congrArg Host.Outcome.next (startCmd_runs runLaneBind hr.1 ?_)
  have hlimit : needLimit (s.modes.modeNow != 3 || decide ((runningHost s).length < 8)) 1 = none := by
    rw [needLimit_eq_none]
    simpa [Decidable.imp_iff_not_or] using hroom
  rw [checkLaneBind_bind hn h3 h6 hr.2 hz h13 hpath hfreq hrate, hlimit]
  rcases hhold with h | h <;> rw [h] <;> rfl

theorem execLaneBind_unbinds (hr : MayRun s seq 0x11 c) (hz : ZeroBytes c 14 31) (h13 : par c 13 < 8) (hpath : par c 8 = 0xFF)
    (hhold : (laneOf s (cmdIdx c)).hold = .free ∨ (laneOf s (cmdIdx c)).hold = .host) :
    exec (.laneBind seq) s = .next (runLaneBind (runs s seq) c) := by
  refine congrArg Host.Outcome.next (startCmd_runs runLaneBind hr.1 ?_)
  rw [checkLaneBind_unbind hn h3 h6 hr.2 hz h13 hpath]
  rcases hhold with h | h <;> rw [h] <;> rfl

/-! ENGINE_ATTACH -/

theorem execEngineAttach_runs (hr : MayRun s seq 0x14 c) (hhost : (laneOf s (cmdIdx c)).hold = .host)
    (hparams : firstFail (checkParams s (some (laneOf s (cmdIdx c)).path) c) = none)
    (haccepts : settingAccepted (laneOf s (cmdIdx c)).path (withEngine c 0 (nextSet (laneOf s (cmdIdx c)))) = true)
    (hkind : par c 8 < 5)
    (hpick : par c 8 = 0 ∨ ∃ i, pickEngine s (par c 8) (par c 9) = some i ∧ i < engineCount (par c 8) ∧
      engineTaken s (cmdIdx c) (par c 8) i = false) : exec (.engineAttach seq) s = .next (runEngineAttach (runs s seq) c) := by
  refine congrArg Host.Outcome.next (startCmd_runs runEngineAttach hr.1 ?_)
  have hindex : (par c 8 == 0 || par c 9 == 0xFF || decide (par c 9 < engineCount (par c 8))) = true ∧
      (par c 8 == 0 || (pickEngine s (par c 8) (par c 9)).isSome) = true ∧
      (par c 8 == 0 || par c 9 == 0xFF || !engineTaken s (cmdIdx c) (par c 8) (par c 9)) = true := by
    rcases hpick with h | ⟨i, hpick, hi, htaken⟩
    · rw [h]
      exact ⟨rfl, rfl, rfl⟩
    · by_cases hany : par c 9 = 0xFF
      · simp [hany, hany ▸ hpick]
      · rw [pickEngine, if_neg hany] at hpick
        cases hpick
        simp [pickEngine, hany, hi, htaken]
  obtain ⟨hnine, hlimit, hidle⟩ := hindex
  have hname : (if (laneOf s (cmdIdx c)).hold == .host then some (laneOf s (cmdIdx c)).path else none) = some (laneOf s (cmdIdx c)).path := by
    rw [hhost]
    rfl
  simp only [checkEngineAttach, List.cons_append, List.append_assoc]
  refine checks_pass hn rfl hr.2 ?_
  rw [hname]
  simp only [List.nil_append, List.forall_mem_cons, List.forall_mem_append, needField_eq_none, needMode_eq_none, needState_eq_none, needLimit_eq_none,
    needIdle_eq_none, decide_eq_true_eq, hnine, hlimit, hidle, hkind, haccepts, laneMode_mem h3 h6, needHost, hhost]
  exact ⟨trivial, trivial, firstFail_eq_none.mp hparams, trivial, rfl, trivial, trivial, trivial, fun _ h => by cases h⟩

/-! LANE_SET -/

theorem execLaneSet_runs (hr : MayRun s seq 0x12 c) (hz : ZeroBytes c 25 31) (h9 : par c 9 < 2)
    (hfreq : setMask c 0 = true → freqOk s (laneOf s (cmdIdx c)).path (parN c 10 4) = true)
    (hrate : setMask c 1 = true → (laneRate (laneOf s (cmdIdx c)).path (bits (par c 14) 2 0)).isSome = true)
    (h14 : setMask c 1 = true ∨ setMask c 2 = true → bit (par c 14) 3 = false ∧ par c 14 < 64) (hlen : setMask c 3 = true → bits (par c 15) 2 0 ≤ 4)
    (h15 : setMask c 3 = true ∨ setMask c 4 = true ∨ setMask c 7 = true → bit (par c 15) 3 = false) (h16 : setMask c 5 = true → par c 16 < 3)
    (h18 : setMask c 6 = true → par c 18 % 16 ≤ 4 ∧ parI c 21 2 ≤ parI c 19 2) (hhost : (laneOf s (cmdIdx c)).hold = .host)
    (haccepts : settingAccepted (laneOf s (cmdIdx c)).path (setFields c (nextSet (laneOf s (cmdIdx c)))) = true) :
    exec (.laneSet seq) s = .next (runLaneSet (runs s seq) c) := by
  refine congrArg Host.Outcome.next (startCmd_runs runLaneSet hr.1 ?_)
  simp only [checkLaneSet, List.cons_append, List.append_assoc]
  refine checks_pass hn rfl hr.2 ?_
  simp only [List.nil_append, List.forall_mem_cons, List.forall_mem_append, needField_eq_none, needMode_eq_none, needState_eq_none, needHost, hhost,
    haccepts, laneMode_mem h3 h6, List.any_cons, List.any_nil, Bool.or_false]
  have hor {b e : Bool} (h : b = true → e = true) : (!b || e) = true := by cases b <;> simp_all
  refine ⟨decide_eq_true h9, hor hfreq, ?_, ?_, hor fun h => decide_eq_true (h16 h), hor fun h => decide_eq_true (h18 h).1,
    hor fun h => decide_eq_true (h18 h).2, needZeros_none hz, trivial, rfl, trivial, fun _ h => by cases h⟩
  · rw [Bool.and_eq_true]
    refine ⟨hor hrate, hor fun h => ?_⟩
    obtain ⟨hbit, hlt⟩ := h14 (by simpa using h)
    simp [hbit, hlt]
  · rw [Bool.and_eq_true]
    refine ⟨hor fun h => decide_eq_true (hlen h), hor fun h => ?_⟩
    rw [h15 (by simpa [or_assoc] using h)]
    rfl

end

end Sys2Proof.Machine

/-!
PROOFS. The lane commands make the next generation of one lane (O33).
-/
namespace Sys2Proof.Machine

/-! LANE_BIND -/

theorem runLaneBind_free {s : State} {c : Cmd} (h3 : 3 ≤ s.modes.modeNow) (h6 : s.modes.modeNow ≤ 6) (hpath : par c 8 < 2)
    (htaste : s.taste.tastings = []) : ∃ phase wait fresh,
    runLaneBind s c = complete c.seq 0x00 (leBytes 1 2 ++ leBytes (ncoWordOf (par c 8) (parN c 9 4) (pathOf s (par c 8)).fe.loHz) 4) { s with
      modes := (releaseHeld (cmdIdx c) s).modes
      lanes := tabSet s.lanes (cmdIdx c) { keepStats (laneOf s (cmdIdx c)) with
        hold := .host, path := par c 8, running := s.modes.modeNow != 6, genPending := 1,
        pending := some { freqHz := parN c 9 4, rate := par c 13 },
        ncoWord := ncoWordOf (par c 8) (parN c 9 4) (pathOf s (par c 8)).fe.loHz, chain := { phase := phase }, startAt := s.clocks.sc + wait }
      fresh := fresh } := by
  obtain ⟨w, hw, hrun⟩ := runLaneBind_bind (s := s) (c := c) hpath
  rw [endTasting_none (by simp [tastingOf, htaste])] at hw
  obtain ⟨phase, wait, fresh, hbind⟩ := bindLane_draws (cmdIdx c) (par c 8) (parN c 9 4) (par c 13) (releaseHeld (cmdIdx c) s)
  rw [modeRuns_released _ h3 h6] at hbind
  rw [hbind] at hw
  refine ⟨phase, wait, fresh, (hrun (by rw [← hw]; exact htaste)).trans ?_⟩
  have hlane : (laneOf w (cmdIdx c)).ncoWord = ncoWordOf (par c 8) (parN c 9 4) (pathOf s (par c 8)).fe.loHz := by
    rw [← hw]
    exact congrArg Lane.ncoWord (tabGet_tabSet_same ..)
  rw [hlane, ← hw]
  rfl

theorem runLaneBind_tasting {s : State} {c : Cmd} {y : Tasting} (hpath : par c 8 < 2) (htaste : s.taste.tastings = [(cmdIdx c, y)]) : ∃ u,
    runLaneBind s c = complete c.seq 0x00 (leBytes 1 2 ++ leBytes (ncoWordOf (par c 8) (parN c 9 4) (pathOf s (par c 8)).fe.loHz) 4) u ∧
      u.taste.tastings = [] ∧ u.taste.leesTastings = min (2 ^ 32 - 1) (s.taste.leesTastings + 1) ∧ (laneOf u (cmdIdx c)).hold = .host ∧
      (laneOf u (cmdIdx c)).genPending = 1 ∧ (laneOf u (cmdIdx c)).pending = some { freqHz := parN c 9 4, rate := par c 13 } ∧
      (∀ k, k ≠ cmdIdx c → laneOf u k = laneOf s k) ∧ u = { s with
        lanes := u.lanes, taste := u.taste, slots := u.slots, analogue := u.analogue, lf := u.lf, drm := u.drm, dab := u.dab, fabric := u.fabric,
        fresh := u.fresh, modes := (releaseHeld (cmdIdx c) s).modes } := by
  obtain ⟨w, hw, hrun⟩ := runLaneBind_bind (s := s) (c := c) hpath
  obtain ⟨-, -, hlanes, hcount, -, -, -, hleft, hframe⟩ := endTasting_spec (s := s) (m := cmdIdx c) (y := y) (by simp [tastingOf, htaste]) 4
  obtain ⟨e, he⟩ : ∃ e, endTasting 4 (cmdIdx c) s = e := ⟨_, rfl⟩
  rw [he] at hw hlanes hcount hleft hframe
  obtain ⟨phase, wait, fresh, hbind⟩ := bindLane_draws (cmdIdx c) (par c 8) (parN c 9 4) (par c 13) (releaseHeld (cmdIdx c) e)
  rw [hbind] at hw
  have hnone : e.taste.tastings = [] := by
    rw [hleft, htaste]
    simp
  have hpaths : pathOf e (par c 8) = pathOf s (par c 8) := by rw [hframe]; rfl
  have hlane (k : Nat) : laneOf w k = if k = cmdIdx c then laneOf w (cmdIdx c) else laneOf e k := by
    split
    next h => rw [h]
    next h =>
      rw [← hw]
      exact tabGet_tabSet_ne _ _ _ h
  have hbound : laneOf w (cmdIdx c) = { keepStats (laneOf (releaseHeld (cmdIdx c) e) (cmdIdx c)) with
      hold := .host, path := par c 8, running := modeRuns (releaseHeld (cmdIdx c) e) (cmdIdx c), genPending := 1,
      pending := some { freqHz := parN c 9 4, rate := par c 13 }
      ncoWord := ncoWordOf (par c 8) (parN c 9 4) (pathOf (releaseHeld (cmdIdx c) e) (par c 8)).fe.loHz, chain := { phase := phase },
      startAt := (releaseHeld (cmdIdx c) e).clocks.sc + wait } := by
    rw [← hw]
    exact tabGet_tabSet_same ..
  refine ⟨w, (hrun (by rw [← hw]; exact hnone)).trans ?_, by rw [← hw]; exact hnone, by rw [← hw]; exact hcount, by rw [hbound], by rw [hbound],
    by rw [hbound], fun k hk => by rw [hlane, if_neg hk, hlanes k hk], ?_⟩
  · rw [hbound, ← hpaths]
    rfl
  · have hmodes : (releaseHeld (cmdIdx c) e).modes = (releaseHeld (cmdIdx c) s).modes := by rw [hframe]; rfl
    rw [← hw, hmodes, hframe]
    rfl

theorem runLaneBind_unbind {s : State} {c : Cmd} (hpath : par c 8 = 0xFF) (hhost : (laneOf s (cmdIdx c)).hold = .host) :
    runLaneBind s c = complete c.seq 0x00 [] (if delivering s (cmdIdx c) && !(laneOf s (cmdIdx c)).idle then
      setLane s (cmdIdx c) { laneOf s (cmdIdx c) with unbind := true } else unbindNow (cmdIdx c) s) := by
  have hbound : ((laneOf s (cmdIdx c)).hold != .host) = false := by rw [hhost]; rfl
  rw [runLaneBind, if_pos hpath]
  dsimp only
  rw [hbound]
  rfl

theorem unbindNow_spec {s : State} (n : Nat) (h : s.taste.follows = []) : laneOf (unbindNow n s) n = keepStats (laneOf s n) ∧
    (∀ k, k ≠ n → laneOf (unbindNow n s) k = laneOf s k) ∧ unbindNow n s = { s with
      lanes := (unbindNow n s).lanes, modes := (releaseHeld n s).modes, fabric := (unbindNow n s).fabric, analogue := (unbindNow n s).analogue,
      lf := (unbindNow n s).lf, drm := (unbindNow n s).drm, dab := (unbindNow n s).dab, slots := (unbindNow n s).slots } := by
  have hentry : entryOf s n = none := by
    rw [entryOf, h]
    rfl
  have hbroken : followBroken n s = s := by simp only [followBroken, hentry]
  have hlane (k : Nat) : laneOf (unbindNow n s) k = if k = n then keepStats (laneOf s n) else laneOf s k := by
    rw [unbindNow, hbroken]
    exact laneOf_freeLane n s k
  refine ⟨by rw [hlane, if_pos rfl], fun k hk => by rw [hlane, if_neg hk], ?_⟩
  rw [unbindNow, hbroken, freeLane_frame]
  rfl

/-! LANE_SET and ENGINE_ATTACH -/

theorem runLaneSet_eq (s : State) (c : Cmd) : runLaneSet s c = complete c.seq 0x00
    (leBytes (pendGen (laneOf s (cmdIdx c))) 2 ++ [if (laneOf s (cmdIdx c)).pending.isSome then 1 else 0])
    (setLane s (cmdIdx c) { laneOf s (cmdIdx c) with
      pending := some (setFields c (nextSet (laneOf s (cmdIdx c)))), genPending := pendGen (laneOf s (cmdIdx c)) }) := by
  rw [runLaneSet, pendSet_eq]
  dsimp only
  cases (laneOf s (cmdIdx c)).pending <;> rfl

/-- A set that holds an accepted attach stands pending (R234). -/
def attachPending (n idx : Nat) (c : Cmd) (s : State) : State :=
  setLane s n { laneOf s n with
    pending := some (withEngine c idx (nextSet (laneOf s n))), genPending := pendGen (laneOf s n), pendEngine := true }

theorem modLane_setLane (s : State) (n : Nat) (x : Lane) (f : Lane → Lane) : modLane (setLane s n x) n f = setLane s n (f x) := by
  rw [modLane, laneOf_setLane_same]
  simp only [setLane, tabSet_tabSet]

/-- An attach that takes no engine from tasting. -/
theorem runEngineAttach_plain {s : State} {c : Cmd} {idx : Nat} (hidx : (if par c 8 = 0 then 0 else (pickEngine s (par c 8) (par c 9)).getD 0) = idx)
    (htaken : ∀ m y, engineHolder s (par c 8) idx = some (m, y) → (par c 8 != 0 && y.hold == .tasting) = false) : runEngineAttach s c = complete c.seq 0x00
      ([lowByte (par c 8), lowByte idx, 0, 0] ++ leBytes (pendGen (laneOf s (cmdIdx c))) 2)
      (attachPending (cmdIdx c) idx c (if par c 8 = 4 then modLf s idx fun d => { d with nextCopy := lfDesc s (par c 10) } else s)) := by
  obtain ⟨v, hv⟩ : ∃ v, (if par c 8 = 4 then modLf s idx fun d => { d with nextCopy := lfDesc s (par c 10) } else s) = v := ⟨_, rfl⟩
  have hlane : laneOf v (cmdIdx c) = laneOf s (cmdIdx c) := by
    rw [← hv]
    split <;> rfl
  rw [hv, attachPending, hlane]
  cases hholder : engineHolder s (par c 8) idx with
  | none =>
    simp only [runEngineAttach, hidx, hholder, hv, pendSet_eq, modLane_setLane, hlane]
    rfl
  | some e =>
    simp only [runEngineAttach, hidx, hholder, htaken e.1 e.2 hholder, Bool.false_eq_true, if_false, hv, pendSet_eq, modLane_setLane, hlane]
    rfl

/-- An attach that takes its engine from tasting ends the tasting first (R233). -/
theorem runEngineAttach_takes {s : State} {c : Cmd} {idx m : Nat} {y : Lane} (hidx : (pickEngine s (par c 8) (par c 9)).getD 0 = idx)
    (hkind : par c 8 ≠ 0 ∧ par c 8 ≠ 4) (hholder : engineHolder s (par c 8) idx = some (m, y)) (hhold : y.hold = .tasting) :
    runEngineAttach s c = complete c.seq 0x00
      ([lowByte (par c 8), lowByte idx, 1, 0] ++ leBytes (pendGen (laneOf (endTasting 4 m s) (cmdIdx c))) 2)
      (attachPending (cmdIdx c) idx c (endTasting 4 m s)) := by
  have htaken : (par c 8 != 0 && y.hold == .tasting) = true := by simp [hkind.1, hhold]
  simp only [runEngineAttach, if_neg hkind.1, if_neg hkind.2, hidx, hholder, htaken, if_true, pendSet_eq, modLane_setLane]
  rfl

/-- Ending another lane's tasting leaves a lane as it was. -/
theorem laneOf_endTasting_ne (s : State) {m k : Nat} (cause : Nat) (h : k ≠ m) : laneOf (endTasting cause m s) k = laneOf s k := by
  cases hy : tastingOf s m with
  | none => rw [endTasting_none hy]
  | some y => exact (endTasting_spec hy cause).2.2.1 k h

/-- Settles O33. -/
theorem laneCommandsMakeTheNextGeneration : Obligations.LaneCommandsMakeTheNextGeneration := by
  intro s seq c hn h3 h6 n x g held
  refine ⟨fun hr hz h13 => ⟨?_, fun hpath hfree => ?_, fun hpath hhost => ⟨fun hdel hidle => ?_, fun hstill hfollow => ?_⟩⟩,
    fun hr hz h9 hfreq hrate h14 hlen h15 h16 h18 hhost haccepts => ?_, fun hr hhost hparams haccepts => ⟨fun hkind => ?_, ?_⟩⟩
  · intro hpath hfreq hrate word
    refine ⟨fun htaste hfree hroom => ?_, fun y htaste hhold hmode => ?_, fun hhost => ?_⟩
    · obtain ⟨phase, wait, fresh, hrun⟩ := runLaneBind_free (s := runs s seq) (c := c) h3 h6 hpath htaste
      refine ⟨phase, wait, fresh, ?_⟩
      rw [execLaneBind_free hn h3 h6 hr hz h13 hpath hfreq hrate hroom (.inl hfree), hrun, seq_of_mayRun hr]
      rfl
    · obtain ⟨u, hrun, hrest⟩ := runLaneBind_tasting (s := runs s seq) (c := c) hpath htaste
      refine ⟨u, ?_, hrest⟩
      rw [execLaneBind_free hn h3 h6 hr hz h13 hpath hfreq hrate (fun h => (hmode h).elim) (.inr hhold), hrun, seq_of_mayRun hr]
      rfl
    · refine congrArg Host.Outcome.next (startCmd_fails (r := (0x17, [1])) runLaneBind hr.1 ?_)
      rw [checkLaneBind_bind hn h3 h6 hr.2 hz h13 hpath hfreq hrate, show (laneOf s (cmdIdx c)).hold = .host from hhost]
      rfl
  · have hhold : (laneOf (runs s seq) (cmdIdx c)).hold != .host := by
      rw [show (laneOf (runs s seq) (cmdIdx c)).hold = .free from hfree]
      rfl
    rw [execLaneBind_unbinds hn h3 h6 hr hz h13 hpath (.inl hfree), runLaneBind, if_pos hpath]
    dsimp only
    rw [hhold, seq_of_mayRun hr]
    rfl
  · rw [execLaneBind_unbinds hn h3 h6 hr hz h13 hpath (.inr hhost), runLaneBind_unbind hpath (by exact hhost), seq_of_mayRun hr]
    have hgo : (delivering (runs s seq) (cmdIdx c) && !(laneOf (runs s seq) (cmdIdx c)).idle) = true := by
      rw [show delivering (runs s seq) (cmdIdx c) = true from hdel, show (laneOf (runs s seq) (cmdIdx c)).idle = false from hidle]
      rfl
    rw [hgo]
    rfl
  · obtain ⟨hlane, hother, hframe⟩ := unbindNow_spec (s := runs s seq) (cmdIdx c) hfollow
    have hstop : (delivering (runs s seq) (cmdIdx c) && !(laneOf (runs s seq) (cmdIdx c)).idle) = false := by
      rcases hstill with h | h
      · rw [show delivering (runs s seq) (cmdIdx c) = false from h]
        rfl
      · rw [show (laneOf (runs s seq) (cmdIdx c)).idle = true from h, Bool.not_true, Bool.and_false]
    refine ⟨unbindNow (cmdIdx c) (runs s seq), ?_, ?_, ?_, ?_, ?_, hother, hframe⟩
    · rw [execLaneBind_unbinds hn h3 h6 hr hz h13 hpath (.inr hhost), runLaneBind_unbind hpath (by exact hhost), hstop, seq_of_mayRun hr]
      rfl
    all_goals
      rw [hlane]
      rfl
  · rw [execLaneSet_runs hn h3 h6 hr hz h9 hfreq hrate h14 hlen h15 h16 h18 hhost haccepts, runLaneSet_eq, seq_of_mayRun hr]
    rfl
  · rw [execEngineAttach_runs hn h3 h6 hr hhost hparams haccepts (by omega) (.inl hkind),
      runEngineAttach_plain (idx := 0) (by rw [if_pos hkind]) (fun m y _ => by rw [hkind]; rfl), seq_of_mayRun hr, hkind, attachPending, withEngine,
      if_pos hkind]
    rfl
  · intro i hk1 hk4 hpick hi htaken set u
    have hne : par c 8 ≠ 0 := by omega
    have hidx : (pickEngine s (par c 8) (par c 9)).getD 0 = i := by rw [hpick]; rfl
    refine ⟨fun hholder => ?_, fun m y hne4 hmn hholder htaste => ?_⟩
    · rw [execEngineAttach_runs hn h3 h6 hr hhost hparams haccepts (by omega) (.inr ⟨i, hpick, hi, htaken⟩),
        runEngineAttach_plain (s := runs s seq) (idx := i) (by rw [if_neg hne]; exact hidx) (fun m y h => by simp [hholder m y h]), seq_of_mayRun hr,
        attachPending, withEngine, if_neg hne]
      by_cases hlf : par c 8 = 4
      · rw [if_pos hlf, if_pos hlf]
        rfl
      · rw [if_neg hlf, if_neg hlf]
        rfl
    · rw [execEngineAttach_runs hn h3 h6 hr hhost hparams haccepts (by omega) (.inr ⟨i, hpick, hi, htaken⟩),
        runEngineAttach_takes (s := runs s seq) hidx ⟨hne, hne4⟩ hholder htaste, seq_of_mayRun hr, attachPending, withEngine, if_neg hne,
        laneOf_endTasting_ne _ _ (Ne.symm hmn)]
      rfl

end Sys2Proof.Machine

/-!
PROOFS. The ports' capture blocks and losses (O53).
-/
namespace Sys2Proof.Machine

theorem raise_audioEvent_ready {s : State} (h : s.power.phase = .ready) :
    raise .audioEvent s = { s with port := { s.port with irqStat1 := s.port.irqStat1 ||| 0x20 } } := by
  simp only [raise, ready, h]
  rfl

/-- An audio event, raised or not (R449), changes its register alone. -/
theorem raise_audioEvent_frame (s : State) : raise .audioEvent s = { s with port := { s.port with irqStat1 := (raise .audioEvent s).port.irqStat1 } } := by
  by_cases h : s.power.phase = .ready
  · rw [raise_audioEvent_ready h]
  · rw [raise_not_ready h]

theorem sapOf_raise (s : State) (q : Irq) (p : Nat) : sapOf (raise q s) p = sapOf s p := by
  unfold raise
  split
  · split <;> rfl
  · rfl

/-! Mute stretches (R409) -/

/-- A port after mute stretches: what it has sent, and what it takes, stand. -/
structure PortMuted (x y : Sap) : Prop where
  used : y.used = x.used
  state : y.state = x.state
  swaps : y.swaps = x.swaps
  sent : y.sent = x.sent
  frames : y.frames = x.frames
  micLostFrames : y.micLostFrames = x.micLostFrames
  stretches : ∀ w ∈ x.stretches, w ∈ y.stretches

theorem PortMuted.refl (x : Sap) : PortMuted x x := ⟨rfl, rfl, rfl, rfl, rfl, rfl, fun _ h => h⟩

theorem PortMuted.trans {x y z : Sap} (h : PortMuted x y) (k : PortMuted y z) : PortMuted x z :=
  ⟨k.used.trans h.used, k.state.trans h.state, k.swaps.trans h.swaps, k.sent.trans h.sent, k.frames.trans h.frames,
    k.micLostFrames.trans h.micLostFrames, fun w hw => k.stretches w (h.stretches w hw)⟩

section
variable {s : State} {src : Nat} {cause : MuteCause} {start : Int} {stop : Option Int}

theorem addStretch_muted (port q : Nat) : PortMuted (sapOf s q) (sapOf (addStretch src cause start stop s port) q) := by
  unfold addStretch
  dsimp only
  split
  · exact .refl _
  · by_cases hq : q = port
    · rw [hq, sapOf_modSap_same]
      exact ⟨rfl, rfl, rfl, rfl, rfl, rfl, fun w hw => List.mem_append_left _ hw⟩
    · rw [sapOf_modSap_ne _ _ hq]
      exact .refl _

theorem addStretch_adds {p : Nat} (hruns : sapRuns (sapOf s p) = true) (htakes : takesSource (sapOf s p) src = true) :
    ∃ w ∈ (sapOf (addStretch src cause start stop s p) p).stretches, w.source = src ∧ w.cause = cause ∧ w.stop = stop := by
  unfold addStretch
  dsimp only
  rw [hruns, htakes]
  simp only [Bool.and_self, Bool.not_true, Bool.false_eq_true, if_false, sapOf_modSap_same]
  exact ⟨_, List.mem_append_right _ (List.mem_singleton.mpr rfl), rfl, rfl, rfl⟩

theorem muteSource_eq : muteSource src cause start stop s = addStretch src cause start stop (addStretch src cause start stop s 0) 1 := rfl

theorem muteSource_muted (q : Nat) : PortMuted (sapOf s q) (sapOf (muteSource src cause start stop s) q) :=
  (addStretch_muted 0 q).trans (addStretch_muted 1 q)

theorem muteSource_frame : muteSource src cause start stop s = { s with saps := (muteSource src cause start stop s).saps } := by
  rw [muteSource_eq, addStretch_frame, addStretch_frame]

theorem PortMuted.takes {x y : Sap} (h : PortMuted x y) (src : Nat) : takesSource y src = takesSource x src := by
  rw [takesSource, h.used, h.swaps]
  rfl

theorem PortMuted.runs {x y : Sap} (h : PortMuted x y) : sapRuns y = sapRuns x := by rw [sapRuns, h.state]; rfl

/-- Each port that runs and takes a source is muted there. -/
theorem muteSource_adds {p : Nat} (hp : p < 2) (hruns : sapRuns (sapOf s p) = true) (htakes : takesSource (sapOf s p) src = true) :
    ∃ w ∈ (sapOf (muteSource src cause start stop s) p).stretches, w.source = src ∧ w.cause = cause ∧ w.stop = stop := by
  rcases (by omega : p = 0 ∨ p = 1) with rfl | rfl
  · obtain ⟨w, hw, hrest⟩ := addStretch_adds (cause := cause) (start := start) (stop := stop) hruns htakes
    exact ⟨w, (addStretch_muted 1 0).stretches w hw, hrest⟩
  · have h := addStretch_muted (s := s) (src := src) (cause := cause) (start := start) (stop := stop) 0 1
    exact addStretch_adds (h.runs.trans hruns) ((h.takes src).trans htakes)

end

/-! Capture blocks (R412 to R415) -/

section
variable {s : State} {p : Nat}

theorem raiseIf_audioEvent_frame (b : Bool) (s : State) : raiseIf b .audioEvent s =
    { s with port := { s.port with irqStat1 := (raiseIf b .audioEvent s).port.irqStat1 } } := by
  cases b with
  | true => exact raise_audioEvent_frame s
  | false => rfl

theorem sapOf_raiseIf (b : Bool) (q : Irq) (s : State) (k : Nat) : sapOf (raiseIf b q s) k = sapOf s k := by
  cases b with
  | true => exact sapOf_raise s q k
  | false => rfl

/-- A full block goes to its pool slot (R413, R414). -/
theorem writeBlock_keeps {n : Nat} (h : capQueued (sapOf s p) < (sapOf s p).poolBlocks) : ∃ (wakes : Bool) (count : Sap → Nat),
    writeBlock p n s = raiseIf wakes .audioEvent (modSap (devPuts s (poolBase p + (sapOf s p).capProd % (sapOf s p).poolBlocks *
        blockBytes (sapOf s p).used (sapOf s p).used.framesPerBlock) (captureBytes s p ((sapOf s p).frames.take n))) p fun x =>
      { afterBlock n false x with capProd := (x.capProd + 1) % 65536, wakeCount := count x }) := by
  obtain ⟨wakes, hwakes⟩ : ∃ b, ((sapOf s p).used.wakeBlocks != 0 && decide ((sapOf s p).used.wakeBlocks ≤ (sapOf s p).wakeCount + 1)) = b := ⟨_, rfl⟩
  refine ⟨wakes, fun x => if wakes then 0 else x.wakeCount + 1, ?_⟩
  rw [← hwakes]
  rw [writeBlock, if_neg (by omega)]

/-- A block for which no pool block is free is lost whole (R415). -/
theorem writeBlock_loses {n : Nat} (h : (sapOf s p).poolBlocks ≤ capQueued (sapOf s p)) :
    writeBlock p n s = raise .audioEvent (modSap s p fun x => { afterBlock n true x with blocksLost := bump 4 x.blocksLost 1 }) := by
  rw [writeBlock, if_pos h]

end

/-! A pin's words that are discarded (R417) -/

/-- The runs of a pin's words that are lost, counted at a running port that takes one of its microphones. -/
def countLost (pin runs : Nat) (s : State) (port : Nat) : State :=
  if sapRuns (sapOf s port) && (takesSource (sapOf s port) (512 + 2 * pin) || takesSource (sapOf s port) (513 + 2 * pin)) then
    setSap s port { sapOf s port with micLostFrames := bump 4 (sapOf s port).micLostFrames runs }
  else s

section
variable {s : State} {pin k : Nat}

theorem execPdmOverrun_stays (h : 4 ≤ pin ∨ k = 0 ∨ (if pin / 2 = 0 then s.pdm.clkA else s.pdm.clkB) = false ∨ planHolds s = true) :
    exec (.pdmOverrun pin k) s = .next s := by
  have hcond : (decide (pin < 4) && decide (0 < k) && (if pin / 2 = 0 then s.pdm.clkA else s.pdm.clkB) && !planHolds s) = false := by
    rcases h with h | h | h | h
    · rw [decide_eq_false (Nat.not_lt.mpr h)]
      rfl
    · rw [h]
      simp
    · rw [h, Bool.and_false, Bool.false_and]
    · rw [h, Bool.not_true, Bool.and_false]
  exact if_neg (by rw [hcond]; decide)

theorem execPdmOverrun_mutes (hpin : pin < 4) (hk : 0 < k) (hclk : (if pin / 2 = 0 then s.pdm.clkA else s.pdm.clkB) = true)
    (hplan : planHolds s = false) : ∃ start, exec (.pdmOverrun pin k) s = .next
      (muteSource (512 + (2 * pin + 1)) .lost start (some ((s.clocks.sc * unitsPerCount : Nat) : Int))
        (muteSource (512 + 2 * pin) .lost start (some ((s.clocks.sc * unitsPerCount : Nat) : Int)) (countLost pin k (countLost pin k s 0) 1))) := by
  have hcond : (decide (pin < 4) && decide (0 < k) && (if pin / 2 = 0 then s.pdm.clkA else s.pdm.clkB) && !planHolds s) = true := by
    rw [decide_eq_true hpin, decide_eq_true hk, hclk, hplan]
    rfl
  refine ⟨((s.clocks.sc * unitsPerCount : Nat) : Int) - (k * (micClock s (pin / 2)).2.2 * (micClock s (pin / 2)).2.1 : Nat), ?_⟩
  show execPdmOverrun pin k s = _
  simp only [execPdmOverrun, hcond, if_true, forAll, List.foldl_cons, List.foldl_nil]
  rfl

theorem countLost_frame (port : Nat) : countLost pin k s port = { s with saps := (countLost pin k s port).saps } := by
  unfold countLost
  split <;> rfl

theorem sapOf_countLost_ne {port q : Nat} (h : q ≠ port) : sapOf (countLost pin k s port) q = sapOf s q := by
  unfold countLost
  split
  · exact tabGet_tabSet_ne _ _ _ h
  · rfl

theorem sapOf_countLost_same (p : Nat) : sapOf (countLost pin k s p) p = { sapOf s p with
    micLostFrames := if sapRuns (sapOf s p) && (takesSource (sapOf s p) (512 + 2 * pin) || takesSource (sapOf s p) (513 + 2 * pin)) then
      min (2 ^ 32 - 1) ((sapOf s p).micLostFrames + k) else (sapOf s p).micLostFrames } := by
  unfold countLost
  split
  · exact tabGet_tabSet_same ..
  · rfl

/-- Each of the two ports counts its own lost frames. -/
theorem sapOf_countLost {p : Nat} (hp : p < 2) : sapOf (countLost pin k (countLost pin k s 0) 1) p = { sapOf s p with
    micLostFrames := if sapRuns (sapOf s p) && (takesSource (sapOf s p) (512 + 2 * pin) || takesSource (sapOf s p) (513 + 2 * pin)) then
      min (2 ^ 32 - 1) ((sapOf s p).micLostFrames + k) else (sapOf s p).micLostFrames } := by
  rcases (by omega : p = 0 ∨ p = 1) with rfl | rfl
  · rw [sapOf_countLost_ne (by decide), sapOf_countLost_same]
  · rw [sapOf_countLost_same, sapOf_countLost_ne (by decide)]

end

end Sys2Proof.Machine

/-!
PROOFS. The ports capture and count (O53).
-/
namespace Sys2Proof.Machine

section
variable {s : State} {p : Nat}

theorem execCaptureBlock_stays (h : sapRuns (sapOf s p) = false ∨ (sapOf s p).frames.length ≤ (sapOf s p).used.framesPerBlock) :
    exec (.captureBlock p) s = .next s := by
  refine if_neg ?_
  rcases h with h | h
  · simp [h]
  · simp [Nat.not_lt.mpr h]

theorem execCaptureBlock_writes (hp : p < 2) (hruns : sapRuns (sapOf s p) = true) (h : (sapOf s p).used.framesPerBlock < (sapOf s p).frames.length) :
    exec (.captureBlock p) s = .next (writeBlock p (sapOf s p).used.framesPerBlock s) := if_pos (by simp [hp, hruns, h])

/-- The last frame sent again, every slot 0 (R416). -/
theorem underrun_spec {f : SentFrame} {fs : List SentFrame} (hsent : (sapOf s p).sent = f :: fs) (hzero : f.zero = false) : ∃ frames : List SentFrame → List SentFrame,
    exec (.underrun p) s = .next (raise .audioEvent (modSap s p fun x =>
      { x with underrunFrames := bump 4 x.underrunFrames 1, sent := zeroFrame f :: fs, frames := frames x.frames })) ∧
    ∀ g gs, frames (gs ++ [g]) = gs ++ [zeroFrame g] := by
  refine ⟨fun frames => match frames.getLast? with
    | some g => frames.dropLast ++ [zeroFrame g]
    | none => [], ?_, fun g gs => by simp⟩
  simp only [exec, execUnderrun, hsent, hzero, Bool.false_eq_true, if_false] <;> rfl

end

/-- Settles O53. -/
theorem portsCaptureAndCount : Obligations.PortsCaptureAndCount := by
  intro s p hp x n
  have hunits : unitsPerCount = 3750 := rfl
  refine ⟨execCaptureBlock_stays, fun hruns hfull => ⟨fun hroom => ?_, fun hnone => ?_⟩, fun hsent => ?_,
    fun f fs hsent => ⟨fun hzero => ?_, fun hzero => ?_⟩, ?_, fun u hu hdue => ?_, fun u hu hdue => ?_, fun hnone => ?_, fun hnone => ?_⟩
  · obtain ⟨wakes, count, hwrite⟩ := writeBlock_keeps (n := n) hroom
    obtain ⟨d, hd⟩ : ∃ d, devPuts s (poolBase p + x.capProd % x.poolBlocks * blockBytes x.used n) (captureBytes s p (x.frames.take n)) = d := ⟨_, rfl⟩
    have hmem : d.mem = cellPuts s.mem (poolBase p + x.capProd % x.poolBlocks * blockBytes x.used n) (captureBytes s p (x.frames.take n)) := by
      rw [← hd, devPuts_mem]
    have hdframe : d = { s with mem := d.mem, scrub := d.scrub } := by rw [← hd]; exact devPuts_frame ..
    have hsap (q : Nat) : sapOf d q = sapOf s q := by rw [hdframe]; rfl
    have hexec := execCaptureBlock_writes hp hruns hfull
    rw [hwrite, hd] at hexec
    obtain ⟨t, ht⟩ : ∃ t, modSap d p (fun x => { afterBlock n false x with capProd := (x.capProd + 1) % 65536, wakeCount := count x }) = t := ⟨_, rfl⟩
    have hlane : sapOf t p = { afterBlock n false x with capProd := (x.capProd + 1) % 65536, wakeCount := count x } := by
      rw [← ht, sapOf_modSap_same, hsap]
    rw [ht] at hexec
    have hsapT := (sapOf_raiseIf wakes .audioEvent t p).trans hlane
    refine ⟨raiseIf wakes .audioEvent t, hexec, ?_, congrArg Sap.capProd hsapT, congrArg Sap.bseq hsapT, congrArg Sap.blockFrame hsapT,
      congrArg Sap.frames hsapT, congrArg Sap.gapNext hsapT, congrArg Sap.startNext hsapT, (congrArg Sap.blocksLost hsapT).trans rfl, fun q hq => ?_, ?_⟩
    · rw [raiseIf_mem, ← ht]
      exact hmem
    · rw [sapOf_raiseIf, ← ht, sapOf_modSap_ne _ _ hq, hsap]
    · rw [raiseIf_audioEvent_frame, ← ht, hdframe]
      rfl
  · have hexec := execCaptureBlock_writes hp hruns hfull
    rw [writeBlock_loses hnone] at hexec
    obtain ⟨t, ht⟩ : ∃ t, modSap s p (fun x => { afterBlock n true x with blocksLost := bump 4 x.blocksLost 1 }) = t := ⟨_, rfl⟩
    have hlane : sapOf t p = { afterBlock n true x with blocksLost := bump 4 x.blocksLost 1 } := by rw [← ht, sapOf_modSap_same]
    have htframe : t = { s with saps := t.saps } := by rw [← ht]; rfl
    have hport : t.port = s.port := by rw [htframe]
    rw [ht] at hexec
    have hsapT := (sapOf_raise t .audioEvent p).trans hlane
    refine ⟨raise .audioEvent t, hexec, (congrArg Sap.blocksLost hsapT).trans (bump_four _ _), congrArg Sap.gapNext hsapT,
      (congrArg Sap.capProd hsapT).trans rfl, congrArg Sap.bseq hsapT, congrArg Sap.blockFrame hsapT, congrArg Sap.frames hsapT, fun hready => ?_, fun q hq => ?_, ?_⟩
    · rw [raise_audioEvent_ready (by rw [htframe]; exact hready), hport]
    · rw [sapOf_raise, ← ht, sapOf_modSap_ne _ _ hq]
    · rw [raise_audioEvent_frame, htframe]
  · simp only [exec, execUnderrun, show (sapOf s p).sent = [] from hsent]
  · simp only [exec, execUnderrun, show (sapOf s p).sent = f :: fs from hsent, hzero, if_true]
  · obtain ⟨frames, hexec, hlast⟩ := underrun_spec hsent hzero
    obtain ⟨t, ht⟩ : ∃ t, modSap s p (fun x =>
      { x with underrunFrames := bump 4 x.underrunFrames 1, sent := zeroFrame f :: fs, frames := frames x.frames }) = t := ⟨_, rfl⟩
    have hlane : sapOf t p = { x with underrunFrames := bump 4 x.underrunFrames 1, sent := zeroFrame f :: fs, frames := frames x.frames } := by
      rw [← ht, sapOf_modSap_same]
    have htframe : t = { s with saps := t.saps } := by rw [← ht]; rfl
    have hport : t.port = s.port := by rw [htframe]
    rw [ht] at hexec
    have hsapT := (sapOf_raise t .audioEvent p).trans hlane
    refine ⟨raise .audioEvent t, hexec, (congrArg Sap.underrunFrames hsapT).trans (bump_four _ _), congrArg Sap.sent hsapT, ?_,
      fun g gs hframes => (congrArg Sap.frames hsapT).trans ?_, fun q hq => ?_, fun hready => ?_, ?_⟩
    · rw [hsapT]
    · rw [← hlast g gs, ← hframes]
    · rw [sapOf_raise, ← ht, sapOf_modSap_ne _ _ hq]
    · rw [raise_audioEvent_ready (by rw [htframe]; exact hready), hport]
    · rw [raise_audioEvent_frame, htframe]
  · intro pin k clocked takes
    refine ⟨execPdmOverrun_stays, fun hpin hk hclk hplan => ?_⟩
    obtain ⟨start, hexec⟩ := execPdmOverrun_mutes hpin hk hclk hplan
    obtain ⟨c, hc⟩ : ∃ c, countLost pin k (countLost pin k s 0) 1 = c := ⟨_, rfl⟩
    have hcount := sapOf_countLost (s := s) (pin := pin) (k := k) hp
    have hframe : c = { s with saps := c.saps } := by rw [← hc, countLost_frame, countLost_frame]
    rw [hc] at hexec hcount
    rw [hunits] at hexec
    obtain ⟨stop, hstop⟩ : ∃ stop, some ((s.clocks.sc * 3750 : Nat) : Int) = stop := ⟨_, rfl⟩
    rw [hstop] at hexec ⊢
    have hfirst := muteSource_muted (s := c) (src := 512 + 2 * pin) (cause := .lost) (start := start) (stop := stop) p
    have hsecond := muteSource_muted (s := muteSource (512 + 2 * pin) .lost start stop c) (src := 512 + (2 * pin + 1)) (cause := .lost)
      (start := start) (stop := stop) p
    have hboth := hfirst.trans hsecond
    have hruns : sapRuns (sapOf c p) = sapRuns x := by rw [hcount]; rfl
    have htakes (src : Nat) : takesSource (sapOf c p) src = takesSource x src := by rw [hcount]; rfl
    refine ⟨_, hexec, ?_, ?_, ?_, ?_, fun m hm hrun htake => ?_⟩
    · rw [muteSource_frame, muteSource_frame, hframe]
    · rw [hboth.micLostFrames, hcount]
    · rw [hboth.sent, hcount]
    · rw [hboth.frames, hcount]
    · rcases (by omega : m = 2 * pin ∨ m = 2 * pin + 1) with rfl | rfl
      · obtain ⟨w, hw, hrest⟩ := muteSource_adds (cause := .lost) (start := start) (stop := stop) hp (hruns.trans hrun) ((htakes _).trans htake)
        exact ⟨w, hsecond.stretches w hw, hrest⟩
      · exact muteSource_adds hp (hfirst.runs.trans (hruns.trans hrun)) ((hfirst.takes _).trans ((htakes _).trans htake))
  · simp [exec, execMicSettle, hu, hdue]
  · simp [exec, execMicSettle, hu, hdue]
  · simp [exec, execMicSettle, hnone]
  · simp [exec, execMicSettle, hnone]

end Sys2Proof.Machine

/-!
PROOFS. Sessions and presence checks (O50): what serving a held path S, ending a session and a try's end change.
-/
namespace Sys2Proof.Machine

/-! The link with path S held (R369) -/

/-- Path S is held by a calibration with no window of the host, no frame in progress, and a CHALLENGE queued where a check runs. -/
structure Held (s : State) : Prop where
  due : NoneDue s
  active : activeTx s = none
  hostRx : s.link.hostRx = none
  cal : s.pathS.fe.state = .cal
  job : s.pathS.job ≠ none
  kicked : s.sessions.checks = [] ∨ s.link.txs.any isCheckTx = true

section
variable {s : State} (h : Held s)
include h

theorem Held.job_isSome : s.pathS.job.isSome = true := Option.isSome_iff_ne_none.mpr h.job

theorem Held.kickCheck : kickCheck s = s := by
  rcases h.kicked with hk | hk
  · simp [Machine.kickCheck, hk]
  · unfold Machine.kickCheck
    rw [hk]
    cases s.sessions.checks with
    | nil => rfl
    | cons c cs => simp

theorem Held.linkSteps (n : Nat) : linkSteps n s = s := by
  have hheld : pathSHeld s = true := by simp [pathSHeld, h.job_isSome]
  have hstep : linkStep s = none := by
    unfold linkStep
    rw [h.active]
    simp only [hheld, Bool.or_true, if_true]
    split <;> simp_all
  cases n with
  | zero => rfl
  | succ n => simp only [Machine.linkSteps, hstep]

/-- While path S is held, what waits for it waits on. -/
theorem Held.serve : serve s = s := by
  have hlock : s.pathS.fe.state ≠ .noLock := by rw [h.cal]; decide
  have hwin : serveWindows s = s := by simp [serveWindows, h.active, h.job_isSome]
  simp only [Machine.serve, startDue_none h.due, windowNoLock_locked hlock, h.kickCheck, h.linkSteps, hwin, trackPause_none h.hostRx]

end

theorem held_of_linkHeld {s : State} (h : LinkHeld s) : Held s := by
  obtain ⟨hdue, htx, hrx, hchecks, -, hcal, hjob⟩ := h
  exact ⟨hdue, by simp [activeTx, htx], hrx, hcal, hjob, .inl hchecks⟩

/-! Endpoints and release targets -/

theorem mem_tabSet {α : Type} {t : Tab α} {i : Nat} {x : α} {e : Nat × α} (h : e ∈ tabSet t i x) : e ∈ t ∨ e = (i, x) := by
  induction t with
  | nil => exact .inr (by simpa [tabSet] using h)
  | cons f t ih =>
    obtain ⟨k, v⟩ := f
    simp only [tabSet] at h
    split at h
    · rcases List.mem_cons.mp h with h | h
      · exact .inr h
      · exact .inl h
    split at h
    · rcases List.mem_cons.mp h with h | h
      · exact .inr h
      · exact .inl (List.mem_cons_of_mem _ h)
    · rcases List.mem_cons.mp h with h | h
      · exact .inl (h ▸ List.mem_cons_self ..)
      · exact (ih h).imp_left (List.mem_cons_of_mem _)

theorem watching_eq (s : State) : watching s = s.sessions.endpoints.any fun e => e.2.session && decide (e.2.windowEp < 128) := by
  simp [watching, activeSessions, List.any_filter]

/-- No endpoint watches a window sensor while none did and the one changed does not. -/
theorem watching_setEndpoint {s : State} (h : watching s = false) {n : Nat} {e : Endpoint} (he : e.session = true → 128 ≤ e.windowEp) :
    watching { s with sessions := { s.sessions with endpoints := tabSet s.sessions.endpoints n e } } = false := by
  rw [watching_eq, List.any_eq_false] at h ⊢
  intro f hf
  rcases mem_tabSet hf with hf | rfl
  · exact h f hf
  · simpa using he

theorem refreshTarget_idle {s : State} {k : Nat} (h : (targetOf s k).state = .idle) : refreshTarget k s = s := by
  unfold refreshTarget
  rw [h]

/-- With no release target armed, demand moves none. -/
theorem refreshDemand_none {s : State} (h : s.sessions.targets = []) : refreshDemand s = s := by
  have hidle (k : Nat) : refreshTarget k s = s := refreshTarget_idle (by rw [targetOf, h]; rfl)
  simp only [refreshDemand, forAll, List.foldl_cons, List.foldl_nil, hidle]

/-- A session event, raised or not (R449), changes its register alone. -/
theorem raise_sessionEvent_ready {s : State} (h : s.power.phase = .ready) :
    raise .sessionEvent s = { s with port := { s.port with irqStat1 := s.port.irqStat1 ||| 0x08 } } := by
  simp only [raise, ready, h]
  rfl

theorem raise_sessionEvent_frame (s : State) :
    raise .sessionEvent s = { s with port := { s.port with irqStat1 := (raise .sessionEvent s).port.irqStat1 } } := by
  by_cases h : s.power.phase = .ready
  · rw [raise_sessionEvent_ready h]
  · rw [raise_not_ready h]

/-- A session that ends, with no release target armed. -/
theorem endSession_ends {s : State} {n : Nat} (h : s.sessions.targets = []) (hsession : (endpointOf s n).session = true) (cause : Nat) :
    endSession n cause s = raise .sessionEvent (modEndpoint s n fun e => { e with session := false, demand := false, endCause := cause }) := by
  rw [endSession, if_pos hsession, refreshDemand_none]
  rw [raise_sessionEvent_frame]
  exact h

theorem endSession_none {s : State} {n : Nat} (hsession : (endpointOf s n).session = false) (cause : Nat) : endSession n cause s = s := by
  rw [endSession, if_neg (by rw [hsession]; decide)]

/-- Ending a session keeps a quiet link quiet. -/
theorem LinkQuiet.endSession {s : State} {n : Nat} (hq : LinkQuiet s) (h : s.sessions.targets = []) (cause : Nat) : LinkQuiet (endSession n cause s) := by
  cases hsession : (endpointOf s n).session with
  | false => rwa [endSession_none hsession]
  | true =>
    obtain ⟨hdue, htx, hrx, hchecks, hwatch, hoff⟩ := hq
    rw [endSession_ends h hsession, raise_sessionEvent_frame]
    exact ⟨hdue, htx, hrx, hchecks, watching_setEndpoint (n := n) hwatch (fun h => by cases h), hoff⟩

end Sys2Proof.Machine

/-!
PROOFS. Sessions and checks end (O50).
-/
namespace Sys2Proof.Machine

section
variable {s : State}

/-! Presence checks (R378, R380) -/

/-- The first check's CHALLENGE waits for path S, a fresh N_R drawn. -/
theorem kickCheck_pushes {k : Check} {ks : List Check} (hchecks : s.sessions.checks = k :: ks) (hopen : k.windowOpen = false) (htx : s.link.txs = []) :
    ∃ r, kickCheck s = { s with
      fresh := s.fresh + 1, link := { s.link with txs := [newTx (.check k.ep) k.margin] }
      sessions := { s.sessions with checks := { k with nonce := r, fail := 0 } :: ks } } := by
  have hnone : (k.windowOpen || s.link.txs.any isCheckTx) = false := by rw [hopen, htx]; rfl
  obtain ⟨r, htrng⟩ : ∃ r, trng s = (r, { s with fresh := s.fresh + 1 }) := ⟨_, rfl⟩
  refine ⟨r, ?_⟩
  simp only [kickCheck, hchecks, hnone, Bool.false_eq_true, if_false, htrng]
  simp only [pushTx, htx, List.nil_append]

/-- A check before its first try. -/
def newCheck (n : Nat) (purpose : CheckFor) (tries : Nat) (margin : Option Int) (key : List Byte) (eui : Nat) : Check :=
  { ep := n, purpose := purpose, nonce := 0, tries := 0, limit := tries, windowOpen := false, until_ := 0, tEnd := 0, fail := 0, margin := margin,
    key := key, eui := eui }

/-- A check that begins with no other under way. -/
theorem startCheck_first (htx : s.link.txs = []) (hchecks : s.sessions.checks = []) (n : Nat) (purpose : CheckFor) (tries : Nat) (margin : Option Int)
    (key : List Byte) (eui : Nat) : ∃ k : Check, startCheck n purpose tries margin key eui s = { s with
      fresh := s.fresh + 1, link := { s.link with txs := [newTx (.check n) margin] }
      sessions := { s.sessions with checks := [k], checkCount := min 65535 (s.sessions.checkCount + 1) } } ∧
    k.ep = n ∧ k.purpose = purpose ∧ k.eui = eui ∧ k.limit = tries := by
  obtain ⟨r, hkick⟩ := kickCheck_pushes (s := { s with sessions := { s.sessions with
    checks := s.sessions.checks ++ [newCheck n purpose tries margin key eui], checkCount := bump 2 s.sessions.checkCount 1 } })
    (k := newCheck n purpose tries margin key eui) (ks := []) (by rw [hchecks]; rfl) rfl htx
  exact ⟨{ newCheck n purpose tries margin key eui with nonce := r, fail := 0 }, hkick, rfl, rfl, rfl, rfl⟩

/-- A check that begins with path S held: its CHALLENGE waits. -/
theorem serve_startCheck (h : Held s) (htx : s.link.txs = []) (hchecks : s.sessions.checks = []) (n : Nat) (purpose : CheckFor) (tries : Nat)
    (margin : Option Int) (key : List Byte) (eui : Nat) : ∃ k : Check, serve (startCheck n purpose tries margin key eui s) = { s with
      fresh := s.fresh + 1, link := { s.link with txs := [newTx (.check n) margin] }
      sessions := { s.sessions with checks := [k], checkCount := min 65535 (s.sessions.checkCount + 1) } } ∧
    k.ep = n ∧ k.purpose = purpose ∧ k.eui = eui ∧ k.limit = tries := by
  obtain ⟨k, hstart, hk⟩ := startCheck_first htx hchecks n purpose tries margin key eui
  refine ⟨k, ?_, hk⟩
  rw [hstart]
  exact Held.serve ⟨h.due, rfl, h.hostRx, h.cal, h.job, .inr rfl⟩

theorem Held.modEndpoint (h : Held s) (n : Nat) (f : Endpoint → Endpoint) : Held (modEndpoint s n f) :=
  ⟨h.due, h.active, h.hostRx, h.cal, h.job, h.kicked⟩

end

/-! The shadow fields of an endpoint -/

theorem shadowGet_shadowSet_apart {c : Cellar} {a b k j v : Nat} (h : b + j ≤ a ∨ a + k ≤ b) : shadowGet (shadowSet c a k v) b j = shadowGet c b j := by
  unfold shadowGet shadowSet
  dsimp only
  rw [cellGets_eq_map, cellGets_eq_map]
  refine congrArg leNat (List.map_congr_left fun i hi => cellGet_cellPuts_out _ _ _ _ ?_)
  rw [length_leBytes]
  have := List.mem_range.mp hi
  omega

theorem epGet_epSet {s : State} (h : Memory.wf s.cellar.shadow = true) (n off k v : Nat) : epGet (epSet n off k v s) n off k = v % 256 ^ k :=
  shadowGet_shadowSet h _ _ _

theorem epGet_epSet_apart {s : State} {n off k v o j : Nat} (h : o + j ≤ off ∨ off + k ≤ o) : epGet (epSet n off k v s) n o j = epGet s n o j :=
  shadowGet_shadowSet_apart (by omega)

theorem epSet_frame (n off k v : Nat) (s : State) : epSet n off k v s = { s with cellar := { s.cellar with
    shadow := (epSet n off k v s).cellar.shadow, written := (epSet n off k v s).cellar.written, dirty := (epSet n off k v s).cellar.dirty } } := rfl

/-! The end of a try -/

section
variable {s : State} {k : Check}

/-- A try without a RESPONSE is counted. -/
theorem countNoResp_spec (hwf : Memory.wf s.cellar.shadow = true) (n : Nat) : epGet (countNoResp n s) n 10 2 = min 65535 (epGet s n 10 2 + 1) ∧
    epGet (countNoResp n s) n 8 2 = epGet s n 8 2 := by
  refine ⟨(epGet_epSet hwf _ _ _ _).trans ?_, epGet_epSet_apart (by decide)⟩
  rw [bump_two]
  omega

/-- A try without a RESPONSE is followed by another while tries are left (R380). -/
theorem windowEnds_tries (hchecks : s.sessions.checks = [k]) (hfail : k.fail = 0) (htx : s.link.txs = []) (hleft : k.tries + 1 < k.limit) : ∃ r,
    windowEnds s = { countNoResp k.ep s with
      fresh := s.fresh + 1, link := { s.link with txs := [newTx (.check k.ep) k.margin] }
      sessions := { s.sessions with checks := [{ k with tries := k.tries + 1, windowOpen := false, nonce := r, fail := 0 }] } } := by
  obtain ⟨r, hkick⟩ := kickCheck_pushes (s := { countNoResp k.ep s with sessions := { s.sessions with
    checks := [{ k with tries := k.tries + 1, windowOpen := false }] } }) rfl rfl htx
  refine ⟨r, Eq.trans ?_ hkick⟩
  simp only [windowEnds, hchecks, hfail, if_true, tryEnds]
  exact if_pos (by simp [hleft])

theorem recordCheck_unmeasured (n status : Nat) : ∃ rtt rssi at_, recordCheck n status none s = { modEndpoint s n (fun e =>
    { e with lastResult := status, lastRtt := rtt, lastRssi := rssi, lastCheckS := at_ }) with fresh := s.fresh + 2 } := ⟨_, _, _, rfl⟩

theorem dropTx_none (h : s.link.txs = []) (p : TxJob → Bool) : dropTx p s = s := by
  have hlink : ({ s.link with txs := [] } : Link) = s.link := by rw [← h]
  rw [dropTx, h, List.filter_nil, hlink]

/-- The last check that ends leaves none. -/
theorem popCheck_last (htx : s.link.txs = []) (hchecks : s.sessions.checks = [k]) :
    popCheck s = { s with sessions := { s.sessions with checks := [] } } := by
  rw [popCheck, dropTx_none htx, hchecks]
  rfl

/-- A periodic check that ends without a measurement records its result. -/
theorem finishCheck_periodic (hchecks : s.sessions.checks = [k]) (htx : s.link.txs = []) (hpurpose : k.purpose = .periodic) (status : Nat)
    (result : List Byte) : ∃ rtt rssi at_, finishCheck status result none s =
      { modEndpoint s k.ep (fun e => { e with lastResult := status, lastRtt := rtt, lastRssi := rssi, lastCheckS := at_ }) with
        fresh := s.fresh + 2
        sessions := { s.sessions with
          endpoints := (modEndpoint s k.ep fun e => { e with lastResult := status, lastRtt := rtt, lastRssi := rssi, lastCheckS := at_ }).sessions.endpoints
          checks := [] } } := by
  obtain ⟨rtt, rssi, at_, hrecord⟩ := recordCheck_unmeasured (s := s) k.ep status
  refine ⟨rtt, rssi, at_, ?_⟩
  have hserve (t : State) : serveCheck k status result none t = t := by simp only [serveCheck, hpurpose]
  simp only [finishCheck, hchecks, hserve, hrecord]
  exact popCheck_last htx hchecks

/-- The last try of a periodic check without a RESPONSE records NO_RESPONSE (R380, R383). -/
theorem windowEnds_last (hchecks : s.sessions.checks = [k]) (hfail : k.fail = 0) (htx : s.link.txs = []) (hlast : k.limit ≤ k.tries + 1)
    (hpurpose : k.purpose = .periodic) : ∃ rtt rssi at_, windowEnds s = { modEndpoint (countNoResp k.ep s) k.ep (fun e =>
        { e with lastResult := 0x60, lastRtt := rtt, lastRssi := rssi, lastCheckS := at_ }) with
      fresh := s.fresh + 2
      sessions := { s.sessions with
        endpoints := (modEndpoint (countNoResp k.ep s) k.ep fun e =>
          { e with lastResult := 0x60, lastRtt := rtt, lastRssi := rssi, lastCheckS := at_ }).sessions.endpoints
        checks := [] } } := by
  obtain ⟨rtt, rssi, at_, hfinish⟩ := finishCheck_periodic (s := { countNoResp k.ep s with sessions := { s.sessions with
    checks := [{ k with tries := k.tries + 1, windowOpen := false }] } }) (k := { k with tries := k.tries + 1, windowOpen := false }) rfl htx hpurpose 0x60
    [lowByte (k.tries + 1), lowByte k.ep]
  refine ⟨rtt, rssi, at_, Eq.trans ?_ hfinish⟩
  simp only [windowEnds, hchecks, hfail, if_true, tryEnds]
  exact if_neg (by simp [hlast])

end

/-! The events -/

section
variable {s : State} {n : Nat}

theorem execSessionTimeout_due (hsession : (endpointOf s n).session = true) (hdue : (endpointOf s n).expires * 2 ^ 24 < s.clocks.sc) :
    exec (.sessionTimeout n) s = .next (serve (endSession n 1 s)) := by
  have hcps : countsPerSecond = 2 ^ 24 := rfl
  simp only [exec, execSessionTimeout, hcps, hsession, decide_eq_true hdue, Bool.and_self, if_true]

theorem execSessionTimeout_early (hearly : s.clocks.sc ≤ (endpointOf s n).expires * 2 ^ 24) : exec (.sessionTimeout n) s = .next s := by
  have hcps : countsPerSecond = 2 ^ 24 := rfl
  simp only [exec, execSessionTimeout, hcps, decide_eq_false (Nat.not_lt.mpr hearly), Bool.and_false, Bool.false_eq_true, if_false]

theorem execSessionCheck_early (hearly : s.clocks.sc / 2 ^ 24 < (endpointOf s n).nextCheck) (m : Int) : exec (.sessionCheck n m) s = .next s := by
  have hcps : countsPerSecond = 2 ^ 24 := rfl
  simp only [exec, execSessionCheck, counterSeconds, hcps, decide_eq_false (Nat.not_le.mpr hearly), Bool.and_false, Bool.false_eq_true, if_false]

theorem execSessionCheck_due (hsession : (endpointOf s n).session = true) (hdue : (endpointOf s n).nextCheck ≤ s.clocks.sc / 2 ^ 24) (m : Int) :
    exec (.sessionCheck n m) s = .next (serve (checkRecordOf n .periodic m (modEndpoint s n fun e => { e with nextCheck := e.nextCheck + e.checkPeriod }))) := by
  have hcps : countsPerSecond = 2 ^ 24 := rfl
  simp only [exec, execSessionCheck, counterSeconds, hcps, hsession, decide_eq_true hdue, Bool.and_self, if_true]

theorem execResponseTimeout_due {k : Check} (hchecks : s.sessions.checks = [k]) (hopen : k.windowOpen = true) (hdue : k.until_ ≤ s.clocks.sc) :
    exec .responseTimeout s = .next (serve (windowEnds s)) := by
  simp only [exec, execResponseTimeout, hchecks, hopen, decide_eq_true hdue, Bool.and_self, if_true]

/-- The window input ends the sessions that name it: here the only endpoint's. -/
theorem endSessions_single {e : Endpoint} (hends : s.sessions.endpoints = [(n, e)]) (hsession : e.session = true) (cause : Nat)
    (which : Nat × Endpoint → Bool) : endSessions cause which s = if which (n, e) then endSession n cause s else s := by
  have hactive : activeSessions s = [(n, e)] := by simp [activeSessions, hends, hsession]
  rw [endSessions, hactive]
  cases h : which (n, e) <;> simp [h, forAll]

end

theorem execWinOpen_opens {s : State} (hvio : s.power.vioValid = true) (hready : s.power.phase = .ready) : ∃ u,
    u = { s with sessions := { s.sessions with winPin := true } } ∧
      exec (.winOpen true) s = .next (serve (endSessions 2 (fun e => e.2.useWinPin) u)) := by
  have hcond : (true && ready { s with sessions := { s.sessions with winPin := true } }) = true := by
    rw [ready, hready]
    rfl
  exact ⟨_, rfl, by simp only [exec, execWinOpen, hvio, hcond, if_true]⟩

/-- Settles O50. -/
theorem sessionsAndChecksEnd : Obligations.SessionsAndChecksEnd := by
  intro s htargets
  refine ⟨fun n m hsession => ⟨fun hdue hheld => ?_, fun hearly => execSessionCheck_early hearly m, fun hdue hquiet => ?_, execSessionTimeout_early⟩,
    fun level => ⟨fun hvio => ?_, fun hvio hlevel => ?_, fun n e hvio hlevel hready hquiet hends hsession => ?_⟩,
    fun k hchecks htx hrx hwatch hjob hcal hnone hwf hk => ⟨fun hearly => ?_, fun hopen hdue hfail =>
      ⟨fun hleft => ?_, fun hlast hpurpose => ?_⟩⟩⟩
  · obtain ⟨u, hu⟩ : ∃ u, modEndpoint s n (fun e => { e with nextCheck := e.nextCheck + e.checkPeriod }) = u := ⟨_, rfl⟩
    have hep : endpointOf u n = { endpointOf s n with nextCheck := (endpointOf s n).nextCheck + (endpointOf s n).checkPeriod } := by
      rw [← hu]
      exact endpointOf_modEndpoint_same ..
    have hlink : u.link.txs = [] := by rw [← hu]; exact hheld.2.1
    have hchecks : u.sessions.checks = [] := by rw [← hu]; exact hheld.2.2.2.1
    obtain ⟨k, hserve, hk, hpurpose, -, -⟩ := serve_startCheck (hu ▸ (held_of_linkHeld hheld).modEndpoint ..) hlink hchecks n .periodic
      (endpointOf u n).checkTries (some m) (epKey u n) (endpointOf u n).eui
    rw [execSessionCheck_due hsession hdue, hu, checkRecordOf, hserve]
    exact ⟨_, rfl, rfl, hep, by rw [List.map_singleton, hk, hpurpose]⟩
  · rw [execSessionTimeout_due hsession hdue, serve_quiet (hquiet.endSession htargets 1), endSession_ends htargets hsession]
    refine ⟨_, rfl, ?_, fun hready => ?_, ?_⟩
    · rw [raise_sessionEvent_frame]
      exact endpointOf_modEndpoint_same ..
    · rw [raise_sessionEvent_ready (by exact hready)]
      rfl
    · rw [raise_sessionEvent_frame]
      rfl
  · exact if_neg (by rw [hvio]; decide)
  · simp only [exec, execWinOpen, hvio, hlevel, if_true, Bool.false_and, Bool.false_eq_true, if_false]
  · obtain ⟨u, hu, hclosed⟩ := execWinOpen_opens hvio hready
    have huse : u.sessions.targets = [] := by rw [hu]; exact htargets
    have hq : LinkQuiet u := by rw [hu]; exact hquiet
    have hready' : u.power.phase = .ready := by rw [hu]; exact hready
    have hends' : u.sessions.endpoints = [(n, e)] := by rw [hu]; exact hends
    have hep : endpointOf u n = e := by simp [endpointOf, hends', tabGet]
    rw [endSessions_single hends' hsession] at hclosed
    rw [hlevel, hclosed]
    cases hpin : e.useWinPin with
    | false =>
      simp only [Bool.false_eq_true, if_false, serve_quiet hq]
      refine ⟨u, rfl, by rw [hu], hep, fun h => h.elim, by rw [hu]⟩
    | true =>
      simp only [if_true]
      rw [serve_quiet (hq.endSession huse 2), endSession_ends huse (by rw [hep]; exact hsession), raise_sessionEvent_ready (by exact hready')]
      refine ⟨_, rfl, by rw [hu]; rfl, ?_, fun _ => by rw [hu]; rfl, by rw [hu]; rfl⟩
      exact (endpointOf_modEndpoint_same ..).trans (by rw [hep, ← hpin])
  · simp only [exec, execResponseTimeout, hchecks]
    refine congrArg Host.Outcome.next (if_neg ?_)
    rw [Bool.and_eq_true, not_and]
    rcases hearly with h | h
    · exact fun ho => by rw [h] at ho; cases ho
    · exact fun _ hd => absurd (of_decide_eq_true hd) (Nat.not_le.mpr h)
  · obtain ⟨r, hends⟩ := windowEnds_tries hchecks hfail htx hleft
    obtain ⟨hcount, -⟩ := countNoResp_spec hwf k.ep
    obtain ⟨v, hv⟩ : ∃ v, windowEnds s = v := ⟨_, rfl⟩
    rw [hv] at hends
    have hheld : Held v := by rw [hends]; exact ⟨hnone, rfl, hrx, hcal, hjob, .inr rfl⟩
    rw [execResponseTimeout_due hchecks hopen hdue, hv, hheld.serve]
    exact ⟨v, rfl, by rw [hends], by rw [hends]; rfl, by rw [hends]; exact hcount, by rw [hends]; rfl⟩
  · obtain ⟨rtt, rssi, at_, hends⟩ := windowEnds_last hchecks hfail htx hlast hpurpose
    obtain ⟨hcount, hfails⟩ := countNoResp_spec hwf k.ep
    obtain ⟨v, hv⟩ : ∃ v, windowEnds s = v := ⟨_, rfl⟩
    rw [hv] at hends
    have hactive : activeTx s = none := by simp [activeTx, htx]
    have hheld : Held v := by rw [hends]; exact ⟨hnone, hactive, hrx, hcal, hjob, .inl rfl⟩
    have hep := endpointOf_modEndpoint_same (countNoResp k.ep s) k.ep fun e =>
      { e with lastResult := 0x60, lastRtt := rtt, lastRssi := rssi, lastCheckS := at_ }
    rw [execResponseTimeout_due hchecks hopen hdue, hv, hheld.serve]
    refine ⟨v, rfl, by rw [hends]; exact htx, by rw [hends], ?_, ?_, by rw [hends]; exact hcount, by rw [hends]; exact hfails, by rw [hends]; rfl⟩
    · rw [hends]
      exact Eq.trans (b := (endpointOf (modEndpoint (countNoResp k.ep s) k.ep _) k.ep).lastResult) rfl (congrArg Endpoint.lastResult hep)
    · rw [hends]
      exact Eq.trans (b := (endpointOf (modEndpoint (countNoResp k.ep s) k.ep _) k.ep).session) rfl ((congrArg Endpoint.session hep).trans rfl)

end Sys2Proof.Machine

/-!
PROOFS. Release targets (O51): the commands of Table 17-3 and the events of their schedule.
-/
namespace Sys2Proof.Machine

theorem sessionMode_mem {s : State} (h3 : 3 ≤ s.modes.modeNow) (h6 : s.modes.modeNow ≤ 6) : s.modes.modeNow ∈ sessionModes := by
  simp only [sessionModes, List.mem_cons, List.not_mem_nil, or_false]
  omega

theorem modTarget_modTarget (s : State) (k : Nat) (f g : Target → Target) : modTarget (modTarget s k f) k g = modTarget s k fun t => g (f t) := by
  unfold modTarget tabMod
  rw [tabGet_tabSet_same, tabSet_tabSet]

/-- A target that is set from itself alone. -/
theorem modTarget_const (s : State) (k : Nat) (f : Target → Target) : modTarget s k f = modTarget s k fun _ => f (targetOf s k) := rfl

/-- A frame queued while path S is held waits. -/
theorem serve_pushTx {s : State} (h : Held s) (htx : s.link.txs = []) (hchecks : s.sessions.checks = []) (owner : Owner) (margin : Option Int) :
    serve (pushTx (newTx owner margin) s) = { s with link := { s.link with txs := [newTx owner margin] } } := by
  have hpush : pushTx (newTx owner margin) s = { s with link := { s.link with txs := [newTx owner margin] } } := by rw [pushTx, htx, List.nil_append]
  rw [hpush]
  exact Held.serve ⟨h.due, rfl, h.hostRx, h.cal, h.job, .inl hchecks⟩

theorem Held.modTarget {s : State} (h : Held s) (k : Nat) (f : Target → Target) : Held (modTarget s k f) :=
  ⟨h.due, h.active, h.hostRx, h.cal, h.job, h.kicked⟩

theorem Held.runs {s : State} (h : Held s) (seq : Nat) : Held (runs s seq) := ⟨runs_noneDue h.due seq, h.active, h.hostRx, h.cal, h.job, h.kicked⟩

theorem LinkQuiet.runs {s : State} (h : LinkQuiet s) (seq : Nat) : LinkQuiet (runs s seq) := ⟨runs_noneDue h.1 seq, h.2⟩

theorem LinkQuiet.modTarget {s : State} (h : LinkQuiet s) (k : Nat) (f : Target → Target) : LinkQuiet (modTarget s k f) := h

/-! RELEASE_START (R386, R387) -/

/-- The fields that RELEASE_START stores. -/
def releaseFields (c : Cmd) (x : Target) : Target :=
  { x with ep := par c 8, requireSession := par c 9 == 1, level := par c 10, interval := if parN c 12 2 = 0 then 120 else parN c 12 2 }

/-- A RELEASE_START of a target whose parameters and endpoint pass the checks. -/
structure MayRelease (s : State) (c : Cmd) (k : Nat) : Prop where
  mode : 3 ≤ s.modes.modeNow ∧ s.modes.modeNow ≤ 6
  ep : par c 8 < 128
  session : par c 9 < 2
  level : par c 10 ≤ 100
  zero : par c 11 = 0
  interval : parN c 12 2 = 0 ∨ (60 ≤ parN c 12 2 ∧ parN c 12 2 ≤ 600)
  zeros : ZeroBytes c 14 31
  paired : (endpointOf s (par c 8)).paired = true
  role : (endpointOf s (par c 8)).role = 3
  epoch : s.modes.epochOk = true
  counter : txLow s (par c 8) < 0xFFFFFF
  alone : ∀ j, j < 4 → j ≠ k → armed (targetOf s j) = true → (targetOf s j).ep ≠ par c 8

section
variable {s : State} {seq : Nat} {c : Cmd}

theorem execReleaseStart_runs (hr : MayRun s seq 0x42 c) (hn : Names c 9) (h : MayRelease s c (cmdIdx c)) :
    exec (.releaseStart seq) s = .next (runReleaseStart (runs s seq) c) := by
  refine congrArg Host.Outcome.next (startCmd_runs runReleaseStart hr.1 ?_)
  have hinterval : (parN c 12 2 == 0 || (decide (60 ≤ parN c 12 2) && decide (parN c 12 2 ≤ 600))) = true := by simpa using h.interval
  have halone : (!List.any [0, 1, 2, 3] fun j => j != cmdIdx c && armed (targetOf s j) && (targetOf s j).ep == par c 8) = true := by
    rw [Bool.not_eq_true', List.any_eq_false]
    intro j hj hall
    simp only [Bool.and_eq_true, bne_iff_ne, beq_iff_eq] at hall
    obtain ⟨⟨hne, harmed⟩, hep⟩ := hall
    exact h.alone j (by simp at hj; omega) hne harmed hep
  simp only [checkReleaseStart, List.cons_append, List.append_assoc]
  refine checks_pass hn rfl hr.2 ?_
  simp only [List.nil_append, List.forall_mem_cons, List.forall_mem_append, needField_eq_none, needMode_eq_none, needState_eq_none, needPaired,
    decide_eq_true_eq, hinterval, halone, h.paired, h.role, h.epoch]
  exact ⟨h.ep, h.session, h.level, needZeros_none (zeroBytes_single h.zero), trivial, needZeros_none h.zeros,
    sessionMode_mem h.mode.1 h.mode.2, trivial, rfl, trivial, h.counter, trivial, fun _ h => by cases h⟩

theorem roundUp_spec (n : Nat) {d : Nat} (hd : 0 < d) : n ≤ (n + d - 1) / d * d ∧ (n + d - 1) / d * d < n + d := by
  have hmod := Nat.mod_lt (n + d - 1) hd
  have hdiv := Nat.div_add_mod' (n + d - 1) d
  omega

/-- The first due time: a whole second at least 20 ms on, 250 ms later for each target (R387). -/
theorem firstDue_spec (s : State) {k : Nat} (hk : k < 4) : firstDue s k % 2 ^ 24 = 2 ^ 22 * k ∧
    50 * s.clocks.sc + 2 ^ 24 ≤ 50 * (firstDue s k - 2 ^ 22 * k) ∧
    50 * (firstDue s k - 2 ^ 22 * k) < 50 * s.clocks.sc + 2 ^ 24 + 50 * 2 ^ 24 := by
  have hdue : ∃ q, firstDue s k = q * countsPerSecond + 2 ^ 22 * k ∧ 50 * s.clocks.sc + countsPerSecond ≤ q * (50 * countsPerSecond) ∧
      q * (50 * countsPerSecond) < 50 * s.clocks.sc + countsPerSecond + 50 * countsPerSecond :=
    ⟨_, rfl, roundUp_spec (50 * s.clocks.sc + countsPerSecond) (by decide)⟩
  have hcps : countsPerSecond = 2 ^ 24 := rfl
  rw [hcps] at hdue
  obtain ⟨q, hq, hlow, hhigh⟩ := hdue
  rw [hq]
  refine ⟨?_, ?_, ?_⟩
  · rw [Nat.mul_add_mod', Nat.mod_eq_of_lt (by omega)]
  · omega
  · omega

theorem bit_of_le_one {n : Nat} (h : n < 2) : bit n 0 = (n == 1) := by
  rcases (by omega : n = 0 ∨ n = 1) with rfl | rfl <;> rfl

/-- The target's fields are stored before anything else. -/
theorem runReleaseStart_stores (h9 : par c 9 < 2) : modTarget s (cmdIdx c) (fun t => { t with
      ep := par c 8, requireSession := bit (par c 9) 0, level := par c 10, interval := if parN c 12 2 = 0 then 120 else parN c 12 2 }) =
    modTarget s (cmdIdx c) fun _ => releaseFields c (targetOf s (cmdIdx c)) := by
  rw [bit_of_le_one h9]
  rfl

/-- A target that is armed keeps its schedule, its fields changed. -/
theorem runReleaseStart_armed (h9 : par c 9 < 2) (harmed : armed (targetOf s (cmdIdx c)) = true) : runReleaseStart s c =
    serve (refreshDemand (complete c.seq 0x00 [2] (modTarget s (cmdIdx c) fun _ => releaseFields c (targetOf s (cmdIdx c))))) := by
  rw [runReleaseStart]
  dsimp only
  rw [harmed, runReleaseStart_stores h9, if_pos rfl]

/-- A target that was not armed waits, or starts its schedule where demand stands. -/
theorem runReleaseStart_unarmed (h9 : par c 9 < 2) (harmed : armed (targetOf s (cmdIdx c)) = false) : ∃ u,
    modTarget s (cmdIdx c) (fun _ => { releaseFields c (targetOf s (cmdIdx c)) with state := .waiting }) = u ∧
      runReleaseStart s c = if hasDemand u (cmdIdx c) then startSchedule (cmdIdx c) u else complete c.seq 0x00 [1] u := by
  obtain ⟨u, hu⟩ : ∃ u, modTarget s (cmdIdx c) (fun _ => { releaseFields c (targetOf s (cmdIdx c)) with state := .waiting }) = u := ⟨_, rfl⟩
  have hwaits : modTarget (modTarget s (cmdIdx c) fun _ => releaseFields c (targetOf s (cmdIdx c))) (cmdIdx c)
      (fun t => { t with state := .waiting }) = u := by rw [modTarget_modTarget, ← hu]
  refine ⟨u, hu, ?_⟩
  rw [runReleaseStart]
  dsimp only
  rw [harmed, runReleaseStart_stores h9, hwaits, if_neg (by decide)]

/-- A sending target with demand stands as it is. -/
theorem refreshTarget_sending {k : Nat} (h : (targetOf s k).state = .sending) (hdemand : hasDemand s k = true) : refreshTarget k s = s := by
  unfold refreshTarget
  rw [h, hdemand]

/-! RELEASE_STOP -/

theorem execReleaseStop_runs (hr : MayRun s seq 0x43 c) (hn : Names c 9) (h3 : 3 ≤ s.modes.modeNow) (h6 : s.modes.modeNow ≤ 6) (hz : ZeroBytes c 9 31)
    (h8 : par c 8 < 2) (m : Int) : exec (.releaseStop seq m) s = .next (runReleaseStop m (runs s seq) c) := by
  refine congrArg Host.Outcome.next (startCmd_runs (runReleaseStop m) hr.1 ?_)
  simp only [checkReleaseStop, List.cons_append, List.append_assoc]
  refine checks_pass hn rfl hr.2 ?_
  simp only [List.nil_append, List.forall_mem_cons, List.forall_mem_append, needField_eq_none, needMode_eq_none, decide_eq_true_eq]
  exact ⟨h8, needZeros_none hz, sessionMode_mem h3 h6, fun _ h => by cases h⟩

theorem disarm_quiet (h : s.link.txs = []) (k : Nat) : disarm k s = modTarget s k fun t => { t with state := .idle, retry := false, denied := false } := by
  rw [disarm, dropTx_none (by exact h)]

/-! The events of the schedule (R388) -/

theorem frameUnderWay_none (h : s.link.txs = []) (k : Nat) : frameUnderWay s k = false := by rw [frameUnderWay, h]; rfl

section
variable {k : Nat}

theorem execRelease_not_sending (h : (targetOf s k).state ≠ .sending) : (∀ m, exec (.releaseDue k m) s = .next s) ∧
    exec (.releaseRetry k) s = .next s ∧ exec (.releaseSkip k) s = .next s := by
  have hstate : ((targetOf s k).state == .sending) = false := by simpa using h
  refine ⟨fun m => ?_, ?_, ?_⟩
  · simp only [exec, execReleaseDue, hstate, Bool.false_and, Bool.false_eq_true, if_false]
  · simp only [exec, execReleaseRetry, hstate, Bool.false_and, Bool.false_eq_true, if_false]
  · simp only [exec, execReleaseSkip, hstate, Bool.false_and, Bool.false_eq_true, if_false]

theorem execReleaseDue_sends (hstate : (targetOf s k).state = .sending) (hretry : (targetOf s k).retry = false) (hdenied : (targetOf s k).denied = false)
    (htx : s.link.txs = []) (hdue : (targetOf s k).nextDue ≤ s.clocks.sc + microsCounts 20000) (m : Int) :
    exec (.releaseDue k m) s = .next (serve (pushTx (newTx (.release k false) (some m)) s)) := by
  have hsend : ((targetOf s k).state == .sending) = true := by simpa using hstate
  simp only [exec, execReleaseDue, hsend, hretry, hdenied, frameUnderWay_none htx, decide_eq_true hdue, Bool.not_false, Bool.and_self, if_true]

theorem execReleaseDue_early (hearly : s.clocks.sc + microsCounts 20000 < (targetOf s k).nextDue) (m : Int) : exec (.releaseDue k m) s = .next s := by
  simp only [exec, execReleaseDue, decide_eq_false (Nat.not_le.mpr hearly), Bool.and_false, Bool.false_eq_true, if_false]

theorem execReleaseRetry_sends (hstate : (targetOf s k).state = .sending) (hretry : (targetOf s k).retry = true)
    (hdue : (targetOf s k).retryAt ≤ s.clocks.sc) (htx : s.link.txs = []) : exec (.releaseRetry k) s = .next (serve (pushTx
      (newTx (.release k false) none) (modTarget s k fun t => { t with retry := false, busyRetries := bump 2 t.busyRetries 1 }))) := by
  have hsend : ((targetOf s k).state == .sending) = true := by simpa using hstate
  simp only [exec, execReleaseRetry, hsend, hretry, frameUnderWay_none htx, decide_eq_true hdue, Bool.not_false, Bool.and_self, if_true]

theorem execReleaseRetry_waits (h : (targetOf s k).retry = false ∨ s.clocks.sc < (targetOf s k).retryAt) : exec (.releaseRetry k) s = .next s := by
  rcases h with h | h
  · simp only [exec, execReleaseRetry, h, Bool.and_false, Bool.false_and, Bool.false_eq_true, if_false]
  · simp only [exec, execReleaseRetry, decide_eq_false (Nat.not_le.mpr h), Bool.and_false, Bool.false_and, Bool.false_eq_true, if_false]

theorem execReleaseSkip_early (h : s.clocks.sc < (targetOf s k).nextDue + (targetOf s k).interval * 2 ^ 24 / 2) : exec (.releaseSkip k) s = .next s := by
  have hcps : countsPerSecond = 2 ^ 24 := rfl
  simp only [exec, execReleaseSkip, hcps, decide_eq_false (Nat.not_le.mpr h), Bool.and_false, Bool.false_eq_true, if_false]

end

end

end Sys2Proof.Machine

/-!
PROOFS. Releases follow their schedule (O51).
-/
namespace Sys2Proof.Machine

theorem raise_releaseEvent_ready {s : State} (h : s.power.phase = .ready) :
    raise .releaseEvent s = { s with port := { s.port with irqStat1 := s.port.irqStat1 ||| 0x10 } } := by
  simp only [raise, ready, h]
  rfl

theorem raise_releaseEvent_frame (s : State) :
    raise .releaseEvent s = { s with port := { s.port with irqStat1 := (raise .releaseEvent s).port.irqStat1 } } := by
  by_cases h : s.power.phase = .ready
  · rw [raise_releaseEvent_ready h]
  · rw [raise_not_ready h]

section
variable {s : State} {k : Nat}

theorem jitter_spec (t : Target) (s : State) : ∃ j, jitter t s = (j, { s with fresh := s.fresh + 1 }) ∧
    (0 < t.interval → j < t.interval * 2 ^ 24 / 16) := by
  have hcps : countsPerSecond = 2 ^ 24 := rfl
  obtain ⟨r, htrng⟩ : ∃ r, trng s = (r, { s with fresh := s.fresh + 1 }) := ⟨_, rfl⟩
  refine ⟨r % (t.interval * 2 ^ 24 / 16), ?_, fun h => Nat.mod_lt _ (by omega)⟩
  simp only [jitter, htrng, hcps]

/-- The next due time: an interval on, and a draw below a sixteenth of one (R388). -/
theorem nextDueTime_spec : ∃ j, nextDueTime k s = modTarget { s with fresh := s.fresh + 1 } k (fun t =>
      { t with nextDue := t.nextDue + t.interval * 2 ^ 24 + j, retry := false, denied := false }) ∧
    (0 < (targetOf s k).interval → j < (targetOf s k).interval * 2 ^ 24 / 16) := by
  have hcps : countsPerSecond = 2 ^ 24 := rfl
  obtain ⟨j, hj, hlt⟩ := jitter_spec (targetOf s k) s
  refine ⟨j, ?_, hlt⟩
  simp only [nextDueTime, hj, hcps]

/-- A due time that is skipped: counted, and the next one set. -/
theorem execReleaseSkip_skips (hstate : (targetOf s k).state = .sending) (htx : s.link.txs = [])
    (hdue : (targetOf s k).nextDue + (targetOf s k).interval * 2 ^ 24 / 2 ≤ s.clocks.sc) : ∃ misses u j,
    modTarget s k (fun t => { t with missed := bump 2 t.missed 1, dutyMisses := misses }) = u ∧
    exec (.releaseSkip k) s = .next (serve (raise .releaseEvent (modTarget { u with
      sessions := { u.sessions with skips := bump 2 u.sessions.skips 1 }, fresh := s.fresh + 1 } k fun t =>
        { t with nextDue := t.nextDue + t.interval * 2 ^ 24 + j, retry := false, denied := false }))) ∧
    (0 < (targetOf s k).interval → j < (targetOf s k).interval * 2 ^ 24 / 16) := by
  have hcps : countsPerSecond = 2 ^ 24 := rfl
  have hcond : ((targetOf s k).state == .sending && !releaseOnAir s k &&
      decide ((targetOf s k).nextDue + (targetOf s k).interval * 2 ^ 24 / 2 ≤ s.clocks.sc)) = true := by
    rw [hstate, releaseOnAir, htx, decide_eq_true hdue]
    rfl
  obtain ⟨misses, hmisses⟩ : ∃ m, bump 2 (targetOf s k).dutyMisses (flagNat ((targetOf s k).denied && (targetOf s k).lastStatus == 0x40)) = m := ⟨_, rfl⟩
  obtain ⟨u, hu⟩ : ∃ u, modTarget s k (fun t => { t with missed := bump 2 t.missed 1, dutyMisses := misses }) = u := ⟨_, rfl⟩
  have hcounted : modTarget s k (fun t => { t with
      missed := bump 2 t.missed 1, dutyMisses := bump 2 t.dutyMisses (flagNat (t.denied && t.lastStatus == 0x40)) }) = u := by
    rw [← hu, ← hmisses]
    rfl
  obtain ⟨v, hv⟩ : ∃ v, { u with sessions := { u.sessions with skips := bump 2 u.sessions.skips 1 } } = v := ⟨_, rfl⟩
  obtain ⟨j, hnext, hlt⟩ := nextDueTime_spec (s := v) (k := k)
  have hsame : targetOf v k = targetOf u k := by rw [← hv]; rfl
  have hinterval : (targetOf v k).interval = (targetOf s k).interval := by rw [hsame, ← hu, targetOf_modTarget_same]
  refine ⟨misses, u, j, hu, ?_, by rwa [hinterval] at hlt⟩
  simp only [exec, execReleaseSkip, hcps, hcond, if_true, dropTx_none htx, hcounted, hv, hnext]
  rw [← hv, ← hu]
  rfl

end

/-- Settles O51. -/
theorem releasesFollowTheirSchedule : Obligations.ReleasesFollowTheirSchedule := by
  intro s k hk x
  refine ⟨?_, ?_, fun hstate => ⟨fun m hretry hdenied hheld => ⟨fun hdue => ?_, fun hearly => execReleaseDue_early hearly m⟩,
    fun hretry hdue hheld => ?_, execReleaseRetry_waits, execReleaseSkip_early, fun hdue hquiet => ?_⟩, execRelease_not_sending⟩
  · rintro seq c hr hn rfl h3 h6 h8 h9 h10 h11 h12 hz hpaired hrole hepoch hlow halone y
    have hmay : MayRelease s c (cmdIdx c) := ⟨⟨h3, h6⟩, h8, h9, h10, h11, h12, hz, hpaired, hrole, hepoch, hlow, halone⟩
    have hexec := execReleaseStart_runs hr hn hmay
    refine ⟨fun harmed hfree => ?_, fun harmed hwith hnone => ?_, fun hsending hfree htargets hquiet => ?_⟩
    · obtain ⟨u, hu, hrun⟩ := runReleaseStart_unarmed (s := runs s seq) h9 harmed
      have htarget : targetOf u (cmdIdx c) = { releaseFields c x with state := .waiting } := by
        rw [← hu]
        exact targetOf_modTarget_same ..
      have hdemand : hasDemand u (cmdIdx c) = true := by
        rw [hasDemand, htarget, releaseFields, hfree]
        rfl
      refine ⟨firstDue u (cmdIdx c), ?_, ?_⟩
      · rw [hexec, hrun, if_pos hdemand, startSchedule, ← hu, modTarget_modTarget]
        rfl
      · have hclock : u.clocks = s.clocks := by rw [← hu]; rfl
        have hspec := firstDue_spec u hk
        rwa [hclock] at hspec
    · obtain ⟨u, hu, hrun⟩ := runReleaseStart_unarmed (s := runs s seq) h9 harmed
      have htarget : targetOf u (cmdIdx c) = { releaseFields c x with state := .waiting } := by
        rw [← hu]
        exact targetOf_modTarget_same ..
      have hactive : activeSessions u = [] := by rw [← hu]; exact hnone
      have hdemand : hasDemand u (cmdIdx c) = false := by
        rw [hasDemand, htarget, hactive, releaseFields, hwith]
        rfl
      rw [hexec, hrun, hdemand, if_neg (by decide), ← hu, seq_of_mayRun hr]
      rfl
    · have harmed : armed (targetOf (runs s seq) (cmdIdx c)) = true := by
        rw [armed, show (targetOf (runs s seq) (cmdIdx c)).state = .sending from hsending]
        rfl
      obtain ⟨u, hu⟩ : ∃ u, complete seq 0x00 [2] (modTarget (runs s seq) (cmdIdx c) fun _ => releaseFields c x) = u := ⟨_, rfl⟩
      have hsessions : u.sessions = (modTarget (runs s seq) (cmdIdx c) fun _ => releaseFields c x).sessions := by
        rw [← hu, show complete seq 0x00 [2] _ = _ from complete_frame ..]
      have htarget (j : Nat) : targetOf u j = if j = cmdIdx c then releaseFields c x else {} := by
        rw [targetOf, hsessions]
        split
        next h =>
          rw [h]
          exact tabGet_tabSet_same ..
        next h =>
          refine (tabGet_tabSet_ne _ _ _ h).trans ?_
          rw [show (runs s seq).sessions.targets = [(cmdIdx c, x)] from htargets, tabGet, if_neg (Ne.symm h)]
          rfl
      have hstands (j : Nat) : refreshTarget j u = u := by
        by_cases h : j = cmdIdx c
        · have hj : targetOf u j = releaseFields c x := by rw [htarget, if_pos h]
          refine refreshTarget_sending (by rw [hj]; exact hsending) ?_
          rw [hasDemand, hj, releaseFields, hfree]
          rfl
        · exact refreshTarget_idle (by rw [htarget, if_neg h])
      have hquiet' : LinkQuiet u := by rw [← hu]; exact ((hquiet.runs seq).modTarget ..).complete ..
      rw [hexec, runReleaseStart_armed h9 harmed, seq_of_mayRun hr, show complete seq 0x00 [2] (modTarget (runs s seq) (cmdIdx c) fun _ =>
        releaseFields c (targetOf (runs s seq) (cmdIdx c))) = u from hu]
      simp only [refreshDemand, forAll, List.foldl_cons, List.foldl_nil, hstands]
      rw [serve_quiet hquiet', ← hu]
      rfl
  · rintro seq m c hr hn rfl h3 h6 hz
    refine ⟨fun hop hquiet => ?_, fun hop harmed hheld => ?_⟩
    · have hplain : (armed (targetOf (runs s seq) (cmdIdx c)) && bit (par c 8) 0) = false := by
        rcases hop with h | ⟨-, h⟩
        · rw [h, Bool.and_eq_false_iff]
          exact .inr rfl
        · rw [Bool.and_eq_false_iff]
          exact .inl h
      rw [execReleaseStop_runs hr hn h3 h6 hz (by omega), runReleaseStop]
      rw [hplain, if_neg (by decide), disarm_quiet (by exact hquiet.2.1), seq_of_mayRun hr,
        serve_quiet (((hquiet.runs seq).modTarget ..).complete ..)]
      rfl
    · have hstop : (armed (targetOf (runs s seq) (cmdIdx c)) && bit (par c 8) 0) = true := by
        rw [hop, Bool.and_eq_true]
        exact ⟨harmed, rfl⟩
      rw [execReleaseStop_runs hr hn h3 h6 hz (by omega), runReleaseStop]
      rw [hstop, if_pos rfl, disarm_quiet (by exact hheld.2.1),
        serve_pushTx (((held_of_linkHeld hheld).runs seq).modTarget ..) (by exact hheld.2.1) (by exact hheld.2.2.2.1)]
      rfl
  · rw [execReleaseDue_sends hstate hretry hdenied hheld.2.1 hdue, serve_pushTx (held_of_linkHeld hheld) hheld.2.1 hheld.2.2.2.1]
  · rw [execReleaseRetry_sends hstate hretry hdue hheld.2.1,
      serve_pushTx ((held_of_linkHeld hheld).modTarget ..) (by exact hheld.2.1) (by exact hheld.2.2.2.1)]
    rfl
  · obtain ⟨misses, u, j, hu, hexec, hlt⟩ := execReleaseSkip_skips hstate hquiet.2.1 hdue
    obtain ⟨w, hw⟩ : ∃ w, modTarget { u with sessions := { u.sessions with skips := bump 2 u.sessions.skips 1 }, fresh := s.fresh + 1 } k (fun t =>
        { t with nextDue := t.nextDue + t.interval * 2 ^ 24 + j, retry := false, denied := false }) = w := ⟨_, rfl⟩
    rw [hw] at hexec
    have hutarget : targetOf u k = { x with missed := bump 2 x.missed 1, dutyMisses := misses } := by rw [← hu, targetOf_modTarget_same]
    have hwtarget : targetOf w k = { x with
        missed := bump 2 x.missed 1, dutyMisses := misses, nextDue := x.nextDue + x.interval * 2 ^ 24 + j, retry := false, denied := false } := by
      rw [← hw, targetOf_modTarget_same, show targetOf { u with
        sessions := { u.sessions with skips := bump 2 u.sessions.skips 1 }, fresh := s.fresh + 1 } k = targetOf u k from rfl, hutarget]
    have hframe : w = { s with sessions := { s.sessions with targets := w.sessions.targets, skips := w.sessions.skips }, fresh := w.fresh } := by
      rw [← hw, ← hu]
      rfl
    have hother (i : Nat) (hi : i ≠ k) : targetOf w i = targetOf s i := by
      rw [← hw, targetOf_modTarget_ne _ _ hi]
      refine Eq.trans (b := targetOf u i) rfl ?_
      rw [← hu]
      exact targetOf_modTarget_ne _ _ hi
    have hskips : w.sessions.skips = min 65535 (s.sessions.skips + 1) := by
      rw [← hw, ← hu]
      exact bump_two _ _
    have hport : w.port = s.port := by rw [hframe]
    have hphase : w.power = s.power := by rw [hframe]
    obtain ⟨v, hv⟩ : ∃ v, raise .releaseEvent w = v := ⟨_, rfl⟩
    have hvframe := raise_releaseEvent_frame w
    rw [hv] at hexec hvframe
    have hvsessions : v.sessions = w.sessions := by rw [hvframe]
    have hvtarget (i : Nat) : targetOf v i = targetOf w i := by rw [targetOf, hvsessions]; rfl
    have hquiet' : LinkQuiet v := by
      rw [hvframe, hframe]
      exact hquiet
    rw [serve_quiet hquiet'] at hexec
    refine ⟨v, hexec, ?_, by rw [hvsessions, hskips], ?_, fun hpos => ?_, ?_, ?_, ?_, fun hready => ?_, fun i hi => by rw [hvtarget, hother i hi], ?_⟩
    · rw [hvtarget, hwtarget]
      exact bump_two _ _
    · rw [hvtarget, hwtarget]
      exact Nat.le_add_right _ _
    · rw [hvtarget, hwtarget]
      exact Nat.add_lt_add_left (hlt hpos) _
    · rw [hvtarget, hwtarget]
      exact hstate
    · rw [hvtarget, hwtarget]
    · rw [hvtarget, hwtarget]
    · rw [← hv, raise_releaseEvent_ready (by rw [hphase]; exact hready), hport]
    · rw [hvframe, hframe]

end Sys2Proof.Machine

/-!
PROOFS. SESSION_CFG (O49, R382).
-/
namespace Sys2Proof.Machine

theorem ready_of_mayRun {s : State} {seq op : Nat} {c : Cmd} (h : MayRun s seq op c) : s.power.phase = .ready := by
  have hready := (startable_spec h.1).2.1
  simpa [ready] using hready

/-- The parameters of a SESSION_CFG that stores its fields. -/
structure StoreParams (c : Cmd) : Prop where
  windowEp : par c 10 < 128 ∨ par c 10 = 0xFF
  tries : par c 11 ≤ 5
  period : 60 ≤ (if parN c 12 2 = 0 then 300 else parN c 12 2) ∧ (if parN c 12 2 = 0 then 300 else parN c 12 2) ≤ 3600 ∧
    (if parN c 12 2 = 0 then 300 else parN c 12 2) < (if parN c 14 4 = 0 then 1800 else parN c 14 4)
  timeout : 120 ≤ (if parN c 14 4 = 0 then 1800 else parN c 14 4) ∧ (if parN c 14 4 = 0 then 1800 else parN c 14 4) ≤ 86400

section
variable {s : State} {seq : Nat} {c : Cmd}

/-- A SESSION_CFG that stores needs its fields in range and an endpoint that is no heat release; one that begins a check needs a counter left, and
one that starts a session needs none under way and no window open (Table 17-5). -/
theorem execSessionCfg_runs (hr : MayRun s seq 0x41 c) (hn : Names c 8) (h3 : 3 ≤ s.modes.modeNow) (h6 : s.modes.modeNow ≤ 6) (h9 : par c 9 < 32)
    (hz : ZeroBytes c 18 31) (hpaired : (endpointOf s (cmdIdx c)).paired = true) (h8 : par c 8 < 4)
    (hstore : par c 8 = 0 ∨ par c 8 = 3 → StoreParams c ∧ (endpointOf s (cmdIdx c)).role ≠ 3)
    (hstart : par c 8 = 0 → (endpointOf s (cmdIdx c)).session = false ∧ cfgWindowOpen s c = false)
    (hcheck : par c 8 = 0 ∨ par c 8 = 2 → txLow s (cmdIdx c) < 0xFFFFFF) (m : Int) :
    exec (.sessionCfg seq m) s = .next (runSessionCfg m (runs s seq) c) := by
  refine congrArg Host.Outcome.next (startCmd_runs (runSessionCfg m) hr.1 ?_)
  have hif {b e : Bool} (h : b = true → e = true) : (!b || e) = true := by cases b <;> simp_all
  have hstores (h : (par c 8 == 0 || par c 8 == 3) = true) : StoreParams c ∧ (endpointOf s (cmdIdx c)).role ≠ 3 := hstore (by simpa using h)
  have hop0 {e : Bool} (h : par c 8 = 0 → e = true) : (par c 8 != 0 || e) = true := by
    simpa [Decidable.or_iff_not_imp_left] using h
  simp only [checkSessionCfg, List.cons_append, List.append_assoc]
  refine checks_pass hn rfl hr.2 ?_
  simp only [List.nil_append, List.forall_mem_cons, List.forall_mem_append, needField_eq_none, needMode_eq_none, needState_eq_none, needPaired]
  refine ⟨decide_eq_true h8, decide_eq_true h9, ?_, hif fun h => decide_eq_true (hstores h).1.tries, hif fun h => ?_, hif fun h => ?_, needZeros_none hz,
    sessionMode_mem h3 h6, hpaired, hif fun h => ?_, hop0 fun h => ?_, hop0 fun h => ?_, ?_, fun _ h => by cases h⟩
  · rw [Bool.or_assoc]
    refine hif fun h => ?_
    simpa using (hstores h).1.windowEp
  · simpa [and_assoc] using (hstores h).1.period
  · simpa using (hstores h).1.timeout
  · simpa using (hstores h).2
  · rw [(hstart h).1]
    rfl
  · rw [(hstart h).2]
    rfl
  · by_cases h : par c 8 = 0 ∨ par c 8 = 2
    · simp [hcheck h]
    · have : par c 8 = 1 ∨ par c 8 = 3 := by omega
      rcases this with h | h <;> rw [h] <;> rfl

/-- A check with the key and the EUI of a record, path S held. -/
theorem serve_checkRecordOf (h : Held s) (htx : s.link.txs = []) (hchecks : s.sessions.checks = []) (n : Nat) (purpose : CheckFor) (m : Int) :
    ∃ k : Check, serve (checkRecordOf n purpose m s) = { s with
      fresh := s.fresh + 1, link := { s.link with txs := [newTx (.check n) (some m)] }
      sessions := { s.sessions with checks := [k], checkCount := min 65535 (s.sessions.checkCount + 1) } } ∧
    k.ep = n ∧ k.purpose = purpose ∧ k.eui = (endpointOf s n).eui ∧ k.limit = (endpointOf s n).checkTries :=
  serve_startCheck h htx hchecks _ _ _ _ _ _

/-! What SESSION_CFG does, OP by OP -/

theorem runSessionCfg_start (h : par c 8 = 0) (m : Int) : runSessionCfg m s c =
    serve (checkRecordOf (cmdIdx c) (.start c.seq) m (modEndpoint s (cmdIdx c) (storeSession c))) := by simp only [runSessionCfg, h]

theorem runSessionCfg_end (h : par c 8 = 1) (m : Int) : runSessionCfg m s c = serve (complete c.seq 0x00 [] (endSession (cmdIdx c) 4 s)) := by
  simp only [runSessionCfg, h]

theorem runSessionCfg_check (h : par c 8 = 2) (m : Int) : runSessionCfg m s c = serve (checkRecordOf (cmdIdx c) (.now c.seq) m s) := by
  simp only [runSessionCfg, h]

theorem runSessionCfg_store (h : par c 8 = 3) (m : Int) : runSessionCfg m s c = serve (complete c.seq 0x00 []
    (if (storeSession c (endpointOf s (cmdIdx c))).useWinPin && s.sessions.winPin then
      endSession (cmdIdx c) 2 (modEndpoint s (cmdIdx c) (storeSession c)) else refreshDemand (modEndpoint s (cmdIdx c) (storeSession c)))) := by
  simp only [runSessionCfg, h, endpointOf_modEndpoint_same]
  rfl

/-- Ending a session that runs, in READY and with no release target armed. -/
theorem endSession_ready {n : Nat} (h : s.sessions.targets = []) (hready : s.power.phase = .ready) (hsession : (endpointOf s n).session = true)
    (cause : Nat) : ∃ u, endSession n cause s = u ∧
      endpointOf u n = { endpointOf s n with session := false, demand := false, endCause := cause } ∧ u.port.irqStat1 = s.port.irqStat1 ||| 0x08 ∧
      u = { s with port := { s.port with irqStat1 := u.port.irqStat1 }, sessions := { s.sessions with endpoints := u.sessions.endpoints } } := by
  refine ⟨_, rfl, ?_, ?_, ?_⟩
  · rw [endSession_ends h hsession, raise_sessionEvent_frame]
    exact endpointOf_modEndpoint_same ..
  · rw [endSession_ends h hsession, raise_sessionEvent_ready (by exact hready)]
    rfl
  · rw [endSession_ends h hsession, raise_sessionEvent_frame]
    rfl

/-- A quiet link stays quiet when an endpoint is stored that watches no sensor. -/
theorem LinkQuiet.modEndpoint {n : Nat} {f : Endpoint → Endpoint} (h : LinkQuiet s)
    (hf : (f (endpointOf s n)).session = true → 128 ≤ (f (endpointOf s n)).windowEp) : LinkQuiet (modEndpoint s n f) := by
  obtain ⟨hdue, htx, hrx, hchecks, hwatch, hoff⟩ := h
  exact ⟨hdue, htx, hrx, hchecks, watching_setEndpoint (n := n) hwatch hf, hoff⟩

theorem modEndpoint_modEndpoint (s : State) (n : Nat) (f g : Endpoint → Endpoint) :
    modEndpoint (modEndpoint s n f) n g = modEndpoint s n fun e => g (f e) := by
  unfold Machine.modEndpoint tabMod
  rw [tabGet_tabSet_same, tabSet_tabSet]

/-- A quiet link stays quiet when an endpoint is stored whose session then ends. -/
theorem LinkQuiet.endSession_stored {n : Nat} {f : Endpoint → Endpoint} (h : LinkQuiet s) (htargets : s.sessions.targets = [])
    (hsession : (f (endpointOf s n)).session = true) (cause : Nat) : LinkQuiet (Machine.endSession n cause (Machine.modEndpoint s n f)) := by
  have hends : (endpointOf (Machine.modEndpoint s n f) n).session = true := by rw [endpointOf_modEndpoint_same]; exact hsession
  rw [endSession_ends (by exact htargets) hends, modEndpoint_modEndpoint, raise_sessionEvent_frame]
  obtain ⟨hdue, htx, hrx, hchecks, hwatch, hoff⟩ := h
  exact ⟨hdue, htx, hrx, hchecks, watching_setEndpoint (n := n) hwatch (fun h => by cases h), hoff⟩

end

end Sys2Proof.Machine

/-!
PROOFS. PAIR (O49, R374, R375).
-/
namespace Sys2Proof.Machine

/-- A command's own fields change, its place in the order stands. -/
theorem modCmd_frame (s : State) (seq : Nat) (f : Cmd → Cmd) :
    modCmd s seq f = { s with rings := { s.rings with inflight := (modCmd s seq f).rings.inflight } } := rfl

theorem modCmd_seqs (s : State) (seq : Nat) (f : Cmd → Cmd) : (modCmd s seq f).rings.inflight.map (·.seq) = s.rings.inflight.map (·.seq) := by
  rw [modCmd, List.map_map]
  refine List.map_congr_left fun d _ => ?_
  by_cases hd : d.seq = seq <;> simp [hd]

/-- Only the fields of commands in flight differ. -/
def RingsStand (s t : State) : Prop :=
  t.rings = { s.rings with inflight := t.rings.inflight } ∧ t.rings.inflight.map (·.seq) = s.rings.inflight.map (·.seq)

theorem RingsStand.modCmd {s t : State} (h : RingsStand s t) (seq : Nat) (f : Cmd → Cmd) : RingsStand s (modCmd t seq f) := by
  obtain ⟨hrings, hseqs⟩ := h
  refine ⟨?_, (modCmd_seqs t seq f).trans hseqs⟩
  rw [modCmd_frame]
  exact congrArg (fun r : Rings => { r with inflight := (Machine.modCmd t seq f).rings.inflight }) hrings

theorem RingsStand.runs (s : State) (seq : Nat) : RingsStand s (runs s seq) := RingsStand.modCmd ⟨rfl, rfl⟩ _ _

theorem MayWrite.modCmd {s : State} {seq : Nat} (h : MayWrite s seq) (f : Cmd → Cmd) : MayWrite (modCmd s seq f) seq := by
  obtain ⟨⟨c, hc⟩, hw⟩ := h
  exact ⟨⟨_, findCmd_modCmd_some hc _⟩, by rw [earlier_modCmd, hw]⟩

section
variable {s : State} {seq : Nat} {c : Cmd}

theorem releaseNames_none (h : s.sessions.targets = []) (n : Nat) : releaseNames s n = false := by
  have hidle (k : Nat) : armed (targetOf s k) = false := by rw [targetOf, h]; rfl
  simp [releaseNames, hidle]

/-- A PAIR with sound parameters of a free record. -/
theorem execPair_pairs (hr : MayRun s seq 0x40 c) (hn : Names c 8) (h3 : 3 ≤ s.modes.modeNow) (h6 : s.modes.modeNow ≤ 6) (h11 : par c 11 = 0)
    (hz : ZeroBytes c 23 31) (h8 : par c 8 = 0) (h9 : 1 ≤ par c 9 ∧ par c 9 ≤ 3) (h10 : par c 10 < 2) (hscratch : inScratch (parN c 20 3) 16 = true)
    (hfree : (endpointOf s (cmdIdx c)).paired = false) (heui : euiTaken s (cmdIdx c) (parN c 12 8) = false) (m : Int) :
    exec (.pair seq m) s = .next (runPair m (runs s seq) c) := by
  refine congrArg Host.Outcome.next (startCmd_runs (runPair m) hr.1 ?_)
  simp only [checkPair, List.cons_append, List.append_assoc]
  refine checks_pass hn rfl hr.2 ?_
  simp only [List.nil_append, List.forall_mem_cons, List.forall_mem_append, needField_eq_none, needMode_eq_none, needState_eq_none]
  rw [h8]
  exact ⟨rfl, by simp [h9], decide_eq_true h10, needZeros_none (zeroBytes_single h11), by simp [hscratch], needZeros_none hz, sessionMode_mem h3 h6,
    rfl, by simp [hfree], by simp [heui], rfl, rfl, fun _ h => by cases h⟩

/-- A PAIR that forgets a paired record, its region not protected for good. -/
theorem execPair_unpairs (hr : MayRun s seq 0x40 c) (hn : Names c 8) (h3 : 3 ≤ s.modes.modeNow) (h6 : s.modes.modeNow ≤ 6) (h11 : par c 11 = 0)
    (hz : ZeroBytes c 23 31) (h8 : par c 8 = 1) (h10 : par c 10 < 2) (hfrac : fraction s.cellar 2 ≠ 3)
    (hpaired : (endpointOf s (cmdIdx c)).paired = true) (htargets : s.sessions.targets = []) (m : Int) :
    exec (.pair seq m) s = .next (runPair m (runs s seq) c) := by
  refine congrArg Host.Outcome.next (startCmd_runs (runPair m) hr.1 ?_)
  simp only [checkPair, List.cons_append, List.append_assoc]
  refine checks_pass hn rfl hr.2 ?_
  simp only [List.nil_append, List.forall_mem_cons, List.forall_mem_append, needField_eq_none, needMode_eq_none, needState_eq_none, needPaired]
  rw [h8, releaseNames_none htargets]
  exact ⟨rfl, rfl, decide_eq_true h10, needZeros_none (zeroBytes_single h11), rfl, needZeros_none hz, sessionMode_mem h3 h6,
    needState_eq_none.mpr hpaired, rfl, rfl, rfl, needAccess_eq_none.mpr (by simpa using hfrac), fun _ h => by cases h⟩

/-! PAIR's first steps (R374) -/

/-- The key zeroed in scratch, the counters cleared (R374, R375; log entry 118). -/
def keyTaken (s : State) (c : Cmd) : State :=
  epSet (cmdIdx c) 0 3 0 (modEndpoint (devPuts s (parN c 20 3) (List.replicate 16 0)) (cmdIdx c) fun e => { e with cntOut := false })

theorem keyTaken_frame : keyTaken s c = { s with
    mem := cellPuts s.mem (parN c 20 3) (List.replicate 16 0), scrub := (keyTaken s c).scrub
    sessions := { s.sessions with endpoints := tabSet s.sessions.endpoints (cmdIdx c) { endpointOf s (cmdIdx c) with cntOut := false } }
    cellar := { s.cellar with
      shadow := (keyTaken s c).cellar.shadow, written := (keyTaken s c).cellar.written, dirty := (keyTaken s c).cellar.dirty } } := by
  obtain ⟨d, hd⟩ : ∃ d, devPuts s (parN c 20 3) (List.replicate 16 0) = d := ⟨_, rfl⟩
  have hmem : d.mem = cellPuts s.mem (parN c 20 3) (List.replicate 16 0) := by rw [← hd, devPuts_mem]
  have hframe : d = { s with mem := d.mem, scrub := d.scrub } := by rw [← hd]; exact devPuts_frame ..
  unfold keyTaken
  rw [hd, ← hmem, hframe]
  rfl

/-- What the first steps leave: TX_LOW 0, RX_FLOOR as it was, the key's bytes zero, CNT_OUT clear. -/
theorem keyTaken_spec (hwf : Memory.wf s.cellar.shadow = true) : txLow (keyTaken s c) (cmdIdx c) = 0 ∧
    rxFloor (keyTaken s c) (cmdIdx c) = rxFloor s (cmdIdx c) ∧ (keyTaken s c).mem = cellPuts s.mem (parN c 20 3) (List.replicate 16 0) ∧
    endpointOf (keyTaken s c) (cmdIdx c) = { endpointOf s (cmdIdx c) with cntOut := false } := by
  have hcellar : (devPuts s (parN c 20 3) (List.replicate 16 0)).cellar = s.cellar := by rw [devPuts_frame]
  refine ⟨?_, ?_, by rw [keyTaken_frame], ?_⟩
  · exact (epGet_epSet (by rw [modEndpoint_cellar, hcellar]; exact hwf) _ _ _ _).trans rfl
  · refine (epGet_epSet_apart (by decide)).trans ?_
    rw [epGet, modEndpoint_cellar, hcellar]
    rfl
  · rw [keyTaken_frame]
    exact tabGet_tabSet_same ..

theorem keyTaken_rings : (keyTaken s c).rings = s.rings := by rw [keyTaken_frame]

end

end Sys2Proof.Machine

/-!
PROOFS. PAIR and SESSION_CFG (O49).
-/
namespace Sys2Proof.Machine

section
variable {s : State} {seq : Nat} {c : Cmd}

/-- Protection as it stands when the command starts (R441). -/
def noteProtection (s : State) (seq : Nat) : State := modCmd s seq fun d => { d with prot := fraction s.cellar 2 == 3 }

theorem runPair_check (h8 : par c 8 = 0) (h10 : par c 10 = 1) (m : Int) : ∃ key, runPair m s c =
    serve (startCheck (cmdIdx c) (.pair c.seq) (endpointOf (keyTaken (noteProtection s c.seq) c) (cmdIdx c)).checkTries (some m) key (parN c 12 8)
      (keyTaken (noteProtection s c.seq) c)) := by
  refine ⟨memGets (noteProtection s c.seq) (parN c 20 3) 16, ?_⟩
  have hbit : bit (par c 10) 0 = true := by rw [h10]; rfl
  unfold runPair
  exact (if_pos h8).trans (if_pos hbit)

theorem writePairing_begins (hprot : c.prot = false) (tries : Nat) (rtt rssi : Int) (key : List Byte) : ∃ result, writePairing c tries rtt rssi key s =
    startDue (issueWrite (modCmd s c.seq fun d => { d with result := result }) c.seq (0x8000 + cmdIdx c) false
      ([lowByte (par c 9), 0] ++ (c.desc.drop 12).take 8 ++ key)) := ⟨_, if_neg (by rw [hprot]; decide)⟩

theorem runPair_draws (h8 : par c 8 = 0) (h10 : par c 10 = 0) (m : Int) : ∃ rtt rssi, runPair m s c =
    writePairing { c with prot := fraction s.cellar 2 == 3 } 0 rtt rssi (memGets (noteProtection s c.seq) (parN c 20 3) 16)
      { keyTaken (noteProtection s c.seq) c with fresh := (keyTaken (noteProtection s c.seq) c).fresh + 2 } := by
  have hbit : ¬ bit (par c 10) 0 = true := by rw [h10]; decide
  obtain ⟨write, hwrite⟩ : ∃ f, writePairing = f := ⟨_, rfl⟩
  obtain ⟨k, hk⟩ : ∃ k, keyTaken (noteProtection s c.seq) c = k := ⟨_, rfl⟩
  have hdraw (u : State) : ∃ v, draw (2 ^ 16) u = (v, { u with fresh := u.fresh + 1 }) := ⟨_, rfl⟩
  obtain ⟨a, ha⟩ := hdraw k
  obtain ⟨b, hb⟩ := hdraw { k with fresh := k.fresh + 1 }
  refine ⟨ofTwos 2 a, ofTwos 2 b, ?_⟩
  have hrun : runPair m s c = (let (a, v) := draw (2 ^ 16) (keyTaken (noteProtection s c.seq) c)
      let (b, v) := draw (2 ^ 16) v
      writePairing { c with prot := fraction s.cellar 2 == 3 } 0 (ofTwos 2 a) (ofTwos 2 b) (memGets (noteProtection s c.seq) (parN c 20 3) 16) v) := by
    unfold runPair
    rw [hwrite]
    exact (if_pos h8).trans (if_neg hbit)
  rw [hrun, hwrite, hk]
  simp only [ha, hb]

theorem runPair_writes (h8 : par c 8 = 0) (h10 : par c 10 = 0) (hfrac : fraction s.cellar 2 ≠ 3) (m : Int) : ∃ result, runPair m s c =
    startDue (issueWrite (modCmd { keyTaken (noteProtection s c.seq) c with fresh := (keyTaken (noteProtection s c.seq) c).fresh + 2 } c.seq
      fun d => { d with result := result }) c.seq (0x8000 + cmdIdx c) false
      ([lowByte (par c 9), 0] ++ (c.desc.drop 12).take 8 ++ memGets s (parN c 20 3) 16)) := by
  obtain ⟨rtt, rssi, hrun⟩ := runPair_draws (s := s) h8 h10 m
  obtain ⟨result, hwrite⟩ := writePairing_begins (c := { c with prot := fraction s.cellar 2 == 3 })
    (s := { keyTaken (noteProtection s c.seq) c with fresh := (keyTaken (noteProtection s c.seq) c).fresh + 2 }) (by simpa using hfrac) 0 rtt rssi
    (memGets (noteProtection s c.seq) (parN c 20 3) 16)
  exact ⟨result, hrun.trans hwrite⟩

theorem runPair_unpair (h8 : par c 8 = 1) (hsession : (endpointOf s (cmdIdx c)).session = false) (m : Int) : ∃ result, runPair m s c =
    serve (issueWrite (modCmd (noteProtection s c.seq) c.seq fun d => { d with result := result }) c.seq (0x8000 + cmdIdx c) true []) := by
  have hne : ¬ par c 8 = 0 := by omega
  refine ⟨[lowByte (flagNat false)], ?_⟩
  have hends : endSession (cmdIdx c) 4 (noteProtection s c.seq) = noteProtection s c.seq :=
    endSession_none (s := noteProtection s c.seq) hsession 4
  unfold runPair
  refine (if_neg hne).trans ?_
  show serve (issueWrite (modCmd (endSession (cmdIdx c) 4 (noteProtection s c.seq)) c.seq
    fun d => { d with result := [lowByte (flagNat (endpointOf s (cmdIdx c)).session)] }) c.seq (0x8000 + cmdIdx c) true []) = _
  rw [hends, hsession]

/-- Serving starts the cellar writes that are due first. -/
theorem serve_startDue (h : NoneDue (startDue s)) : serve s = serve (startDue s) := by
  unfold serve
  rw [startDue_none h]

/-- The state after PAIR's first steps: what they write, and that the rest stands. -/
theorem pairTaken_spec (hwf : Memory.wf s.cellar.shadow = true) {k : State} (hk : keyTaken (noteProtection (runs s seq) seq) c = k) :
    (txLow k (cmdIdx c) = 0 ∧ rxFloor k (cmdIdx c) = rxFloor s (cmdIdx c) ∧ k.mem = cellPuts s.mem (parN c 20 3) (List.replicate 16 0) ∧
      endpointOf k (cmdIdx c) = { endpointOf s (cmdIdx c) with cntOut := false } ∧ RingsStand s k) ∧
    k = { s with
      rings := k.rings, mem := k.mem, scrub := k.scrub, sessions := { s.sessions with endpoints := k.sessions.endpoints }
      cellar := { s.cellar with shadow := k.cellar.shadow, written := k.cellar.written, dirty := k.cellar.dirty } } := by
  have hspec := keyTaken_spec (s := noteProtection (runs s seq) seq) (c := c) hwf
  have hframe := keyTaken_frame (s := noteProtection (runs s seq) seq) (c := c)
  have hrings := keyTaken_rings (s := noteProtection (runs s seq) seq) (c := c)
  rw [hk] at hspec hframe hrings
  obtain ⟨htx, hrx, hmem, hep⟩ := hspec
  have hstand : RingsStand s (noteProtection (runs s seq) seq) := (RingsStand.runs s seq).modCmd ..
  refine ⟨⟨htx, hrx, hmem, hep, by rw [RingsStand, hrings]; exact hstand⟩, ?_⟩
  have hends : k.sessions.endpoints = tabSet s.sessions.endpoints (cmdIdx c) { endpointOf s (cmdIdx c) with cntOut := false } := by rw [hframe]; rfl
  rw [hmem, hrings, hends]
  exact hframe

theorem noteProtection_noneDue (h : NoneDue s) (seq : Nat) : NoneDue (noteProtection (runs s seq) seq) := by
  refine modCmd_noneDue ?_ (runs_noneDue h seq) seq
  exact fun _ => rfl

/-- A PAIR with no check begins the record's write. -/
theorem pair_writes {n : Nat} (hn : cmdIdx c = n) (hseq : c.seq = seq) (hfind : findCmd s seq = some c) (hdue : NoneDue s)
    (hearlier : noEarlierWrite (earlier s.rings.inflight seq) = true) (hroom : RoomFor s.cellar (0x8000 + n) 26) (hlen : c.desc.length = 32)
    (h8 : par c 8 = 0) (h10 : par c 10 = 0) (hfrac : fraction s.cellar 2 ≠ 3) (hwf : Memory.wf s.cellar.shadow = true) (m : Int) : ∃ t,
    runPair m (runs s seq) c = t ∧
      (txLow t n = 0 ∧ rxFloor t n = rxFloor s n ∧ t.mem = cellPuts s.mem (parN c 20 3) (List.replicate 16 0) ∧
        endpointOf t n = { endpointOf s n with cntOut := false } ∧ RingsStand s t) ∧
      WriteBegun { s.cellar with shadow := t.cellar.shadow, written := t.cellar.written, dirty := t.cellar.dirty } t.cellar seq (0x8000 + n)
        false ([lowByte (par c 9), 0] ++ (c.desc.drop 12).take 8 ++ memGets s (parN c 20 3) 16) ∧
      t = { s with
        rings := t.rings, mem := t.mem, scrub := t.scrub, cellar := t.cellar, fresh := t.fresh
        sessions := { s.sessions with endpoints := t.sessions.endpoints } } := by
  obtain ⟨result, hrun⟩ := runPair_writes (s := runs s seq) h8 h10 hfrac m
  rw [hseq] at hrun
  obtain ⟨k, hk⟩ : ∃ k, keyTaken (noteProtection (runs s seq) seq) c = k := ⟨_, rfl⟩
  obtain ⟨⟨htx, hrx, hmem, hep, hstand⟩, hframe⟩ := pairTaken_spec hwf hk
  rw [hn] at htx hrx hep
  obtain ⟨u, hu⟩ : ∃ u, modCmd { k with fresh := k.fresh + 2 } seq (fun d => { d with result := result }) = u := ⟨_, rfl⟩
  rw [hk, hu, hn] at hrun
  have hrings : k.rings = (noteProtection (runs s seq) seq).rings := by rw [← hk]; exact keyTaken_rings
  have hkdue : NoneDue k := by rw [NoneDue, hrings]; exact noteProtection_noneDue hdue seq
  have hkmay : MayWrite k seq := by
    have h : MayWrite (noteProtection (runs s seq) seq) seq := (MayWrite.runs ⟨⟨c, hfind⟩, hearlier⟩).modCmd _
    unfold MayWrite findCmd at h ⊢
    rwa [hrings]
  have hucellar : u.cellar = { s.cellar with shadow := k.cellar.shadow, written := k.cellar.written, dirty := k.cellar.dirty } := by
    rw [← hu]
    exact congrArg State.cellar hframe
  have hlen' : ([lowByte (par c 9), 0] ++ (c.desc.drop 12).take 8 ++ memGets s (parN c 20 3) 16).length = 26 := by
    simp [memGets, cellGets_eq_map, hlen]
  obtain ⟨t, ht, htframe, hbegun⟩ := startDue_begins (s := u) (seq := seq) (key := 0x8000 + n)
    (payload := [lowByte (par c 9), 0] ++ (c.desc.drop 12).take 8 ++ memGets s (parN c 20 3) 16)
    (by rw [← hu]; exact MayWrite.modCmd (s := { k with fresh := k.fresh + 2 }) hkmay _)
    (by rw [← hu]; refine modCmd_noneDue (s := { k with fresh := k.fresh + 2 }) ?_ hkdue seq; exact fun _ => rfl)
    (by rw [hlen', hucellar]; exact hroom) false
  have hshadow : t.cellar.shadow = k.cellar.shadow ∧ t.cellar.written = k.cellar.written ∧ t.cellar.dirty = k.cellar.dirty := by
    rw [hbegun.2.2.2, hucellar]
    exact ⟨rfl, rfl, rfl⟩
  obtain ⟨hshadow, hwritten, hdirty⟩ := hshadow
  have hcellar : { s.cellar with shadow := t.cellar.shadow, written := t.cellar.written, dirty := t.cellar.dirty } = u.cellar := by
    rw [hucellar, hshadow, hwritten, hdirty]
  have hsame : t = { s with
      rings := u.rings, mem := k.mem, scrub := k.scrub, cellar := t.cellar, fresh := k.fresh + 2
      sessions := { s.sessions with endpoints := k.sessions.endpoints } } := by
    have hcell : t.cellar = t.cellar := rfl
    generalize t.cellar = d at hcell htframe ⊢
    rw [htframe, ← hu, hframe]
    rfl
  have hep' (off len : Nat) : epGet t n off len = epGet k n off len := by
    unfold epGet shadowGet
    rw [hshadow]
  have htrings : t.rings = u.rings := by rw [hsame]
  have htmem : t.mem = k.mem := by rw [hsame]
  have htends : t.sessions = { s.sessions with endpoints := k.sessions.endpoints } := by rw [hsame]
  have hkends : endpointOf t n = endpointOf k n := by rw [endpointOf, htends]; rfl
  refine ⟨t, hrun.trans ht, ⟨(hep' 0 3).trans htx, (hep' 3 5).trans hrx, htmem.trans hmem, hkends.trans hep, ?_⟩, by rw [hcellar]; exact hbegun, ?_⟩
  · rw [RingsStand, htrings, ← hu]
    exact RingsStand.modCmd (t := { k with fresh := k.fresh + 2 }) hstand _ _
  · rw [hsame]

end

end Sys2Proof.Machine

/-!
PROOFS. PAIR and SESSION_CFG settled (O49).
-/
namespace Sys2Proof.Machine

section
variable {s : State} {seq : Nat} {c : Cmd}

/-- A PAIR with CHECK begins a presence check for the record. -/
theorem pair_checks {n : Nat} (hn : cmdIdx c = n) (hseq : c.seq = seq) (hheld : LinkHeld s) (h8 : par c 8 = 0) (h10 : par c 10 = 1)
    (hwf : Memory.wf s.cellar.shadow = true) (m : Int) : ∃ t, runPair m (runs s seq) c = t ∧
      (txLow t n = 0 ∧ rxFloor t n = rxFloor s n ∧ t.mem = cellPuts s.mem (parN c 20 3) (List.replicate 16 0) ∧
        endpointOf t n = { endpointOf s n with cntOut := false } ∧ RingsStand s t) ∧ t.link.txs = [newTx (.check n) (some m)] ∧
      (t.sessions.checks.map fun k => (k.ep, k.purpose, k.eui, k.limit)) = [(n, .pair seq, parN c 12 8, (endpointOf s n).checkTries)] ∧
      t.sessions.checkCount = min 65535 (s.sessions.checkCount + 1) ∧
      t = { s with
        rings := t.rings, mem := t.mem, scrub := t.scrub, fresh := s.fresh + 1, link := { s.link with txs := t.link.txs }
        cellar := { s.cellar with shadow := t.cellar.shadow, written := t.cellar.written, dirty := t.cellar.dirty }
        sessions := { s.sessions with endpoints := t.sessions.endpoints, checks := t.sessions.checks, checkCount := t.sessions.checkCount } } := by
  obtain ⟨key, hrun⟩ := runPair_check (s := runs s seq) h8 h10 m
  rw [hseq] at hrun
  obtain ⟨k, hk⟩ : ∃ k, keyTaken (noteProtection (runs s seq) seq) c = k := ⟨_, rfl⟩
  obtain ⟨⟨htx, hrx, hmem, hep, hstand⟩, hframe⟩ := pairTaken_spec hwf hk
  rw [hn] at htx hrx hep
  rw [hk, hn] at hrun
  have hrings : k.rings = (noteProtection (runs s seq) seq).rings := by rw [← hk]; exact keyTaken_rings
  obtain ⟨hdue, htxs, hhost, hchecks, -, hcal, hjob⟩ := hheld
  have hkdue : NoneDue k := by rw [NoneDue, hrings]; exact noteProtection_noneDue hdue seq
  have hlink : k.link = s.link := by rw [hframe]
  have hpath : k.pathS = s.pathS := by rw [hframe]
  have hkchecks : k.sessions.checks = [] := by rw [hframe]; exact hchecks
  have hcount : k.sessions.checkCount = s.sessions.checkCount := by rw [hframe]
  have hkheld : Held k := ⟨hkdue, by rw [activeTx, hlink, htxs]; rfl, by rw [hlink, hhost], by rw [hpath, hcal], by rw [hpath]; exact hjob, .inl hkchecks⟩
  obtain ⟨j, hserve, hjep, hjpurpose, hjeui, hjlimit⟩ := serve_startCheck hkheld (by rw [hlink, htxs]) hkchecks n (.pair seq)
    (endpointOf k n).checkTries (some m) key (parN c 12 8)
  rw [hserve, hcount] at hrun
  refine ⟨_, hrun, ⟨htx, hrx, hmem, hep, hstand⟩, rfl, ?_, rfl, ?_⟩
  · rw [List.map_singleton, hjep, hjpurpose, hjeui, hjlimit, hep]
  · rw [hframe]

/-- An unpair begins the write of a tombstone. -/
theorem unpair_writes {n : Nat} (hn : cmdIdx c = n) (hseq : c.seq = seq) (hfind : findCmd s seq = some c) (hquiet : LinkQuiet s)
    (hearlier : noEarlierWrite (earlier s.rings.inflight seq) = true) (hroom : RoomFor s.cellar (0x8000 + n) 0) (h8 : par c 8 = 1)
    (hsession : (endpointOf s n).session = false) (m : Int) : ∃ t, runPair m (runs s seq) c = t ∧
      WriteBegun s.cellar t.cellar seq (0x8000 + n) true [] ∧ RingsStand s t ∧ t = { s with rings := t.rings, cellar := t.cellar } := by
  obtain ⟨result, hrun⟩ := runPair_unpair (s := runs s seq) h8 (by rw [hn]; exact hsession) m
  rw [hseq, hn] at hrun
  obtain ⟨u, hu⟩ : ∃ u, modCmd (noteProtection (runs s seq) seq) seq (fun d => { d with result := result }) = u := ⟨_, rfl⟩
  rw [hu] at hrun
  have hstand : RingsStand s u := by rw [← hu]; exact ((RingsStand.runs s seq).modCmd ..).modCmd ..
  have hframe : u = { s with rings := u.rings } := by rw [← hu]; rfl
  have hdue : NoneDue u := by
    rw [← hu]
    refine modCmd_noneDue ?_ (noteProtection_noneDue hquiet.1 seq) seq
    exact fun _ => rfl
  have hmay : MayWrite u seq := by rw [← hu]; exact ((MayWrite.runs ⟨⟨c, hfind⟩, hearlier⟩).modCmd _).modCmd _
  have hcellar : u.cellar = s.cellar := by rw [hframe]
  obtain ⟨t, ht, htframe, hbegun⟩ := startDue_begins (s := u) (seq := seq) (key := 0x8000 + n) (payload := []) hmay hdue
    (by rw [hcellar]; exact hroom) true
  rw [hcellar] at hbegun
  have htrings : t.rings = u.rings := by rw [htframe]
  have htdue : NoneDue t := by rw [NoneDue, htrings]; exact hdue
  have hsame : t = { s with rings := t.rings, cellar := t.cellar } := by
    have hcell : t.cellar = t.cellar := rfl
    rw [htrings]
    generalize t.cellar = d at hcell htframe ⊢
    rw [htframe, hframe]
  have hserve : serve (issueWrite u seq (0x8000 + n) true []) = t := by
    rw [serve_startDue (by rw [ht]; exact htdue), ht]
    refine serve_quiet ⟨htdue, ?_⟩
    rw [hsame]
    exact hquiet.2
  exact ⟨t, hrun.trans hserve, hbegun, by rw [RingsStand, htrings]; exact hstand, hsame⟩

end

/-- Settles O49. -/
theorem pairAndSessionCommands : Obligations.PairAndSessionCommands := by
  intro s htargets
  refine ⟨?_, ?_⟩
  · rintro seq m c n hr hnames hn h3 h6 h11 hz hlen hfrac free ringsStand
    have hseq := seq_of_mayRun hr
    have hfind := (startable_spec hr.1).1
    refine ⟨?_, fun h8 h10 hpaired hsession hquiet hfree hroom => ?_⟩
    · intro h8 h9 h9' h10 hscratch hunpaired heui hwf keyTaken
      have hexec := execPair_pairs hr hnames h3 h6 h11 hz h8 ⟨h9, h9'⟩ h10 hscratch (by rw [hn]; exact hunpaired) (by rw [hn]; exact heui) m
      refine ⟨fun hplain hfree hroom => ?_, fun hcheck hheld => ?_⟩
      · obtain ⟨t, hrun, htaken, hbegun, hframe⟩ := pair_writes hn hseq hfind hfree.1.2 hfree.2 hroom hlen h8 hplain hfrac hwf m
        exact ⟨t, by rw [hexec, hrun], htaken, hbegun, hframe⟩
      · obtain ⟨t, hrun, htaken, hrest⟩ := pair_checks hn hseq hheld h8 hcheck hwf m
        exact ⟨t, by rw [hexec, hrun], htaken, hrest⟩
    · have hexec := execPair_unpairs hr hnames h3 h6 h11 hz h8 h10 hfrac (by rw [hn]; exact hpaired) htargets m
      obtain ⟨t, hrun, hbegun, hstand, hframe⟩ := unpair_writes hn hseq hfind hquiet hfree.2 hroom h8 hsession m
      exact ⟨t, by rw [hexec, hrun], hbegun, hstand, hframe⟩
  · rintro seq m c n hr hnames rfl h3 h6 h9 hz hpaired e period timeout stored challenge
    have hseq := seq_of_mayRun hr
    have hready := ready_of_mayRun hr
    refine ⟨fun hop hsession hquiet => ?_, fun hop hsession hquiet => ?_, fun hop hlow hheld => ?_,
      fun h10 h11 hp60 hp3600 hpt ht120 ht86400 hrole => ⟨fun hop hquiet => ⟨fun hstill => ?_, fun hsession hpin hopen => ?_⟩,
        fun hop hsession hclosed hlow hheld => ?_⟩⟩
    · have hexec := execSessionCfg_runs hr hnames h3 h6 h9 hz hpaired (by omega) (fun h => by omega) (fun h => by omega) (fun h => by omega) m
      obtain ⟨u, hu, hrest⟩ := endSession_ready (s := runs s seq) (n := cmdIdx c) htargets hready hsession 4
      have hq : LinkQuiet u := hu ▸ (hquiet.runs seq).endSession htargets 4
      exact ⟨u, by rw [hexec, runSessionCfg_end hop, hu, serve_quiet (hq.complete _ _ _), hseq], hrest⟩
    · have hexec := execSessionCfg_runs hr hnames h3 h6 h9 hz hpaired (by omega) (fun h => by omega) (fun h => by omega) (fun h => by omega) m
      rw [hexec, runSessionCfg_end hop, endSession_none (s := runs s seq) hsession, serve_quiet ((hquiet.runs seq).complete _ _ _), hseq]
    · have hexec := execSessionCfg_runs hr hnames h3 h6 h9 hz hpaired (by omega) (fun h => by omega) (fun h => by omega) (fun _ => hlow) m
      obtain ⟨k, hserve, hep, hpurpose, heui, hlimit⟩ := serve_checkRecordOf ((held_of_linkHeld hheld).runs seq) hheld.2.1 hheld.2.2.2.1 (cmdIdx c)
        (.now seq) m
      rw [hexec, runSessionCfg_check hop, hseq, hserve]
      refine ⟨_, rfl, ⟨rfl, rfl, rfl, rfl⟩, rfl, ?_⟩
      rw [List.map_singleton, hep, hpurpose, heui, hlimit]
      rfl
    all_goals
      have hparams : StoreParams c := ⟨h10, h11, ⟨hp60, hp3600, hpt⟩, ht120, ht86400⟩
    · have hexec := execSessionCfg_runs hr hnames h3 h6 h9 hz hpaired (by omega) (fun _ => ⟨hparams, hrole⟩) (fun h => by omega) (fun h => by omega) m
      obtain ⟨v, hv⟩ : ∃ v, modEndpoint (runs s seq) (cmdIdx c) (storeSession c) = v := ⟨_, rfl⟩
      have hvtargets : v.sessions.targets = [] := by rw [← hv]; exact htargets
      have hvsession : (endpointOf v (cmdIdx c)).session = e.session := by
        rw [← hv, endpointOf_modEndpoint_same]
        rfl
      have hstands : (if (storeSession c (endpointOf (runs s seq) (cmdIdx c))).useWinPin && (runs s seq).sessions.winPin then
          endSession (cmdIdx c) 2 v else refreshDemand v) = v := by
        rcases hstill with h | ⟨-, h⟩
        · rw [endSession_none (hvsession.trans h), refreshDemand_none hvtargets, ite_self]
        · rw [if_neg ?_, refreshDemand_none hvtargets]
          show ¬ (bit (par c 9) 4 && s.sessions.winPin) = true
          rcases h with h | h <;> simp [h]
      have hquiet' : LinkQuiet v := by
        rw [← hv]
        refine (hquiet.runs seq).modEndpoint fun h => ?_
        show 128 ≤ par c 10
        rcases hstill with hs | ⟨hs, -⟩
        · exact absurd (show e.session = true from h) (by rw [hs]; decide)
        · omega
      rw [hexec, runSessionCfg_store hop, hv, hstands, serve_quiet (hquiet'.complete _ _ _), hseq, ← hv]
      rfl
    · have hexec := execSessionCfg_runs hr hnames h3 h6 h9 hz hpaired (by omega) (fun _ => ⟨hparams, hrole⟩) (fun h => by omega) (fun h => by omega) m
      obtain ⟨u, hu, hep, hirq, hframe⟩ := endSession_ready (s := modEndpoint (runs s seq) (cmdIdx c) (storeSession c)) (n := cmdIdx c) htargets hready
        (by rw [endpointOf_modEndpoint_same]; exact hsession) 2
      have hquiet' : LinkQuiet u := hu ▸ (hquiet.runs seq).endSession_stored htargets (by exact hsession) 2
      have hends : ((storeSession c (endpointOf (runs s seq) (cmdIdx c))).useWinPin && (runs s seq).sessions.winPin) = true := by
        show (bit (par c 9) 4 && s.sessions.winPin) = true
        rw [hpin, hopen]
        rfl
      rw [endpointOf_modEndpoint_same] at hep
      rw [hexec, runSessionCfg_store hop, if_pos hends, hu, serve_quiet (hquiet'.complete _ _ _), hseq]
      exact ⟨u, rfl, hep, hirq, hframe⟩
    · have hexec := execSessionCfg_runs hr hnames h3 h6 h9 hz hpaired (by omega) (fun _ => ⟨hparams, hrole⟩) (fun _ => ⟨hsession, hclosed⟩)
        (fun _ => hlow) m
      obtain ⟨k, hserve, hep, hpurpose, heui, hlimit⟩ := serve_checkRecordOf
        (((held_of_linkHeld hheld).runs seq).modEndpoint (cmdIdx c) (storeSession c)) hheld.2.1 hheld.2.2.2.1 (cmdIdx c) (.start seq) m
      rw [endpointOf_modEndpoint_same] at heui hlimit
      rw [hexec, runSessionCfg_start hop, hseq, hserve]
      refine ⟨_, rfl, ⟨rfl, rfl, rfl, rfl⟩, endpointOf_modEndpoint_same .., ?_⟩
      rw [List.map_singleton, hep, hpurpose, heui, hlimit]
      rfl

end Sys2Proof.Machine

/-!
PROOFS. What a mode change shows while path S serves what waits (O17): the power phase, the fabric with its shed levels, and the MODE_EVENT bit.
One lemma per operation, as for `modes`.
-/
namespace Sys2Proof.Machine

/-- The bit MODE_EVENT of IRQ_STAT0 (Table 20-2). -/
def Port.modeEvent (x : Port) : Bool := x.irqStat0.getLsbD 2

/-- What O17 says of the state besides its modes, with the power part, by which interrupt bits are set: `fabric` holds the shed levels, and the last
component is MODE_EVENT. -/
def State.standing (s : State) : Power × Fabric × Bool := (s.power, s.fabric, s.port.modeEvent)

theorem standing_eq {s t : State} (hpower : t.power = s.power) (hfabric : t.fabric = s.fabric)
    (hbit : t.port.modeEvent = s.port.modeEvent) : t.standing = s.standing := by
  simp only [State.standing, hpower, hfabric, hbit]

/-- What is said of a state built field by field is said of its power, its fabric and its port. -/
@[simp] theorem standing_mk (port : Port) (power : Power) (rings : Rings) (fabric : Fabric) (modes : Modes) (scrub : Scrub)
    (clocks : Clocks) (pathL pathV pathS : Path) (cal : Cal) (lanes : Tab Lane) (statLatch : StatLatch) (analogue : Tab Analogue)
    (lf : Tab LfDec) (drm : Tab Drm) (dab : Tab Dab) (lfDescs : Tab (List Byte)) (taste : Taste) (slots : Slots) (time : Time)
    (link : Link) (sessions : Sessions) (saps : Tab Sap) (pdm : Pdm) (audio : Tab (List AudioBlock)) (cellar : Cellar)
    (mem : List Host.Cell) (fresh : Nat) (pending : List Instr) :
    State.standing ⟨port, power, rings, fabric, modes, scrub, clocks, pathL, pathV, pathS, cal, lanes, statLatch, analogue, lf, drm, dab,
      lfDescs, taste, slots, time, link, sessions, saps, pdm, audio, cellar, mem, fresh, pending⟩ =
      (power, fabric, port.modeEvent) := rfl

@[simp] theorem standing_fold (s : State) : (s.power, s.fabric, s.port.modeEvent) = s.standing := rfl

/-- A fold of operations that leave the standing leaves it. -/
theorem forAll_standing {α : Type} {f : State → α → State} (hf : ∀ t x, (f t x).standing = t.standing) (xs : List α) (s : State) :
    (forAll xs f s).standing = s.standing := by
  unfold forAll
  induction xs generalizing s with
  | nil => rfl
  | cons x xs ih => exact (ih _).trans (hf s x)

/-- An interrupt bit other than its own stands when a source is raised. -/
theorem raise_bit {q : Irq} (hq : q ≠ .modeEvent) (s : State) : (raise q s).port.irqStat0.getLsbD 2 = s.port.irqStat0.getLsbD 2 := by
  have hor : ∀ n, n ≠ 2 → n < 8 → (orBit s.port.irqStat0 n).getLsbD 2 = s.port.irqStat0.getLsbD 2 := fun n hn h8 => by
    have hmask : ((1#8 <<< n).getLsbD 2) = false := by
      match n, hn, h8 with
      | 0, _, _ | 1, _, _ | 3, _, _ | 4, _, _ | 5, _, _ | 6, _, _ | 7, _, _ => rfl
    rw [orBit, BitVec.getLsbD_or, hmask, Bool.or_false]
  unfold raise
  cases ready s with
  | false => rfl
  | true =>
    cases q
    case modeEvent => exact absurd rfl hq
    case cmdDone => exact hor 0 (by decide) (by decide)
    case ringFault => exact hor 1 (by decide) (by decide)
    case pfWarn => exact hor 3 (by decide) (by decide)
    case paceShed => exact hor 4 (by decide) (by decide)
    case clockEvent => exact hor 5 (by decide) (by decide)
    case calEvent => exact hor 6 (by decide) (by decide)
    case thermWarn => exact hor 7 (by decide) (by decide)
    all_goals rfl

theorem raise_standing {q : Irq} (hq : q ≠ .modeEvent) (s : State) : (raise q s).standing = s.standing :=
  standing_eq (by rw [raise_frame]) (by rw [raise_frame]) (raise_bit hq s)

@[simp] theorem raise_session_standing (s : State) : (raise .sessionEvent s).standing = s.standing := raise_standing (by decide) s
@[simp] theorem raise_release_standing (s : State) : (raise .releaseEvent s).standing = s.standing := raise_standing (by decide) s

theorem post_standing (s : State) (c : Cmd) (status : Nat) (result : List Byte) : (post s c status result).standing = s.standing := by
  unfold post
  extract_lets t r u
  have hu : u.standing = s.standing := by
    change t.standing = s.standing
    rw [show t = _ from devPuts_frame _ _ _]
    rfl
  refine Eq.trans ?_ hu
  unfold raiseIf
  split
  · exact raise_standing (by decide) u
  · rfl

theorem sweepN_standing (n : Nat) (s : State) : (sweepN n s).standing = s.standing := by
  induction n generalizing s with
  | zero => rfl
  | succ n ih =>
    unfold sweepN
    split
    · exact (ih _).trans (post_standing s _ _ _)
    · rfl

@[simp] theorem complete_standing (seq status : Nat) (result : List Byte) (s : State) : (complete seq status result s).standing = s.standing := by
  unfold complete
  split
  · exact (sweepN_standing _ _).trans (post_standing s _ _ _)
  · rfl

@[simp] theorem tuneBoundary_standing (p : Nat) (s : State) : (tuneBoundary p s).standing = s.standing := by
  unfold tuneBoundary
  split
  · split
    · exact complete_standing ..
    · rfl
  · rfl

@[simp] theorem tuneDone_standing (p status : Nat) (result : List Byte) (s : State) : (tuneDone p status result s).standing = s.standing := by
  unfold tuneDone
  split
  · exact complete_standing ..
  · rfl

@[simp] theorem modSynth_standing (s : State) (p : Nat) (f : Synth → Synth) : (modSynth s p f).standing = s.standing :=
  standing_eq (modSynth_power ..) (modSynth_fabric ..) (by rw [modSynth_port])

@[simp] theorem modFe_standing (s : State) (p : Nat) (f : FrontEnd → FrontEnd) : (modFe s p f).standing = s.standing :=
  standing_eq (modFe_power ..) (modFe_fabric ..) (by rw [modFe_port])

@[simp] theorem trackZeros_standing (p : Nat) (s : State) : (trackZeros p s).standing = s.standing := modFe_standing ..

@[simp] theorem setFe_standing (p : Nat) (st : FeState) (s : State) : (setFe p st s).standing = s.standing := by
  obtain ⟨u, ⟨ls, x, rfl⟩, -, hu⟩ := setFe_frames p st s
  have hpath : (setPath { s with lanes := ls } p x).standing = s.standing :=
    standing_eq (setPath_power ..) (setPath_fabric ..) (by rw [setPath_port])
  rcases hu with hu | hu
  · rw [hu, hpath]
  · rw [hu, tuneBoundary_standing, hpath]

@[simp] theorem noLock_standing (p code : Nat) (s : State) : (noLock p code s).standing = s.standing := by simp [noLock]

@[simp] theorem beginLock_standing (p : Nat) (s : State) : (beginLock p s).standing = s.standing := by
  unfold beginLock
  split
  · exact noLock_standing ..
  split
  · exact modSynth_standing ..
  split
  · exact noLock_standing ..
  · exact modSynth_standing ..

@[simp] theorem startPath_standing (p : Nat) (s : State) : (startPath p s).standing = s.standing := by simp [startPath]

@[simp] theorem retunePath_standing (p : Nat) (s : State) : (retunePath p s).standing = s.standing := by
  unfold retunePath
  split <;> simp

@[simp] theorem pathOff_standing (p : Nat) (s : State) : (pathOff p s).standing = s.standing := by simp [pathOff]

@[simp] theorem placeS_standing (f : Nat) (s : State) : (placeS f s).standing = s.standing := by
  unfold placeS
  dsimp only
  split
  · simp
  · simp
  · split <;> simp

@[simp] theorem serveWindows_standing (s : State) : (serveWindows s).standing = s.standing := by
  unfold serveWindows
  split
  · rfl
  split
  · split
    · rfl
    · exact placeS_standing ..
  · split
    · rfl
    · exact pathOff_standing ..

/-! Cellar writes that wait -/

@[simp] theorem modCmd_standing (s : State) (seq : Nat) (f : Cmd → Cmd) : (modCmd s seq f).standing = s.standing := rfl

@[simp] theorem startWrite_standing (s : State) (seq : Nat) (w : DueWrite) : (startWrite s seq w).standing = s.standing := by
  unfold startWrite
  dsimp only
  split
  · rfl
  split
  · exact complete_standing ..
  split
  · rfl
  split
  · rfl
  · exact complete_standing ..

theorem startDueN_standing (n : Nat) (s : State) : (startDueN n s).standing = s.standing := by
  induction n generalizing s with
  | zero => rfl
  | succ n ih =>
    unfold startDueN
    split
    · rw [ih, startWrite_standing]
    · rfl

@[simp] theorem startDue_standing (s : State) : (startDue s).standing = s.standing := startDueN_standing ..

/-! Sessions and release targets -/

@[simp] theorem modEndpoint_standing (s : State) (k : Nat) (f : Endpoint → Endpoint) : (modEndpoint s k f).standing = s.standing := rfl
@[simp] theorem modTarget_standing (s : State) (n : Nat) (f : Target → Target) : (modTarget s n f).standing = s.standing := rfl

@[simp] theorem dropTx_standing (p : TxJob → Bool) (s : State) : (dropTx p s).standing = s.standing := rfl
@[simp] theorem pushTx_standing (j : TxJob) (s : State) : (pushTx j s).standing = s.standing := rfl

@[simp] theorem refreshTarget_standing (k : Nat) (s : State) : (refreshTarget k s).standing = s.standing := by
  unfold refreshTarget
  dsimp only
  split
  · split
    · split <;> simp
    · simp
  · simp [startSchedule]
  · rfl

@[simp] theorem refreshDemand_standing (s : State) : (refreshDemand s).standing = s.standing :=
  forAll_standing (fun t k => refreshTarget_standing k t) _ s

@[simp] theorem endSession_standing (n cause : Nat) (s : State) : (endSession n cause s).standing = s.standing := by
  unfold endSession
  split <;> simp

@[simp] theorem targetFault_standing (k reason : Nat) (s : State) : (targetFault k reason s).standing = s.standing := by simp [targetFault]

@[simp] theorem releaseReply_standing (op k status : Nat) (result : List Byte) (s : State) :
    (releaseReply op k status result s).standing = s.standing := by
  unfold releaseReply
  split <;> simp

@[simp] theorem exhaustCounter_standing (n : Nat) (s : State) : (exhaustCounter n s).standing = s.standing := by
  unfold exhaustCounter
  refine (forAll_standing (fun t k => ?_) _ _).trans (by simp)
  split
  · dsimp only
    split <;> simp
  · rfl

@[simp] theorem nextDueTime_standing (k : Nat) (s : State) : (nextDueTime k s).standing = s.standing := rfl

@[simp] theorem attemptEnds_standing (k : Nat) (stop byCommand : Bool) (status : Nat) (result : List Byte) (phr cost : Nat) (s : State) :
    (attemptEnds k stop byCommand status result phr cost s).standing = s.standing := by
  simp only [attemptEnds, retryDelay, trng]
  split <;> simp [apply_ite State.standing]

/-! Presence checks -/

@[simp] theorem kickCheck_standing (s : State) : (kickCheck s).standing = s.standing := by
  unfold kickCheck
  split
  · rfl
  · split <;> rfl

@[simp] theorem popCheck_standing (s : State) : (popCheck s).standing = s.standing := kickCheck_standing _

@[simp] theorem beginSession_standing (n : Nat) (m : CheckMeas) (s : State) : (beginSession n m s).standing = s.standing := by
  simp [beginSession, takeResponse]

@[simp] theorem writePairing_standing (c : Cmd) (tries : Nat) (rtt rssi : Int) (key : List Byte) (s : State) :
    (writePairing c tries rtt rssi key s).standing = s.standing := by
  unfold writePairing
  split <;> simp [issueWrite]

@[simp] theorem serveCheck_standing (c : Check) (status : Nat) (result : List Byte) (m : Option CheckMeas) (s : State) :
    (serveCheck c status result m s).standing = s.standing := by
  unfold serveCheck
  split
  · split
    · split <;> simp
    · rfl
  · simp [apply_ite State.standing]
  · simp
  · split <;> simp [takeResponse]
  · simp
  · simp
  · simp
  · rfl

@[simp] theorem recordCheck_standing (n status : Nat) (m : Option CheckMeas) (s : State) : (recordCheck n status m s).standing = s.standing := rfl

@[simp] theorem finishCheck_standing (status : Nat) (result : List Byte) (m : Option CheckMeas) (s : State) :
    (finishCheck status result m s).standing = s.standing := by
  unfold finishCheck
  split <;> simp

@[simp] theorem tryEnds_standing (status why : Nat) (m : Option CheckMeas) (s : State) : (tryEnds status why m s).standing = s.standing := by
  unfold tryEnds
  split
  · rfl
  · simp [apply_ite State.standing, countFail, countNoResp, epSet]

@[simp] theorem windowNoLock_standing (s : State) : (windowNoLock s).standing = s.standing := by
  unfold windowNoLock windowEnds
  split
  · split
    · simp
    · split
      · rfl
      · split <;> simp
    · rfl
  · rfl

@[simp] theorem abortCheck_standing (seq cause : Nat) (s : State) : (abortCheck seq cause s).standing = s.standing := by
  unfold abortCheck
  simp only [kickCheck_standing, complete_standing]
  split <;> simp

/-! Transmissions -/

@[simp] theorem countRefusal_standing (band status : Nat) (s : State) : (countRefusal band status s).standing = s.standing := rfl

@[simp] theorem txEnds_standing (j : TxJob) (status : Nat) (result : List Byte) (s : State) : (txEnds j status result s).standing = s.standing := by
  unfold txEnds
  dsimp only
  split <;> simp

@[simp] theorem endActive_standing (status : Nat) (result : List Byte) (s : State) : (endActive status result s).standing = s.standing := by
  unfold endActive
  split <;> simp [removeActive]

@[simp] theorem stopTx_standing (j : TxJob) (cause : Nat) (s : State) : (stopTx j cause s).standing = s.standing := by
  unfold stopTx
  dsimp only
  split
  · simp
  · split <;> simp
  · simp

@[simp] theorem maskCheck_standing (k : Nat) (j : TxJob) (s : State) : (maskCheck k j s).1.standing = s.standing := by
  unfold maskCheck
  split
  · rfl
  · split <;> rfl

end Sys2Proof.Machine

/-!
PROOFS. The standing of the power, the fabric and MODE_EVENT through a transmission, the service of path S and the commands asked to stop (O17).
-/
namespace Sys2Proof.Machine

@[simp] theorem beginTx_standing (j : TxJob) (s : State) : (beginTx j s).standing = s.standing := by
  unfold beginTx
  extract_lets j late
  split
  · exact txEnds_standing ..
  split
  · exact txEnds_standing ..
  split
  · exact txEnds_standing ..
  split
  · exact txEnds_standing ..
  dsimp only
  split
  · rw [txEnds_standing, maskCheck_standing]
  split
  · rw [txEnds_standing, maskCheck_standing]
  split
  · rw [stopTx_standing, maskCheck_standing]
  · rw [placeS_standing, pushTx_standing, maskCheck_standing]

@[simp] theorem beginBlank_standing (tx : Bool) (s : State) : (beginBlank tx s).standing = s.standing := by
  simp only [beginBlank, tuneBoundary_standing]
  exact (forAll_standing (fun t p => by simp [touchLanes]) _ _).trans rfl

@[simp] theorem countOfdm_standing (j : TxJob) (s : State) : (countOfdm j s).standing = s.standing := by
  unfold countOfdm
  split <;> rfl

@[simp] theorem countFrame_standing (j : TxJob) (s : State) : (countFrame j s).standing = s.standing := by
  unfold countFrame
  split <;> rfl

@[simp] theorem counterEnds_standing (j : TxJob) (s : State) : (counterEnds j s).standing = s.standing := by
  unfold counterEnds
  split
  · split <;> simp
  · rfl

@[simp] theorem goOnAir_standing (phr : Option Nat) (s : State) : (goOnAir phr s).standing = s.standing := by
  unfold goOnAir
  split <;> simp [setActive, charge, ageBins]

/-! Path S serves what waits -/

theorem linkStep_standing {s t : State} (h : linkStep s = some t) : t.standing = s.standing := by
  unfold linkStep at h
  dsimp only at h
  repeat' split at h
  all_goals cases h
  all_goals simp [setActive]

theorem linkSteps_standing (n : Nat) (s : State) : (linkSteps n s).standing = s.standing := by
  induction n generalizing s with
  | zero => rfl
  | succ n ih =>
    unfold linkSteps
    split
    next t h => rw [ih, linkStep_standing h]
    · rfl

@[simp] theorem trackPause_standing (s : State) : (trackPause s).standing = s.standing := by
  unfold trackPause
  dsimp only
  split <;> rfl

@[simp] theorem serve_standing (s : State) : (serve s).standing = s.standing := by simp [serve, linkSteps_standing]

/-! Commands that are asked to stop -/

@[simp] theorem setPhase_standing (s : State) (seq : Nat) (ph : CmdPhase) : (setPhase s seq ph).standing = s.standing := rfl

@[simp] theorem abortNow_standing (seq cause : Nat) (s : State) : (abortNow seq cause s).standing = s.standing := complete_standing ..

@[simp] theorem stopDue_standing (cause : Nat) (c : Cmd) (s : State) : (stopDue cause c s).standing = s.standing := by
  unfold stopDue
  split <;> simp

@[simp] theorem stopCheck_standing (cause : Nat) (c : Cmd) (s : State) : (stopCheck cause c s).standing = s.standing := by
  unfold stopCheck
  split
  · dsimp only
    split <;> simp
  · simp

@[simp] theorem stopLinkRx_standing (cause : Nat) (c : Cmd) (s : State) : (stopLinkRx cause c s).standing = s.standing := by
  unfold stopLinkRx
  split
  · split
    · rfl
    · split <;> simp
  · rfl

@[simp] theorem stopLinkTx_standing (cause : Nat) (c : Cmd) (s : State) : (stopLinkTx cause c s).standing = s.standing := by
  unfold stopLinkTx
  split
  · rfl
  · split <;> simp

@[simp] theorem stopRelease_standing (cause : Nat) (c : Cmd) (s : State) : (stopRelease cause c s).standing = s.standing := by
  unfold stopRelease
  dsimp only
  split <;> simp

@[simp] theorem stopCmd_standing (cause : Nat) (s : State) (c : Cmd) : (stopCmd cause s c).standing = s.standing := by
  unfold stopCmd stopSteps
  split
  · split
    · rfl
    · dsimp only
      split <;> simp
  · split <;> simp
  all_goals simp

@[simp] theorem stopUnrun_standing (m : Nat) (s : State) : (stopUnrun m s).standing = s.standing := forAll_standing (stopCmd_standing 3) _ s

end Sys2Proof.Machine

/-!
PROOFS. A mode change settled (O17).
-/
namespace Sys2Proof.Machine

/-! What a mode starts, holds and stops: the mode and the power stand, and the shed levels stay 0 -/

/-- The power, the mode in force, the change under way and the requests. -/
def State.office (s : State) : Power × Nat × Option Nat × Nat × Option Nat :=
  (s.power, s.modes.modeNow, s.modes.target, s.modes.modeReq, s.modes.queued)

theorem office_eq {s t : State} (hpower : t.power = s.power) (hmodes : t.modes = s.modes) : t.office = s.office := by
  simp only [State.office, hpower, hmodes]

theorem forAll_office {α : Type} {f : State → α → State} (hf : ∀ t x, (f t x).office = t.office) (xs : List α) (s : State) :
    (forAll xs f s).office = s.office := by
  unfold forAll
  induction xs generalizing s with
  | nil => rfl
  | cons x xs ih => exact (ih _).trans (hf s x)

theorem releaseEngine_office (kind idx : Nat) (s : State) : (releaseEngine kind idx s).office = s.office := by
  unfold releaseEngine
  split <;> rfl

theorem freeLane_office (n : Nat) (s : State) : (freeLane n s).office = s.office :=
  releaseEngine_office (laneOf s n).cur.engKind (laneOf s n).cur.engIndex s

theorem endTasting_office (cause lane : Nat) (s : State) : (endTasting cause lane s).office = s.office := by
  unfold endTasting
  split
  · rfl
  · exact freeLane_office lane _

theorem endTastings_office (cause : Nat) (p : Nat → Tasting → Bool) (s : State) : (endTastings cause p s).office = s.office :=
  forAll_office (fun t lane => endTasting_office cause lane t) _ s

theorem followBroken_office (lane : Nat) (s : State) : (followBroken lane s).office = s.office := by
  unfold followBroken
  split
  · exact endTastings_office ..
  · rfl

theorem unbindNow_office (n : Nat) (s : State) : (unbindNow n s).office = s.office :=
  (freeLane_office n (followBroken n s)).trans (followBroken_office n s)

theorem stopLane_office (n : Nat) (s : State) : (stopLane n s).office = s.office := by
  unfold stopLane
  split
  · exact unbindNow_office n s
  · dsimp only
    split <;> rfl

theorem stopLanes_office (p : Nat → Bool) (s : State) : (stopLanes p s).office = s.office := forAll_office (fun t n => stopLane_office n t) _ s

theorem startPaths_office (s : State) : (startPaths s).office = s.office := by
  refine forAll_office (fun t p => ?_) _ s
  split
  · exact office_eq (congrArg Prod.fst (startPath_standing p t)) (startPath_modes p t)
  · rfl

theorem dropEntries_office (s : State) : (dropEntries s).office = s.office :=
  forAll_office (f := fun t e => clearEntry e t) (fun t e => endTastings_office 8 (fun _ x => x.entry == e) t) _ s

theorem aoutFall_office (s : State) : (aoutFall s).office = s.office := by
  unfold aoutFall
  split <;> rfl

/-- Both shed levels are 0 (Table 6-1). -/
def LevelsZero (s : State) : Prop := s.fabric.shedLevelL = 0 ∧ s.fabric.shedLevelV = 0

theorem capShed_levels {s : State} (h : LevelsZero s) : LevelsZero (capShed s) := by
  obtain ⟨hl, hv⟩ := h
  simp [LevelsZero, capShed, shedLevel, hl, hv]

theorem freeLane_levels (n : Nat) {s : State} (h : LevelsZero s) : LevelsZero (freeLane n s) := by
  have hengine : ∀ kind idx, LevelsZero (releaseEngine kind idx s) := fun kind idx => by
    unfold releaseEngine
    split <;> exact h
  exact capShed_levels (hengine (laneOf s n).cur.engKind (laneOf s n).cur.engIndex)

theorem endTasting_levels (cause lane : Nat) {s : State} (h : LevelsZero s) : LevelsZero (endTasting cause lane s) := by
  unfold endTasting
  split
  · exact h
  · exact freeLane_levels lane h

theorem forAll_levels {α : Type} {f : State → α → State} (hf : ∀ t x, LevelsZero t → LevelsZero (f t x)) (xs : List α) {s : State}
    (h : LevelsZero s) : LevelsZero (forAll xs f s) := by
  unfold forAll
  induction xs generalizing s with
  | nil => exact h
  | cons x xs ih => exact ih (hf s x h)

theorem clearEntry_levels (e : Nat) {s : State} (h : LevelsZero s) : LevelsZero (clearEntry e s) := by
  have hended : LevelsZero (endTastings 8 (fun _ t => t.entry == e) s) := forAll_levels (fun _ lane ht => endTasting_levels 8 lane ht) _ h
  exact hended

theorem dropEntries_levels {s : State} (h : LevelsZero s) : LevelsZero (dropEntries s) :=
  forAll_levels (f := fun t e => clearEntry e t) (fun _ e ht => clearEntry_levels e ht) _ h

theorem aoutFall_levels {s : State} (h : LevelsZero s) : LevelsZero (aoutFall s) := by
  unfold aoutFall
  split <;> exact h

/-! The start of the mode (Table 6-1, steps 6 to 8) -/

theorem startMode_office (m : Nat) (s : State) : (startMode m s).office = s.office := by
  unfold startMode
  extract_lets r s1 s2 s3 s4 s5
  have h1 : s1.office = s.office := by
    unfold s1
    split
    · rfl
    · split <;> rfl
  have h3 : s3.office = s2.office := by
    unfold s3
    split
    · rfl
    · exact startPaths_office s2
  have h5 : s5.office = s4.office := by
    unfold s5
    split
    · exact dropEntries_office s4
    · rfl
  have hlast : (if m = 5 then s5 else aoutFall s5).office = s5.office := by
    split
    · rfl
    · exact aoutFall_office s5
  calc (if m = 5 then s5 else aoutFall s5).office = s5.office := hlast
    _ = s4.office := h5
    _ = s3.office := rfl
    _ = s2.office := h3
    _ = s1.office := stopLanes_office _ s1
    _ = s.office := h1

theorem startMode_levels (m : Nat) (s : State) : LevelsZero (startMode m s) := by
  unfold startMode
  extract_lets r s1 s2 s3 s4 s5
  have h4 : LevelsZero s4 := ⟨rfl, rfl⟩
  have h5 : LevelsZero s5 := by
    unfold s5
    split
    · exact dropEntries_levels h4
    · exact h4
  split
  · exact h5
  · exact aoutFall_levels h5

/-! The arrival -/

/-- Above KEEPTIME the mode in force becomes `m` and no change is under way; nothing of the rest window is left over. -/
theorem setMode_office {s : State} (h : s.modes.modeNow ≠ 1) (m : Nat) :
    (setMode m s).office = (s.power, m, none, s.modes.modeReq, s.modes.queued) := by
  simp [setMode, leaveRest, modeNow, h, State.office]

theorem raise_modeEvent_bit {s : State} (h : s.power.phase = .ready) : (raise .modeEvent s).port.modeEvent = true := by
  simp [raise, ready, h, orBit, Port.modeEvent]

/-- With no request queued, an arrival shows the mode, no change under way, both levels 0 and MODE_EVENT. -/
theorem arrive_shows {s : State} (hready : s.power.phase = .ready) (hnow : s.modes.modeNow ≠ 1) (hqueued : s.modes.queued = none) (m : Nat) :
    (arrive m s).modes.modeNow = m ∧ (arrive m s).modes.target = none ∧ (arrive m s).modes.modeReq = s.modes.modeReq ∧
      (arrive m s).fabric.shedLevelL = 0 ∧ (arrive m s).fabric.shedLevelV = 0 ∧ (arrive m s).port.modeEvent = true := by
  obtain ⟨u, hu⟩ : ∃ u, startMode m (setMode m s) = u := ⟨_, rfl⟩
  have hoffice : u.office = (s.power, m, none, s.modes.modeReq, s.modes.queued) := by
    rw [← hu, startMode_office, setMode_office hnow]
  simp only [State.office, Prod.mk.injEq] at hoffice
  obtain ⟨hpower, hmode, htarget, hreq, hq⟩ := hoffice
  obtain ⟨hl, hv⟩ : LevelsZero u := by
    rw [← hu]
    exact startMode_levels m _
  have hmodes : (serve (raise .modeEvent u)).modes = u.modes := by rw [serve_modes, raise_modes]
  have hstanding := serve_standing (raise .modeEvent u)
  obtain ⟨v, hserve⟩ : ∃ v, serve (raise .modeEvent u) = v := ⟨_, rfl⟩
  rw [hserve] at hmodes hstanding
  have harrive : arrive m s = v := by
    unfold arrive
    rw [hu, hserve]
    dsimp only
    split
    next k hk => rw [hmodes, hq, hqueued] at hk; cases hk
    · rfl
  simp only [State.standing, Prod.mk.injEq] at hstanding
  obtain ⟨-, hfabric, hbit⟩ := hstanding
  have hraised : (raise .modeEvent u).fabric = u.fabric := by rw [raise_frame]
  rw [harrive, hmodes, hfabric, hraised, hbit]
  exact ⟨hmode, htarget, hreq, hl, hv, raise_modeEvent_bit (by rw [hpower, hready])⟩

theorem moveMode_above {s : State} {m : Nat} (hm : 3 ≤ m) (h : 3 ≤ s.modes.modeNow) : moveMode m s = arrive m s := by
  simp [moveMode, modeNow, Nat.not_lt.mpr hm, Nat.not_lt.mpr h]

section
variable {s : State} {m : Nat} (hready : s.power.phase = .ready) (htarget : s.modes.target = some m)
include hready htarget

/-- A change of a READY part: it stands while the CPLL starts, and while step 2 holds it, and is carried out otherwise. -/
theorem exec_modeChange (hm : 3 ≤ m) : exec .modeChangeComplete s = .next (if cpllStarting s then s
    else if changeWaits m (stopUnrun m s) then stopUnrun m s else moveMode m (stopUnrun m s)) := by
  change execModeChangeComplete s = _
  unfold execModeChangeComplete
  rw [htarget]
  cases hc : cpllStarting s <;> simp [hm, ready, hready]

end

/-- Settles O17: the three ways a change of a READY part goes. For the last, the standing of the power and the modes carries the state through
step 2 to the arrival, which sets the bit and the levels that the service of path S then leaves. -/
theorem modeChangeArrives : Obligations.ModeChangeArrives := by
  intro s m hready htarget hm _ hnow hqueued
  have hexec := exec_modeChange hready htarget hm
  refine ⟨fun hc => ?_, fun hc hw => ?_, fun hc hw => ⟨moveMode m (stopUnrun m s), ?_, ?_⟩⟩
  · rw [hexec, if_pos hc]
  · rw [hexec, hc, hw]
    rfl
  · rw [hexec, hc, hw]
    rfl
  · have hpower : (stopUnrun m s).power.phase = .ready := by
      rw [show (stopUnrun m s).power = s.power from congrArg Prod.fst (stopUnrun_standing m s), hready]
    have hmodes := stopUnrun_modes m s
    rw [moveMode_above hm (hmodes ▸ hnow), ← hmodes]
    exact arrive_shows hpower (by rw [hmodes]; omega) (by rw [hmodes, hqueued]) m

end Sys2Proof.Machine
